-- ==== Sys2Proof/Word.lean ====
section
/-! DEFINITION. The word types of the Dolup (R4, R6, R25) and their plainest readings. -/

namespace Sys2Proof

/-- A 32-bit register word. -/
abbrev Word := BitVec 32

/-- A byte of storage. -/
abbrev Byte := BitVec 8

/-- A 64-bit value: a register pair, an accumulator element, an address. -/
abbrev DWord := BitVec 64

end Sys2Proof
end

