-- ==== Sys2Proof/Config.lean ====
section
/-! DEFINITION. What the specification leaves to an implementation or open: constants without a body, so that nothing
can be proved of their values. Each is named in the assumption log. -/

namespace Sys2Proof.Config

/-- Nanoseconds that pass in a step, by the step's number (R64: figures of time affect speed only). -/
opaque elapsed : Nat → Nat

/-- Clocks for which a ready group waits in a step, by the step's number (Table 3-3, Age). -/
opaque clocks : Nat → Nat

/-- A class latency or a shared unit holds a group in a step, by the step's number and the group (R60, R62: the
latencies and the round-robin order are of time). -/
opaque unready : Nat → Nat → Bool

/-- The way of an L1 set that a fill replaces (R218: replacement is not specified). -/
opaque l1Victim : Nat → Nat

/-- The TLB entry that a fill replaces (R208 gives sizes only). -/
opaque tlbVictim : Nat → Nat

/-- A word whose value the specification leaves open. -/
opaque freeWord : Nat → BitVec 32

/-- How EDETAIL of FAB_UNCORR names the link between two dies (Table 15-2 says 'link' and gives links no number). -/
opaque linkName : Nat → Nat → BitVec 32

/-- The result of a special function that R157 bounds but does not fix: function code, operand. -/
opaque sfu : Nat → BitVec 32 → BitVec 32

end Sys2Proof.Config
end

