-- ==== Sys2Proof/Syntax.lean ====
section
/-! DEFINITION. The instruction syntax: one constructor per row of the opcode table. A row that has a word
carries that word's fields under the table's own names (`c` is the chain bit of R27; every other field is a
number below two to the power of its width). A row without a word is a step of an engine, a home, the scheduler,
the fabric or the host side ("What each step holds"); WHICH pending item, core, die or domain it acts on is read
from `State.evt`, in the order its docstring names. -/

namespace Sys2Proof

/-- Every operation and event of the Dolup (R48, R49 and the steps of file 95). -/
inductive Instr where
  /-- NOP (R84). Does nothing to lanes, registers or memory and advances each slice of the group. -/
  | nop (c : Bool)
  /-- BRA (R85). Branches every slice of the group to the word offset, popping loop entries as Jump gives. -/
  | bra (o : Fin 4194304)
  /-- BR (R86). Evaluates a mask condition per slice (uniform, any or all), branches the slices where it holds, and may split the group. -/
  | br (m : Fin 8) (n : Fin 2) (k : Fin 4) (o : Fin 65536)
  /-- BRX (R87). Branches to the byte address held in a scalar pair, checking alignment. -/
  | brx (a : Fin 64)
  /-- CALL (R85). Writes the return link s62:s63 and transfers control to the word offset. -/
  | call (o : Fin 4194304)
  /-- RET (R87). Transfers control to the byte address in the return link s62:s63. -/
  | ret
  /-- LOOP (R88). Pushes a loop entry whose count is taken from a scalar register, or skips the body when the count is zero. -/
  | loopS (d : Fin 64) (l : Fin 65536)
  /-- LOOPI (R88). Pushes a loop entry with an immediate count and body length, or skips the body when the count is zero. -/
  | loopi (n : Fin 4096) (l : Fin 1024)
  /-- LBRK (R89). Pops the innermost loop entry and advances past its end word. -/
  | lbrk
  /-- REP (R90). Issues the next word N+1 times with its register fields stepped by the encoded steps. -/
  | rep (n : Fin 64) (d : Fin 4) (a : Fin 4) (b : Fin 4) (e : Fin 4)
  /-- SETX (R91). Sets each slice's execution mask from a mask register. -/
  | setx (c : Bool) (m : Fin 8)
  /-- ANDX (R91). ANDs each slice's execution mask with a mask register. -/
  | andx (c : Bool) (m : Fin 8)
  /-- ORX (R91). ORs each slice's execution mask with a mask register. -/
  | orx (c : Bool) (m : Fin 8)
  /-- REGANG (R92). Puts each slice of the group into a join wait with the join identifier. -/
  | regang (c : Bool) (i : Fin 65536)
  /-- YIELD (R93). Advances and sets the group's age to zero, cancelling any boost. -/
  | yield
  /-- EXIT (R94). Ends each slice once its outstanding L and A instructions complete, and ends the gang at its last live slice. -/
  | exit
  /-- WAITLA (R95). Holds the group until no slice has an outstanding L or A instruction, then advances. -/
  | waitla (c : Bool)
  /-- TRAP (R479). Advances each slice, then raises SW_TRAP with the immediate tag. -/
  | trap (i : Fin 65536)
  /-- SOFTI (R481). Checks a target word and posts a host notice or writes a lockkeeper wake mailbox after the gang's stores complete. -/
  | softi (c : Bool) (a : Fin 64)
  /-- MFSR (R482). Writes a scalar register with a special register. -/
  | mfsr (c : Bool) (d : Fin 64) (r : Fin 1024)
  /-- MTSR (R482). Writes a special register from a scalar register, reseeding generators for RNDSEED. -/
  | mtsr (c : Bool) (d : Fin 64) (r : Fin 1024)
  /-- SEGLD (R483). Privileged load of a segment register from a group of four scalar registers, after checking the range. -/
  | segld (c : Bool) (g : Fin 8) (a : Fin 64)
  /-- SEGRD (R484). Reads a segment register into a group of four scalar registers. -/
  | segrd (c : Bool) (d : Fin 64) (g : Fin 8)
  /-- SCOPEW (R485). Privileged write of a scope table entry on every core of the domain. -/
  | scopew (c : Bool) (d : Fin 64) (i : Fin 32)
  /-- ERET (R480). Ends handler mode, restoring X, loop stacks, banked registers, PC and repeat from the current record, and delivers the next queued record. -/
  | eret
  /-- BKPT (R479). Advances each slice, then raises BKPT with the tag for the issuing group only. -/
  | bkpt (i : Fin 65536)
  /-- TIME (R486). Writes the package time in nanoseconds into a scalar pair. -/
  | time (c : Bool) (d : Fin 64)
  /-- ICINV (R487). Drops every line of the core's instruction cache for the domain. -/
  | icinv (c : Bool)
  /-- CTXSV (R488). Drains the crew and writes its context image to memory as a checkpoint, then continues. -/
  | ctxsv (c : Bool) (a : Fin 64)
  /-- CTXLD (R488). Drains the crew and replaces its whole state with a checked context image from memory. -/
  | ctxld (c : Bool) (a : Fin 64)
  /-- IADD (R109). Per lane a + b mod 2^32. -/
  | iadd (c : Bool) (d : Fin 64) (a : Fin 64) (b : Fin 64) (s : Fin 4)
  /-- ISUB (R109). Per lane a - b mod 2^32. -/
  | isub (c : Bool) (d : Fin 64) (a : Fin 64) (b : Fin 64) (s : Fin 4)
  /-- IMUL (R109). Per lane low 32 bits of a × b. -/
  | imul (c : Bool) (d : Fin 64) (a : Fin 64) (b : Fin 64) (s : Fin 4)
  /-- IMULH_I (R109). Per lane high 32 bits of the signed product. -/
  | imulhI (c : Bool) (d : Fin 64) (a : Fin 64) (b : Fin 64) (s : Fin 4)
  /-- IMULH_N (R109). Per lane high 32 bits of the natural product. -/
  | imulhN (c : Bool) (d : Fin 64) (a : Fin 64) (b : Fin 64) (s : Fin 4)
  /-- IMAD (R109). Per lane a × b + old vd mod 2^32. -/
  | imad (c : Bool) (d : Fin 64) (a : Fin 64) (b : Fin 64) (s : Fin 4)
  /-- IMIN_I (R110). Per lane signed minimum. -/
  | iminI (c : Bool) (d : Fin 64) (a : Fin 64) (b : Fin 64) (s : Fin 4)
  /-- IMIN_N (R110). Per lane natural minimum. -/
  | iminN (c : Bool) (d : Fin 64) (a : Fin 64) (b : Fin 64) (s : Fin 4)
  /-- IMAX_I (R110). Per lane signed maximum. -/
  | imaxI (c : Bool) (d : Fin 64) (a : Fin 64) (b : Fin 64) (s : Fin 4)
  /-- IMAX_N (R110). Per lane natural maximum. -/
  | imaxN (c : Bool) (d : Fin 64) (a : Fin 64) (b : Fin 64) (s : Fin 4)
  /-- IABS (R110). Per lane absolute value, wrapping at 0x8000_0000. -/
  | iabs (c : Bool) (d : Fin 64) (a : Fin 64)
  /-- AND (R111). Per lane bitwise a & b. -/
  | andV (c : Bool) (d : Fin 64) (a : Fin 64) (b : Fin 64) (s : Fin 4)
  /-- OR (R111). Per lane bitwise a | b. -/
  | orV (c : Bool) (d : Fin 64) (a : Fin 64) (b : Fin 64) (s : Fin 4)
  /-- XOR (R111). Per lane bitwise a ^ b. -/
  | xorV (c : Bool) (d : Fin 64) (a : Fin 64) (b : Fin 64) (s : Fin 4)
  /-- ANDN (R111). Per lane bitwise a & ~b. -/
  | andn (c : Bool) (d : Fin 64) (a : Fin 64) (b : Fin 64) (s : Fin 4)
  /-- SHL (R112). Per lane left shift by the whole 32-bit count. -/
  | shl (c : Bool) (d : Fin 64) (a : Fin 64) (b : Fin 64) (s : Fin 4)
  /-- SHR (R112). Per lane logical right shift. -/
  | shr (c : Bool) (d : Fin 64) (a : Fin 64) (b : Fin 64) (s : Fin 4)
  /-- SAR (R112). Per lane arithmetic right shift. -/
  | sar (c : Bool) (d : Fin 64) (a : Fin 64) (b : Fin 64) (s : Fin 4)
  /-- FSL (R113). Per lane funnel shift left of {a, old vd}. -/
  | fsl (c : Bool) (d : Fin 64) (a : Fin 64) (b : Fin 64) (s : Fin 4)
  /-- FSR (R113). Per lane funnel shift right of {old vd, a}. -/
  | fsr (c : Bool) (d : Fin 64) (a : Fin 64) (b : Fin 64) (s : Fin 4)
  /-- POPC (R114). Per lane population count. -/
  | popc (c : Bool) (d : Fin 64) (a : Fin 64)
  /-- CLZ (R114). Per lane count of leading zeros. -/
  | clz (c : Bool) (d : Fin 64) (a : Fin 64)
  /-- BREV (R114). Per lane bit reversal. -/
  | brev (c : Bool) (d : Fin 64) (a : Fin 64)
  /-- BFX_I (R115). Per lane signed bit-field extract. -/
  | bfxI (c : Bool) (d : Fin 64) (a : Fin 64) (b : Fin 64) (s : Fin 4)
  /-- BFX_N (R115). Per lane natural bit-field extract. -/
  | bfxN (c : Bool) (d : Fin 64) (a : Fin 64) (b : Fin 64) (s : Fin 4)
  /-- BFI (R115). Per lane bit-field insert into the old vd. -/
  | bfi (c : Bool) (d : Fin 64) (a : Fin 64) (b : Fin 64) (s : Fin 4)
  /-- PRM (R116). Per lane byte permute of {old vd, a}. -/
  | prm (c : Bool) (d : Fin 64) (a : Fin 64) (b : Fin 64) (s : Fin 4)
  /-- ICMP_EQ (R117). Writes a mask with a = b. -/
  | icmpEq (c : Bool) (m : Fin 8) (a : Fin 64) (b : Fin 64) (s : Fin 4)
  /-- ICMP_NE (R117). Writes a mask with a ≠ b. -/
  | icmpNe (c : Bool) (m : Fin 8) (a : Fin 64) (b : Fin 64) (s : Fin 4)
  /-- ICMP_LT_I (R117). Writes a mask with signed a < b. -/
  | icmpLtI (c : Bool) (m : Fin 8) (a : Fin 64) (b : Fin 64) (s : Fin 4)
  /-- ICMP_LT_N (R117). Writes a mask with natural a < b. -/
  | icmpLtN (c : Bool) (m : Fin 8) (a : Fin 64) (b : Fin 64) (s : Fin 4)
  /-- ICMP_LE_I (R117). Writes a mask with signed a ≤ b. -/
  | icmpLeI (c : Bool) (m : Fin 8) (a : Fin 64) (b : Fin 64) (s : Fin 4)
  /-- ICMP_LE_N (R117). Writes a mask with natural a ≤ b. -/
  | icmpLeN (c : Bool) (m : Fin 8) (a : Fin 64) (b : Fin 64) (s : Fin 4)
  /-- SEL_M1 (R118). Per lane selects a where m1 is set, else b. -/
  | selM1 (c : Bool) (d : Fin 64) (a : Fin 64) (b : Fin 64) (s : Fin 4)
  /-- SEL_M2 (R118). Per lane selects a where m2 is set, else b. -/
  | selM2 (c : Bool) (d : Fin 64) (a : Fin 64) (b : Fin 64) (s : Fin 4)
  /-- SEL_M3 (R118). Per lane selects a where m3 is set, else b. -/
  | selM3 (c : Bool) (d : Fin 64) (a : Fin 64) (b : Fin 64) (s : Fin 4)
  /-- SEL_M4 (R118). Per lane selects a where m4 is set, else b. -/
  | selM4 (c : Bool) (d : Fin 64) (a : Fin 64) (b : Fin 64) (s : Fin 4)
  /-- SEL_M5 (R118). Per lane selects a where m5 is set, else b. -/
  | selM5 (c : Bool) (d : Fin 64) (a : Fin 64) (b : Fin 64) (s : Fin 4)
  /-- SEL_M6 (R118). Per lane selects a where m6 is set, else b. -/
  | selM6 (c : Bool) (d : Fin 64) (a : Fin 64) (b : Fin 64) (s : Fin 4)
  /-- SEL_M7 (R118). Per lane selects a where m7 is set, else b. -/
  | selM7 (c : Bool) (d : Fin 64) (a : Fin 64) (b : Fin 64) (s : Fin 4)
  /-- SHFL_IDX (R119). Each lane reads va of an indexed lane within its segment. -/
  | shflIdx (c : Bool) (d : Fin 64) (a : Fin 64) (b : Fin 64) (s : Fin 4)
  /-- SHFL_UP (R119). Each lane reads va of the lane k below within its segment. -/
  | shflUp (c : Bool) (d : Fin 64) (a : Fin 64) (b : Fin 64) (s : Fin 4)
  /-- SHFL_DN (R119). Each lane reads va of the lane k above within its segment. -/
  | shflDn (c : Bool) (d : Fin 64) (a : Fin 64) (b : Fin 64) (s : Fin 4)
  /-- SHFL_XOR (R119). Each lane reads va of the lane at its offset xor k within its segment. -/
  | shflXor (c : Bool) (d : Fin 64) (a : Fin 64) (b : Fin 64) (s : Fin 4)
  /-- MTOV (R120). Writes 1 or 0 per lane from a mask bit. -/
  | mtov (c : Bool) (d : Fin 64) (m : Fin 8)
  /-- VTOM (R120). Writes a mask bit per lane with a ≠ 0. -/
  | vtom (c : Bool) (m : Fin 8) (a : Fin 64)
  /-- IADDI (R121). Per lane a + signed immediate. -/
  | iaddi (c : Bool) (d : Fin 64) (a : Fin 64) (i : Fin 2048)
  /-- ANDI (R121). Per lane a & zero-extended immediate. -/
  | andi (c : Bool) (d : Fin 64) (a : Fin 64) (i : Fin 2048)
  /-- ORI (R121). Per lane a | zero-extended immediate. -/
  | ori (c : Bool) (d : Fin 64) (a : Fin 64) (i : Fin 2048)
  /-- XORI (R121). Per lane a ^ zero-extended immediate. -/
  | xori (c : Bool) (d : Fin 64) (a : Fin 64) (i : Fin 2048)
  /-- SHLI (R121). Per lane left shift by an immediate count. -/
  | shli (c : Bool) (d : Fin 64) (a : Fin 64) (n : Fin 32)
  /-- SHRI (R121). Per lane logical right shift by an immediate count. -/
  | shri (c : Bool) (d : Fin 64) (a : Fin 64) (n : Fin 32)
  /-- SARI (R121). Per lane arithmetic right shift by an immediate count. -/
  | sari (c : Bool) (d : Fin 64) (a : Fin 64) (n : Fin 32)
  /-- ICMPI_EQ (R121). Writes a mask with a equal to the signed immediate. -/
  | icmpiEq (c : Bool) (m : Fin 8) (a : Fin 64) (i : Fin 2048)
  /-- ICMPI_LT_I (R121). Writes a mask with signed a below the signed immediate. -/
  | icmpiLtI (c : Bool) (m : Fin 8) (a : Fin 64) (i : Fin 2048)
  /-- MOVI (R121). Per lane writes the sign-extended immediate. -/
  | movi (c : Bool) (d : Fin 64) (i : Fin 2048)
  /-- SWZ (R122). Per lane slice swizzle or lane-index add, by the immediate's mode. -/
  | swz (c : Bool) (d : Fin 64) (a : Fin 64) (p : Fin 2048)
  /-- FSLI (R121). Per lane funnel shift left by an immediate count. -/
  | fsli (c : Bool) (d : Fin 64) (a : Fin 64) (n : Fin 32)
  /-- FSRI (R121). Per lane funnel shift right by an immediate count. -/
  | fsri (c : Bool) (d : Fin 64) (a : Fin 64) (n : Fin 32)
  /-- FADD (R144). Per lane binary32 addition rounded to nearest-even. -/
  | fadd (c : Bool) (d : Fin 64) (a : Fin 64) (b : Fin 64) (s : Fin 4) (z : Fin 2)
  /-- FSUB (R144). Per lane binary32 subtraction. -/
  | fsub (c : Bool) (d : Fin 64) (a : Fin 64) (b : Fin 64) (s : Fin 4) (z : Fin 2)
  /-- FMUL (R144). Per lane binary32 multiplication. -/
  | fmul (c : Bool) (d : Fin 64) (a : Fin 64) (b : Fin 64) (s : Fin 4) (z : Fin 2)
  /-- FMIN (R145). Per lane minimum, ignoring a single NaN. -/
  | fmin (c : Bool) (d : Fin 64) (a : Fin 64) (b : Fin 64) (s : Fin 4) (z : Fin 2)
  /-- FMAX (R145). Per lane maximum, ignoring a single NaN. -/
  | fmax (c : Bool) (d : Fin 64) (a : Fin 64) (b : Fin 64) (s : Fin 4) (z : Fin 2)
  /-- FMINN (R145). Per lane minimum, NaN if either is NaN. -/
  | fminn (c : Bool) (d : Fin 64) (a : Fin 64) (b : Fin 64) (s : Fin 4) (z : Fin 2)
  /-- FMAXN (R145). Per lane maximum, NaN if either is NaN. -/
  | fmaxn (c : Bool) (d : Fin 64) (a : Fin 64) (b : Fin 64) (s : Fin 4) (z : Fin 2)
  /-- FAMAX (R145). Per lane greater magnitude with sign 0. -/
  | famax (c : Bool) (d : Fin 64) (a : Fin 64) (b : Fin 64) (s : Fin 4) (z : Fin 2)
  /-- FCMP_EQ (R146). Writes a mask with a = b. -/
  | fcmpEq (c : Bool) (m : Fin 8) (a : Fin 64) (b : Fin 64) (s : Fin 4) (z : Fin 2)
  /-- FCMP_NE (R146). Writes a mask with a ≠ b or NaN. -/
  | fcmpNe (c : Bool) (m : Fin 8) (a : Fin 64) (b : Fin 64) (s : Fin 4) (z : Fin 2)
  /-- FCMP_LT (R146). Writes a mask with a < b. -/
  | fcmpLt (c : Bool) (m : Fin 8) (a : Fin 64) (b : Fin 64) (s : Fin 4) (z : Fin 2)
  /-- FCMP_LE (R146). Writes a mask with a ≤ b. -/
  | fcmpLe (c : Bool) (m : Fin 8) (a : Fin 64) (b : Fin 64) (s : Fin 4) (z : Fin 2)
  /-- FCMP_UN (R146). Writes a mask with a or b a NaN. -/
  | fcmpUn (c : Bool) (m : Fin 8) (a : Fin 64) (b : Fin 64) (s : Fin 4) (z : Fin 2)
  /-- FRINT (R147). Per lane rounds a binary32 value to an integral value under RM. -/
  | frint (c : Bool) (d : Fin 64) (a : Fin 64) (r : Fin 8) (z : Fin 2)
  /-- FSCALE (R148). Per lane multiplies by 2^b with one rounding. -/
  | fscale (c : Bool) (d : Fin 64) (a : Fin 64) (b : Fin 64) (s : Fin 4) (z : Fin 2)
  /-- FCLASS (R149). Per lane one-hot class of the operand. -/
  | fclass (c : Bool) (d : Fin 64) (a : Fin 64) (z : Fin 2)
  /-- DADD (R150). Per lane binary64 addition on register pairs. -/
  | dadd (c : Bool) (d : Fin 64) (a : Fin 64) (b : Fin 64) (s : Fin 4) (z : Fin 2)
  /-- DMUL (R150). Per lane binary64 multiplication on pairs. -/
  | dmul (c : Bool) (d : Fin 64) (a : Fin 64) (b : Fin 64) (s : Fin 4) (z : Fin 2)
  /-- DMIN (R150). Per lane binary64 minimum. -/
  | dmin (c : Bool) (d : Fin 64) (a : Fin 64) (b : Fin 64) (s : Fin 4) (z : Fin 2)
  /-- DMAX (R150). Per lane binary64 maximum. -/
  | dmax (c : Bool) (d : Fin 64) (a : Fin 64) (b : Fin 64) (s : Fin 4) (z : Fin 2)
  /-- DCMP_LT (R150). Writes a mask with binary64 a < b. -/
  | dcmpLt (c : Bool) (m : Fin 8) (a : Fin 64) (b : Fin 64) (s : Fin 4) (z : Fin 2)
  /-- CVT (R151). Per lane conversion between the type pair TC selects, under RM, saturating to integers. -/
  | cvt (c : Bool) (d : Fin 64) (a : Fin 64) (t : Fin 32) (r : Fin 8) (z : Fin 2)
  /-- QNT (R152). Per lane quantises binary32 to an element format under the scale in the old vd, including stochastic rounding. -/
  | qnt (c : Bool) (d : Fin 64) (a : Fin 64) (t : Fin 32) (r : Fin 8) (z : Fin 2)
  /-- DQNT (R153). Per lane dequantises an element or VQ2 coordinate with its scale to binary32. -/
  | dqnt (c : Bool) (d : Fin 64) (a : Fin 64) (t : Fin 32) (r : Fin 8) (z : Fin 2)
  /-- MXSCL (R154). Per lane computes an E8M0 block scale from a block maximum. -/
  | mxscl (c : Bool) (d : Fin 64) (a : Fin 64) (b : Fin 64) (s : Fin 4) (z : Fin 2)
  /-- PACK2 (R155). Per lane packs two binary32 values as BF16. -/
  | pack2 (c : Bool) (d : Fin 64) (a : Fin 64) (b : Fin 64) (s : Fin 4) (z : Fin 2)
  /-- UNPK (R156). Per lane extracts element k in format TC and widens it to binary32. -/
  | unpk (c : Bool) (d : Fin 64) (a : Fin 64) (t : Fin 32) (k : Fin 8) (z : Fin 2)
  /-- FRCP (R157). Special-function reciprocal. -/
  | frcp (c : Bool) (d : Fin 64) (a : Fin 64) (l : Fin 16)
  /-- FRSQ (R157). Special-function reciprocal square root. -/
  | frsq (c : Bool) (d : Fin 64) (a : Fin 64) (l : Fin 16)
  /-- FSQRT (R157). Special-function correctly rounded square root. -/
  | fsqrt (c : Bool) (d : Fin 64) (a : Fin 64) (l : Fin 16)
  /-- FEX2 (R157). Special-function 2^a. -/
  | fex2 (c : Bool) (d : Fin 64) (a : Fin 64) (l : Fin 16)
  /-- FLG2 (R157). Special-function log2 a. -/
  | flg2 (c : Bool) (d : Fin 64) (a : Fin 64) (l : Fin 16)
  /-- FSIN (R157). Special-function sine. -/
  | fsin (c : Bool) (d : Fin 64) (a : Fin 64) (l : Fin 16)
  /-- FCOS (R157). Special-function cosine. -/
  | fcos (c : Bool) (d : Fin 64) (a : Fin 64) (l : Fin 16)
  /-- FDIV (R157). Special-function correctly rounded division of the old vd by a. -/
  | fdiv (c : Bool) (d : Fin 64) (a : Fin 64) (l : Fin 16)
  /-- FFMA (R159). Fused a × b + c in binary32. -/
  | ffma (c : Bool) (d : Fin 64) (a : Fin 64) (b : Fin 64) (g : Fin 64)
  /-- FFMS (R159). Fused a × b - c in binary32. -/
  | ffms (c : Bool) (d : Fin 64) (a : Fin 64) (b : Fin 64) (g : Fin 64)
  /-- FFNMA (R159). Fused -(a × b) + c in binary32. -/
  | ffnma (c : Bool) (d : Fin 64) (a : Fin 64) (b : Fin 64) (g : Fin 64)
  /-- FFNMS (R159). Fused -(a × b) - c in binary32. -/
  | ffnms (c : Bool) (d : Fin 64) (a : Fin 64) (b : Fin 64) (g : Fin 64)
  /-- DFMA (R159). Fused a × b + c in binary64 on pairs. -/
  | dfma (c : Bool) (d : Fin 64) (a : Fin 64) (b : Fin 64) (g : Fin 64)
  /-- HFMA2 (R159). Two independent binary16 fused multiply-adds. -/
  | hfma2 (c : Bool) (d : Fin 64) (a : Fin 64) (b : Fin 64) (g : Fin 64)
  /-- BFMA2 (R159). Two independent BF16 fused multiply-adds. -/
  | bfma2 (c : Bool) (d : Fin 64) (a : Fin 64) (b : Fin 64) (g : Fin 64)
  /-- HDOT2 (R159). Binary16 two-term dot product plus binary32 c. -/
  | hdot2 (c : Bool) (d : Fin 64) (a : Fin 64) (b : Fin 64) (g : Fin 64)
  /-- BDOT2 (R159). BF16 two-term dot product plus binary32 c. -/
  | bdot2 (c : Bool) (d : Fin 64) (a : Fin 64) (b : Fin 64) (g : Fin 64)
  /-- SADD (R124). Scalar addition. -/
  | sadd (c : Bool) (d : Fin 64) (a : Fin 64) (b : Fin 64)
  /-- SSUB (R124). Scalar subtraction. -/
  | ssub (c : Bool) (d : Fin 64) (a : Fin 64) (b : Fin 64)
  /-- SMUL (R124). Scalar multiplication. -/
  | smul (c : Bool) (d : Fin 64) (a : Fin 64) (b : Fin 64)
  /-- SAND (R124). Scalar bitwise AND. -/
  | sand (c : Bool) (d : Fin 64) (a : Fin 64) (b : Fin 64)
  /-- SOR (R124). Scalar bitwise OR. -/
  | sor (c : Bool) (d : Fin 64) (a : Fin 64) (b : Fin 64)
  /-- SXOR (R124). Scalar bitwise XOR. -/
  | sxor (c : Bool) (d : Fin 64) (a : Fin 64) (b : Fin 64)
  /-- SSHL (R124). Scalar left shift. -/
  | sshl (c : Bool) (d : Fin 64) (a : Fin 64) (b : Fin 64)
  /-- SSHR (R124). Scalar logical right shift. -/
  | sshr (c : Bool) (d : Fin 64) (a : Fin 64) (b : Fin 64)
  /-- SSAR (R124). Scalar arithmetic right shift. -/
  | ssar (c : Bool) (d : Fin 64) (a : Fin 64) (b : Fin 64)
  /-- SCMP_EQ (R124). Scalar equality compare to 1 or 0. -/
  | scmpEq (c : Bool) (d : Fin 64) (a : Fin 64) (b : Fin 64)
  /-- SCMP_LT_I (R124). Scalar signed less-than compare. -/
  | scmpLtI (c : Bool) (d : Fin 64) (a : Fin 64) (b : Fin 64)
  /-- SCMP_LT_N (R124). Scalar natural less-than compare. -/
  | scmpLtN (c : Bool) (d : Fin 64) (a : Fin 64) (b : Fin 64)
  /-- SMIN_I (R124). Scalar signed minimum. -/
  | sminI (c : Bool) (d : Fin 64) (a : Fin 64) (b : Fin 64)
  /-- SMAX_I (R124). Scalar signed maximum. -/
  | smaxI (c : Bool) (d : Fin 64) (a : Fin 64) (b : Fin 64)
  /-- SMOV (R124). Scalar copy. -/
  | smov (c : Bool) (d : Fin 64) (a : Fin 64)
  /-- SSEL (R124). Scalar select on the old destination being non-zero. -/
  | ssel (c : Bool) (d : Fin 64) (a : Fin 64) (b : Fin 64)
  /-- SLIL (R124). Loads a zero-extended 16-bit immediate into a scalar register. -/
  | slil (c : Bool) (d : Fin 64) (i : Fin 65536)
  /-- SLIH (R124). Loads the high half of a scalar register, keeping the low half. -/
  | slih (c : Bool) (d : Fin 64) (i : Fin 65536)
  /-- SADDI (R124). Adds a signed 16-bit immediate to a scalar register. -/
  | saddi (c : Bool) (d : Fin 64) (i : Fin 65536)
  /-- SRDL (R125). Reads one lane of a vector register into a scalar register. -/
  | srdl (c : Bool) (d : Fin 64) (a : Fin 64) (b : Fin 64)
  /-- SBAL (R125). Writes a scalar ballot of active lanes whose vector value is non-zero. -/
  | sbal (c : Bool) (d : Fin 64) (a : Fin 64)
  /-- SWRL (R125). Writes a scalar value into one lane of a vector register. -/
  | swrl (c : Bool) (d : Fin 64) (a : Fin 64) (b : Fin 64)
  /-- LGT (R126). Per bit three-input logic table on the old vd, va and vb. -/
  | lgt (c : Bool) (d : Fin 64) (a : Fin 64) (b : Fin 64) (t : Fin 256)
  /-- LD (R232). Per-lane load of width W in a segment under a coherence policy, after address checks. -/
  | ld (c : Bool) (w : Fin 8) (p : Fin 4) (g : Fin 8) (d : Fin 64) (a : Fin 64) (l : Fin 16) (i : Fin 8)
  /-- LDU (R234). Uniform load once per issue into scalar registers. -/
  | ldu (c : Bool) (w : Fin 8) (p : Fin 4) (g : Fin 8) (d : Fin 64) (a : Fin 64) (l : Fin 16) (i : Fin 8)
  /-- ST (R233). Per-lane store of width W in a segment under a coherence policy. -/
  | st (c : Bool) (w : Fin 8) (p : Fin 4) (g : Fin 8) (v : Fin 64) (a : Fin 64) (i : Fin 8)
  /-- STU (R234). Uniform store once per issue from scalar registers. -/
  | stu (c : Bool) (w : Fin 8) (p : Fin 4) (g : Fin 8) (v : Fin 64) (a : Fin 64) (i : Fin 8)
  /-- ATOM_ADD (R266). Atomic add at the word's unit, returning the old value. -/
  | atomAdd (c : Bool) (o : Fin 4) (s : Fin 32) (d : Fin 64) (a : Fin 64) (g : Fin 4) (w : Fin 2)
  /-- ATOM_MIN_I (R266). Atomic signed minimum. -/
  | atomMinI (c : Bool) (o : Fin 4) (s : Fin 32) (d : Fin 64) (a : Fin 64) (g : Fin 4) (w : Fin 2)
  /-- ATOM_MIN_N (R266). Atomic natural minimum. -/
  | atomMinN (c : Bool) (o : Fin 4) (s : Fin 32) (d : Fin 64) (a : Fin 64) (g : Fin 4) (w : Fin 2)
  /-- ATOM_MAX_I (R266). Atomic signed maximum. -/
  | atomMaxI (c : Bool) (o : Fin 4) (s : Fin 32) (d : Fin 64) (a : Fin 64) (g : Fin 4) (w : Fin 2)
  /-- ATOM_MAX_N (R266). Atomic natural maximum. -/
  | atomMaxN (c : Bool) (o : Fin 4) (s : Fin 32) (d : Fin 64) (a : Fin 64) (g : Fin 4) (w : Fin 2)
  /-- ATOM_AND (R266). Atomic AND. -/
  | atomAnd (c : Bool) (o : Fin 4) (s : Fin 32) (d : Fin 64) (a : Fin 64) (g : Fin 4) (w : Fin 2)
  /-- ATOM_OR (R266). Atomic OR. -/
  | atomOr (c : Bool) (o : Fin 4) (s : Fin 32) (d : Fin 64) (a : Fin 64) (g : Fin 4) (w : Fin 2)
  /-- ATOM_XOR (R266). Atomic XOR. -/
  | atomXor (c : Bool) (o : Fin 4) (s : Fin 32) (d : Fin 64) (a : Fin 64) (g : Fin 4) (w : Fin 2)
  /-- ATOM_XCHG (R266). Atomic exchange. -/
  | atomXchg (c : Bool) (o : Fin 4) (s : Fin 32) (d : Fin 64) (a : Fin 64) (g : Fin 4) (w : Fin 2)
  /-- ACAS (R266). Atomic compare and swap. -/
  | acas (c : Bool) (o : Fin 4) (s : Fin 32) (d : Fin 64) (a : Fin 64) (g : Fin 4) (w : Fin 2)
  /-- ATOM_FADD (R266). Atomic floating-point add. -/
  | atomFadd (c : Bool) (o : Fin 4) (s : Fin 32) (d : Fin 64) (a : Fin 64) (g : Fin 4) (w : Fin 2)
  /-- ATOM_FAMAX (R266). Atomic floating-point absolute maximum. -/
  | atomFamax (c : Bool) (o : Fin 4) (s : Fin 32) (d : Fin 64) (a : Fin 64) (g : Fin 4) (w : Fin 2)
  /-- ATOM_XRST (R266). Atomic read and reset to zero. -/
  | atomXrst (c : Bool) (o : Fin 4) (s : Fin 32) (d : Fin 64) (a : Fin 64) (g : Fin 4) (w : Fin 2)
  /-- ALD (R266). Single-copy-atomic load with optional acquire. -/
  | ald (c : Bool) (o : Fin 4) (s : Fin 32) (d : Fin 64) (a : Fin 64) (g : Fin 4) (w : Fin 2)
  /-- AST (R266). Single-copy-atomic store with optional release. -/
  | ast (c : Bool) (o : Fin 4) (s : Fin 32) (d : Fin 64) (a : Fin 64) (g : Fin 4) (w : Fin 2)
  /-- FENCE (R253). Orders the group's accesses by kind and scope, pushing and dropping L1 copies when wide. -/
  | fence (c : Bool) (k : Fin 16) (s : Fin 32)
  /-- BINIT (R285). Initialises a barrier register with EXP, T and BC, keeping PH. -/
  | binit (c : Bool) (b : Fin 16) (x : Fin 64)
  /-- BINIT_MEM (R285). Initialises a memory barrier object with its recorded scope set. -/
  | binitMem (c : Bool) (s : Fin 32) (b : Fin 64) (x : Fin 64)
  /-- BARR (R286). Makes one arrival per slice on a barrier register, as a release at scope 0. -/
  | barr (c : Bool) (b : Fin 16)
  /-- BARR_MEM (R286). Sends one arrival per slice to a memory barrier object as a release at its recorded scope. -/
  | barrMem (c : Bool) (b : Fin 64)
  /-- BARD (R287). Makes deferred arrivals bound to the gang's unbound copies on the barrier. -/
  | bard (c : Bool) (b : Fin 16)
  /-- BEXP (R288). Adds an expected byte count to TXB and arms the transfer unit's arrival. -/
  | bexp (c : Bool) (b : Fin 16) (x : Fin 64)
  /-- BWAIT (R289). Waits until the barrier's phase differs from the token, then returns the distance as an acquire. -/
  | bwait (c : Bool) (b : Fin 16) (x : Fin 64)
  /-- BWAIT_MEM (R289). Waits on a memory barrier object's phase, registering at the home. -/
  | bwaitMem (c : Bool) (b : Fin 64) (x : Fin 64)
  /-- BTEST (R290). Writes a snapshot of a barrier register. -/
  | btest (c : Bool) (b : Fin 16) (x : Fin 64)
  /-- BTEST_MEM (R290). Writes a snapshot of a memory barrier object. -/
  | btestMem (c : Bool) (b : Fin 64) (x : Fin 64)
  /-- QINIT (R306). Initialises a queue ring or the crew's spare pool in the Pound. -/
  | qinit (c : Bool) (q : Fin 16) (x : Fin 64) (y : Fin 64)
  /-- QPUSH (R307). Pushes a handle using one unit of allowance, blocking when none or the queue is full. -/
  | qpush (c : Bool) (q : Fin 16) (x : Fin 64)
  /-- QPOP (R308). The owner removes the oldest entry, blocking while the queue is empty. -/
  | qpop (c : Bool) (q : Fin 16) (x : Fin 64)
  /-- QTRY (R309). Non-blocking pop or push reporting a status. -/
  | qtry (c : Bool) (q : Fin 16) (x : Fin 64) (y : Fin 64)
  /-- QALW (R310). The owner changes a producer's allowance and wakes blocked pushes. -/
  | qalw (c : Bool) (q : Fin 16) (x : Fin 64) (y : Fin 64)
  /-- SLINIT (R328). Sets each lane's sluice key to a start sequence and kill policy once it has no holder. -/
  | slinit (c : Bool) (a : Fin 64) (b : Fin 64) (p : Fin 2)
  /-- SLE (R326). Asks for each lane's key with its sequence in batches and waits for the grants. -/
  | sle (c : Bool) (s : Fin 32) (a : Fin 64) (b : Fin 64)
  /-- SLX (R327). Releases the slice's top hold level and sends releases to the keys' homes. -/
  | slx (c : Bool) (s : Fin 32) (a : Fin 64)
  /-- SLCLOSE (R329). Marks each lane's key to retire at a final sequence. -/
  | slclose (c : Bool) (a : Fin 64) (b : Fin 64)
  /-- SLQ (R330). Writes a snapshot of each lane's key state. -/
  | slq (c : Bool) (a : Fin 64) (b : Fin 64)
  /-- CFLUSH (R255). Pushes untracked dirty words and returns owned words of a range in the L1s of a scope set. -/
  | cflush (c : Bool) (s : Fin 32) (a : Fin 64) (b : Fin 64) (l : Fin 2)
  /-- CINV (R255). Turns V and S sectors of a range to I in the L1s of a scope set. -/
  | cinv (c : Bool) (s : Fin 32) (a : Fin 64) (b : Fin 64) (l : Fin 2)
  /-- SCBWAIT (R256). Waits until no copy range scoreboard entry overlaps the named Pound bytes. -/
  | scbwait (c : Bool) (a : Fin 64) (b : Fin 64) (l : Fin 2)
  /-- CP (R358). Forks a per-lane copy of 4, 8 or 16 bytes between spaces, counted on a barrier. -/
  | cp (c : Bool) (z : Fin 4) (s : Fin 8) (d : Fin 8) (a : Fin 64) (b : Fin 64) (r : Fin 16)
  /-- CPT (R341). Forks a two-dimensional tile copy described by two scalar descriptors. -/
  | cpt (c : Bool) (s : Fin 8) (d : Fin 8) (a : Fin 64) (b : Fin 64) (r : Fin 16)
  /-- CPX (R353). Forks a copy and arms the gang's follow-on latch with it. -/
  | cpx (c : Bool) (z : Fin 8) (s : Fin 8) (d : Fin 8) (a : Fin 64) (b : Fin 64) (r : Fin 16)
  /-- CPM (R346). Forks a global-to-Pound copy read by multicast among the cores of a mask. -/
  | cpm (c : Bool) (z : Fin 4) (s : Fin 8) (d : Fin 8) (a : Fin 64) (b : Fin 64) (r : Fin 16)
  /-- CPE (R350). Forks a copy that enqueues a handle into a team crew's queue after landing, with translation checked at issue. -/
  | cpe (c : Bool) (z : Fin 8) (s : Fin 8) (d : Fin 8) (a : Fin 64) (b : Fin 64) (r : Fin 16)
  /-- MMA (R190). Posts one multiply pass on a tile with A and B descriptors and a format slot. -/
  | mma (c : Bool) (t : Fin 8) (a : Fin 64) (b : Fin 64) (f : Fin 16) (l : Fin 16) (z : Fin 2)
  /-- MMZ (R191). Posts a zeroing of a tile. -/
  | mmz (c : Bool) (t : Fin 8) (f : Fin 16) (l : Fin 16)
  /-- MDR (R192). Posts a drain of a tile to memory, with optional add, block scales, amax and clearing. -/
  | mdr (c : Bool) (t : Fin 8) (a : Fin 64) (b : Fin 64) (f : Fin 16) (l : Fin 16) (z : Fin 2)
  /-- MLD (R193). Posts a load of a tile from memory. -/
  | mld (c : Bool) (t : Fin 8) (a : Fin 64) (f : Fin 16) (l : Fin 16)
  /-- MFMT (R194). Writes a checked format descriptor into a slot and sets V. -/
  | mfmt (c : Bool) (a : Fin 64) (f : Fin 16) (l : Fin 16)
  /-- MRQ (R195). Waits for the gang's or crew's earlier requests on a tile and writes a count and failure bit. -/
  | mrq (c : Bool) (t : Fin 8) (a : Fin 64) (l : Fin 16) (z : Fin 2)
  /-- MQRY (R196). Writes a snapshot of the matrix engine's state. -/
  | mqry (c : Bool) (a : Fin 64) (l : Fin 16)
  /-- DICE (R422). Submits a patch slot or a global patch to the dicers, forking a dicer job. -/
  | dice (c : Bool) (a : Fin 64) (b : Fin 64)
  /-- GSH (R423). Claims the grid's next batch of vertices into the active lanes. -/
  | gsh (c : Bool) (d : Fin 64) (a : Fin 64) (l : Fin 16)
  /-- GWB (R424). Checks and forks the write-back of vertex output records into a grid. -/
  | gwb (c : Bool) (a : Fin 64) (b : Fin 64)
  /-- GEMIT (R425). Gives a grid the bucket's next rank and makes it an STU job. -/
  | gemit (c : Bool) (a : Fin 64)
  /-- STQ (R426). Tests one micropolygon from the Pound against each lane's sample. -/
  | stq (c : Bool) (d : Fin 64) (a : Fin 64) (b : Fin 64) (l : Fin 16)
  /-- BKNEXT (R427). Writes the current bucket's next item, waiting when none is ready. -/
  | bknext (c : Bool) (d : Fin 64) (l : Fin 16)
  /-- BKDONE (R428). Waits for the bucket to close, writes its samples, closes its keys and clears the current bucket. -/
  | bkdone (c : Bool) (a : Fin 64)
  /-- BKSPL (R429). Splits the current bucket into four children. -/
  | bkspl (c : Bool) (a : Fin 64)
  /-- RAY (R451). Starts one ray query per active lane in its slot. -/
  | ray (c : Bool) (a : Fin 64) (b : Fin 64)
  /-- RAYW (R452). Collects the results of the active lanes' DONE slots, raising the lowest failed lane's cause. -/
  | rayw (c : Bool) (d : Fin 64) (a : Fin 64) (l : Fin 16)
  /-- RAYS (R450). Loads the structure register from a descriptor in memory. -/
  | rays (c : Bool) (d : Fin 64) (a : Fin 64) (l : Fin 16)
  /-- TSPAWN (R386). Checks a record address and forks a spawn that places the record into a deque. -/
  | tspawn (c : Bool) (a : Fin 64) (b : Fin 64)
  /-- TSUCC (R388). Decrements a successor object's count and spawns its record when the count reaches zero. -/
  | tsucc (c : Bool) (a : Fin 64)
  /-- TDONE (R389). Ends every gang of the issuing gang's crew. -/
  | tdone
  /-- AGE_BOOST (R61). A group ready for 4,096 clocks without issuing is raised above every priority until it next issues. Operands: g, grp. -/
  | ageBoost
  /-- SOFTI_NOTICE (R481). After the gang's earlier stores complete, the package-scope release is performed and the notice or mailbox write is made, with the release-failed flag if a push met a fenced home. Operands: k. -/
  | softiNotice
  /-- SFU_RESULT (R73). A special-function instruction completes when its result is written, closing its lookahead window. Operands: k. -/
  | sfuResult
  /-- STAGING_QUEUE (R210). A request waiting in the load/store unit's staging queue takes a request slot when its bank has room. Operands: k. -/
  | stagingQueue
  /-- LSU_AGE_BOOST (R210). A request that has waited 4,096 clocks is served before every younger request. Operands: k. -/
  | lsuAgeBoost
  /-- PAGE_WALK (R208). A TLB miss walks the five-level tables on a free walker, merging walks of the same page and filling the TLBs. Operands: core, dom, va. -/
  | pageWalk
  /-- RD_THR (R225). Home reads the words at their point of coherence, forwarding to an owner if needed. Operands: k. -/
  | rdThr
  /-- RD_SIS (R225). Home reads the sector untracked, recording nothing. Operands: k. -/
  | rdSis
  /-- RD_WIS (R225). Home recalls owned words, sets the cluster's sharer bit and replies. Operands: k. -/
  | rdWis
  /-- RD_OWN (R225). Home invalidates sharers, recalls any owner and makes the requester owner of the words. Operands: k. -/
  | rdOwn
  /-- WR_THR (R225). Home applies a word-masked write and invalidates sharers except the writer. Operands: k. -/
  | wrThr
  /-- WR_WIS (R225). Home applies a WIS write and invalidates sharers except the writer. Operands: k. -/
  | wrWis
  /-- PUSH (R225). Home applies a push of untracked dirty words. Operands: k. -/
  | pushWr
  /-- WRITEBACK (R225). Home applies an owned word's writeback and clears its owner. Operands: k. -/
  | writeback
  /-- ATOMIC_AT_HOME (R260). The atomic unit performs one request's lanes in ascending lane order as one indivisible step. Operands: k. -/
  | atomicAtHome
  /-- RECALL (R221). An L1 returns recalled owned words, or answers in flight from its writeback buffer. Operands: k. -/
  | recall
  /-- FWD_RD (R221). An L1 sends the current value of owned words while keeping ownership. Operands: k. -/
  | fwdRd
  /-- INVALIDATION (R221). An L1 turns the line's S sectors to I and acknowledges. Operands: k. -/
  | invalidation
  /-- INVALIDATION_ACK (R216). The home takes an invalidation acknowledgement and sends DONE when all have arrived. Operands: k. -/
  | invalidationAck
  /-- LOAD_REPLY (R214). Read data returns to the requesting L1, fills as the policy gives, and writes the load's destination registers. Operands: k. -/
  | loadReply
  /-- STORE_ACK (R215). An ACK or DONE for a store or push reaches the requester and completes it. Operands: k. -/
  | storeAck
  /-- ERROR_REPLY (R503). A HOME_FENCED, COH_LOST, INCARNATION or poison reply reaches the requester and raises a deferred fault or records an engine failure. Operands: k. -/
  | errorReply
  /-- ECC_L1 (R229). An uncorrectable soft error in an owned or dirty L1 word returns it poisoned to home and records it. Operands: core, word. -/
  | eccL1
  /-- ECC_REG (R461). An uncorrectable soft error in a crew's register or state imposes a fatal cause on its domain. Operands: crew, kind, reg, lane. -/
  | eccReg
  /-- BARRIER_UNIT (R277). The home's barrier unit performs a memory-form barrier request as one indivisible step. Operands: k. -/
  | barrierUnit
  /-- BARRIER_WAIT_RETRY (R281). With the home's wait registrations full, the core repeats the BWAIT request every 256 clocks. Operands: k. -/
  | barrierWaitRetry
  /-- SLUICE_REQUEST (R314). The key's home registers a batch request, giving the key an entry in its table or the overflow table. Operands: k. -/
  | sluiceRequest
  /-- SLUICE_GRANT (R317). The home grants the batch whose first sequence equals NE when the key is unheld and unbroken. Operands: k. -/
  | sluiceGrant
  /-- SLUICE_RELEASE (R320). The home adds a slice's release to RLN and, when the batch is released, clears the hold and advances NE. Operands: k. -/
  | sluiceRelease
  /-- SLUICE_BUFFER_RETRY (R315). A request that finds the home's request buffer full is repeated every 256 clocks. Operands: k. -/
  | sluiceBufferRetry
  /-- SL_TIMEOUT (R322). A waiting sluice request whose timer passes the domain's timeout is withdrawn and raises SL_TIMEOUT. Operands: k. -/
  | slTimeout
  /-- RELEASE_RESEND (R321). A release refused by a fenced home is sent again once that die is re-admitted. Operands: k. -/
  | releaseResend
  /-- COPY_LINE_LAND (R342). A copy's line operation lands or fails, subtracting its bytes from TXB and retiring scoreboard entries. Operands: k, l. -/
  | copyLineLand
  /-- COPY_COMPLETE (R343). A copy whose line operations have all landed or failed completes, updating unbound counts or bindings and records its failure. Operands: k. -/
  | copyComplete
  /-- CPM_LINE_REQUEST (R347). A multicast line request joins, makes or misses a merge entry at the home, sending the line when the requester set equals the mask. Operands: k, l. -/
  | cpmLineRequest
  /-- MERGE_WINDOW (R347). A WAIT merge entry whose window passes reads the line once and sends one multicast packet. Operands: k. -/
  | mergeWindow
  /-- MERGE_ENTRY_FREE (R347). A SENT merge entry is freed 4,096 clocks after its send. Operands: k. -/
  | mergeEntryFree
  /-- CPE_ENQUEUE (R351). After its payload lands, a CPE's enqueue is pushed at the target queue, waiting in the pending list if it cannot take place. Operands: k. -/
  | cpeEnqueue
  /-- FOLLOW_ON_POST (R354). When every copy of a captured follow-on completes, the request is posted to the reservation table or dropped with CP_FOLLOW. Operands: k. -/
  | followOnPost
  /-- RESERVATION_ACCEPT (R176). A request passes from a post buffer into the reservation table when it has room and the gang holds fewer than 8 entries. Operands: core. -/
  | reservationAccept
  /-- PASS_GRANT (R177). The array grants the eligible pass of highest priority and age and applies it to its tile. Operands: core. -/
  | passGrant
  /-- TILE_PATH_GRANT (R177). The tile path grants an eligible drain, load or zeroing. Operands: core. -/
  | tilePathGrant
  /-- MATRIX_AGE_BOOST (R177). An entry eligible for 4,096 clocks without a grant is raised above every priority. Operands: k. -/
  | matrixAgeBoost
  /-- REQUEST_FINISH (R179). A pass, zeroing, load or drain finishes, frees its entry, makes its barrier arrival and records any failure in MXERR. Operands: k. -/
  | requestFinish
  /-- MX_RSV (R181). A request ungranted beyond the matrix timeout is removed and fails with MX_RSV. Operands: k. -/
  | mxRsv
  /-- BINNER (R394). The patch binner reads a frame record's patches and bins each into the first bucket its bound overlaps. Operands: k. -/
  | binner
  /-- BUCKET_DISTRIBUTOR (R395). After binning, one BUCKET record per 32 × 32 bucket is made and placed on its die. Operands: k. -/
  | bucketDistributor
  /-- BUCKET_SETUP (R397). The bucket unit reserves the quota, checks and copies the pattern, clears samples, loads slots and initialises keys. Operands: k. -/
  | bucketSetup
  /-- DICER_JOB (R404). A dicer job reads a patch and splits or dices it into a grid item under the quota rules. Operands: k. -/
  | dicerJob
  /-- WRITE_BACK_JOB (R409). A write-back job writes vertex output records and sets their written bits. Operands: k. -/
  | writeBackJob
  /-- STU_JOB (R410). Once every vertex is written, the STU samples the grid through the composite keys and forwards it to later buckets. Operands: k. -/
  | stuJob
  /-- GRID_FORWARD (R410). A forwarded grid or patch half appended to a resident bucket's list takes a slot and, for a grid, the next rank. Operands: k. -/
  | gridForward
  /-- BUCKET_CLOSE (R400). A bucket whose work is done and whose earlier buckets have finished forwarding closes, releasing a waiting BKDONE. Operands: k. -/
  | bucketClose
  /-- PARK (R401). A finished bucket waiting on earlier buckets is written to the fen and its quota released for an earlier ready bucket. Operands: k. -/
  | park
  /-- BUCKET_RELOAD (R401). A parked bucket is loaded into its die's bucket store again once earlier buckets finish forwarding and room exists. Operands: k. -/
  | bucketReload
  /-- QUERY (R440). A ray query traverses the structure step by step within its budget and finishes its slot as DONE. Operands: k. -/
  | query
  /-- SPAWN (R386). The spawn engine thread reads and checks the record, performs the release and places it, or records TKERR. Operands: k. -/
  | spawn
  /-- DOORBELL (R366). A host write to a queue's TAIL register starts taking records, or stops the queue for a bad distance. Operands: dom, q, tail. -/
  | doorbell
  /-- FRONT_END_TAKE (R366). The front end reads the record at HEAD, checks it and places it or stops the queue, advancing HEAD. Operands: dom, q. -/
  | frontEndTake
  /-- STEAL (R369). A die with a free bound slot and an empty deque takes the newest entry of the longest deque of that queue on another die. Operands: die, dom, q. -/
  | steal
  /-- DISPATCH (R372). When a slot frees, dispatch starts the fitting candidate of highest priority and age in qualifying slots. Operands: core. -/
  | dispatch
  /-- CREW_END (R374). Once its last gang ends and its engine threads complete, a crew's resources are freed. Operands: crew. -/
  | crewEnd
  /-- TASK_COMPLETION (R384). A task or launch whose last crew ends and stores complete completes and performs TSUCC on its successor. Operands: k. -/
  | taskCompletion
  /-- SLOT_TABLE_WRITE (R376). Firmware rewrites a slot table entry, setting EVP and evicting an occupant that no longer qualifies. Operands: core, slot, val. -/
  | slotTableWrite
  /-- EVICTION (R377). A crew is drained and its context written to the domain's context area, invisibly to the program. Operands: crew. -/
  | eviction
  /-- SWAP_OUT (R379). A crew taking a serviced fault is drained, saved and freed until the fault is answered. Operands: crew. -/
  | swapOut
  /-- RESUME (R379). A ready saved crew is restored on a core of its domain, reloading context, requests and ray slots before issuing. Operands: crew, core. -/
  | resume
  /-- HANDLER_ENTRY (R463). A class-H record is delivered to the domain handler, banking registers and entering handler mode. Operands: g. -/
  | handlerEntry
  /-- SERVICE_DELIVERY (R465). A record goes to service: the crew is swapped out and a notice is posted. Operands: g. -/
  | serviceDelivery
  /-- FATAL_PATH (R475). A class-F cause stops and discards all work of a domain, frees its resources and has firmware write the dump. Operands: dom, cause, detail, die. -/
  | fatalPath
  /-- WATCHDOG (R461). A crew whose live slices have all been blocked beyond the blocked limit takes the imposed WATCHDOG cause. Operands: crew. -/
  | watchdog
  /-- TIME_LIMIT (R461). A crew resident beyond the run limit takes the imposed TIME_LIMIT cause. Operands: crew. -/
  | timeLimit
  /-- DBG_HALT (R461). A debugger request through the management plane imposes a stop on a crew. Operands: crew, tag. -/
  | dbgHalt
  /-- FLIT_RECEIVE (R494). A link receiver checks a flit's CRC, sequence and incarnation, requesting replay or accepting it. Operands: link. -/
  | flitReceive
  /-- REPLAY (R494). A sender retransmits from the flit a replay request names. Operands: link. -/
  | replay
  /-- HOME_TIMEOUT (R496). A home waiting over 100 µs for a transaction marks the line coherence-lost and answers COH_LOST. Operands: k. -/
  | homeTimeout
  /-- FAB_UNCORR (R496). A requester waiting over 100 µs for a reply raises FAB_UNCORR. Operands: k. -/
  | fabUncorr
  /-- COMPLETION_TIMEOUT (R229). A host read without completion within the PCIe completion timeout fails with HOST_ERR. Operands: k. -/
  | completionTimeout
  /-- FAULT_FENCE (R500). An uncorrectable directory, sluice or L2 tag error fences its die at once. Operands: die. -/
  | faultFence
  /-- HEARTBEAT_TIMEOUT (R500). A die that fails a management heartbeat within 1 ms is fault-fenced. Operands: die. -/
  | heartbeatTimeout
  /-- FENCE_QUIESCE (R502). The fence message reaches every die, the fenced die's homes refuse requests, and recall, write-back and self-refresh follow. Operands: die. -/
  | fenceQuiesce
  /-- SELF_REFRESH_TIMEOUT (R502). Self-refresh not reached within 1 ms of the fence gives DIE_FENCE to affected domains and zeroes the die's memory. Operands: die. -/
  | selfRefreshTimeout
  /-- RETRAIN (R502). The fenced die's links go down, its state is cleared and its links are retrained. Operands: die. -/
  | retrain
  /-- RE_ADMISSION (R502). Retraining done, the die's incarnation rises, tables update and routes, dispatch and stealing resume. Operands: die. -/
  | reAdmission
  /-- DOMAIN_SET (R511). Mailbox command loading a domain's settings from a host block. -/
  | domainSet
  /-- XL_FLUSH (R209). Mailbox command performing a translation flush of a domain. -/
  | xlFlush
  /-- QUEUE_SET (R511). Mailbox command enabling a queue and its ring. -/
  | queueSet
  /-- QUEUE_RESTART (R511). Mailbox command clearing STOP and taking records again from HEAD. -/
  | queueRestart
  /-- QUEUE_SHARE (R511). Mailbox command asking for reserved slots and bandwidth floors for a queue. -/
  | queueShare
  /-- NOTICE_ANSWER (R465). Mailbox command resuming, discarding or killing the crew of a service notice. -/
  | noticeAnswer
  /-- DOMAIN_KILL (R475). Mailbox command running the fatal path for a domain. -/
  | domainKill
  /-- WARM_RESET (R501). Mailbox command preparing and running an orderly fence and reset of a compute die. -/
  | warmReset
  /-- CLEAR_LOST (R497). Mailbox command clearing a coherence-lost line. -/
  | clearLost
  /-- IMAGE_LOAD (R513). Mailbox command loading and verifying a firmware image in the recovery state. -/
  | imageLoad
  /-- MAILBOX_COMPLETE (R511). A mailbox command completes, clearing BUSY, setting RESULT and signalling vector 63. -/
  | mailboxComplete
  /-- NOTICE (R510). A notice is written to the domain's ring when room exists, TAIL advances and the vector is signalled. Operands: dom. -/
  | notice
  /-- BAR2_WRITE (R509). A host write through an aperture entry is applied at home as WrThr, or dropped. Operands: off, val, bm. -/
  | bar2Write
  /-- BAR2_READ (R509). A host read through an aperture entry is made as RdThr, or completes with an error. Operands: off. -/
  | bar2Read
  /-- REGISTER_WRITE (R508). A host write to a BAR0 register without behaviour of its own stores its value, or is ignored at unassigned offsets. Operands: off, val. -/
  | registerWrite
  /-- HOST_DOWN (R461). Loss of the PCIe link imposes a fatal cause on the domains. -/
  | hostDown
  /-- D3HOT (R516). Entry to D3hot with crews resident raises MGMT_KILL in their domains. -/
  | d3hot
  /-- COLD_RESET (R513). PERST# deassertion or an I3C request boots the package, verifying firmware and zeroing memory, or enters recovery. -/
  | coldReset
  /-- ENTDAA (R512). The I3C target takes a dynamic address. Operands: addr. -/
  | entdaa
  /-- POWER_LIMIT (R517). An I3C write sets the power limit within its range, or is refused. Operands: w. -/
  | powerLimit
  /-- BOARD_INPUT_POWER (R517). On a PLD-4P the board controller writes the board-input power to the telemetry input register. Operands: w. -/
  | boardInputPower
  /-- BOARD_INPUT_ABSENT (R517). With no board-input value for 10 ms, firmware applies the power limit alone. -/
  | boardInputAbsent
  /-- MGMT_KILL (R512). A board controller request kills every domain. Operands: reason. -/
  | mgmtKill
  /-- TELEMETRY_REFRESH (R515). Every 1 ms the telemetry block is refreshed. -/
  | telemetryRefresh
  /-- POWER_THROTTLE (R516). Firmware lowers the compute clock in 50 MHz steps when power, board input or temperature exceed their limits. -/
  | powerThrottle
  /-- THERMAL_KILL (R516). A junction at 110 °C gives every domain MGMT_KILL and stops the compute clocks. -/
  | thermalKill
  /-- RESIDENT_10US_ELAPSED (R376). When a resumed crew has been resident 10 µs, a rebinding that it no longer qualifies for evicts it. Operands: crew. -/
  | resident10usElapsed
  /-- LOCKHOUSE_FAULT (R500). A fault in the lockhouse die raises MGMT_KILL in every domain and leaves the package needing a cold reset. -/
  | lockhouseFault
  /-- D3COLD (R516). Entry to D3cold removes power from the device, losing all state until the cold reset that follows. -/
  | d3cold
  /-- CORRECTED_SOFT_ERROR (R229). A correctable or clean-word soft error is corrected by refetch or ECC and counted in the die error block. Operands: die, kind. -/
  | correctedSoftError
  /-- SLUICE_ENTRY_FREE (R314). A sluice entry whose key shows the fresh state is freed by the home. Operands: k. -/
  | sluiceEntryFree
  deriving DecidableEq, Repr

end Sys2Proof
end

