-- ==== Sys2Proof/Machine/Causes.lean ====
section
/-! DEFINITION. The 96 trap causes, their codes and their delivery classes (R461, Table 15-3). -/

namespace Sys2Proof.Machine

/-- The delivery class of a cause (R461): the handler or service, service, the fatal path, never delivered. -/
inductive CauseClass where
  | handler | service | fatal | never
  deriving DecidableEq, Repr

/-- The trap causes of Table 15-3, in code order. -/
inductive Cause where
  | illEnc
  | illField
  | illChain
  | illSegpol
  | illReg
  | priv
  | brNonuni
  | loopOvf
  | loopBad
  | repBad
  | regangMix
  | pcAlign
  | codeLimit
  | swTrap
  | bkpt
  | sstep
  | segLimit
  | misalign
  | xlNotpresent
  | xlPermR
  | xlPermW
  | xlPermX
  | xlDomain
  | poisonRd
  | cohLost
  | homeFenced
  | hostErr
  | atomSeg
  | atomAlign
  | walkErr
  | xlPolicy
  | bucketSeg
  | barTxOverrun
  | barArrOverrun
  | barPoisoned
  | barUninit
  | barBroken
  | qUninit
  | qAllowNeg
  | qOwner
  | slGap
  | slOrder
  | slHoldOvf
  | slTimeout
  | slBroken
  | slNotheld
  | slStale
  | fenceScope
  | cpSpaces
  | cpSize
  | cpMcast
  | cpEnq
  | cpFollow
  | cpAlign
  | mxFmt
  | mxBstore
  | mxTile
  | mxShape
  | mxDrainSeg
  | mxRsv
  | mxPoison
  | mxCodebook
  | accPoison
  | cpPoison
  | gxBucketQuota
  | gxGridSize
  | gxNobucket
  | gxPatchBad
  | gxSpillFull
  | ryBudget
  | ryNode
  | ryLeafBad
  | rySlot
  | tkRecord
  | tkSucc
  | tkQueueFull
  | tkDomain
  | gxSampleCfg
  | ryCluster
  | gxStqArg
  | preempt
  | softiTgt
  | watchdog
  | dieFence
  | domainKill
  | eccReg
  | eccPound
  | eccL1
  | fabUncorr
  | hostDown
  | mgmtKill
  | segDesc
  | scopeDesc
  | dbgHalt
  | timeLimit
  | incarnation
  deriving DecidableEq, Repr

/-- The 7-bit code of a cause (Table 15-3). -/
def Cause.code : Cause → Nat
  | .illEnc => 0x0
  | .illField => 0x1
  | .illChain => 0x2
  | .illSegpol => 0x3
  | .illReg => 0x4
  | .priv => 0x5
  | .brNonuni => 0x6
  | .loopOvf => 0x7
  | .loopBad => 0x8
  | .repBad => 0x9
  | .regangMix => 0xa
  | .pcAlign => 0xb
  | .codeLimit => 0xc
  | .swTrap => 0xd
  | .bkpt => 0xe
  | .sstep => 0xf
  | .segLimit => 0x10
  | .misalign => 0x11
  | .xlNotpresent => 0x12
  | .xlPermR => 0x13
  | .xlPermW => 0x14
  | .xlPermX => 0x15
  | .xlDomain => 0x16
  | .poisonRd => 0x17
  | .cohLost => 0x18
  | .homeFenced => 0x19
  | .hostErr => 0x1a
  | .atomSeg => 0x1b
  | .atomAlign => 0x1c
  | .walkErr => 0x1d
  | .xlPolicy => 0x1e
  | .bucketSeg => 0x1f
  | .barTxOverrun => 0x20
  | .barArrOverrun => 0x21
  | .barPoisoned => 0x22
  | .barUninit => 0x23
  | .barBroken => 0x24
  | .qUninit => 0x25
  | .qAllowNeg => 0x26
  | .qOwner => 0x27
  | .slGap => 0x28
  | .slOrder => 0x29
  | .slHoldOvf => 0x2a
  | .slTimeout => 0x2b
  | .slBroken => 0x2c
  | .slNotheld => 0x2d
  | .slStale => 0x2e
  | .fenceScope => 0x2f
  | .cpSpaces => 0x30
  | .cpSize => 0x31
  | .cpMcast => 0x32
  | .cpEnq => 0x33
  | .cpFollow => 0x34
  | .cpAlign => 0x35
  | .mxFmt => 0x36
  | .mxBstore => 0x37
  | .mxTile => 0x38
  | .mxShape => 0x39
  | .mxDrainSeg => 0x3a
  | .mxRsv => 0x3b
  | .mxPoison => 0x3c
  | .mxCodebook => 0x3d
  | .accPoison => 0x3e
  | .cpPoison => 0x3f
  | .gxBucketQuota => 0x40
  | .gxGridSize => 0x41
  | .gxNobucket => 0x42
  | .gxPatchBad => 0x43
  | .gxSpillFull => 0x44
  | .ryBudget => 0x45
  | .ryNode => 0x46
  | .ryLeafBad => 0x47
  | .rySlot => 0x48
  | .tkRecord => 0x49
  | .tkSucc => 0x4a
  | .tkQueueFull => 0x4b
  | .tkDomain => 0x4c
  | .gxSampleCfg => 0x4d
  | .ryCluster => 0x4e
  | .gxStqArg => 0x4f
  | .preempt => 0x50
  | .softiTgt => 0x51
  | .watchdog => 0x52
  | .dieFence => 0x53
  | .domainKill => 0x54
  | .eccReg => 0x55
  | .eccPound => 0x56
  | .eccL1 => 0x57
  | .fabUncorr => 0x58
  | .hostDown => 0x59
  | .mgmtKill => 0x5a
  | .segDesc => 0x5b
  | .scopeDesc => 0x5c
  | .dbgHalt => 0x5d
  | .timeLimit => 0x5e
  | .incarnation => 0x5f

/-- The class of a cause (Table 15-3). -/
def Cause.cls : Cause → CauseClass
  | .illEnc => .handler
  | .illField => .handler
  | .illChain => .handler
  | .illSegpol => .handler
  | .illReg => .handler
  | .priv => .handler
  | .brNonuni => .handler
  | .loopOvf => .handler
  | .loopBad => .handler
  | .repBad => .handler
  | .regangMix => .handler
  | .pcAlign => .handler
  | .codeLimit => .handler
  | .swTrap => .handler
  | .bkpt => .handler
  | .sstep => .handler
  | .segLimit => .handler
  | .misalign => .handler
  | .xlNotpresent => .service
  | .xlPermR => .service
  | .xlPermW => .service
  | .xlPermX => .service
  | .xlDomain => .handler
  | .poisonRd => .handler
  | .cohLost => .handler
  | .homeFenced => .service
  | .hostErr => .handler
  | .atomSeg => .handler
  | .atomAlign => .handler
  | .walkErr => .service
  | .xlPolicy => .handler
  | .bucketSeg => .handler
  | .barTxOverrun => .handler
  | .barArrOverrun => .handler
  | .barPoisoned => .handler
  | .barUninit => .handler
  | .barBroken => .handler
  | .qUninit => .handler
  | .qAllowNeg => .handler
  | .qOwner => .handler
  | .slGap => .handler
  | .slOrder => .handler
  | .slHoldOvf => .handler
  | .slTimeout => .handler
  | .slBroken => .handler
  | .slNotheld => .handler
  | .slStale => .handler
  | .fenceScope => .handler
  | .cpSpaces => .handler
  | .cpSize => .handler
  | .cpMcast => .handler
  | .cpEnq => .handler
  | .cpFollow => .handler
  | .cpAlign => .handler
  | .mxFmt => .handler
  | .mxBstore => .handler
  | .mxTile => .handler
  | .mxShape => .handler
  | .mxDrainSeg => .handler
  | .mxRsv => .handler
  | .mxPoison => .handler
  | .mxCodebook => .handler
  | .accPoison => .handler
  | .cpPoison => .handler
  | .gxBucketQuota => .handler
  | .gxGridSize => .handler
  | .gxNobucket => .handler
  | .gxPatchBad => .handler
  | .gxSpillFull => .handler
  | .ryBudget => .handler
  | .ryNode => .handler
  | .ryLeafBad => .handler
  | .rySlot => .handler
  | .tkRecord => .handler
  | .tkSucc => .handler
  | .tkQueueFull => .handler
  | .tkDomain => .handler
  | .gxSampleCfg => .handler
  | .ryCluster => .handler
  | .gxStqArg => .handler
  | .preempt => .never
  | .softiTgt => .handler
  | .watchdog => .service
  | .dieFence => .fatal
  | .domainKill => .fatal
  | .eccReg => .fatal
  | .eccPound => .handler
  | .eccL1 => .handler
  | .fabUncorr => .service
  | .hostDown => .fatal
  | .mgmtKill => .fatal
  | .segDesc => .handler
  | .scopeDesc => .handler
  | .dbgHalt => .service
  | .timeLimit => .service
  | .incarnation => .service

/-- The cause with code `n` (Table 15-3). -/
def causeOf (n : Nat) : Option Cause :=
  match n with
  | 0 => some .illEnc
  | 1 => some .illField
  | 2 => some .illChain
  | 3 => some .illSegpol
  | 4 => some .illReg
  | 5 => some .priv
  | 6 => some .brNonuni
  | 7 => some .loopOvf
  | 8 => some .loopBad
  | 9 => some .repBad
  | 10 => some .regangMix
  | 11 => some .pcAlign
  | 12 => some .codeLimit
  | 13 => some .swTrap
  | 14 => some .bkpt
  | 15 => some .sstep
  | 16 => some .segLimit
  | 17 => some .misalign
  | 18 => some .xlNotpresent
  | 19 => some .xlPermR
  | 20 => some .xlPermW
  | 21 => some .xlPermX
  | 22 => some .xlDomain
  | 23 => some .poisonRd
  | 24 => some .cohLost
  | 25 => some .homeFenced
  | 26 => some .hostErr
  | 27 => some .atomSeg
  | 28 => some .atomAlign
  | 29 => some .walkErr
  | 30 => some .xlPolicy
  | 31 => some .bucketSeg
  | 32 => some .barTxOverrun
  | 33 => some .barArrOverrun
  | 34 => some .barPoisoned
  | 35 => some .barUninit
  | 36 => some .barBroken
  | 37 => some .qUninit
  | 38 => some .qAllowNeg
  | 39 => some .qOwner
  | 40 => some .slGap
  | 41 => some .slOrder
  | 42 => some .slHoldOvf
  | 43 => some .slTimeout
  | 44 => some .slBroken
  | 45 => some .slNotheld
  | 46 => some .slStale
  | 47 => some .fenceScope
  | 48 => some .cpSpaces
  | 49 => some .cpSize
  | 50 => some .cpMcast
  | 51 => some .cpEnq
  | 52 => some .cpFollow
  | 53 => some .cpAlign
  | 54 => some .mxFmt
  | 55 => some .mxBstore
  | 56 => some .mxTile
  | 57 => some .mxShape
  | 58 => some .mxDrainSeg
  | 59 => some .mxRsv
  | 60 => some .mxPoison
  | 61 => some .mxCodebook
  | 62 => some .accPoison
  | 63 => some .cpPoison
  | 64 => some .gxBucketQuota
  | 65 => some .gxGridSize
  | 66 => some .gxNobucket
  | 67 => some .gxPatchBad
  | 68 => some .gxSpillFull
  | 69 => some .ryBudget
  | 70 => some .ryNode
  | 71 => some .ryLeafBad
  | 72 => some .rySlot
  | 73 => some .tkRecord
  | 74 => some .tkSucc
  | 75 => some .tkQueueFull
  | 76 => some .tkDomain
  | 77 => some .gxSampleCfg
  | 78 => some .ryCluster
  | 79 => some .gxStqArg
  | 80 => some .preempt
  | 81 => some .softiTgt
  | 82 => some .watchdog
  | 83 => some .dieFence
  | 84 => some .domainKill
  | 85 => some .eccReg
  | 86 => some .eccPound
  | 87 => some .eccL1
  | 88 => some .fabUncorr
  | 89 => some .hostDown
  | 90 => some .mgmtKill
  | 91 => some .segDesc
  | 92 => some .scopeDesc
  | 93 => some .dbgHalt
  | 94 => some .timeLimit
  | 95 => some .incarnation
  | _ => none

end Sys2Proof.Machine
end

