-- ==== Sys2Proof/Machine/Types.lean ====
section
/-! DEFINITION. The plain data of a crew's work: segment registers, trap records, slices, gangs, crews, outstanding
instructions (chapters 3, 7, 9, 10, 12 and 15). Every field has the value it has at gang or crew start as its default. -/

namespace Sys2Proof.Machine

/-- A segment register (Table 7-2). -/
structure Seg where
  /-- BASE. -/
  base : DWord := 0
  /-- LIMIT. -/
  limit : DWord := 0
  deriving DecidableEq, Repr

/-- The trap record of Table 15-2, words 0 to 10; words 15:11 are reserved and read zero. -/
structure TrapRec where
  /-- word 0: GRP, NST, REPV, J, SLOT, KIND, DISP, CAUSE. -/
  w0 : Word := 0
  /-- EPC. -/
  epc : Word := 0
  /-- ERPC. -/
  erpc : Word := 0
  /-- EMASK. -/
  emask : Word := 0
  /-- EADDR. -/
  eaddr : DWord := 0
  /-- EDETAIL. -/
  edetail : Word := 0
  /-- EX. -/
  ex : Word := 0
  /-- word 8: GANG, CORE, DOM. -/
  who : Word := 0
  /-- TSTOP. -/
  tstop : DWord := 0
  deriving DecidableEq, Repr

/-- The kind of a trap (Table 15-2, KIND). -/
inductive TrapKind where
  | precise | deferred | async | imposed
  deriving DecidableEq, Repr

/-- One loop-stack entry (R75). -/
structure LoopEntry where
  start : Word := 0
  stop : Word := 0
  count : Word := 0
  deriving DecidableEq, Repr

/-- A repeat in progress: the next repetition and the REP word (Table 3-3). -/
structure Rep where
  j : Nat := 0
  word : Word := 0
  deriving DecidableEq, Repr

/-- One level of a slice's hold stack: four keys and the mask of lanes that hold (R319, Table 15-7). -/
structure Hold where
  keys : List Word := []
  lanes : BitVec 4 := 0
  deriving DecidableEq, Repr

/-- A wait a W-class word has entered with the rest of its chain already in effect: the PC of the waiting word, the
PCs of the first issued word and of the last word of its chain, past which the slice advances, and the first number
that an instruction of that chain could take as outstanding. -/
structure Block where
  pc : Word := 0
  first : Word := 0
  last : Word := 0
  mark : Nat := 0
  /-- the barrier register it waits on, and whether that barrier's bytes have overrun meanwhile (R272). -/
  bar : Option Nat := none
  burst : Bool := false
  /-- what the word read when it issued and goes on waiting with: operands, sets of cores, ranges. -/
  args : List Nat := []
  /-- it is a BKNEXT or a BKDONE, which issues again on a resume (R401, R431). -/
  bk : Bool := false
  /-- the word is of latency class W, so that a slice that waits at it is blocked (R376). -/
  wait : Bool := false
  deriving DecidableEq, Repr

/-- One slice: its control state (Table 3-3) and its hold stack. -/
structure Slice where
  /-- has not executed EXIT. -/
  live : Bool := false
  pc : Word := 0
  /-- X. -/
  x : BitVec 4 := 0
  /-- the slices of this slice's issue group. -/
  grp : BitVec 8 := 0
  /-- clocks ready without issue, saturating at 65,535. -/
  age : Nat := 0
  /-- raised above every priority (R61). -/
  boost : Bool := false
  /-- the join wait and its identifier (R70). -/
  join : Option (BitVec 16) := none
  /-- arrival order of the join wait (R70). -/
  joinAt : Nat := 0
  /-- the loop stack, top entry first. -/
  loops : List LoopEntry := []
  rep : Option Rep := none
  /-- stopped by a trap (R456). -/
  stopped : Bool := false
  /-- frozen (R471, R488). -/
  frozen : Bool := false
  /-- in handler mode (R464). -/
  hnd : Bool := false
  asideLoops : List LoopEntry := []
  asideRep : Option Rep := none
  hold : List Hold := []
  /-- open lookahead windows: outstanding instruction and words left (R72). -/
  wins : List (Nat × Nat) := []
  block : Option Block := none
  /-- the BKNEXT words whose item had not come when the crew was saved, their PCs and whether they issued in handler mode:
  they issue again on resume (R83, R431). -/
  again : List (Word × Bool) := []
  deriving DecidableEq, Repr

/-- The register files of a gang. -/
structure Regs where
  /-- vector registers: register r of lane i at 32 r + i. -/
  v : List (Nat × Word) := []
  /-- the program's s0 to s63. -/
  s : List (Nat × Word) := []
  /-- the banked s56 to s63 (R463). -/
  bank : List (Nat × Word) := []
  /-- m1 to m7, bit i for lane i; m0 is not held (R104). -/
  m : List (Nat × Word) := []
  /-- generator state of each lane (R139). -/
  gen : List (Nat × Word) := []
  /-- segment registers 0 to 7. -/
  seg : List (Nat × Seg) := []
  /-- RNDSEED. -/
  rnd : Word := 0
  deriving DecidableEq, Repr

/-- A record of a failure that is delivered later (R188, R385, R421): the cause, and what the trap that delivers it
records as its detail and address. -/
structure AErr where
  cause : Cause := .mxRsv
  info : Word := 0
  addr : DWord := 0
  deriving DecidableEq, Repr

/-- The follow-on latch of a gang (R353): armed, the copies in flight in it, the sticky failure bit. -/
structure Latch where
  armed : Bool := false
  copies : List Nat := []
  failed : Bool := false
  deriving DecidableEq, Repr

/-- A gang: its place in its crew, its registers, its slices and its trap state. -/
structure Gang where
  /-- the crew's number. -/
  crew : Nat := 0
  /-- GANGID. -/
  ix : Nat := 0
  /-- the gang slot of the core it holds. -/
  slot : Nat := 0
  /-- NSLICE. -/
  nsl : Nat := 1
  r : Regs := {}
  slices : List Slice := []
  /-- the gang's own PRV (R454). -/
  prv : Bool := false
  /-- DBGCTL.SS. -/
  ss : Bool := false
  /-- DBGCTL.SA. -/
  sa : Bool := false
  /-- the record queue: the current record first once it is delivered (R460). -/
  recs : List TrapRec := []
  /-- the head of `recs` is the current record (R463). -/
  cur : Bool := false
  /-- MXERR (R188). -/
  mxerr : Option AErr := none
  /-- TKERR (R385). -/
  tkerr : Option AErr := none
  latch : Latch := {}
  /-- the structure register and its valid bit (R433). -/
  struct : Option (List Word) := none
  deriving DecidableEq, Repr

/-- A barrier register (Table 9-3). -/
structure Barrier where
  i : Bool := false
  p : Bool := false
  t : Bool := false
  bc : Bool := false
  xa : Bool := false
  td : Bool := false
  txb : Nat := 0
  dp : Nat := 0
  ce : BitVec 7 := 0
  arr : Nat := 0
  exp : Nat := 0
  ph : BitVec 8 := 0
  /-- what the trap that delivers CE records as its detail and address (R352, Table 15-3). -/
  info : Word := 0
  addr : DWord := 0
  deriving DecidableEq, Repr

/-- A BARD binding: gang index, barrier, copies still in flight, arrivals deferred (R273). -/
structure Binding where
  gang : Nat := 0
  bar : Nat := 0
  copies : Nat := 0
  arrivals : Nat := 0
  /-- its own number, which the copies it holds name. -/
  num : Nat := 0
  deriving DecidableEq, Repr

/-- A Pound queue (Table 10-1, R292). LN is the length of `lent`. -/
structure PQueue where
  i : Bool := false
  own : Nat := 0
  rb : Nat := 0
  cap : Nat := 0
  hd : Nat := 0
  cnt : Nat := 0
  lent : List Nat := []
  /-- allowances by producer. -/
  allow : List (Nat × Nat) := []
  /-- for each entry, oldest first, whether CPE made it (the scope of its acquire, R302). -/
  byCpe : List Bool := []
  /-- blocked pushes and pops in the order in which they blocked (R301): gang index and group. -/
  pushW : List (Nat × Nat) := []
  popW : List (Nat × Nat) := []
  deriving DecidableEq, Repr

/-- Where a crew stands. -/
inductive Place where
  /-- resident on a core. -/
  | on (core : Nat)
  /-- out, waiting to resume on a die (R379). -/
  | waiting (die : Nat)
  /-- out, waiting for the answer to a service notice (R465). -/
  | serviced (die : Nat)
  /-- ended, its resources not yet freed (R374): those of the core it was on, if any. -/
  | ended (core : Option Nat)
  deriving DecidableEq, Repr

/-- A crew's bucket and its pending bucket error (chapter 13). -/
structure CrewBkt where
  /-- the current bucket: its identity in the bucket table. -/
  cur : Option Nat := none
  /-- BKERR (R421). -/
  err : Option AErr := none
  deriving DecidableEq, Repr

/-- A crew: its record, its allocation and the state its gangs share. -/
structure Crew where
  place : Place := .waiting 0
  dom : Nat := 0
  que : Nat := 0
  /-- the kind word and the resource word of its record. -/
  kw : Word := 0
  rw : Word := 0
  /-- address of the task record (TREC). -/
  trec : DWord := 0
  /-- CREWID. -/
  crewid : Word := 0
  /-- the task or launch it belongs to. -/
  task : Nat := 0
  /-- Pound offset of its allocation; the lane segments follow it. -/
  pbase : Nat := 0
  /-- the slots it took are reserved slots (R371). -/
  rsv : Bool := false
  /-- time of its latest start or resume, and how long it was resident before (R461). -/
  since : Nat := 0
  ran : Nat := 0
  /-- its latest start was a resume (R376). -/
  resumed : Bool := false
  /-- every live slice has been blocked since this time (R461). -/
  blockedAt : Option Nat := none
  /-- ready time of its candidate entry while it is out. -/
  ready : Nat := 0
  /-- it is being evicted or swapped out: its slices stop at chain boundaries (R377). -/
  leaving : Option Cause := none
  deriving DecidableEq, Repr

/-- The engines' state of a crew: barriers, queues, pool, matrix state. -/
structure CrewEng where
  bars : List (Nat × Barrier) := []
  binds : List Binding := []
  /-- unbound copy counts, gang index times 16 plus barrier (R273). -/
  unbound : List (Nat × Nat) := []
  qs : List (Nat × PQueue) := []
  /-- PB, SPN and the lent pool slots (R293). -/
  pb : Nat := 0
  spn : Nat := 0
  lentPool : List Nat := []
  /-- format slots whose V is 1 (R168). -/
  fds : List (Nat × DWord) := []
  /-- the P bits of a0 to a7. -/
  tileP : BitVec 8 := 0
  /-- tile elements: 4,096 k + 64 m + n. -/
  acc : List (Nat × DWord) := []
  /-- the B-store window's bytes and its poisoned words. -/
  bst : List (Nat × BitVec 8) := []
  bstP : List (Nat × Bool) := []
  bkt : CrewBkt := {}
  deriving DecidableEq, Repr

/-- A failure of an outstanding instruction, gathered until it completes (R228). -/
structure Err where
  cause : Cause := .poisonRd
  lanes : Word := 0
  addr : DWord := 0
  detail : Word := 0
  deriving DecidableEq, Repr

/-- One word access of an outstanding load: the word's physical address, the lane's address, the lane, the byte shift
and byte count, and the destination key (vector register key 32 r + i, or scalar register). -/
structure Acc where
  pa : Nat := 0
  va : DWord := 0
  lane : Nat := 0
  sh : Nat := 0
  nb : Nat := 4
  dst : Nat := 0
  deriving DecidableEq, Repr

/-- What an outstanding L or A instruction is. -/
inductive OutKind where
  | load | loadU | atomic | sfu | matrix | mrq | graphics | ray
  deriving DecidableEq, Repr

/-- An outstanding L or A instruction (R47, R72, R73). -/
structure Out where
  kind : OutKind := .load
  gang : Nat := 0
  grp : BitVec 8 := 0
  pc : Word := 0
  npc : Word := 0
  /-- accesses whose data has not come. -/
  accs : List Acc := []
  /-- accesses that its core's L1 has served. -/
  hits : List Acc := []
  /-- replies still to come. -/
  left : Nat := 0
  /-- results gathered: vector register keys and scalar registers. -/
  wrV : List (Nat × Word) := []
  wrS : List (Nat × Word) := []
  /-- registers it will write, for the interlock. -/
  dstV : List Nat := []
  dstS : List Nat := []
  err : Option Err := none
  /-- the acquire to perform when it completes: none, or whether it is wide. -/
  acq : Option Bool := none
  /-- the group issued it in handler mode: its scalar results go to the banked s56 to s63 (R463, R464). -/
  hnd : Bool := false
  deriving DecidableEq, Repr

/-- What the last issued word came to: its effect was made, a trap was raised, or it did not issue. -/
inductive Issued where
  | done | trapped | held
  deriving DecidableEq, Repr

/-- The issuing context of a word: the gang and group, the word's PC, the word itself, the PC of the first issued
word of its chain and of its last word, the repetition, whether only this word retries, the first number that an
instruction of this chain can take as outstanding (R72), the gang as it stood before the chain (R29), and whether the
release sides of the chain's words have been performed (R518). -/
structure Cur where
  gang : Nat := 0
  grp : BitVec 8 := 0
  pc : Word := 0
  word : Word := 0
  first : Word := 0
  last : Word := 0
  rep : Option Nat := none
  retry : Bool := false
  mark : Nat := 0
  before : Option Gang := none
  /-- the domain's scope table before a chain of several words (R29). -/
  scopes : Option (List (Nat × BitVec 192)) := none
  released : Bool := false
  /-- the word is a BKNEXT that issues again on a resume: the slices' own chains stand where they are (R431). -/
  again : Bool := false
  /-- the mode of such a word, where it is not that of the slices now. -/
  mode : Option Bool := none
  deriving DecidableEq, Repr

end Sys2Proof.Machine
end

