-- ==== Sys2Proof/Machine/EngineTypes.lean ====
section
/-! DEFINITION. The plain data of the memory path and of the engines: L1 lines, directory entries, coherence messages,
translations, copies, matrix requests, sluice keys (chapters 6 to 11). -/

namespace Sys2Proof.Machine

/-- L1 sector states (Table 7-5). -/
inductive SecSt where
  | i | v | s | o
  deriving DecidableEq, Repr

/-- A present L1 line: the states of its four sectors, owned words, dirty words, poisoned words, its bytes. -/
structure L1Line where
  st : List SecSt := [.i, .i, .i, .i]
  om : BitVec 16 := 0
  dm : BitVec 16 := 0
  po : BitVec 16 := 0
  data : BitVec 512 := 0
  deriving DecidableEq, Repr

/-- A directory entry: 48 sharer bits and the owner of each owned word (R224); `used` orders it for replacement. -/
structure DirEnt where
  sharers : BitVec 48 := 0
  owners : List (Nat × Nat) := []
  used : Nat := 0
  deriving DecidableEq, Repr

/-- The requests a home handles (Table 7-8), the barrier unit's (R277) and a directory eviction (R226). -/
inductive ReqKind where
  | rdThr | rdSis | rdWis | rdOwn | wrThr | wrWis | push | writeback | atomic | barrier | evict
  deriving DecidableEq, Repr

/-- One lane of an atomic request: lane, word address, operand and compare values, destination register. -/
structure AtLane where
  lane : Nat := 0
  /-- the lane's address for a record. -/
  va : DWord := 0
  pa : Nat := 0
  v : DWord := 0
  v2 : DWord := 0
  dst : Nat := 0
  deriving DecidableEq, Repr

/-- A coherence request, from its creation until the home has done it. Bytes written are those of `wm`. -/
structure Req where
  id : Nat := 0
  kind : ReqKind := .rdThr
  /-- the requesting core. -/
  core : Nat := 0
  gang : Nat := 0
  dom : Nat := 0
  /-- 64-byte line number of the package address. -/
  line : Nat := 0
  words : BitVec 16 := 0
  wm : BitVec 64 := 0
  wd : BitVec 512 := 0
  /-- words written as poisoned. -/
  po : BitVec 16 := 0
  /-- the outstanding instruction the reply serves; 0 for none. -/
  out : Nat := 0
  /-- PC of the word, PC after its chain, and lanes, for a deferred fault (R228). -/
  pc : Word := 0
  npc : Word := 0
  lanes : Word := 0
  /-- the address of its lowest lane. -/
  va : DWord := 0
  /-- the incarnation number of the home's die when it was sent (R498). -/
  tinc : BitVec 8 := 0
  /-- the dies that it passes on its way, its home's die last; none where the home's die is its own (R490). -/
  route : List Nat := []
  /-- when it was made. -/
  made : Nat := 0
  /-- a push of evicted words, which needs no slot and which its home accepts at once (R222). -/
  evicted : Bool := false
  deriving DecidableEq, Repr

/-- The rest of a request: its place in the unit, the atomic's lanes and operation, the barrier unit's operation. -/
structure ReqX where
  r : Req := {}
  /-- waits in the staging queue without a slot (R210). -/
  staged : Bool := false
  /-- when it was made. -/
  at_ : Nat := 0
  boost : Bool := false
  /-- the home has taken it: recalls or invalidations are out. -/
  begun : Bool := false
  /-- a write that has been applied and waits for invalidations. -/
  applied : Bool := false
  /-- its packet was lost on a link (R496). -/
  lost : Bool := false
  /-- an atomic's operation, and whether it is of 64 bits. -/
  op : Nat := 0
  wide : Bool := false
  ats : List AtLane := []
  /-- an atomic's lanes that failed (R267), kept until its reply goes out. -/
  bad : Option Err := none
  /-- barrier unit: operation 0 init, 1 arrive, 2 wait, 3 test; slice count; token; destination; scope id; mask. -/
  bar : List Nat := []
  /-- values that owners have sent for a forwarded read: by word, the value and whether it is poisoned. -/
  got : List (Nat × (Word × Bool)) := []
  /-- its fill is dropped after it has served its access: an acquire or an engine's write came meanwhile. -/
  noFill : Bool := false
  deriving DecidableEq, Repr

/-- A home's message to an L1: recall, forwarded read or invalidation (R225). -/
inductive SnoopKind where
  | recall | fwdRd | inv
  deriving DecidableEq, Repr

/-- A message on its way to a core (recall, forwarded read) or a cluster (invalidation) for a request. -/
structure Snoop where
  kind : SnoopKind := .recall
  /-- the core, or for an invalidation the cluster. -/
  dest : Nat := 0
  line : Nat := 0
  words : BitVec 16 := 0
  req : Nat := 0
  /-- for an invalidation: the writing core, which is left out (R216). -/
  skip : Option Nat := none
  /-- the dies that it passes, its receiver's die last; none within a die (R490). -/
  route : List Nat := []
  /-- its sender's incarnation number (R498). -/
  inc : BitVec 8 := 0
  /-- words that the answer's flits bring poisoned (R495). -/
  po : BitVec 16 := 0
  /-- its packet was lost on a link (R496). -/
  lost : Bool := false
  deriving DecidableEq, Repr

/-- An invalidation acknowledgement on its way: its request, the die that sends it and the home's die (R216). -/
structure Ack where
  req : Nat := 0
  src : Nat := 0
  dst : Nat := 0
  route : List Nat := []
  inc : BitVec 8 := 0
  deriving DecidableEq, Repr

/-- An engine thread's request for a line homed on another die: the thread, its core, the incarnation number of the home's
die when it was sent, its way, when it was sent, what it has failed with, and the words that its flits bring poisoned
(R490, R495, R496, R498). -/
structure Pkt where
  who : Nat := 0
  core : Nat := 0
  line : Nat := 0
  tinc : BitVec 8 := 0
  route : List Nat := []
  made : Nat := 0
  fail : Option Cause := none
  /-- what the record of the failure names. -/
  info : Word := 0
  po : BitVec 16 := 0
  /-- its packet was lost on a link (R496). -/
  lost : Bool := false
  deriving DecidableEq, Repr

/-- A home's answer to a request. -/
inductive ReplyKind where
  /-- read data, ownership, or an atomic's results. -/
  | data
  /-- a store's acknowledgement: applied, or applied and done. -/
  | ack | done
  /-- refused, with the cause. -/
  | error (c : Cause)
  deriving DecidableEq, Repr

/-- A reply on its way to the requesting core: the request, the line's bytes and poison, results of atomic lanes. -/
structure Reply where
  kind : ReplyKind := .data
  r : Req := {}
  data : BitVec 512 := 0
  po : BitVec 16 := 0
  /-- atomic or barrier results: lane or register key and value. -/
  res : List (Nat × DWord) := []
  /-- lanes that failed and their cause (R267). -/
  bad : Option Err := none
  /-- the word has been invalidated while the fill was pending (R221). -/
  dropFill : Bool := false
  /-- an earlier message of the request has freed its slot (R210). -/
  freed : Bool := false
  /-- the dies that it passes on its way back (R490). -/
  route : List Nat := []
  /-- its sender's incarnation number (R498). -/
  inc : BitVec 8 := 0
  /-- its packet was lost on a link (R496). -/
  lost : Bool := false
  ats : List AtLane := []
  /-- for a barrier's wait, whether its acquire is wide. -/
  wide : Bool := false
  deriving DecidableEq, Repr

/-- A deferred fault that waits for its groups' next chain boundary (R228): gang, PC of the instruction, failure. -/
structure Late where
  gang : Nat := 0
  pc : Word := 0
  err : Err := {}
  deriving DecidableEq, Repr

/-- A wait registered at the barrier unit (R281). -/
structure BarWait where
  gang : Nat := 0
  grp : BitVec 8 := 0
  pa : Nat := 0
  token : Nat := 0
  /-- 0: registered; 1: woken. -/
  woken : Bool := false
  /-- what a fence has made it raise when it wakes (R280). -/
  fail : Option Cause := none
  /-- the home's registrations were full: the core repeats the request (R281), from this time on. -/
  repeats : Bool := false
  at_ : Nat := 0
  deriving DecidableEq, Repr

/-- A translation held by a TLB: domain, first virtual address and size of the page, the leaf entry. -/
structure TlbEnt where
  dom : Nat := 0
  va : Nat := 0
  size : Nat := 0
  leaf : DWord := 0
  deriving DecidableEq, Repr

/-- One chunk of a copy: destination and source space addresses (virtual in global and host) and its length. -/
structure CpPart where
  dst : Nat := 0
  src : Nat := 0
  n : Nat := 4
  /-- the lane whose bytes these are; 0 in the tile form. -/
  lane : Nat := 0
  deriving DecidableEq, Repr

/-- A copy in flight (R332 to R345). Addresses are virtual in the global and host spaces, package addresses in the
Pounds and the Basin, offsets of the crew's window in accumulator memory and the B-store. -/
structure Copy where
  gang : Nat := 0
  core : Nat := 0
  dom : Nat := 0
  /-- FLG: 0 CP or CPT, 1 CPX, 2 CPM, 3 CPE. -/
  flg : Nat := 0
  tile : Bool := false
  sps : Nat := 0
  spd : Nat := 0
  bar : Nat := 0
  /-- destination line operations still to land, each with its parts. -/
  lines : List (List CpPart) := []
  /-- source blocks (address / 64) still to read; source words read, by address, with their poison; blocks whose read was
  refused. -/
  need : List Nat := []
  got : List (Nat × (Word × Bool)) := []
  bad : List (Nat × Err) := []
  /-- the first failure. -/
  fail : Option Err := none
  deriving DecidableEq, Repr

/-- A copy's multicast mask, its enqueue and its scoreboard ranges. -/
structure CopyX where
  c : Copy := {}
  mask : Nat := 0
  /-- handle, target crew, queue, producer. -/
  enq : Option (Word × Nat × Nat × Nat) := none
  /-- the enqueue waits in the target core's pending list (R303). -/
  pended : Bool := false
  /-- the enqueue has taken place. -/
  enqDone : Bool := false
  /-- scoreboard entries: core, lowest and highest Pound byte (R345). -/
  ranges : List (Nat × Nat × Nat) := []
  /-- the binding that holds it (R273); none while it is unbound, and 0 where a BINIT has freed it. -/
  bound : Option Nat := none
  /-- bytes subtracted from TXB so far. -/
  landed : Nat := 0
  total : Nat := 0
  deriving DecidableEq, Repr

/-- A merge table entry (R347). -/
structure MergeEnt where
  die : Nat := 0
  slice : Nat := 0
  dom : Nat := 0
  line : Nat := 0
  mask : Nat := 0
  /-- requesters: copy and line index. -/
  who : List (Nat × Nat) := []
  served : List Nat := []
  sent : Bool := false
  at_ : Nat := 0
  deriving DecidableEq, Repr

/-- Where a matrix request stands (R176, R354). -/
inductive MxSt where
  | follow | post | table | running
  deriving DecidableEq, Repr

/-- The matrix request kinds, numbered as EDETAIL's kind field takes them: MMA, MMZ, MDR, MLD. -/
inductive MxKind where
  | mma | mmz | mdr | mld
  deriving DecidableEq, Repr

/-- A matrix request (R176). -/
structure MxReq where
  kind : MxKind := .mma
  gang : Nat := 0
  tile : Nat := 0
  /-- the A or memory descriptor, and the B descriptor or amax address. -/
  a : List Word := []
  b : List Word := []
  fd : DWord := 0
  z : Bool := false
  st : MxSt := .post
  /-- the outstanding instruction that completes at acceptance; 0 for a captured follow-on. -/
  out : Nat := 0
  /-- copies a captured follow-on waits for, and whether one failed. -/
  copies : List Nat := []
  dropped : Bool := false
  deriving DecidableEq, Repr

/-- A matrix request's place in the table and its failure. -/
structure MxReqX where
  q : MxReq := {}
  /-- its number in the order of posting, then in that of acceptance, and the time of its acceptance. -/
  order : Nat := 0
  since : Nat := 0
  /-- how long it was in the table without a grant before its crew was last out (R181). -/
  waited : Nat := 0
  /-- eligible since this time. -/
  elig : Option Nat := none
  boost : Bool := false
  fail : Option AErr := none
  /-- MRQ waits that count it: outstanding instructions. -/
  mrq : List Nat := []
  deriving DecidableEq, Repr

/-- A sluice key's entry (Table 10-5). -/
structure SlKey where
  pol : Bool := false
  brk : Bool := false
  hld : Bool := false
  clp : Bool := false
  hn : Nat := 0
  rln : Nat := 0
  fin : Word := 0
  ne : Word := 0
  /-- it lies in the overflow table (R313). -/
  ovf : Bool := false
  /-- its place there. -/
  ix : Nat := 0
  /-- the holding gangs (R321, R322). -/
  holders : List Nat := []
  used : Nat := 0
  deriving DecidableEq, Repr

/-- A sluice request's kind. -/
inductive SlKind where
  | enter | init | close
  deriving DecidableEq, Repr

/-- A sluice request from its issue until it is granted, applied, failed or withdrawn. -/
structure SlReq where
  kind : SlKind := .enter
  dom : Nat := 0
  ns : Nat := 0
  key : Word := 0
  first : Word := 0
  n : Nat := 0
  gang : Nat := 0
  grp : BitVec 8 := 0
  pc : Word := 0
  lanes : Word := 0
  /-- the set of the SLE's scope, as it read it at its issue. -/
  scope : BitVec 192 := 0
  skip : Bool := false
  /-- registered at the home (it waits there), and its running timer in nanoseconds. -/
  registered : Bool := false
  timer : Nat := 0
  /-- when it last found the home's request buffer full (R315). -/
  at_ : Nat := 0
  /-- a killed waiter's request kept as a skip mark (R321). -/
  mark : Bool := false
  /-- the incarnation number of the home's die when it was sent, its way and when it was sent (R490, R498). -/
  tinc : BitVec 8 := 0
  route : List Nat := []
  made : Nat := 0
  /-- the home's answer: 0 none yet, 1 granted or applied. -/
  granted : Bool := false
  fail : Option Cause := none
  /-- the link that a FAB_UNCORR names. -/
  info : Word := 0
  deriving DecidableEq, Repr

/-- A release sent by SLX (R320), or the kill of a holder: key, number of lanes, gang, whether it waits for a fenced home
(R321). -/
structure SlRel where
  dom : Nat := 0
  ns : Nat := 0
  key : Word := 0
  n : Nat := 0
  gang : Nat := 0
  /-- the slice that released. -/
  slice : Nat := 0
  kept : Bool := false
  /-- the lanes of a killed holder, whose key's home was fenced. -/
  kill : Bool := false
  deriving DecidableEq, Repr

end Sys2Proof.Machine
end

