-- ==== Sys2Proof/Machine/SchedTypes.lean ====
section
/-! DEFINITION. The plain data of the scheduler and of the work domains: task records, queues, deques, slot tables,
domain settings (chapters 8, 12, 15 and 16). -/

namespace Sys2Proof.Machine

/-- A task record's 64 bytes by field (Table 12-1). -/
structure TaskRec where
  entry : DWord := 0
  arg : DWord := 0
  coord : DWord := 0
  succ : DWord := 0
  kw : Word := 0
  rw : Word := 0
  inl : List Word := [0, 0, 0, 0, 0, 0]
  deriving DecidableEq, Repr

/-- A host queue of a domain (R364, Table 12-5) and its floors (R381). -/
structure HostQueue where
  enabled : Bool := false
  /-- the ring holds 2^k records from this virtual address. -/
  k : Nat := 6
  ring : DWord := 0
  tail : Word := 0
  head : Word := 0
  stop : Bool := false
  cause : BitVec 7 := 0
  /-- its gangs start privileged (R454). -/
  priv : Bool := false
  df : Nat := 0
  ff : Nat := 0
  /-- the RSV slots per core asked for, and on which dies (R511). -/
  rsv : Nat := 0
  dmask : BitVec 4 := 0
  deriving DecidableEq, Repr

/-- A deque entry: a record ready to start (R367), its queue and ready time; `core` fixes a LAUNCH crew's place
(R368), `bucket` is the bucket a KIND 3 entry carries. -/
structure DqEnt where
  record : TaskRec := {}
  trec : DWord := 0
  dom : Nat := 0
  que : Nat := 0
  ready : Nat := 0
  core : Option Nat := none
  task : Nat := 0
  bucket : Option Nat := none
  /-- a die has taken it from another's deque: it is not taken again (R369). -/
  stolen : Bool := false
  deriving DecidableEq, Repr

/-- A task or launch in progress: crews still to end, its record's SUCC and queue, its Basin allocation (R374). -/
structure Task where
  dom : Nat := 0
  que : Nat := 0
  succ : DWord := 0
  left : Nat := 0
  /-- Basin allocations: die, base and size. -/
  basin : List (Nat × Nat × Nat) := []
  /-- it is a launch; its CMK, and the CREWIDs of its crews that have ended (R199). -/
  launch : Bool := false
  cmk : BitVec 48 := 0
  ended : List Nat := []
  /-- the cores its crews have run on. -/
  cores : List Nat := []
  /-- its crews, whose stores it waits for. -/
  crews : List Nat := []
  /-- the frame record it is a bucket of (R393). -/
  parent : Option Nat := none
  deriving DecidableEq, Repr

/-- A range: base and size in bytes. -/
structure Range where
  base : Nat := 0
  size : Nat := 0
  deriving DecidableEq, Repr

/-- Translation and code settings of a domain (Table 12-7, Table 15-1, R206). -/
structure DomMap where
  /-- the translation root: die and die-local address. -/
  root : Option (Nat × Nat) := none
  /-- the carve-out's range on each die. -/
  carve : List (Nat × Range) := []
  host : Option Range := none
  code : Option Range := none
  handler : Option Range := none
  /-- scope table entries 4 to 31 whose V is 1 (Table 8-1). -/
  scopes : List (Nat × BitVec 192) := []
  deriving DecidableEq, Repr

/-- The other settings of a domain (Table 12-7, Table 15-1). -/
structure DomSet where
  /-- context slots: die and die-local base of each, and the crew that holds it. -/
  ctx : List (Nat × Nat) := []
  ctxUse : List (Nat × Nat) := []
  fen : Nat := 0
  /-- sluice overflow entries. -/
  slOvf : Nat := 0
  /-- where the overflow table lies: die and die-local base (R313). -/
  ovfAt : Option (Nat × Nat) := none
  slTimeout : Nat := 1000000
  mxTimeout : Nat := 1000000
  window : Nat := 1024
  hmask : BitVec 96 := 0
  /-- the dump area: die and die-local base. -/
  dump : Option (Nat × Nat) := none
  /-- the wake mailboxes that firmware has placed: die and die-local base (R481). -/
  mailAt : Option (Nat × Nat) := none
  blocked : Nat := 0
  run : Nat := 0
  deriving DecidableEq, Repr

/-- A lockkeeper core's wake mailbox for a domain (R481), a ring of 16 words in device memory: words written, words that
firmware has taken, and whether the core has been woken for the rest. -/
structure MailRing where
  put : Nat := 0
  got : Nat := 0
  woken : Bool := false
  deriving DecidableEq, Repr

/-- A work domain: its settings, its queues by number and its lockkeeper wake mailboxes (R481). -/
structure Domain where
  map : DomMap := {}
  set_ : DomSet := {}
  queues : List (Nat × HostQueue) := []
  /-- wake mailboxes by lockkeeper core. -/
  mail : List (Nat × MailRing) := []
  deriving DecidableEq, Repr

/-- A reserve word's amounts: registers, Pound KiB, tiles (R370). -/
structure ReserveW where
  kr : Nat := 0
  kp : Nat := 0
  kt : Nat := 0
  deriving DecidableEq, Repr

/-- A spawn engine thread (R386): record address, queue, gang, its number in the order of forks, the record once it has
been read, and whether a push of its release met a fenced home. -/
structure Spawn where
  num : Nat := 0
  words : Option (List Word) := none
  bad : Bool := false
  gang : Nat := 0
  dom : Nat := 0
  que : Nat := 0
  addr : Nat := 0
  va : DWord := 0
  core : Nat := 0
  deriving DecidableEq, Repr

/-- A SOFTI in the background: the gang, its core, the target word (R481). -/
structure Softi where
  gang : Nat := 0
  core : Nat := 0
  dom : Nat := 0
  word : Word := 0
  failed : Bool := false
  /-- the first request number that is not earlier than it. -/
  mark : Nat := 0
  deriving DecidableEq, Repr

end Sys2Proof.Machine
end

