-- ==== Sys2Proof/Machine/GfxTypes.lean ====
section
/-! DEFINITION. The plain data of the micropolygon path and of the ray units (chapters 13 and 14). -/

namespace Sys2Proof.Machine

/-- A frame descriptor's fields (Table 13-1). -/
structure FrameDesc where
  sbuf : Nat := 0
  pat : Nat := 0
  fw : Nat := 0
  fh : Nat := 0
  nsl : Nat := 0
  ftag : Nat := 0
  quo : Nat := 0
  clr : DWord := 0
  clz : Word := 0
  deriving DecidableEq, Repr

/-- A patch: the words of its record (R403) and its split depth (R405). -/
structure Patch where
  w : List Word := []
  depth : Nat := 0
  deriving DecidableEq, Repr

/-- A frame record at the binner (R393 to R395): its record, its descriptor once it has been read, the next patch, the
patch lists by the row-major number of their bucket, the number of its first bucket once they are made, and how many
of them are placed. -/
structure Frame where
  dom : Nat := 0
  que : Nat := 0
  task : Nat := 0
  record : TaskRec := {}
  fdAddr : DWord := 0
  desc : Option FrameDesc := none
  next : Nat := 0
  lists : List (Nat × List Patch) := []
  made : Option Nat := none
  placed : Nat := 0
  /-- it came from a host queue, whose HEAD still stands on its record (R366). -/
  atHead : Bool := false
  deriving DecidableEq, Repr

/-- A patch slot: its patch, whether BKNEXT has handed it out (R407), whether it lives in the fen. -/
structure PatchSlot where
  patch : Patch := {}
  handed : Bool := false
  inFen : Bool := false
  deriving DecidableEq, Repr

/-- A grid (R406 to R410): counts, the patch it was diced from, six vertex input position words a vertex, the output
words of each vertex that has been written, the batch cursor. -/
structure Grid where
  n : Nat := 1
  m : Nat := 1
  patch : Patch := {}
  vin : List Word := []
  vout : List (Nat × List Word) := []
  cursor : Nat := 0
  handed : Bool := false
  /-- received by forwarding: shaded already, never handed out. -/
  received : Bool := false
  rank : Option Nat := none
  gen : Nat := 0
  inFen : Bool := false
  /-- it is forwarded to buckets inside this one only: the place in frame order of the bucket it was sent to. -/
  scope : List Nat := []
  deriving DecidableEq, Repr

/-- Where a bucket stands: in the fen's lists, in its die's bucket store, parked, closed with its quota still held,
and gone from the store. -/
inductive BktSt where
  | waiting | resident | parked | closed | released
  deriving DecidableEq, Repr

/-- A bucket's identity: its frame, its record, its origin, width and place in frame order (R400): the row-major number
of its 32 x 32 bucket, then the child numbers of its splits. -/
structure BktId where
  dom : Nat := 0
  que : Nat := 0
  /-- the frame record's task. -/
  task : Nat := 0
  record : TaskRec := {}
  fdAddr : DWord := 0
  bx : Nat := 0
  byy : Nat := 0
  bw : Nat := 32
  order : List Nat := []
  deriving DecidableEq, Repr

/-- A bucket's progress counters and flags (Table 13-2, R400). -/
structure BktCnt where
  ngr : Nat := 0
  nem : Nat := 0
  occ : Nat := 64
  split : Bool := false
  fen : Bool := false
  /-- BKNEXT has handed out a grid. -/
  handedGrid : Bool := false
  /-- BKDONE has been issued. -/
  done : Bool := false
  /-- it takes no samples (R397). -/
  dead : Bool := false
  deriving DecidableEq, Repr

/-- A bucket (13.2). -/
structure Bucket where
  id : BktId := {}
  st : BktSt := .waiting
  die : Nat := 0
  /-- the crew that holds it; 0 before its crew has started. -/
  crew : Nat := 0
  desc : FrameDesc := {}
  cnt : BktCnt := {}
  slots : List (Nat × PatchSlot) := []
  grids : List (Nat × Grid) := []
  gens : List (Nat × Nat) := []
  pattern : List DWord := []
  /-- sample records that differ from the clear values: colour and depth by (16,384 y + x) 64 + k. -/
  samples : List (Nat × (DWord × Word)) := []
  /-- patches and grids in its fen list (R397, R401). -/
  inP : List Patch := []
  inG : List Grid := []
  /-- a failure found before its crew started. -/
  early : Option AErr := none
  deriving DecidableEq, Repr

/-- A dicer job (R422): its bucket, its number in the order of forks, its gang, its patch and slot or the address of its
record, and the forced counts. -/
structure DicerJob where
  bucket : Nat := 0
  num : Nat := 0
  gang : Nat := 0
  crew : Nat := 0
  core : Nat := 0
  slot : Nat := 0
  patch : Option Patch := none
  va : DWord := 0
  fn : Nat := 0
  fm : Nat := 0
  /-- words of the record read so far, by address. -/
  got : List (DWord × Word) := []
  deriving DecidableEq, Repr

/-- A write-back job (R424): records as vertex index and ten words. -/
structure WbJob where
  bucket : Nat := 0
  grid : Nat := 0
  recs : List (Nat × List Word) := []
  deriving DecidableEq, Repr

/-- An STU job (R410, R418): the tiles it has done and the failure that ended it. -/
structure StuJob where
  bucket : Nat := 0
  grid : Nat := 0
  tiles : Nat := 0
  failed : Bool := false
  deriving DecidableEq, Repr

/-- The best hit of a query (R441): t, b1, b2, facing, triangle, level, cluster. -/
structure RayHit where
  t : Word := 0
  b1 : Word := 0
  b2 : Word := 0
  back : Bool := false
  tri : Nat := 0
  lvl : Nat := 0
  cid : Word := 0
  deriving DecidableEq, Repr

/-- How a query ended: 0 MISS, 1 HIT, 2 BUDGET, or a failure. -/
inductive RayEnd where
  | fin (st : Nat)
  | fail (e : AErr)
  deriving DecidableEq, Repr

/-- A ray slot that is not FREE (R432, R448): ray state, descriptor, stack of reference and distance, tcur, best hit,
steps; BUSY while `done` is none. -/
structure RaySlot where
  /-- its number in the order of forks. -/
  num : Nat := 0
  ray : List Word := []
  desc : List Word := []
  stack : List (Word × Word) := []
  tcur : Word := 0
  best : Option RayHit := none
  steps : Nat := 0
  /-- its root has been pushed. -/
  begun : Bool := false
  /-- words that the visit under way has read, by address (R447). -/
  got : List (DWord × Word) := []
  done : Option RayEnd := none
  deriving DecidableEq, Repr

end Sys2Proof.Machine
end

