-- ==== Sys2Proof/Machine/HostTypes.lean ====
section
/-! DEFINITION. The plain data of the dies, the fabric, the host interface and management (chapter 16). -/

namespace Sys2Proof.Machine

/-- A link's word of an error block (Table 16-4, words 2 to 4). -/
structure LinkWord where
  up : Bool := true
  unc : Nat := 0
  rpl : Nat := 0
  deriving DecidableEq, Repr

/-- A die's state (Table 16-4, word 0 ST). -/
inductive DieSt where
  | admitted | fenced | inReset | retraining
  deriving DecidableEq, Repr

/-- A die's error counters (Table 16-4, words 6 to 12). -/
structure ErrCnt where
  cl2 : Word := 0
  cdr : Word := 0
  udr : Word := 0
  psn : Word := 0
  lcause : BitVec 7 := 0
  laddr : DWord := 0
  deriving DecidableEq, Repr

/-- A die: incarnation, table of current incarnations, state, fence count, link words, lost lines, error counters. -/
structure Die where
  inc : BitVec 8 := 1
  table : List (BitVec 8) := [1, 1, 1, 1, 1]
  st : DieSt := .admitted
  ff : Bool := false
  fcnt : Word := 0
  links : List LinkWord := [{}, {}, {}]
  /-- lost lines (R497) by die-local line number, and whether the table has been full. -/
  lost : List (Nat × Bool) := []
  full : Bool := false
  err : ErrCnt := {}
  deriving DecidableEq, Repr

/-- A fence in progress (R501, R502): die, whether it is a fault fence, WAIT, the step of Table 16-3 reached (0 while
R501 prepares), when it began, and whether the mailbox waits for it. -/
structure Fence where
  die : Nat := 0
  fault : Bool := false
  wait : Bool := false
  step : Nat := 0
  since : Nat := 0
  /-- when the step reached began. -/
  at_ : Nat := 0
  mailbox : Bool := false
  /-- the die's memory is to be cleared (step 5's last column). -/
  zero : Bool := false
  deriving DecidableEq, Repr

/-- A flit of a packet before it is sent: bytes 0 to 55, channel and class, whether it is a data flit, the sender die, the
message it carries and its place among that message's data flits (R493). -/
structure PktFlit where
  pl : Nat := 0
  hd : Nat := 0
  data : Bool := false
  sd : Nat := 0
  msg : Nat := 0
  part : Nat := 0
  deriving DecidableEq, Repr

/-- A flit that has been sent, with the message it carries. -/
structure SentFlit where
  f : BitVec 512 := 0
  msg : Nat := 0
  part : Nat := 0
  deriving DecidableEq, Repr

/-- One direction of a link: sending die, receiving die, flits on the way, the replay buffer, the next sequence
number sent, the next expected, replays of the first bad flit (R493, R494). -/
structure LinkDir where
  src : Nat := 0
  dst : Nat := 0
  /-- the flits of the packet being sent that are still to be sent. -/
  pend : List PktFlit := []
  wire : List SentFlit := []
  buffer : List SentFlit := []
  seqTx : Nat := 0
  seqRx : Nat := 0
  fails : Nat := 0
  /-- the receiver has asked for a replay from `seqRx`. -/
  replay : Bool := false
  /-- flits accepted, with whether they are poisoned. -/
  got : List (BitVec 512 × Bool) := []
  /-- flits dropped for their incarnation (R498). -/
  dropped : Nat := 0
  deriving DecidableEq, Repr

/-- A notice not yet in its ring (R510): domain and its words 0 to 14, without the sequence number. -/
structure Notice where
  dom : Nat := 0
  rcd : TrapRec := {}
  kind : Nat := 0
  w12 : Word := 0
  w14 : Word := 0
  seq : Word := 0
  deriving DecidableEq, Repr

/-- A service record that waits for its answer (R465): its notice's sequence number, the domain, crew and gang. -/
structure Service where
  seq : Word := 0
  dom : Nat := 0
  crew : Nat := 0
  gang : Nat := 0
  rcd : TrapRec := {}
  /-- firmware answers it itself (R505). -/
  firm : Bool := false
  deriving DecidableEq, Repr

/-- The mailbox registers (R511). DESIGN CHOICE: notes/assumptions/127. -/
structure Mailbox where
  cmd : Word := 0
  args : List Word := [0, 0, 0, 0, 0, 0]
  busy : Bool := false
  result : BitVec 8 := 0
  /-- the result of the running command once its effect is made: its completion is still to be signalled. -/
  fin : Option (BitVec 8) := none
  /-- a translation flush in progress: its phase, and the number below which accesses are of before it (R209). -/
  flush : Option (Nat × Nat) := none
  deriving DecidableEq, Repr

/-- Notice ring registers of a domain in BAR0 (R510): K, HEAD, TAIL, OVF, BASE and the notice count. -/
structure RingRegs where
  base : DWord := 0
  k : BitVec 8 := 0
  head : Word := 0
  tail : Word := 0
  ovf : Word := 0
  seq : Word := 0
  deriving DecidableEq, Repr

/-- The power state of the device. -/
inductive PowerSt where
  /-- neither flash slot verified (R513). -/
  | recovery
  | d0 | d3hot | d3cold
  deriving DecidableEq, Repr

/-- The board block and the limits (R517): a PLD-4M or PLD-4P, the power and board-input limits taken at boot, and the
power limit now. -/
structure PowerLim where
  is4P : Bool := false
  defLimit : Nat := 1500
  defBoard : Nat := 1650
  limit : Nat := 1500
  /-- the last board-input power written, and when. -/
  boardPower : Option (Nat × Nat) := none
  deriving DecidableEq, Repr

/-- Management state (R512 to R517). DESIGN CHOICE: notes/assumptions/12. -/
structure Mgmt where
  power : PowerSt := .d0
  lim : PowerLim := {}
  /-- compute clock in MHz; the clocks stop at 110 degrees (R516). -/
  clock : Nat := 2300
  stopped : Bool := false
  throttle : BitVec 3 := 0
  /-- telemetry block words (R515). -/
  tele : List (Nat × Word) := []
  /-- I3C dynamic address. -/
  i3c : Option Nat := none
  /-- flash slots A and B hold an image that verifies (R513). -/
  flash : List Bool := [true, true]
  /-- board blocks of the two slots: power limit and board-input limit. -/
  boards : List (Option (Nat × Nat)) := [none, none]
  gib : Nat := 90
  deriving DecidableEq, Repr

/-- How a host read through BAR2 completed (R509): with a value, as Unsupported Request, as Completer Abort. DESIGN CHOICE: notes/assumptions/130. -/
inductive ReadEnd where
  | value (w : Word)
  | unsupported
  | abort
  deriving DecidableEq, Repr

/-- The host interface (16.6). -/
structure HostIf where
  mbox : Mailbox := {}
  rings : List (Nat × RingRegs) := []
  aper : List (Nat × DWord) := []
  /-- MSI-X table words, pending bits, and vectors signalled, latest first. -/
  msix : List (Nat × Word) := []
  pending : BitVec 64 := 0
  sent : List Nat := []
  notices : List Notice := []
  services : List Service := []
  /-- the last BAR2 read's completion. -/
  lastRead : Option ReadEnd := none
  /-- BAR2's size, as a power of two in bytes (R507). DESIGN CHOICE: notes/assumptions/176. -/
  bar2 : Nat := 36
  /-- the uncorrectable errors that AER has recorded (R507). PRESUMED: notes/assumptions/177. -/
  aer : Word := 0
  deriving DecidableEq, Repr

end Sys2Proof.Machine
end

