-- ==== Sys2Proof/Machine/Sparse.lean ====
section
/-! DEFINITION. Sparse maps: a list of (key, value) pairs with strictly rising keys. A map that has a default value
lists no entry equal to it, so that equal maps are equal lists. Memory, register files and tables are held so. -/

namespace Sys2Proof.Machine

universe u

/-- The entry at `k`, if one is listed. -/
def smFind {α : Type u} : List (Nat × α) → Nat → Option α
  | [], _ => none
  | (j, v) :: m, k => if j = k then some v else smFind m k

/-- The value at `k`: what is listed, or the default `d`. -/
def smGet {α : Type u} (d : α) (m : List (Nat × α)) (k : Nat) : α := (smFind m k).getD d

/-- The map without any entry at `k`. -/
def smErase {α : Type u} : List (Nat × α) → Nat → List (Nat × α)
  | [], _ => []
  | (j, v) :: m, k => if j = k then smErase m k else (j, v) :: smErase m k

/-- The pair placed before the first greater key. -/
def smInsert {α : Type u} : List (Nat × α) → Nat → α → List (Nat × α)
  | [], k, v => [(k, v)]
  | (j, w) :: m, k, v => if k < j then (k, v) :: (j, w) :: m else (j, w) :: smInsert m k v

/-- The map with `v` at `k`, whatever stood there (for maps without a default). -/
def smSet {α : Type u} (m : List (Nat × α)) (k : Nat) (v : α) : List (Nat × α) := smInsert (smErase m k) k v

/-- The map with `v` at `k`, keeping the canonical form: a default value is not listed. -/
def smPut {α : Type u} [DecidableEq α] (d : α) (m : List (Nat × α)) (k : Nat) (v : α) : List (Nat × α) :=
  if v = d then smErase m k else smSet m k v

/-- `smPut` for a list of pairs, in order: a later pair wins. -/
def smPuts {α : Type u} [DecidableEq α] (d : α) : List (Nat × α) → List (Nat × α) → List (Nat × α)
  | m, [] => m
  | m, (k, v) :: ps => smPuts d (smPut d m k v) ps

/-- Keys strictly rising. -/
def smSorted {α : Type u} : List (Nat × α) → Bool
  | [] => true
  | [_] => true
  | (i, _) :: (j, w) :: m => decide (i < j) && smSorted ((j, w) :: m)

/-- The canonical form: strictly rising keys and no listed default. -/
def smWf {α : Type u} [DecidableEq α] (d : α) (m : List (Nat × α)) : Bool :=
  smSorted m && m.all (fun p => decide (p.2 ≠ d))

/-- The entry at `k` changed by `f`, nothing where none is listed. -/
def smModify {α : Type u} (m : List (Nat × α)) (k : Nat) (f : α → α) : List (Nat × α) :=
  m.map (fun p => if p.1 = k then (p.1, f p.2) else p)

/-- The `k`-th element of a list removed. -/
def dropAt {α : Type u} : List α → Nat → List α
  | [], _ => []
  | _ :: l, 0 => l
  | a :: l, k + 1 => a :: dropAt l k

/-- The `k`-th element of a list replaced. -/
def putAt {α : Type u} : List α → Nat → α → List α
  | [], _, _ => []
  | _ :: l, 0, b => b :: l
  | a :: l, k + 1, b => a :: putAt l k b

/-- The least natural number below `n` that satisfies `p`. -/
def leastBelow (p : Nat → Bool) (n : Nat) : Option Nat := (List.range n).find? p

end Sys2Proof.Machine
end

