-- ==== Sys2Proof/Machine/State.lean ====
section
/-! DEFINITION. The machine's state, its faults and refusals, and the state right after reset. Plain data throughout:
every structure here is compared and written out. -/

namespace Sys2Proof.Machine

/-- Why the machine stops with a fault. DESIGN CHOICE: notes/assumptions/7. -/
inductive Fault where
  /-- Raised by BAR2_WRITE and BAR2_READ when the aperture selects a die-local address at or beyond the die's usable
  memory (R207), where the specification gives no storage and no completion. Safe: the model stops. -/
  | absentAddress
  deriving DecidableEq, Repr

/-- Why an instruction has no meaning. -/
inductive Refusal where
  /-- Raised by a dispatch arm whose instruction has no meaning yet. Safe: the model stops. -/
  | notModelled (mnemonic : String)
  deriving DecidableEq, Repr

/-- What moves next: an issue group of a gang, or a step of an engine, a home, the scheduler or the host side. -/
inductive Pick where
  | issue (gang : Nat) (grp : BitVec 8)
  | event (i : Instr) (ops : List Nat)
  deriving DecidableEq, Repr

/-- The resident and waiting work. Gang `16 c + g` is gang g of crew c. -/
structure Work where
  gangs : List (Nat × Gang) := []
  crews : List (Nat × Crew) := []
  engs : List (Nat × CrewEng) := []
  outs : List (Nat × Out) := []
  tasks : List (Nat × Task) := []
  /-- the next unused number for crews, tasks, requests and engine threads. -/
  next : Nat := 1
  cur : Option Cur := none
  issued : Issued := .done
  /-- stalls at a word that names a destination of an outstanding instruction, by core (R47). -/
  stalls : List (Nat × Nat) := []
  deriving DecidableEq, Repr

/-- The memory path: L1s, directories, messages, translations, instruction caches. -/
structure Coh where
  /-- L1 lines: core 2^60 + line. -/
  l1 : List (Nat × L1Line) := []
  dir : List (Nat × DirEnt) := []
  reqs : List ReqX := []
  snoops : List Snoop := []
  /-- invalidation acknowledgements on their way. -/
  acks : List Ack := []
  replies : List Reply := []
  waits : List BarWait := []
  /-- the memory barrier objects on which the barrier unit has acted, by package address (R280). -/
  objs : List Nat := []
  /-- objects that stores alone have made, as a fence that breaks them found them: package address and words (R280). -/
  breaks : List (Nat × List Word) := []
  /-- deferred faults on their way to a chain boundary (R228). -/
  late : List Late := []
  /-- translations: core 64 + way, and die 8,192 + way (R208). -/
  tlb1 : List (Nat × TlbEnt) := []
  tlb2 : List (Nat × TlbEnt) := []
  /-- instruction cache lines: ((core 8 + domain) 2^60 + line). -/
  icache : List (Nat × BitVec 512) := []
  deriving DecidableEq, Repr

/-- The engines: transfer units, merge tables, matrix engines, sluices. -/
structure Eng where
  copies : List (Nat × CopyX) := []
  merges : List MergeEnt := []
  mx : List (Nat × MxReqX) := []
  /-- the quadrant that each core's reservation table served last (R176). -/
  mxLast : List (Nat × Nat) := []
  keys : List (Nat × SlKey) := []
  slreqs : List SlReq := []
  slrels : List SlRel := []
  /-- requests of engine threads on their way to another die (R490). -/
  pkts : List Pkt := []
  deriving DecidableEq, Repr

/-- The scheduler: domains, deques, slot tables, background spawns and notices. -/
structure Sched where
  domains : List (Nat × Domain) := []
  /-- deque of die, domain and queue: (die 8 + domain) 64 + queue; oldest (head end) first. -/
  deques : List (Nat × List DqEnt) := []
  /-- slot table entries: core 16 + slot (Table 12-6). -/
  slots : List (Nat × Word) := []
  /-- reserve words by core (R370). -/
  reserve : List (Nat × Word) := []
  spawns : List Spawn := []
  softis : List Softi := []
  /-- tasks all of whose crews have ended and whose stores are complete: completions to perform. -/
  ending : List Nat := []
  /-- crews whose image is ready to be written, in the order in which they became ready (R378). -/
  saves : List Nat := []
  deriving DecidableEq, Repr

/-- The micropolygon path and the ray units. -/
structure Gfx where
  frames : List Frame := []
  buckets : List (Nat × Bucket) := []
  dicers : List DicerJob := []
  wbs : List WbJob := []
  stus : List StuJob := []
  /-- ray slots that are not FREE: gang 32 + slot. -/
  rays : List (Nat × RaySlot) := []
  /-- records of a split's children that wait for room in their deque: the deque and the entry (R367, R402). -/
  kids : List (Nat × DqEnt) := []
  deriving DecidableEq, Repr

/-- The dies (0 to 3, and 4 the lockhouse die), the link directions and the fences in progress. -/
structure Fab where
  dies : List (Nat × Die) := []
  dirs : List (Nat × LinkDir) := []
  fences : List Fence := []
  deriving DecidableEq, Repr

/-- The state of the Dolup. -/
structure State where
  /-- all byte storage that has an address, by package address (see `Ops`). -/
  mem : List Host.Cell := []
  /-- words marked poisoned, by package address. -/
  poison : List (Nat × Bool) := []
  work : Work := {}
  coh : Coh := {}
  eng : Eng := {}
  sched : Sched := {}
  gfx : Gfx := {}
  fab : Fab := {}
  host : HostIf := {}
  mgmt : Mgmt := {}
  /-- package time in nanoseconds (R486). -/
  time : Nat := 0
  /-- the model's own: steps taken, to which elapsed time is applied. -/
  ticks : Nat := 0
  /-- the model's own: free values taken. -/
  frees : Nat := 0
  /-- the model's own: what moves next, where the environment has chosen. -/
  picks : List Pick := []
  /-- the model's own: the operands of the step that is being made (which pending item it acts on). -/
  evt : List Nat := []
  deriving DecidableEq, Repr

/-- The sixteen link directions (R11). -/
def linkDirs : List (Nat × LinkDir) :=
  [(0, { src := 0, dst := 1 }), (1, { src := 1, dst := 0 }), (2, { src := 1, dst := 2 }), (3, { src := 2, dst := 1 }),
   (4, { src := 2, dst := 3 }), (5, { src := 3, dst := 2 }), (6, { src := 3, dst := 0 }), (7, { src := 0, dst := 3 }),
   (8, { src := 0, dst := 4 }), (9, { src := 4, dst := 0 }), (10, { src := 1, dst := 4 }), (11, { src := 4, dst := 1 }),
   (12, { src := 2, dst := 4 }), (13, { src := 4, dst := 2 }), (14, { src := 3, dst := 4 }), (15, { src := 4, dst := 3 })]

/-- The machine right after a cold reset (R513 step 4): device memory zero, incarnation 1 on every die, no domain set,
no queue enabled, no work. DESIGN CHOICE: notes/assumptions/9. DESIGN CHOICE: notes/assumptions/10. -/
def State.reset : State :=
  { fab := { dies := [(0, {}), (1, {}), (2, {}), (3, {}), (4, { links := [{}, {}, {}, {}] })], dirs := linkDirs } }

/-- The memory's canonical form: addresses strictly rising, no byte equal to what an unlisted address reads as. -/
abbrev Memory.wf (m : List Host.Cell) : Prop := smWf (0 : BitVec 8) m = true

end Sys2Proof.Machine
end

