-- ==== Sys2Proof/Machine/Mem.lean ====
section
/-! DEFINITION. Byte storage by package address: bytes, words, masked writes, poison; the package addresses of device
memory, host memory, Pounds and Basins. -/

namespace Sys2Proof.Machine
open Sys2Proof

/-- Package address of die `d`'s die-local address `la` (R207). -/
def devAddr (d la : Nat) : Nat := d * 2 ^ 48 + la

/-- Package address of host-bus address `h` (R207). -/
def hostAddr (h : Nat) : Nat := 2 ^ 52 + h

/-- Package address of byte `o` of core `c`'s Pound (R198). -/
def poundAddr (c o : Nat) : Nat := 2 ^ 66 + c * 2 ^ 20 + o

/-- Package address of byte `o` of die `d`'s Basin. -/
def basinAddr (d o : Nat) : Nat := 2 ^ 67 + d * 2 ^ 26 + o

/-- A device memory address. -/
def isDev (a : Nat) : Bool := decide (a < 2 ^ 52)

/-- A host memory address. -/
def isHost (a : Nat) : Bool := decide (2 ^ 52 ≤ a) && decide (a < 2 ^ 66)

/-- An address whose words have an L1 path and a home: device or host memory. -/
def isCached (a : Nat) : Bool := decide (a < 2 ^ 66)

/-- The die of a device address. -/
def dieOf (a : Nat) : Nat := a / 2 ^ 48

/-- The usable bytes of a die's memory: what firmware found fitted, 90 GiB in the stated fitting (R2, R207, R514). -/
def usableOf (gib : Nat) : Nat := gib * 2 ^ 30
def State.usable (s : State) : Nat := usableOf s.mgmt.gib

/-- The byte at `a`; a byte nothing has written reads zero. -/
def getByte (m : List Host.Cell) (a : Nat) : Byte := smGet 0 m a

/-- The memory with `b` at `a`. -/
def setByte (m : List Host.Cell) (a : Nat) (b : Byte) : List Host.Cell := smPut 0 m a b

/-- The little-endian word at `a` (R4). -/
def getWord (m : List Host.Cell) (a : Nat) : Word :=
  getByte m (a + 3) ++ getByte m (a + 2) ++ getByte m (a + 1) ++ getByte m a

/-- Byte `k` of a word. -/
def byteAt (v : Word) (k : Nat) : Byte := v.extractLsb' (8 * k) 8

/-- WriteWord's storage part: the bytes of `v` selected by the mask `bm` (Table 0-1). -/
def setWordMasked (m : List Host.Cell) (a : Nat) (v : Word) (bm : BitVec 4) : List Host.Cell :=
  let m := if bm.getLsbD 0 then setByte m a (byteAt v 0) else m
  let m := if bm.getLsbD 1 then setByte m (a + 1) (byteAt v 1) else m
  let m := if bm.getLsbD 2 then setByte m (a + 2) (byteAt v 2) else m
  if bm.getLsbD 3 then setByte m (a + 3) (byteAt v 3) else m

/-- The memory with the word `v` at `a`. -/
def setWord (m : List Host.Cell) (a : Nat) (v : Word) : List Host.Cell := setWordMasked m a v 0xF

/-- Two words as a 64-bit value, the low word at `a`. -/
def getDWord (m : List Host.Cell) (a : Nat) : DWord := getWord m (a + 4) ++ getWord m a

/-- The low and high words of a 64-bit value. -/
def loW (v : DWord) : Word := v.extractLsb' 0 32
def hiW (v : DWord) : Word := v.extractLsb' 32 32

/-- `n` bytes from `a`, lowest first. -/
def getBytes (m : List Host.Cell) (a n : Nat) : List Byte := (List.range n).map (fun k => getByte m (a + k))

/-- The bytes `bs` stored from `a` up. -/
def setBytes : List Host.Cell → Nat → List Byte → List Host.Cell
  | m, _, [] => m
  | m, a, b :: bs => setBytes (setByte m a b) (a + 1) bs

/-- The words `ws` stored from `a` up. -/
def setWords : List Host.Cell → Nat → List Word → List Host.Cell
  | m, _, [] => m
  | m, a, w :: ws => setWords (setWord m a w) (a + 4) ws

/-- `n` words from `a` up. -/
def getWords (m : List Host.Cell) (a n : Nat) : List Word := (List.range n).map (fun k => getWord m (a + 4 * k))

/-- A 64-byte line as one value, byte 0 lowest. -/
def getLine (m : List Host.Cell) (line : Nat) : BitVec 512 :=
  (List.range 64).foldr (fun k acc => (acc <<< 8) ||| (getByte m (line * 64 + k)).zeroExtend 512) 0

/-- Word `k` of a line value. -/
def lineWord (l : BitVec 512) (k : Nat) : Word := l.extractLsb' (32 * k) 32

/-- A line value with the selected bytes of word `k` replaced. -/
def lineSetMasked (l : BitVec 512) (k : Nat) (v : Word) (bm : BitVec 4) : BitVec 512 :=
  let mask : Word := (if bm.getLsbD 0 then 0xFF else 0) ||| (if bm.getLsbD 1 then 0xFF00 else 0) |||
    (if bm.getLsbD 2 then 0xFF0000 else 0) ||| (if bm.getLsbD 3 then 0xFF000000 else 0)
  let w := (lineWord l k &&& ~~~mask) ||| (v &&& mask)
  (l &&& ~~~(((0xFFFFFFFF : BitVec 512)) <<< (32 * k))) ||| ((w.zeroExtend 512) <<< (32 * k))

/-- Whether the word at `a` is marked poisoned. -/
def isPoison (p : List (Nat × Bool)) (a : Nat) : Bool := smGet false p a

/-- The poison marks after the masked write of a word: a whole-word write sets the mark to `po`, a partial write keeps
a standing mark (R229). -/
def markWord (p : List (Nat × Bool)) (a : Nat) (bm : BitVec 4) (po : Bool) : List (Nat × Bool) :=
  if bm = 0xF then smPut false p a po else if po then smPut false p a true else p

/-- WriteWord at storage: bytes and poison mark. DEDUCED: notes/assumptions/46. -/
def State.putWord (s : State) (a : Nat) (v : Word) (bm : BitVec 4) (po : Bool) : State :=
  { s with mem := setWordMasked s.mem a v bm, poison := markWord s.poison a bm po }

end Sys2Proof.Machine
end

