-- ==== Sys2Proof/WellFormed.lean ====
section
/-! DEFINITION. Which field values an instruction word may hold: what Table 2-3's check 4 (ILL_FIELD) asks of the
fields themselves. Reserved bits are the decoder's; register limits (ILL_REG) are the issue checks'. -/

namespace Sys2Proof

/-- BS selects a register, a scalar or a constant; 3 is reserved (R36). -/
def bsOk (s : Fin 4) : Bool := decide (s.val ≠ 3)

/-- BS of an instruction whose b operand is 64 bits: no constant (R36). -/
def dbOk (s : Fin 4) : Bool := decide (s.val < 2)

/-- A special register number of Table 15-6 (R478). -/
def srKnown (n : Nat) : Bool :=
  decide (n ≤ 8) || (decide (16 ≤ n) && decide (n ≤ 18)) || (decide (32 ≤ n) && decide (n ≤ 42))

/-- A special register that MTSR may write: RNDSEED, DBGCTL, ERPC, EX (Table 15-6). -/
def srWritable (n : Nat) : Bool := decide (n = 16) || decide (n = 17) || decide (n = 34) || decide (n = 39)

/-- SWZ modes 0 and 1 and their unused bits (R122). -/
def swzOk (p : Nat) : Bool := decide (p < 256) || decide (p = 512)

/-- UNPK's format and element index (R156, Table 5-3). -/
def unpkOk (t k : Nat) : Bool :=
  decide (1 ≤ t) && decide (t ≤ 9) && (if t ≤ 2 then decide (k ≤ 1) else decide (k ≤ 3))

/-- The segments LDU and STU may name (R231). -/
def uniSeg (g : Fin 8) : Bool := decide (g.val ≠ 7) && decide (g.val ≠ 4)

/-- The FENCE kinds (Table 8-4). -/
def fenceKind (k : Nat) : Bool := decide (k = 1) || decide (k = 2) || decide (k = 3) || decide (k = 7)

/-- The copy sizes 0, 1, 2 and the tile form 4 (R41). -/
def cpSize (z : Nat) : Bool := decide (z ≤ 2) || decide (z = 4)

/-- With AL = 1 the register fields are zero (R45). -/
def allForm (l : Fin 2) (a b : Fin 64) : Bool := decide (l.val = 0) || (decide (a.val = 0) && decide (b.val = 0))

/-- The field values the instruction's tables allow. -/
def Instr.wf : Instr → Bool
  | .nop _ => true
  | .bra _ => true
  | .br _ _ k _ => decide (k.val ≠ 3)
  | .brx _ => true
  | .call _ => true
  | .ret => true
  | .loopS _ _ => true
  | .loopi _ _ => true
  | .lbrk => true
  | .rep _ _ _ _ _ => true
  | .setx _ _ => true
  | .andx _ _ => true
  | .orx _ _ => true
  | .regang _ _ => true
  | .yield => true
  | .exit => true
  | .waitla _ => true
  | .ageBoost => true
  | .trap _ => true
  | .softi _ _ => true
  | .softiNotice => true
  | .mfsr _ _ r => srKnown r.val
  | .mtsr _ _ r => srWritable r.val
  | .segld _ _ _ => true
  | .segrd _ _ _ => true
  | .scopew _ _ _ => true
  | .eret => true
  | .bkpt _ => true
  | .time _ _ => true
  | .icinv _ => true
  | .ctxsv _ _ => true
  | .ctxld _ _ => true
  | .iadd _ _ _ _ s => bsOk s
  | .isub _ _ _ _ s => bsOk s
  | .imul _ _ _ _ s => bsOk s
  | .imulhI _ _ _ _ s => bsOk s
  | .imulhN _ _ _ _ s => bsOk s
  | .imad _ _ _ _ s => bsOk s
  | .iminI _ _ _ _ s => bsOk s
  | .iminN _ _ _ _ s => bsOk s
  | .imaxI _ _ _ _ s => bsOk s
  | .imaxN _ _ _ _ s => bsOk s
  | .iabs _ _ _ => true
  | .andV _ _ _ _ s => bsOk s
  | .orV _ _ _ _ s => bsOk s
  | .xorV _ _ _ _ s => bsOk s
  | .andn _ _ _ _ s => bsOk s
  | .shl _ _ _ _ s => bsOk s
  | .shr _ _ _ _ s => bsOk s
  | .sar _ _ _ _ s => bsOk s
  | .fsl _ _ _ _ s => bsOk s
  | .fsr _ _ _ _ s => bsOk s
  | .popc _ _ _ => true
  | .clz _ _ _ => true
  | .brev _ _ _ => true
  | .bfxI _ _ _ _ s => bsOk s
  | .bfxN _ _ _ _ s => bsOk s
  | .bfi _ _ _ _ s => bsOk s
  | .prm _ _ _ _ s => bsOk s
  | .icmpEq _ _ _ _ s => bsOk s
  | .icmpNe _ _ _ _ s => bsOk s
  | .icmpLtI _ _ _ _ s => bsOk s
  | .icmpLtN _ _ _ _ s => bsOk s
  | .icmpLeI _ _ _ _ s => bsOk s
  | .icmpLeN _ _ _ _ s => bsOk s
  | .selM1 _ _ _ _ s => bsOk s
  | .selM2 _ _ _ _ s => bsOk s
  | .selM3 _ _ _ _ s => bsOk s
  | .selM4 _ _ _ _ s => bsOk s
  | .selM5 _ _ _ _ s => bsOk s
  | .selM6 _ _ _ _ s => bsOk s
  | .selM7 _ _ _ _ s => bsOk s
  | .shflIdx _ _ _ _ s => bsOk s
  | .shflUp _ _ _ _ s => bsOk s
  | .shflDn _ _ _ _ s => bsOk s
  | .shflXor _ _ _ _ s => bsOk s
  | .mtov _ _ _ => true
  | .vtom _ _ _ => true
  | .iaddi _ _ _ _ => true
  | .andi _ _ _ _ => true
  | .ori _ _ _ _ => true
  | .xori _ _ _ _ => true
  | .shli _ _ _ _ => true
  | .shri _ _ _ _ => true
  | .sari _ _ _ _ => true
  | .icmpiEq _ _ _ _ => true
  | .icmpiLtI _ _ _ _ => true
  | .movi _ _ _ => true
  | .swz _ _ _ p => swzOk p.val
  | .fsli _ _ _ _ => true
  | .fsri _ _ _ _ => true
  | .fadd _ _ _ _ s _ => bsOk s
  | .fsub _ _ _ _ s _ => bsOk s
  | .fmul _ _ _ _ s _ => bsOk s
  | .fmin _ _ _ _ s _ => bsOk s
  | .fmax _ _ _ _ s _ => bsOk s
  | .fminn _ _ _ _ s _ => bsOk s
  | .fmaxn _ _ _ _ s _ => bsOk s
  | .famax _ _ _ _ s _ => bsOk s
  | .fcmpEq _ _ _ _ s _ => bsOk s
  | .fcmpNe _ _ _ _ s _ => bsOk s
  | .fcmpLt _ _ _ _ s _ => bsOk s
  | .fcmpLe _ _ _ _ s _ => bsOk s
  | .fcmpUn _ _ _ _ s _ => bsOk s
  | .frint _ _ _ r _ => decide (r.val ≤ 3)
  | .fscale _ _ _ _ s _ => bsOk s
  | .fclass _ _ _ _ => true
  | .dadd _ _ _ _ s _ => dbOk s
  | .dmul _ _ _ _ s _ => dbOk s
  | .dmin _ _ _ _ s _ => dbOk s
  | .dmax _ _ _ _ s _ => dbOk s
  | .dcmpLt _ _ _ _ s _ => dbOk s
  | .cvt _ _ _ t r _ => decide (t.val ≤ 15) && decide (r.val ≤ 3)
  | .qnt _ _ _ t r _ => decide (3 ≤ t.val) && decide (t.val ≤ 9) && decide (r.val ≤ 4)
  | .dqnt _ _ _ t r _ => decide (3 ≤ t.val) && decide (t.val ≤ 10) && decide (r.val ≤ 3)
  | .mxscl _ _ _ _ s _ => bsOk s
  | .pack2 _ _ _ _ s _ => bsOk s
  | .unpk _ _ _ t k _ => unpkOk t.val k.val
  | .frcp _ _ _ _ => true
  | .frsq _ _ _ _ => true
  | .fsqrt _ _ _ _ => true
  | .fex2 _ _ _ _ => true
  | .flg2 _ _ _ _ => true
  | .fsin _ _ _ _ => true
  | .fcos _ _ _ _ => true
  | .fdiv _ _ _ _ => true
  | .sfuResult => true
  | .ffma _ _ _ _ _ => true
  | .ffms _ _ _ _ _ => true
  | .ffnma _ _ _ _ _ => true
  | .ffnms _ _ _ _ _ => true
  | .dfma _ _ _ _ _ => true
  | .hfma2 _ _ _ _ _ => true
  | .bfma2 _ _ _ _ _ => true
  | .hdot2 _ _ _ _ _ => true
  | .bdot2 _ _ _ _ _ => true
  | .sadd _ _ _ _ => true
  | .ssub _ _ _ _ => true
  | .smul _ _ _ _ => true
  | .sand _ _ _ _ => true
  | .sor _ _ _ _ => true
  | .sxor _ _ _ _ => true
  | .sshl _ _ _ _ => true
  | .sshr _ _ _ _ => true
  | .ssar _ _ _ _ => true
  | .scmpEq _ _ _ _ => true
  | .scmpLtI _ _ _ _ => true
  | .scmpLtN _ _ _ _ => true
  | .sminI _ _ _ _ => true
  | .smaxI _ _ _ _ => true
  | .smov _ _ _ => true
  | .ssel _ _ _ _ => true
  | .slil _ _ _ => true
  | .slih _ _ _ => true
  | .saddi _ _ _ => true
  | .srdl _ _ _ _ => true
  | .sbal _ _ _ => true
  | .swrl _ _ _ _ => true
  | .lgt _ _ _ _ _ => true
  | .ld _ w _ g _ _ _ _ => decide (w.val ≤ 4) && decide (g.val ≠ 7)
  | .ldu _ w _ g _ _ _ _ => decide (5 ≤ w.val) && uniSeg g
  | .st _ w _ g _ _ _ => decide (w.val ≤ 4) && decide (g.val ≠ 7)
  | .stu _ w _ g _ _ _ => decide (5 ≤ w.val) && uniSeg g
  | .stagingQueue => true
  | .lsuAgeBoost => true
  | .pageWalk => true
  | .rdThr => true
  | .rdSis => true
  | .rdWis => true
  | .rdOwn => true
  | .wrThr => true
  | .wrWis => true
  | .pushWr => true
  | .writeback => true
  | .atomicAtHome => true
  | .recall => true
  | .fwdRd => true
  | .invalidation => true
  | .invalidationAck => true
  | .loadReply => true
  | .storeAck => true
  | .errorReply => true
  | .eccL1 => true
  | .eccReg => true
  | .atomAdd _ _ _ _ _ _ _ => true
  | .atomMinI _ _ _ _ _ _ _ => true
  | .atomMinN _ _ _ _ _ _ _ => true
  | .atomMaxI _ _ _ _ _ _ _ => true
  | .atomMaxN _ _ _ _ _ _ _ => true
  | .atomAnd _ _ _ _ _ _ _ => true
  | .atomOr _ _ _ _ _ _ _ => true
  | .atomXor _ _ _ _ _ _ _ => true
  | .atomXchg _ _ _ _ _ _ _ => true
  | .acas _ _ _ _ _ _ _ => true
  | .atomFadd _ _ _ _ _ _ _ => true
  | .atomFamax _ _ _ _ _ _ _ => true
  | .atomXrst _ _ _ _ _ _ _ => true
  | .ald _ _ _ _ _ _ _ => true
  | .ast _ _ _ _ _ _ _ => true
  | .fence _ k _ => fenceKind k.val
  | .binit _ _ _ => true
  | .binitMem _ _ _ _ => true
  | .barr _ _ => true
  | .barrMem _ _ => true
  | .barrierUnit => true
  | .barrierWaitRetry => true
  | .bard _ _ => true
  | .bexp _ _ _ => true
  | .bwait _ _ _ => true
  | .bwaitMem _ _ _ => true
  | .btest _ _ _ => true
  | .btestMem _ _ _ => true
  | .qinit _ _ _ _ => true
  | .qpush _ _ _ => true
  | .qpop _ _ _ => true
  | .qtry _ _ _ _ => true
  | .qalw _ _ _ _ => true
  | .slinit _ _ _ _ => true
  | .sle _ _ _ _ => true
  | .slx _ _ _ => true
  | .slclose _ _ _ => true
  | .slq _ _ _ => true
  | .sluiceRequest => true
  | .sluiceGrant => true
  | .sluiceRelease => true
  | .sluiceBufferRetry => true
  | .slTimeout => true
  | .releaseResend => true
  | .cflush _ _ a b l => allForm l a b
  | .cinv _ _ a b l => allForm l a b
  | .scbwait _ a b l => allForm l a b
  | .cp _ z _ _ _ _ _ => decide (z.val ≠ 3)
  | .cpt _ _ _ _ _ _ => true
  | .cpx _ z _ _ _ _ _ => cpSize z.val
  | .cpm _ _ _ _ _ _ _ => true
  | .cpe _ z _ _ _ _ _ => cpSize z.val
  | .copyLineLand => true
  | .copyComplete => true
  | .cpmLineRequest => true
  | .mergeWindow => true
  | .mergeEntryFree => true
  | .cpeEnqueue => true
  | .followOnPost => true
  | .mma _ _ _ _ _ _ _ => true
  | .mmz _ _ _ _ => true
  | .mdr _ _ _ _ _ _ _ => true
  | .mld _ _ _ _ _ => true
  | .mfmt _ _ _ _ => true
  | .mrq _ _ _ _ _ => true
  | .mqry _ _ _ => true
  | .reservationAccept => true
  | .passGrant => true
  | .tilePathGrant => true
  | .matrixAgeBoost => true
  | .requestFinish => true
  | .mxRsv => true
  | .dice _ _ _ => true
  | .gsh _ _ _ _ => true
  | .gwb _ _ _ => true
  | .gemit _ _ => true
  | .stq _ _ _ _ _ => true
  | .bknext _ _ _ => true
  | .bkdone _ _ => true
  | .bkspl _ _ => true
  | .binner => true
  | .bucketDistributor => true
  | .bucketSetup => true
  | .dicerJob => true
  | .writeBackJob => true
  | .stuJob => true
  | .gridForward => true
  | .bucketClose => true
  | .park => true
  | .bucketReload => true
  | .ray _ _ _ => true
  | .rayw _ _ _ _ => true
  | .rays _ _ _ _ => true
  | .query => true
  | .tspawn _ _ _ => true
  | .spawn => true
  | .tsucc _ _ => true
  | .tdone => true
  | .doorbell => true
  | .frontEndTake => true
  | .steal => true
  | .dispatch => true
  | .crewEnd => true
  | .taskCompletion => true
  | .slotTableWrite => true
  | .eviction => true
  | .swapOut => true
  | .resume => true
  | .handlerEntry => true
  | .serviceDelivery => true
  | .fatalPath => true
  | .watchdog => true
  | .timeLimit => true
  | .dbgHalt => true
  | .flitReceive => true
  | .replay => true
  | .homeTimeout => true
  | .fabUncorr => true
  | .completionTimeout => true
  | .faultFence => true
  | .heartbeatTimeout => true
  | .fenceQuiesce => true
  | .selfRefreshTimeout => true
  | .retrain => true
  | .reAdmission => true
  | .domainSet => true
  | .xlFlush => true
  | .queueSet => true
  | .queueRestart => true
  | .queueShare => true
  | .noticeAnswer => true
  | .domainKill => true
  | .warmReset => true
  | .clearLost => true
  | .imageLoad => true
  | .mailboxComplete => true
  | .notice => true
  | .bar2Write => true
  | .bar2Read => true
  | .registerWrite => true
  | .hostDown => true
  | .d3hot => true
  | .coldReset => true
  | .entdaa => true
  | .powerLimit => true
  | .boardInputPower => true
  | .boardInputAbsent => true
  | .mgmtKill => true
  | .telemetryRefresh => true
  | .powerThrottle => true
  | .thermalKill => true
  | .resident10usElapsed => true
  | .lockhouseFault => true
  | .d3cold => true
  | .correctedSoftError => true
  | .sluiceEntryFree => true

end Sys2Proof
end

