-- ==== Sys2Proof/Decode.lean ====
section
/-! DEFINITION. The decoder, total on every word and rejecting by name, and after it the encoder. Field positions are
those of Tables 2-4 and 2-6; function codes those of Tables 2-7 and 2-9. -/

namespace Sys2Proof

/-- What a word decodes to: an instruction, or the decode cause of Table 2-3 that it raises by its bits alone. -/
inductive Decoded where
  | ok (i : Instr)
  /-- the function code, or the ATM operation code, is not assigned (R33). -/
  | illEnc
  /-- a reserved field is not zero, or a field holds a reserved value (R33). -/
  | illField
  /-- a word of latency class C with C = 1 (R28). -/
  | illChain
  /-- a REP word with C = 1 (R28). -/
  | repBad
  deriving DecidableEq, Repr

/-- The `n` bits of `w` from bit `lo` up. -/
def fld (w lo n : Nat) : Nat := w / 2 ^ lo % 2 ^ n

/-- Bit 31, the chain bit C (R27). -/
def chainBit (w : Nat) : Bool := decide (fld w 31 1 = 1)

/-- Words of class CTL (Table 2-9, Table 3-1). -/
def decodeCtl (w : Nat) : Decoded :=
  match fld w 22 5 with
  | 0 => if fld w 0 22 = 0 then .ok (.nop (chainBit w)) else .illField
  | 1 => if chainBit w then .illChain else .ok (.bra (Fin.ofNat 4194304 (w / 1)))
  | 2 => if chainBit w then .illChain else .ok (.br (Fin.ofNat 8 (w / 524288)) (Fin.ofNat 2 (w / 262144)) (Fin.ofNat 4 (w / 65536)) (Fin.ofNat 65536 (w / 1)))
  | 3 => if chainBit w then .illChain else (if fld w 0 10 = 0 ∧ fld w 16 6 = 0 then .ok (.brx (Fin.ofNat 64 (w / 1024))) else .illField)
  | 4 => if chainBit w then .illChain else .ok (.call (Fin.ofNat 4194304 (w / 1)))
  | 5 => if chainBit w then .illChain else (if fld w 0 22 = 0 then .ok .ret else .illField)
  | 6 => if chainBit w then .illChain else .ok (.loopS (Fin.ofNat 64 (w / 65536)) (Fin.ofNat 65536 (w / 1)))
  | 7 => if chainBit w then .illChain else .ok (.loopi (Fin.ofNat 4096 (w / 1024)) (Fin.ofNat 1024 (w / 1)))
  | 8 => if chainBit w then .illChain else (if fld w 0 22 = 0 then .ok .lbrk else .illField)
  | 9 => if chainBit w then .repBad else (if fld w 0 8 = 0 then .ok (.rep (Fin.ofNat 64 (w / 65536)) (Fin.ofNat 4 (w / 16384)) (Fin.ofNat 4 (w / 4096)) (Fin.ofNat 4 (w / 1024)) (Fin.ofNat 4 (w / 256))) else .illField)
  | 10 => if fld w 0 10 = 0 ∧ fld w 13 9 = 0 then .ok (.setx (chainBit w) (Fin.ofNat 8 (w / 1024))) else .illField
  | 11 => if fld w 0 10 = 0 ∧ fld w 13 9 = 0 then .ok (.andx (chainBit w) (Fin.ofNat 8 (w / 1024))) else .illField
  | 12 => if fld w 0 10 = 0 ∧ fld w 13 9 = 0 then .ok (.orx (chainBit w) (Fin.ofNat 8 (w / 1024))) else .illField
  | 13 => if fld w 16 6 = 0 then .ok (.regang (chainBit w) (Fin.ofNat 65536 (w / 1))) else .illField
  | 14 => if chainBit w then .illChain else (if fld w 0 22 = 0 then .ok .yield else .illField)
  | 15 => if chainBit w then .illChain else (if fld w 0 22 = 0 then .ok .exit else .illField)
  | 16 => if fld w 0 22 = 0 then .ok (.waitla (chainBit w)) else .illField
  | _ => .illEnc

/-- Words of class SYS (Table 2-9, Table 15-10). -/
def decodeSys (w : Nat) : Decoded :=
  match fld w 22 5 with
  | 0 => if chainBit w then .illChain else (if fld w 16 6 = 0 then .ok (.trap (Fin.ofNat 65536 (w / 1))) else .illField)
  | 1 => if fld w 0 10 = 0 ∧ fld w 16 6 = 0 then .ok (.softi (chainBit w) (Fin.ofNat 64 (w / 1024))) else .illField
  | 2 => if fld w 10 6 = 0 then .ok (.mfsr (chainBit w) (Fin.ofNat 64 (w / 65536)) (Fin.ofNat 1024 (w / 1))) else .illField
  | 3 => if fld w 10 6 = 0 then .ok (.mtsr (chainBit w) (Fin.ofNat 64 (w / 65536)) (Fin.ofNat 1024 (w / 1))) else .illField
  | 4 => if fld w 0 10 = 0 ∧ fld w 19 3 = 0 then .ok (.segld (chainBit w) (Fin.ofNat 8 (w / 65536)) (Fin.ofNat 64 (w / 1024))) else .illField
  | 5 => if fld w 0 10 = 0 ∧ fld w 13 3 = 0 then .ok (.segrd (chainBit w) (Fin.ofNat 64 (w / 65536)) (Fin.ofNat 8 (w / 1024))) else .illField
  | 6 => if fld w 5 11 = 0 then .ok (.scopew (chainBit w) (Fin.ofNat 64 (w / 65536)) (Fin.ofNat 32 (w / 1))) else .illField
  | 7 => if chainBit w then .illChain else (if fld w 0 22 = 0 then .ok .eret else .illField)
  | 8 => if chainBit w then .illChain else (if fld w 16 6 = 0 then .ok (.bkpt (Fin.ofNat 65536 (w / 1))) else .illField)
  | 9 => if fld w 0 16 = 0 then .ok (.time (chainBit w) (Fin.ofNat 64 (w / 65536))) else .illField
  | 10 => if fld w 0 22 = 0 then .ok (.icinv (chainBit w)) else .illField
  | 11 => if fld w 0 10 = 0 ∧ fld w 16 6 = 0 then .ok (.ctxsv (chainBit w) (Fin.ofNat 64 (w / 1024))) else .illField
  | 12 => if fld w 0 10 = 0 ∧ fld w 16 6 = 0 then .ok (.ctxld (chainBit w) (Fin.ofNat 64 (w / 1024))) else .illField
  | _ => .illEnc

/-- Words of class INT (Table 2-7). -/
def decodeInt (w : Nat) : Decoded :=
  match fld w 21 6 with
  | 0 => if fld w 0 1 = 0 then .ok (.iadd (chainBit w) (Fin.ofNat 64 (w / 32768)) (Fin.ofNat 64 (w / 512)) (Fin.ofNat 64 (w / 8)) (Fin.ofNat 4 (w / 2))) else .illField
  | 1 => if fld w 0 1 = 0 then .ok (.isub (chainBit w) (Fin.ofNat 64 (w / 32768)) (Fin.ofNat 64 (w / 512)) (Fin.ofNat 64 (w / 8)) (Fin.ofNat 4 (w / 2))) else .illField
  | 2 => if fld w 0 1 = 0 then .ok (.imul (chainBit w) (Fin.ofNat 64 (w / 32768)) (Fin.ofNat 64 (w / 512)) (Fin.ofNat 64 (w / 8)) (Fin.ofNat 4 (w / 2))) else .illField
  | 3 => if fld w 0 1 = 0 then .ok (.imulhI (chainBit w) (Fin.ofNat 64 (w / 32768)) (Fin.ofNat 64 (w / 512)) (Fin.ofNat 64 (w / 8)) (Fin.ofNat 4 (w / 2))) else .illField
  | 4 => if fld w 0 1 = 0 then .ok (.imulhN (chainBit w) (Fin.ofNat 64 (w / 32768)) (Fin.ofNat 64 (w / 512)) (Fin.ofNat 64 (w / 8)) (Fin.ofNat 4 (w / 2))) else .illField
  | 5 => if fld w 0 1 = 0 then .ok (.imad (chainBit w) (Fin.ofNat 64 (w / 32768)) (Fin.ofNat 64 (w / 512)) (Fin.ofNat 64 (w / 8)) (Fin.ofNat 4 (w / 2))) else .illField
  | 6 => if fld w 0 1 = 0 then .ok (.iminI (chainBit w) (Fin.ofNat 64 (w / 32768)) (Fin.ofNat 64 (w / 512)) (Fin.ofNat 64 (w / 8)) (Fin.ofNat 4 (w / 2))) else .illField
  | 7 => if fld w 0 1 = 0 then .ok (.iminN (chainBit w) (Fin.ofNat 64 (w / 32768)) (Fin.ofNat 64 (w / 512)) (Fin.ofNat 64 (w / 8)) (Fin.ofNat 4 (w / 2))) else .illField
  | 8 => if fld w 0 1 = 0 then .ok (.imaxI (chainBit w) (Fin.ofNat 64 (w / 32768)) (Fin.ofNat 64 (w / 512)) (Fin.ofNat 64 (w / 8)) (Fin.ofNat 4 (w / 2))) else .illField
  | 9 => if fld w 0 1 = 0 then .ok (.imaxN (chainBit w) (Fin.ofNat 64 (w / 32768)) (Fin.ofNat 64 (w / 512)) (Fin.ofNat 64 (w / 8)) (Fin.ofNat 4 (w / 2))) else .illField
  | 10 => if fld w 0 9 = 0 then .ok (.iabs (chainBit w) (Fin.ofNat 64 (w / 32768)) (Fin.ofNat 64 (w / 512))) else .illField
  | 11 => if fld w 0 1 = 0 then .ok (.andV (chainBit w) (Fin.ofNat 64 (w / 32768)) (Fin.ofNat 64 (w / 512)) (Fin.ofNat 64 (w / 8)) (Fin.ofNat 4 (w / 2))) else .illField
  | 12 => if fld w 0 1 = 0 then .ok (.orV (chainBit w) (Fin.ofNat 64 (w / 32768)) (Fin.ofNat 64 (w / 512)) (Fin.ofNat 64 (w / 8)) (Fin.ofNat 4 (w / 2))) else .illField
  | 13 => if fld w 0 1 = 0 then .ok (.xorV (chainBit w) (Fin.ofNat 64 (w / 32768)) (Fin.ofNat 64 (w / 512)) (Fin.ofNat 64 (w / 8)) (Fin.ofNat 4 (w / 2))) else .illField
  | 14 => if fld w 0 1 = 0 then .ok (.andn (chainBit w) (Fin.ofNat 64 (w / 32768)) (Fin.ofNat 64 (w / 512)) (Fin.ofNat 64 (w / 8)) (Fin.ofNat 4 (w / 2))) else .illField
  | 15 => if fld w 0 1 = 0 then .ok (.shl (chainBit w) (Fin.ofNat 64 (w / 32768)) (Fin.ofNat 64 (w / 512)) (Fin.ofNat 64 (w / 8)) (Fin.ofNat 4 (w / 2))) else .illField
  | 16 => if fld w 0 1 = 0 then .ok (.shr (chainBit w) (Fin.ofNat 64 (w / 32768)) (Fin.ofNat 64 (w / 512)) (Fin.ofNat 64 (w / 8)) (Fin.ofNat 4 (w / 2))) else .illField
  | 17 => if fld w 0 1 = 0 then .ok (.sar (chainBit w) (Fin.ofNat 64 (w / 32768)) (Fin.ofNat 64 (w / 512)) (Fin.ofNat 64 (w / 8)) (Fin.ofNat 4 (w / 2))) else .illField
  | 18 => if fld w 0 1 = 0 then .ok (.fsl (chainBit w) (Fin.ofNat 64 (w / 32768)) (Fin.ofNat 64 (w / 512)) (Fin.ofNat 64 (w / 8)) (Fin.ofNat 4 (w / 2))) else .illField
  | 19 => if fld w 0 1 = 0 then .ok (.fsr (chainBit w) (Fin.ofNat 64 (w / 32768)) (Fin.ofNat 64 (w / 512)) (Fin.ofNat 64 (w / 8)) (Fin.ofNat 4 (w / 2))) else .illField
  | 20 => if fld w 0 9 = 0 then .ok (.popc (chainBit w) (Fin.ofNat 64 (w / 32768)) (Fin.ofNat 64 (w / 512))) else .illField
  | 21 => if fld w 0 9 = 0 then .ok (.clz (chainBit w) (Fin.ofNat 64 (w / 32768)) (Fin.ofNat 64 (w / 512))) else .illField
  | 22 => if fld w 0 9 = 0 then .ok (.brev (chainBit w) (Fin.ofNat 64 (w / 32768)) (Fin.ofNat 64 (w / 512))) else .illField
  | 23 => if fld w 0 1 = 0 then .ok (.bfxI (chainBit w) (Fin.ofNat 64 (w / 32768)) (Fin.ofNat 64 (w / 512)) (Fin.ofNat 64 (w / 8)) (Fin.ofNat 4 (w / 2))) else .illField
  | 24 => if fld w 0 1 = 0 then .ok (.bfxN (chainBit w) (Fin.ofNat 64 (w / 32768)) (Fin.ofNat 64 (w / 512)) (Fin.ofNat 64 (w / 8)) (Fin.ofNat 4 (w / 2))) else .illField
  | 25 => if fld w 0 1 = 0 then .ok (.bfi (chainBit w) (Fin.ofNat 64 (w / 32768)) (Fin.ofNat 64 (w / 512)) (Fin.ofNat 64 (w / 8)) (Fin.ofNat 4 (w / 2))) else .illField
  | 26 => if fld w 0 1 = 0 then .ok (.prm (chainBit w) (Fin.ofNat 64 (w / 32768)) (Fin.ofNat 64 (w / 512)) (Fin.ofNat 64 (w / 8)) (Fin.ofNat 4 (w / 2))) else .illField
  | 27 => if fld w 0 1 = 0 ∧ fld w 18 3 = 0 then .ok (.icmpEq (chainBit w) (Fin.ofNat 8 (w / 32768)) (Fin.ofNat 64 (w / 512)) (Fin.ofNat 64 (w / 8)) (Fin.ofNat 4 (w / 2))) else .illField
  | 28 => if fld w 0 1 = 0 ∧ fld w 18 3 = 0 then .ok (.icmpNe (chainBit w) (Fin.ofNat 8 (w / 32768)) (Fin.ofNat 64 (w / 512)) (Fin.ofNat 64 (w / 8)) (Fin.ofNat 4 (w / 2))) else .illField
  | 29 => if fld w 0 1 = 0 ∧ fld w 18 3 = 0 then .ok (.icmpLtI (chainBit w) (Fin.ofNat 8 (w / 32768)) (Fin.ofNat 64 (w / 512)) (Fin.ofNat 64 (w / 8)) (Fin.ofNat 4 (w / 2))) else .illField
  | 30 => if fld w 0 1 = 0 ∧ fld w 18 3 = 0 then .ok (.icmpLtN (chainBit w) (Fin.ofNat 8 (w / 32768)) (Fin.ofNat 64 (w / 512)) (Fin.ofNat 64 (w / 8)) (Fin.ofNat 4 (w / 2))) else .illField
  | 31 => if fld w 0 1 = 0 ∧ fld w 18 3 = 0 then .ok (.icmpLeI (chainBit w) (Fin.ofNat 8 (w / 32768)) (Fin.ofNat 64 (w / 512)) (Fin.ofNat 64 (w / 8)) (Fin.ofNat 4 (w / 2))) else .illField
  | 32 => if fld w 0 1 = 0 ∧ fld w 18 3 = 0 then .ok (.icmpLeN (chainBit w) (Fin.ofNat 8 (w / 32768)) (Fin.ofNat 64 (w / 512)) (Fin.ofNat 64 (w / 8)) (Fin.ofNat 4 (w / 2))) else .illField
  | 33 => if fld w 0 1 = 0 then .ok (.selM1 (chainBit w) (Fin.ofNat 64 (w / 32768)) (Fin.ofNat 64 (w / 512)) (Fin.ofNat 64 (w / 8)) (Fin.ofNat 4 (w / 2))) else .illField
  | 34 => if fld w 0 1 = 0 then .ok (.selM2 (chainBit w) (Fin.ofNat 64 (w / 32768)) (Fin.ofNat 64 (w / 512)) (Fin.ofNat 64 (w / 8)) (Fin.ofNat 4 (w / 2))) else .illField
  | 35 => if fld w 0 1 = 0 then .ok (.selM3 (chainBit w) (Fin.ofNat 64 (w / 32768)) (Fin.ofNat 64 (w / 512)) (Fin.ofNat 64 (w / 8)) (Fin.ofNat 4 (w / 2))) else .illField
  | 36 => if fld w 0 1 = 0 then .ok (.selM4 (chainBit w) (Fin.ofNat 64 (w / 32768)) (Fin.ofNat 64 (w / 512)) (Fin.ofNat 64 (w / 8)) (Fin.ofNat 4 (w / 2))) else .illField
  | 37 => if fld w 0 1 = 0 then .ok (.selM5 (chainBit w) (Fin.ofNat 64 (w / 32768)) (Fin.ofNat 64 (w / 512)) (Fin.ofNat 64 (w / 8)) (Fin.ofNat 4 (w / 2))) else .illField
  | 38 => if fld w 0 1 = 0 then .ok (.selM6 (chainBit w) (Fin.ofNat 64 (w / 32768)) (Fin.ofNat 64 (w / 512)) (Fin.ofNat 64 (w / 8)) (Fin.ofNat 4 (w / 2))) else .illField
  | 39 => if fld w 0 1 = 0 then .ok (.selM7 (chainBit w) (Fin.ofNat 64 (w / 32768)) (Fin.ofNat 64 (w / 512)) (Fin.ofNat 64 (w / 8)) (Fin.ofNat 4 (w / 2))) else .illField
  | 40 => if fld w 0 1 = 0 then .ok (.shflIdx (chainBit w) (Fin.ofNat 64 (w / 32768)) (Fin.ofNat 64 (w / 512)) (Fin.ofNat 64 (w / 8)) (Fin.ofNat 4 (w / 2))) else .illField
  | 41 => if fld w 0 1 = 0 then .ok (.shflUp (chainBit w) (Fin.ofNat 64 (w / 32768)) (Fin.ofNat 64 (w / 512)) (Fin.ofNat 64 (w / 8)) (Fin.ofNat 4 (w / 2))) else .illField
  | 42 => if fld w 0 1 = 0 then .ok (.shflDn (chainBit w) (Fin.ofNat 64 (w / 32768)) (Fin.ofNat 64 (w / 512)) (Fin.ofNat 64 (w / 8)) (Fin.ofNat 4 (w / 2))) else .illField
  | 43 => if fld w 0 1 = 0 then .ok (.shflXor (chainBit w) (Fin.ofNat 64 (w / 32768)) (Fin.ofNat 64 (w / 512)) (Fin.ofNat 64 (w / 8)) (Fin.ofNat 4 (w / 2))) else .illField
  | 44 => if fld w 0 9 = 0 ∧ fld w 12 3 = 0 then .ok (.mtov (chainBit w) (Fin.ofNat 64 (w / 32768)) (Fin.ofNat 8 (w / 512))) else .illField
  | 45 => if fld w 0 9 = 0 ∧ fld w 18 3 = 0 then .ok (.vtom (chainBit w) (Fin.ofNat 8 (w / 32768)) (Fin.ofNat 64 (w / 512))) else .illField
  | _ => .illEnc

/-- Words of class IMM (Table 2-5). -/
def decodeImm (w : Nat) : Decoded :=
  match fld w 23 4 with
  | 0 => .ok (.iaddi (chainBit w) (Fin.ofNat 64 (w / 131072)) (Fin.ofNat 64 (w / 2048)) (Fin.ofNat 2048 (w / 1)))
  | 1 => .ok (.andi (chainBit w) (Fin.ofNat 64 (w / 131072)) (Fin.ofNat 64 (w / 2048)) (Fin.ofNat 2048 (w / 1)))
  | 2 => .ok (.ori (chainBit w) (Fin.ofNat 64 (w / 131072)) (Fin.ofNat 64 (w / 2048)) (Fin.ofNat 2048 (w / 1)))
  | 3 => .ok (.xori (chainBit w) (Fin.ofNat 64 (w / 131072)) (Fin.ofNat 64 (w / 2048)) (Fin.ofNat 2048 (w / 1)))
  | 4 => if fld w 5 6 = 0 then .ok (.shli (chainBit w) (Fin.ofNat 64 (w / 131072)) (Fin.ofNat 64 (w / 2048)) (Fin.ofNat 32 (w / 1))) else .illField
  | 5 => if fld w 5 6 = 0 then .ok (.shri (chainBit w) (Fin.ofNat 64 (w / 131072)) (Fin.ofNat 64 (w / 2048)) (Fin.ofNat 32 (w / 1))) else .illField
  | 6 => if fld w 5 6 = 0 then .ok (.sari (chainBit w) (Fin.ofNat 64 (w / 131072)) (Fin.ofNat 64 (w / 2048)) (Fin.ofNat 32 (w / 1))) else .illField
  | 7 => if fld w 20 3 = 0 then .ok (.icmpiEq (chainBit w) (Fin.ofNat 8 (w / 131072)) (Fin.ofNat 64 (w / 2048)) (Fin.ofNat 2048 (w / 1))) else .illField
  | 8 => if fld w 20 3 = 0 then .ok (.icmpiLtI (chainBit w) (Fin.ofNat 8 (w / 131072)) (Fin.ofNat 64 (w / 2048)) (Fin.ofNat 2048 (w / 1))) else .illField
  | 9 => if fld w 11 6 = 0 then .ok (.movi (chainBit w) (Fin.ofNat 64 (w / 131072)) (Fin.ofNat 2048 (w / 1))) else .illField
  | 10 => .ok (.swz (chainBit w) (Fin.ofNat 64 (w / 131072)) (Fin.ofNat 64 (w / 2048)) (Fin.ofNat 2048 (w / 1)))
  | 11 => if fld w 5 6 = 0 then .ok (.fsli (chainBit w) (Fin.ofNat 64 (w / 131072)) (Fin.ofNat 64 (w / 2048)) (Fin.ofNat 32 (w / 1))) else .illField
  | 12 => if fld w 5 6 = 0 then .ok (.fsri (chainBit w) (Fin.ofNat 64 (w / 131072)) (Fin.ofNat 64 (w / 2048)) (Fin.ofNat 32 (w / 1))) else .illField
  | _ => .illEnc

/-- Words of class FPA (Table 2-7). -/
def decodeFpa (w : Nat) : Decoded :=
  match fld w 21 6 with
  | 0 => .ok (.fadd (chainBit w) (Fin.ofNat 64 (w / 32768)) (Fin.ofNat 64 (w / 512)) (Fin.ofNat 64 (w / 8)) (Fin.ofNat 4 (w / 2)) (Fin.ofNat 2 (w / 1)))
  | 1 => .ok (.fsub (chainBit w) (Fin.ofNat 64 (w / 32768)) (Fin.ofNat 64 (w / 512)) (Fin.ofNat 64 (w / 8)) (Fin.ofNat 4 (w / 2)) (Fin.ofNat 2 (w / 1)))
  | 2 => .ok (.fmul (chainBit w) (Fin.ofNat 64 (w / 32768)) (Fin.ofNat 64 (w / 512)) (Fin.ofNat 64 (w / 8)) (Fin.ofNat 4 (w / 2)) (Fin.ofNat 2 (w / 1)))
  | 3 => .ok (.fmin (chainBit w) (Fin.ofNat 64 (w / 32768)) (Fin.ofNat 64 (w / 512)) (Fin.ofNat 64 (w / 8)) (Fin.ofNat 4 (w / 2)) (Fin.ofNat 2 (w / 1)))
  | 4 => .ok (.fmax (chainBit w) (Fin.ofNat 64 (w / 32768)) (Fin.ofNat 64 (w / 512)) (Fin.ofNat 64 (w / 8)) (Fin.ofNat 4 (w / 2)) (Fin.ofNat 2 (w / 1)))
  | 5 => .ok (.fminn (chainBit w) (Fin.ofNat 64 (w / 32768)) (Fin.ofNat 64 (w / 512)) (Fin.ofNat 64 (w / 8)) (Fin.ofNat 4 (w / 2)) (Fin.ofNat 2 (w / 1)))
  | 6 => .ok (.fmaxn (chainBit w) (Fin.ofNat 64 (w / 32768)) (Fin.ofNat 64 (w / 512)) (Fin.ofNat 64 (w / 8)) (Fin.ofNat 4 (w / 2)) (Fin.ofNat 2 (w / 1)))
  | 7 => .ok (.famax (chainBit w) (Fin.ofNat 64 (w / 32768)) (Fin.ofNat 64 (w / 512)) (Fin.ofNat 64 (w / 8)) (Fin.ofNat 4 (w / 2)) (Fin.ofNat 2 (w / 1)))
  | 8 => if fld w 18 3 = 0 then .ok (.fcmpEq (chainBit w) (Fin.ofNat 8 (w / 32768)) (Fin.ofNat 64 (w / 512)) (Fin.ofNat 64 (w / 8)) (Fin.ofNat 4 (w / 2)) (Fin.ofNat 2 (w / 1))) else .illField
  | 9 => if fld w 18 3 = 0 then .ok (.fcmpNe (chainBit w) (Fin.ofNat 8 (w / 32768)) (Fin.ofNat 64 (w / 512)) (Fin.ofNat 64 (w / 8)) (Fin.ofNat 4 (w / 2)) (Fin.ofNat 2 (w / 1))) else .illField
  | 10 => if fld w 18 3 = 0 then .ok (.fcmpLt (chainBit w) (Fin.ofNat 8 (w / 32768)) (Fin.ofNat 64 (w / 512)) (Fin.ofNat 64 (w / 8)) (Fin.ofNat 4 (w / 2)) (Fin.ofNat 2 (w / 1))) else .illField
  | 11 => if fld w 18 3 = 0 then .ok (.fcmpLe (chainBit w) (Fin.ofNat 8 (w / 32768)) (Fin.ofNat 64 (w / 512)) (Fin.ofNat 64 (w / 8)) (Fin.ofNat 4 (w / 2)) (Fin.ofNat 2 (w / 1))) else .illField
  | 12 => if fld w 18 3 = 0 then .ok (.fcmpUn (chainBit w) (Fin.ofNat 8 (w / 32768)) (Fin.ofNat 64 (w / 512)) (Fin.ofNat 64 (w / 8)) (Fin.ofNat 4 (w / 2)) (Fin.ofNat 2 (w / 1))) else .illField
  | 13 => if fld w 4 5 = 0 then .ok (.frint (chainBit w) (Fin.ofNat 64 (w / 32768)) (Fin.ofNat 64 (w / 512)) (Fin.ofNat 8 (w / 2)) (Fin.ofNat 2 (w / 1))) else .illField
  | 14 => .ok (.fscale (chainBit w) (Fin.ofNat 64 (w / 32768)) (Fin.ofNat 64 (w / 512)) (Fin.ofNat 64 (w / 8)) (Fin.ofNat 4 (w / 2)) (Fin.ofNat 2 (w / 1)))
  | 15 => if fld w 1 8 = 0 then .ok (.fclass (chainBit w) (Fin.ofNat 64 (w / 32768)) (Fin.ofNat 64 (w / 512)) (Fin.ofNat 2 (w / 1))) else .illField
  | 16 => .ok (.dadd (chainBit w) (Fin.ofNat 64 (w / 32768)) (Fin.ofNat 64 (w / 512)) (Fin.ofNat 64 (w / 8)) (Fin.ofNat 4 (w / 2)) (Fin.ofNat 2 (w / 1)))
  | 17 => .ok (.dmul (chainBit w) (Fin.ofNat 64 (w / 32768)) (Fin.ofNat 64 (w / 512)) (Fin.ofNat 64 (w / 8)) (Fin.ofNat 4 (w / 2)) (Fin.ofNat 2 (w / 1)))
  | 18 => .ok (.dmin (chainBit w) (Fin.ofNat 64 (w / 32768)) (Fin.ofNat 64 (w / 512)) (Fin.ofNat 64 (w / 8)) (Fin.ofNat 4 (w / 2)) (Fin.ofNat 2 (w / 1)))
  | 19 => .ok (.dmax (chainBit w) (Fin.ofNat 64 (w / 32768)) (Fin.ofNat 64 (w / 512)) (Fin.ofNat 64 (w / 8)) (Fin.ofNat 4 (w / 2)) (Fin.ofNat 2 (w / 1)))
  | 20 => if fld w 18 3 = 0 then .ok (.dcmpLt (chainBit w) (Fin.ofNat 8 (w / 32768)) (Fin.ofNat 64 (w / 512)) (Fin.ofNat 64 (w / 8)) (Fin.ofNat 4 (w / 2)) (Fin.ofNat 2 (w / 1))) else .illField
  | 21 => .ok (.cvt (chainBit w) (Fin.ofNat 64 (w / 32768)) (Fin.ofNat 64 (w / 512)) (Fin.ofNat 32 (w / 16)) (Fin.ofNat 8 (w / 2)) (Fin.ofNat 2 (w / 1)))
  | 22 => .ok (.qnt (chainBit w) (Fin.ofNat 64 (w / 32768)) (Fin.ofNat 64 (w / 512)) (Fin.ofNat 32 (w / 16)) (Fin.ofNat 8 (w / 2)) (Fin.ofNat 2 (w / 1)))
  | 23 => .ok (.dqnt (chainBit w) (Fin.ofNat 64 (w / 32768)) (Fin.ofNat 64 (w / 512)) (Fin.ofNat 32 (w / 16)) (Fin.ofNat 8 (w / 2)) (Fin.ofNat 2 (w / 1)))
  | 24 => .ok (.mxscl (chainBit w) (Fin.ofNat 64 (w / 32768)) (Fin.ofNat 64 (w / 512)) (Fin.ofNat 64 (w / 8)) (Fin.ofNat 4 (w / 2)) (Fin.ofNat 2 (w / 1)))
  | 25 => .ok (.pack2 (chainBit w) (Fin.ofNat 64 (w / 32768)) (Fin.ofNat 64 (w / 512)) (Fin.ofNat 64 (w / 8)) (Fin.ofNat 4 (w / 2)) (Fin.ofNat 2 (w / 1)))
  | 26 => .ok (.unpk (chainBit w) (Fin.ofNat 64 (w / 32768)) (Fin.ofNat 64 (w / 512)) (Fin.ofNat 32 (w / 16)) (Fin.ofNat 8 (w / 2)) (Fin.ofNat 2 (w / 1)))
  | 48 => if fld w 0 5 = 0 then .ok (.frcp (chainBit w) (Fin.ofNat 64 (w / 32768)) (Fin.ofNat 64 (w / 512)) (Fin.ofNat 16 (w / 32))) else .illField
  | 49 => if fld w 0 5 = 0 then .ok (.frsq (chainBit w) (Fin.ofNat 64 (w / 32768)) (Fin.ofNat 64 (w / 512)) (Fin.ofNat 16 (w / 32))) else .illField
  | 50 => if fld w 0 5 = 0 then .ok (.fsqrt (chainBit w) (Fin.ofNat 64 (w / 32768)) (Fin.ofNat 64 (w / 512)) (Fin.ofNat 16 (w / 32))) else .illField
  | 51 => if fld w 0 5 = 0 then .ok (.fex2 (chainBit w) (Fin.ofNat 64 (w / 32768)) (Fin.ofNat 64 (w / 512)) (Fin.ofNat 16 (w / 32))) else .illField
  | 52 => if fld w 0 5 = 0 then .ok (.flg2 (chainBit w) (Fin.ofNat 64 (w / 32768)) (Fin.ofNat 64 (w / 512)) (Fin.ofNat 16 (w / 32))) else .illField
  | 53 => if fld w 0 5 = 0 then .ok (.fsin (chainBit w) (Fin.ofNat 64 (w / 32768)) (Fin.ofNat 64 (w / 512)) (Fin.ofNat 16 (w / 32))) else .illField
  | 54 => if fld w 0 5 = 0 then .ok (.fcos (chainBit w) (Fin.ofNat 64 (w / 32768)) (Fin.ofNat 64 (w / 512)) (Fin.ofNat 16 (w / 32))) else .illField
  | 55 => if fld w 0 5 = 0 then .ok (.fdiv (chainBit w) (Fin.ofNat 64 (w / 32768)) (Fin.ofNat 64 (w / 512)) (Fin.ofNat 16 (w / 32))) else .illField
  | _ => .illEnc

/-- Words of class FMA (Table 2-7). -/
def decodeFma (w : Nat) : Decoded :=
  match fld w 24 3 with
  | 0 => .ok (.ffma (chainBit w) (Fin.ofNat 64 (w / 262144)) (Fin.ofNat 64 (w / 4096)) (Fin.ofNat 64 (w / 64)) (Fin.ofNat 64 (w / 1)))
  | 1 => .ok (.ffms (chainBit w) (Fin.ofNat 64 (w / 262144)) (Fin.ofNat 64 (w / 4096)) (Fin.ofNat 64 (w / 64)) (Fin.ofNat 64 (w / 1)))
  | 2 => .ok (.ffnma (chainBit w) (Fin.ofNat 64 (w / 262144)) (Fin.ofNat 64 (w / 4096)) (Fin.ofNat 64 (w / 64)) (Fin.ofNat 64 (w / 1)))
  | 3 => .ok (.ffnms (chainBit w) (Fin.ofNat 64 (w / 262144)) (Fin.ofNat 64 (w / 4096)) (Fin.ofNat 64 (w / 64)) (Fin.ofNat 64 (w / 1)))
  | 4 => .ok (.dfma (chainBit w) (Fin.ofNat 64 (w / 262144)) (Fin.ofNat 64 (w / 4096)) (Fin.ofNat 64 (w / 64)) (Fin.ofNat 64 (w / 1)))
  | _ => .illEnc

/-- Words of class FMH (Table 2-7). -/
def decodeFmh (w : Nat) : Decoded :=
  match fld w 24 3 with
  | 0 => .ok (.hfma2 (chainBit w) (Fin.ofNat 64 (w / 262144)) (Fin.ofNat 64 (w / 4096)) (Fin.ofNat 64 (w / 64)) (Fin.ofNat 64 (w / 1)))
  | 1 => .ok (.bfma2 (chainBit w) (Fin.ofNat 64 (w / 262144)) (Fin.ofNat 64 (w / 4096)) (Fin.ofNat 64 (w / 64)) (Fin.ofNat 64 (w / 1)))
  | 2 => .ok (.hdot2 (chainBit w) (Fin.ofNat 64 (w / 262144)) (Fin.ofNat 64 (w / 4096)) (Fin.ofNat 64 (w / 64)) (Fin.ofNat 64 (w / 1)))
  | 3 => .ok (.bdot2 (chainBit w) (Fin.ofNat 64 (w / 262144)) (Fin.ofNat 64 (w / 4096)) (Fin.ofNat 64 (w / 64)) (Fin.ofNat 64 (w / 1)))
  | _ => .illEnc

/-- Words of class SCA (Table 2-7, Table 4-7). -/
def decodeSca (w : Nat) : Decoded :=
  match fld w 22 5 with
  | 0 => if fld w 0 4 = 0 then .ok (.sadd (chainBit w) (Fin.ofNat 64 (w / 65536)) (Fin.ofNat 64 (w / 1024)) (Fin.ofNat 64 (w / 16))) else .illField
  | 1 => if fld w 0 4 = 0 then .ok (.ssub (chainBit w) (Fin.ofNat 64 (w / 65536)) (Fin.ofNat 64 (w / 1024)) (Fin.ofNat 64 (w / 16))) else .illField
  | 2 => if fld w 0 4 = 0 then .ok (.smul (chainBit w) (Fin.ofNat 64 (w / 65536)) (Fin.ofNat 64 (w / 1024)) (Fin.ofNat 64 (w / 16))) else .illField
  | 3 => if fld w 0 4 = 0 then .ok (.sand (chainBit w) (Fin.ofNat 64 (w / 65536)) (Fin.ofNat 64 (w / 1024)) (Fin.ofNat 64 (w / 16))) else .illField
  | 4 => if fld w 0 4 = 0 then .ok (.sor (chainBit w) (Fin.ofNat 64 (w / 65536)) (Fin.ofNat 64 (w / 1024)) (Fin.ofNat 64 (w / 16))) else .illField
  | 5 => if fld w 0 4 = 0 then .ok (.sxor (chainBit w) (Fin.ofNat 64 (w / 65536)) (Fin.ofNat 64 (w / 1024)) (Fin.ofNat 64 (w / 16))) else .illField
  | 6 => if fld w 0 4 = 0 then .ok (.sshl (chainBit w) (Fin.ofNat 64 (w / 65536)) (Fin.ofNat 64 (w / 1024)) (Fin.ofNat 64 (w / 16))) else .illField
  | 7 => if fld w 0 4 = 0 then .ok (.sshr (chainBit w) (Fin.ofNat 64 (w / 65536)) (Fin.ofNat 64 (w / 1024)) (Fin.ofNat 64 (w / 16))) else .illField
  | 8 => if fld w 0 4 = 0 then .ok (.ssar (chainBit w) (Fin.ofNat 64 (w / 65536)) (Fin.ofNat 64 (w / 1024)) (Fin.ofNat 64 (w / 16))) else .illField
  | 9 => if fld w 0 4 = 0 then .ok (.scmpEq (chainBit w) (Fin.ofNat 64 (w / 65536)) (Fin.ofNat 64 (w / 1024)) (Fin.ofNat 64 (w / 16))) else .illField
  | 10 => if fld w 0 4 = 0 then .ok (.scmpLtI (chainBit w) (Fin.ofNat 64 (w / 65536)) (Fin.ofNat 64 (w / 1024)) (Fin.ofNat 64 (w / 16))) else .illField
  | 11 => if fld w 0 4 = 0 then .ok (.scmpLtN (chainBit w) (Fin.ofNat 64 (w / 65536)) (Fin.ofNat 64 (w / 1024)) (Fin.ofNat 64 (w / 16))) else .illField
  | 12 => if fld w 0 4 = 0 then .ok (.sminI (chainBit w) (Fin.ofNat 64 (w / 65536)) (Fin.ofNat 64 (w / 1024)) (Fin.ofNat 64 (w / 16))) else .illField
  | 13 => if fld w 0 4 = 0 then .ok (.smaxI (chainBit w) (Fin.ofNat 64 (w / 65536)) (Fin.ofNat 64 (w / 1024)) (Fin.ofNat 64 (w / 16))) else .illField
  | 14 => if fld w 0 10 = 0 then .ok (.smov (chainBit w) (Fin.ofNat 64 (w / 65536)) (Fin.ofNat 64 (w / 1024))) else .illField
  | 15 => if fld w 0 4 = 0 then .ok (.ssel (chainBit w) (Fin.ofNat 64 (w / 65536)) (Fin.ofNat 64 (w / 1024)) (Fin.ofNat 64 (w / 16))) else .illField
  | 16 => .ok (.slil (chainBit w) (Fin.ofNat 64 (w / 65536)) (Fin.ofNat 65536 (w / 1)))
  | 17 => .ok (.slih (chainBit w) (Fin.ofNat 64 (w / 65536)) (Fin.ofNat 65536 (w / 1)))
  | 18 => .ok (.saddi (chainBit w) (Fin.ofNat 64 (w / 65536)) (Fin.ofNat 65536 (w / 1)))
  | 19 => if fld w 0 4 = 0 then .ok (.srdl (chainBit w) (Fin.ofNat 64 (w / 65536)) (Fin.ofNat 64 (w / 1024)) (Fin.ofNat 64 (w / 16))) else .illField
  | 20 => if fld w 0 10 = 0 then .ok (.sbal (chainBit w) (Fin.ofNat 64 (w / 65536)) (Fin.ofNat 64 (w / 1024))) else .illField
  | 21 => if fld w 0 4 = 0 then .ok (.swrl (chainBit w) (Fin.ofNat 64 (w / 65536)) (Fin.ofNat 64 (w / 1024)) (Fin.ofNat 64 (w / 16))) else .illField
  | _ => .illEnc

/-- Words of class LD (R39, Table 7-10). -/
def decodeLd (w : Nat) : Decoded :=
  if fld w 24 3 ≤ 4 then (.ok (.ld (chainBit w) (Fin.ofNat 8 (w / 16777216)) (Fin.ofNat 4 (w / 4194304)) (Fin.ofNat 8 (w / 524288)) (Fin.ofNat 64 (w / 8192)) (Fin.ofNat 64 (w / 128)) (Fin.ofNat 16 (w / 8)) (Fin.ofNat 8 (w / 1))))
  else .ok (.ldu (chainBit w) (Fin.ofNat 8 (w / 16777216)) (Fin.ofNat 4 (w / 4194304)) (Fin.ofNat 8 (w / 524288)) (Fin.ofNat 64 (w / 8192)) (Fin.ofNat 64 (w / 128)) (Fin.ofNat 16 (w / 8)) (Fin.ofNat 8 (w / 1)))

/-- Words of class ST (R39, Table 7-10). -/
def decodeSt (w : Nat) : Decoded :=
  if fld w 24 3 ≤ 4 then (if fld w 3 4 = 0 then .ok (.st (chainBit w) (Fin.ofNat 8 (w / 16777216)) (Fin.ofNat 4 (w / 4194304)) (Fin.ofNat 8 (w / 524288)) (Fin.ofNat 64 (w / 8192)) (Fin.ofNat 64 (w / 128)) (Fin.ofNat 8 (w / 1))) else .illField)
  else if fld w 3 4 = 0 then .ok (.stu (chainBit w) (Fin.ofNat 8 (w / 16777216)) (Fin.ofNat 4 (w / 4194304)) (Fin.ofNat 8 (w / 524288)) (Fin.ofNat 64 (w / 8192)) (Fin.ofNat 64 (w / 128)) (Fin.ofNat 8 (w / 1))) else .illField

/-- Words of class ATM (R40, Table 9-2). -/
def decodeAtm (w : Nat) : Decoded :=
  match fld w 23 4 with
  | 0 => if fld w 1 1 = 0 then .ok (.atomAdd (chainBit w) (Fin.ofNat 4 (w / 2097152)) (Fin.ofNat 32 (w / 65536)) (Fin.ofNat 64 (w / 1024)) (Fin.ofNat 64 (w / 16)) (Fin.ofNat 4 (w / 4)) (Fin.ofNat 2 (w / 1))) else .illField
  | 1 => if fld w 1 1 = 0 then .ok (.atomMinI (chainBit w) (Fin.ofNat 4 (w / 2097152)) (Fin.ofNat 32 (w / 65536)) (Fin.ofNat 64 (w / 1024)) (Fin.ofNat 64 (w / 16)) (Fin.ofNat 4 (w / 4)) (Fin.ofNat 2 (w / 1))) else .illField
  | 2 => if fld w 1 1 = 0 then .ok (.atomMinN (chainBit w) (Fin.ofNat 4 (w / 2097152)) (Fin.ofNat 32 (w / 65536)) (Fin.ofNat 64 (w / 1024)) (Fin.ofNat 64 (w / 16)) (Fin.ofNat 4 (w / 4)) (Fin.ofNat 2 (w / 1))) else .illField
  | 3 => if fld w 1 1 = 0 then .ok (.atomMaxI (chainBit w) (Fin.ofNat 4 (w / 2097152)) (Fin.ofNat 32 (w / 65536)) (Fin.ofNat 64 (w / 1024)) (Fin.ofNat 64 (w / 16)) (Fin.ofNat 4 (w / 4)) (Fin.ofNat 2 (w / 1))) else .illField
  | 4 => if fld w 1 1 = 0 then .ok (.atomMaxN (chainBit w) (Fin.ofNat 4 (w / 2097152)) (Fin.ofNat 32 (w / 65536)) (Fin.ofNat 64 (w / 1024)) (Fin.ofNat 64 (w / 16)) (Fin.ofNat 4 (w / 4)) (Fin.ofNat 2 (w / 1))) else .illField
  | 5 => if fld w 1 1 = 0 then .ok (.atomAnd (chainBit w) (Fin.ofNat 4 (w / 2097152)) (Fin.ofNat 32 (w / 65536)) (Fin.ofNat 64 (w / 1024)) (Fin.ofNat 64 (w / 16)) (Fin.ofNat 4 (w / 4)) (Fin.ofNat 2 (w / 1))) else .illField
  | 6 => if fld w 1 1 = 0 then .ok (.atomOr (chainBit w) (Fin.ofNat 4 (w / 2097152)) (Fin.ofNat 32 (w / 65536)) (Fin.ofNat 64 (w / 1024)) (Fin.ofNat 64 (w / 16)) (Fin.ofNat 4 (w / 4)) (Fin.ofNat 2 (w / 1))) else .illField
  | 7 => if fld w 1 1 = 0 then .ok (.atomXor (chainBit w) (Fin.ofNat 4 (w / 2097152)) (Fin.ofNat 32 (w / 65536)) (Fin.ofNat 64 (w / 1024)) (Fin.ofNat 64 (w / 16)) (Fin.ofNat 4 (w / 4)) (Fin.ofNat 2 (w / 1))) else .illField
  | 8 => if fld w 1 1 = 0 then .ok (.atomXchg (chainBit w) (Fin.ofNat 4 (w / 2097152)) (Fin.ofNat 32 (w / 65536)) (Fin.ofNat 64 (w / 1024)) (Fin.ofNat 64 (w / 16)) (Fin.ofNat 4 (w / 4)) (Fin.ofNat 2 (w / 1))) else .illField
  | 9 => if fld w 1 1 = 0 then .ok (.acas (chainBit w) (Fin.ofNat 4 (w / 2097152)) (Fin.ofNat 32 (w / 65536)) (Fin.ofNat 64 (w / 1024)) (Fin.ofNat 64 (w / 16)) (Fin.ofNat 4 (w / 4)) (Fin.ofNat 2 (w / 1))) else .illField
  | 10 => if fld w 1 1 = 0 then .ok (.atomFadd (chainBit w) (Fin.ofNat 4 (w / 2097152)) (Fin.ofNat 32 (w / 65536)) (Fin.ofNat 64 (w / 1024)) (Fin.ofNat 64 (w / 16)) (Fin.ofNat 4 (w / 4)) (Fin.ofNat 2 (w / 1))) else .illField
  | 11 => if fld w 1 1 = 0 then .ok (.atomFamax (chainBit w) (Fin.ofNat 4 (w / 2097152)) (Fin.ofNat 32 (w / 65536)) (Fin.ofNat 64 (w / 1024)) (Fin.ofNat 64 (w / 16)) (Fin.ofNat 4 (w / 4)) (Fin.ofNat 2 (w / 1))) else .illField
  | 12 => if fld w 1 1 = 0 then .ok (.atomXrst (chainBit w) (Fin.ofNat 4 (w / 2097152)) (Fin.ofNat 32 (w / 65536)) (Fin.ofNat 64 (w / 1024)) (Fin.ofNat 64 (w / 16)) (Fin.ofNat 4 (w / 4)) (Fin.ofNat 2 (w / 1))) else .illField
  | 13 => if fld w 1 1 = 0 then .ok (.ald (chainBit w) (Fin.ofNat 4 (w / 2097152)) (Fin.ofNat 32 (w / 65536)) (Fin.ofNat 64 (w / 1024)) (Fin.ofNat 64 (w / 16)) (Fin.ofNat 4 (w / 4)) (Fin.ofNat 2 (w / 1))) else .illField
  | 14 => if fld w 1 1 = 0 then .ok (.ast (chainBit w) (Fin.ofNat 4 (w / 2097152)) (Fin.ofNat 32 (w / 65536)) (Fin.ofNat 64 (w / 1024)) (Fin.ofNat 64 (w / 16)) (Fin.ofNat 4 (w / 4)) (Fin.ofNat 2 (w / 1))) else .illField
  | _ => .illEnc

/-- Words of class SYN (Table 2-9). -/
def decodeSyn (w : Nat) : Decoded :=
  match fld w 22 5 with
  | 0 => if fld w 0 13 = 0 then .ok (.fence (chainBit w) (Fin.ofNat 16 (w / 262144)) (Fin.ofNat 32 (w / 8192))) else .illField
  | 1 => if fld w 21 1 = 0 then (if fld w 0 4 = 0 ∧ fld w 14 7 = 0 then .ok (.binit (chainBit w) (Fin.ofNat 16 (w / 1024)) (Fin.ofNat 64 (w / 16))) else .illField)
    else if fld w 0 4 = 0 then .ok (.binitMem (chainBit w) (Fin.ofNat 32 (w / 65536)) (Fin.ofNat 64 (w / 1024)) (Fin.ofNat 64 (w / 16))) else .illField
  | 2 => if fld w 21 1 = 0 then (if fld w 0 10 = 0 ∧ fld w 14 7 = 0 then .ok (.barr (chainBit w) (Fin.ofNat 16 (w / 1024))) else .illField)
    else if fld w 0 10 = 0 ∧ fld w 16 5 = 0 then .ok (.barrMem (chainBit w) (Fin.ofNat 64 (w / 1024))) else .illField
  | 3 => if fld w 0 10 = 0 ∧ fld w 14 8 = 0 then .ok (.bard (chainBit w) (Fin.ofNat 16 (w / 1024))) else .illField
  | 4 => if fld w 0 4 = 0 ∧ fld w 14 8 = 0 then .ok (.bexp (chainBit w) (Fin.ofNat 16 (w / 1024)) (Fin.ofNat 64 (w / 16))) else .illField
  | 5 => if fld w 21 1 = 0 then (if fld w 0 4 = 0 ∧ fld w 14 7 = 0 then .ok (.bwait (chainBit w) (Fin.ofNat 16 (w / 1024)) (Fin.ofNat 64 (w / 16))) else .illField)
    else if fld w 0 4 = 0 ∧ fld w 16 5 = 0 then .ok (.bwaitMem (chainBit w) (Fin.ofNat 64 (w / 1024)) (Fin.ofNat 64 (w / 16))) else .illField
  | 6 => if fld w 21 1 = 0 then (if fld w 0 4 = 0 ∧ fld w 14 7 = 0 then .ok (.btest (chainBit w) (Fin.ofNat 16 (w / 1024)) (Fin.ofNat 64 (w / 16))) else .illField)
    else if fld w 0 4 = 0 ∧ fld w 16 5 = 0 then .ok (.btestMem (chainBit w) (Fin.ofNat 64 (w / 1024)) (Fin.ofNat 64 (w / 16))) else .illField
  | 7 => if fld w 0 6 = 0 then .ok (.qinit (chainBit w) (Fin.ofNat 16 (w / 262144)) (Fin.ofNat 64 (w / 4096)) (Fin.ofNat 64 (w / 64))) else .illField
  | 8 => if fld w 0 12 = 0 then .ok (.qpush (chainBit w) (Fin.ofNat 16 (w / 262144)) (Fin.ofNat 64 (w / 4096))) else .illField
  | 9 => if fld w 0 12 = 0 then .ok (.qpop (chainBit w) (Fin.ofNat 16 (w / 262144)) (Fin.ofNat 64 (w / 4096))) else .illField
  | 10 => if fld w 0 6 = 0 then .ok (.qtry (chainBit w) (Fin.ofNat 16 (w / 262144)) (Fin.ofNat 64 (w / 4096)) (Fin.ofNat 64 (w / 64))) else .illField
  | 11 => if fld w 0 6 = 0 then .ok (.qalw (chainBit w) (Fin.ofNat 16 (w / 262144)) (Fin.ofNat 64 (w / 4096)) (Fin.ofNat 64 (w / 64))) else .illField
  | 12 => if fld w 0 4 = 0 ∧ fld w 17 5 = 0 then .ok (.slinit (chainBit w) (Fin.ofNat 64 (w / 2048)) (Fin.ofNat 64 (w / 32)) (Fin.ofNat 2 (w / 16))) else .illField
  | 13 => if fld w 0 5 = 0 then .ok (.sle (chainBit w) (Fin.ofNat 32 (w / 131072)) (Fin.ofNat 64 (w / 2048)) (Fin.ofNat 64 (w / 32))) else .illField
  | 14 => if fld w 0 11 = 0 then .ok (.slx (chainBit w) (Fin.ofNat 32 (w / 131072)) (Fin.ofNat 64 (w / 2048))) else .illField
  | 15 => if fld w 0 5 = 0 ∧ fld w 17 5 = 0 then .ok (.slclose (chainBit w) (Fin.ofNat 64 (w / 2048)) (Fin.ofNat 64 (w / 32))) else .illField
  | 16 => if fld w 0 5 = 0 ∧ fld w 17 5 = 0 then .ok (.slq (chainBit w) (Fin.ofNat 64 (w / 2048)) (Fin.ofNat 64 (w / 32))) else .illField
  | 17 => if fld w 0 4 = 0 then .ok (.cflush (chainBit w) (Fin.ofNat 32 (w / 131072)) (Fin.ofNat 64 (w / 2048)) (Fin.ofNat 64 (w / 32)) (Fin.ofNat 2 (w / 16))) else .illField
  | 18 => if fld w 0 4 = 0 then .ok (.cinv (chainBit w) (Fin.ofNat 32 (w / 131072)) (Fin.ofNat 64 (w / 2048)) (Fin.ofNat 64 (w / 32)) (Fin.ofNat 2 (w / 16))) else .illField
  | 19 => if fld w 0 4 = 0 ∧ fld w 17 5 = 0 then .ok (.scbwait (chainBit w) (Fin.ofNat 64 (w / 2048)) (Fin.ofNat 64 (w / 32)) (Fin.ofNat 2 (w / 16))) else .illField
  | _ => .illEnc

/-- Words of class CPY (R41, Table 11-3). -/
def decodeCpy (w : Nat) : Decoded :=
  match fld w 0 2 with
  | 0 => if fld w 24 3 = 4 then .ok (.cpt (chainBit w) (Fin.ofNat 8 (w / 2097152)) (Fin.ofNat 8 (w / 262144)) (Fin.ofNat 64 (w / 4096)) (Fin.ofNat 64 (w / 64)) (Fin.ofNat 16 (w / 4)))
    else if fld w 26 1 = 0 then .ok (.cp (chainBit w) (Fin.ofNat 4 (w / 16777216)) (Fin.ofNat 8 (w / 2097152)) (Fin.ofNat 8 (w / 262144)) (Fin.ofNat 64 (w / 4096)) (Fin.ofNat 64 (w / 64)) (Fin.ofNat 16 (w / 4))) else .illField
  | 1 => .ok (.cpx (chainBit w) (Fin.ofNat 8 (w / 16777216)) (Fin.ofNat 8 (w / 2097152)) (Fin.ofNat 8 (w / 262144)) (Fin.ofNat 64 (w / 4096)) (Fin.ofNat 64 (w / 64)) (Fin.ofNat 16 (w / 4)))
  | 2 => if fld w 24 3 = 4 then .ok (.cpm (chainBit w) 3 (Fin.ofNat 8 (w / 2097152)) (Fin.ofNat 8 (w / 262144)) (Fin.ofNat 64 (w / 4096)) (Fin.ofNat 64 (w / 64)) (Fin.ofNat 16 (w / 4)))
    else if fld w 24 3 = 3 then .illField
    else if fld w 26 1 = 0 then .ok (.cpm (chainBit w) (Fin.ofNat 4 (w / 16777216)) (Fin.ofNat 8 (w / 2097152)) (Fin.ofNat 8 (w / 262144)) (Fin.ofNat 64 (w / 4096)) (Fin.ofNat 64 (w / 64)) (Fin.ofNat 16 (w / 4))) else .illField
  | _ => .ok (.cpe (chainBit w) (Fin.ofNat 8 (w / 16777216)) (Fin.ofNat 8 (w / 2097152)) (Fin.ofNat 8 (w / 262144)) (Fin.ofNat 64 (w / 4096)) (Fin.ofNat 64 (w / 64)) (Fin.ofNat 16 (w / 4)))

/-- Words of class MTX (R42, Table 6-7). -/
def decodeMtx (w : Nat) : Decoded :=
  match fld w 24 3 with
  | 0 => .ok (.mma (chainBit w) (Fin.ofNat 8 (w / 2097152)) (Fin.ofNat 64 (w / 32768)) (Fin.ofNat 64 (w / 512)) (Fin.ofNat 16 (w / 32)) (Fin.ofNat 16 (w / 2)) (Fin.ofNat 2 (w / 1)))
  | 1 => if fld w 0 1 = 0 ∧ fld w 9 12 = 0 then .ok (.mmz (chainBit w) (Fin.ofNat 8 (w / 2097152)) (Fin.ofNat 16 (w / 32)) (Fin.ofNat 16 (w / 2))) else .illField
  | 2 => .ok (.mdr (chainBit w) (Fin.ofNat 8 (w / 2097152)) (Fin.ofNat 64 (w / 32768)) (Fin.ofNat 64 (w / 512)) (Fin.ofNat 16 (w / 32)) (Fin.ofNat 16 (w / 2)) (Fin.ofNat 2 (w / 1)))
  | 3 => if fld w 0 1 = 0 ∧ fld w 9 6 = 0 then .ok (.mld (chainBit w) (Fin.ofNat 8 (w / 2097152)) (Fin.ofNat 64 (w / 32768)) (Fin.ofNat 16 (w / 32)) (Fin.ofNat 16 (w / 2))) else .illField
  | 4 => if fld w 0 1 = 0 ∧ fld w 9 6 = 0 ∧ fld w 21 3 = 0 then .ok (.mfmt (chainBit w) (Fin.ofNat 64 (w / 32768)) (Fin.ofNat 16 (w / 32)) (Fin.ofNat 16 (w / 2))) else .illField
  | 5 => if fld w 5 10 = 0 then .ok (.mrq (chainBit w) (Fin.ofNat 8 (w / 2097152)) (Fin.ofNat 64 (w / 32768)) (Fin.ofNat 16 (w / 2)) (Fin.ofNat 2 (w / 1))) else .illField
  | 6 => if fld w 0 1 = 0 ∧ fld w 5 10 = 0 ∧ fld w 21 3 = 0 then .ok (.mqry (chainBit w) (Fin.ofNat 64 (w / 32768)) (Fin.ofNat 16 (w / 2))) else .illField
  | _ => .illEnc

/-- Words of class GFX (Table 2-9). -/
def decodeGfx (w : Nat) : Decoded :=
  match fld w 22 5 with
  | 0 => if fld w 0 4 = 0 ∧ fld w 16 6 = 0 then .ok (.dice (chainBit w) (Fin.ofNat 64 (w / 1024)) (Fin.ofNat 64 (w / 16))) else .illField
  | 1 => if fld w 4 6 = 0 then .ok (.gsh (chainBit w) (Fin.ofNat 64 (w / 65536)) (Fin.ofNat 64 (w / 1024)) (Fin.ofNat 16 (w / 1))) else .illField
  | 2 => if fld w 0 4 = 0 ∧ fld w 16 6 = 0 then .ok (.gwb (chainBit w) (Fin.ofNat 64 (w / 1024)) (Fin.ofNat 64 (w / 16))) else .illField
  | 3 => if fld w 0 10 = 0 ∧ fld w 16 6 = 0 then .ok (.gemit (chainBit w) (Fin.ofNat 64 (w / 1024))) else .illField
  | 4 => .ok (.stq (chainBit w) (Fin.ofNat 64 (w / 65536)) (Fin.ofNat 64 (w / 1024)) (Fin.ofNat 64 (w / 16)) (Fin.ofNat 16 (w / 1)))
  | 5 => if fld w 4 12 = 0 then .ok (.bknext (chainBit w) (Fin.ofNat 64 (w / 65536)) (Fin.ofNat 16 (w / 1))) else .illField
  | 6 => if fld w 0 10 = 0 ∧ fld w 16 6 = 0 then .ok (.bkdone (chainBit w) (Fin.ofNat 64 (w / 1024))) else .illField
  | 7 => if fld w 0 10 = 0 ∧ fld w 16 6 = 0 then .ok (.bkspl (chainBit w) (Fin.ofNat 64 (w / 1024))) else .illField
  | 8 => if fld w 0 4 = 0 ∧ fld w 16 6 = 0 then .ok (.ray (chainBit w) (Fin.ofNat 64 (w / 1024)) (Fin.ofNat 64 (w / 16))) else .illField
  | 9 => if fld w 4 6 = 0 then .ok (.rayw (chainBit w) (Fin.ofNat 64 (w / 65536)) (Fin.ofNat 64 (w / 1024)) (Fin.ofNat 16 (w / 1))) else .illField
  | 10 => if fld w 4 6 = 0 then .ok (.rays (chainBit w) (Fin.ofNat 64 (w / 65536)) (Fin.ofNat 64 (w / 1024)) (Fin.ofNat 16 (w / 1))) else .illField
  | 11 => if fld w 0 4 = 0 ∧ fld w 16 6 = 0 then .ok (.tspawn (chainBit w) (Fin.ofNat 64 (w / 1024)) (Fin.ofNat 64 (w / 16))) else .illField
  | 12 => if fld w 0 10 = 0 ∧ fld w 16 6 = 0 then .ok (.tsucc (chainBit w) (Fin.ofNat 64 (w / 1024))) else .illField
  | 13 => if chainBit w then .illChain else (if fld w 0 22 = 0 then .ok .tdone else .illField)
  | _ => .illEnc

/-- Words of class LGT (R43). -/
def decodeLgt (w : Nat) : Decoded :=
  if fld w 0 1 = 0 then .ok (.lgt (chainBit w) (Fin.ofNat 64 (w / 2097152)) (Fin.ofNat 64 (w / 32768)) (Fin.ofNat 64 (w / 512)) (Fin.ofNat 256 (w / 2))) else .illField

/-- The class in bits 30:27 (Table 2-1), then the class's own layout. -/
def decodeRow (w : Nat) : Decoded :=
  match fld w 27 4 with
  | 0 => decodeCtl w
  | 1 => decodeSys w
  | 2 => decodeInt w
  | 3 => decodeImm w
  | 4 => decodeFpa w
  | 5 => decodeFma w
  | 6 => decodeFmh w
  | 7 => decodeSca w
  | 8 => decodeLd w
  | 9 => decodeSt w
  | 10 => decodeAtm w
  | 11 => decodeSyn w
  | 12 => decodeCpy w
  | 13 => decodeMtx w
  | 14 => decodeGfx w
  | _ => decodeLgt w

/-- A word's instruction, or the cause that refuses it (R33 checks 2 to 4, as far as one word shows them). -/
def decode (w : Word) : Decoded :=
  match decodeRow w.toNat with
  | .ok i => if i.wf then .ok i else .illField
  | d => d

/-- The chain bit's weight. -/
def chainVal (c : Bool) : Nat := if c then 0x80000000 else 0

/-- CPM's SZ field: 0 to 2, and 4 for the tile form, which `cpm` carries as size 3 (R41, R358). DESIGN CHOICE: notes/assumptions/47. -/
def cpmSize (z : Fin 4) : Nat := if z = 3 then 0x4000000 else z.val * 16777216

/-- The word of an instruction, none for a step that has no word. Written from the same tables as the decoder. -/
def encode : Instr → Option Nat
  | .nop c => some (chainVal c)
  | .bra o => some (0x400000 + o.val)
  | .br m n k o => some (0x800000 + m.val * 524288 + n.val * 262144 + k.val * 65536 + o.val)
  | .brx a => some (0xc00000 + a.val * 1024)
  | .call o => some (0x1000000 + o.val)
  | .ret => some (0x1400000)
  | .loopS d l => some (0x1800000 + d.val * 65536 + l.val)
  | .loopi n l => some (0x1c00000 + n.val * 1024 + l.val)
  | .lbrk => some (0x2000000)
  | .rep n d a b e => some (0x2400000 + n.val * 65536 + d.val * 16384 + a.val * 4096 + b.val * 1024 + e.val * 256)
  | .setx c m => some (0x2800000 + chainVal c + m.val * 1024)
  | .andx c m => some (0x2c00000 + chainVal c + m.val * 1024)
  | .orx c m => some (0x3000000 + chainVal c + m.val * 1024)
  | .regang c i => some (0x3400000 + chainVal c + i.val)
  | .yield => some (0x3800000)
  | .exit => some (0x3c00000)
  | .waitla c => some (0x4000000 + chainVal c)
  | .ageBoost => none
  | .trap i => some (0x8000000 + i.val)
  | .softi c a => some (0x8400000 + chainVal c + a.val * 1024)
  | .softiNotice => none
  | .mfsr c d r => some (0x8800000 + chainVal c + d.val * 65536 + r.val)
  | .mtsr c d r => some (0x8c00000 + chainVal c + d.val * 65536 + r.val)
  | .segld c g a => some (0x9000000 + chainVal c + g.val * 65536 + a.val * 1024)
  | .segrd c d g => some (0x9400000 + chainVal c + d.val * 65536 + g.val * 1024)
  | .scopew c d i => some (0x9800000 + chainVal c + d.val * 65536 + i.val)
  | .eret => some (0x9c00000)
  | .bkpt i => some (0xa000000 + i.val)
  | .time c d => some (0xa400000 + chainVal c + d.val * 65536)
  | .icinv c => some (0xa800000 + chainVal c)
  | .ctxsv c a => some (0xac00000 + chainVal c + a.val * 1024)
  | .ctxld c a => some (0xb000000 + chainVal c + a.val * 1024)
  | .iadd c d a b s => some (0x10000000 + chainVal c + d.val * 32768 + a.val * 512 + b.val * 8 + s.val * 2)
  | .isub c d a b s => some (0x10200000 + chainVal c + d.val * 32768 + a.val * 512 + b.val * 8 + s.val * 2)
  | .imul c d a b s => some (0x10400000 + chainVal c + d.val * 32768 + a.val * 512 + b.val * 8 + s.val * 2)
  | .imulhI c d a b s => some (0x10600000 + chainVal c + d.val * 32768 + a.val * 512 + b.val * 8 + s.val * 2)
  | .imulhN c d a b s => some (0x10800000 + chainVal c + d.val * 32768 + a.val * 512 + b.val * 8 + s.val * 2)
  | .imad c d a b s => some (0x10a00000 + chainVal c + d.val * 32768 + a.val * 512 + b.val * 8 + s.val * 2)
  | .iminI c d a b s => some (0x10c00000 + chainVal c + d.val * 32768 + a.val * 512 + b.val * 8 + s.val * 2)
  | .iminN c d a b s => some (0x10e00000 + chainVal c + d.val * 32768 + a.val * 512 + b.val * 8 + s.val * 2)
  | .imaxI c d a b s => some (0x11000000 + chainVal c + d.val * 32768 + a.val * 512 + b.val * 8 + s.val * 2)
  | .imaxN c d a b s => some (0x11200000 + chainVal c + d.val * 32768 + a.val * 512 + b.val * 8 + s.val * 2)
  | .iabs c d a => some (0x11400000 + chainVal c + d.val * 32768 + a.val * 512)
  | .andV c d a b s => some (0x11600000 + chainVal c + d.val * 32768 + a.val * 512 + b.val * 8 + s.val * 2)
  | .orV c d a b s => some (0x11800000 + chainVal c + d.val * 32768 + a.val * 512 + b.val * 8 + s.val * 2)
  | .xorV c d a b s => some (0x11a00000 + chainVal c + d.val * 32768 + a.val * 512 + b.val * 8 + s.val * 2)
  | .andn c d a b s => some (0x11c00000 + chainVal c + d.val * 32768 + a.val * 512 + b.val * 8 + s.val * 2)
  | .shl c d a b s => some (0x11e00000 + chainVal c + d.val * 32768 + a.val * 512 + b.val * 8 + s.val * 2)
  | .shr c d a b s => some (0x12000000 + chainVal c + d.val * 32768 + a.val * 512 + b.val * 8 + s.val * 2)
  | .sar c d a b s => some (0x12200000 + chainVal c + d.val * 32768 + a.val * 512 + b.val * 8 + s.val * 2)
  | .fsl c d a b s => some (0x12400000 + chainVal c + d.val * 32768 + a.val * 512 + b.val * 8 + s.val * 2)
  | .fsr c d a b s => some (0x12600000 + chainVal c + d.val * 32768 + a.val * 512 + b.val * 8 + s.val * 2)
  | .popc c d a => some (0x12800000 + chainVal c + d.val * 32768 + a.val * 512)
  | .clz c d a => some (0x12a00000 + chainVal c + d.val * 32768 + a.val * 512)
  | .brev c d a => some (0x12c00000 + chainVal c + d.val * 32768 + a.val * 512)
  | .bfxI c d a b s => some (0x12e00000 + chainVal c + d.val * 32768 + a.val * 512 + b.val * 8 + s.val * 2)
  | .bfxN c d a b s => some (0x13000000 + chainVal c + d.val * 32768 + a.val * 512 + b.val * 8 + s.val * 2)
  | .bfi c d a b s => some (0x13200000 + chainVal c + d.val * 32768 + a.val * 512 + b.val * 8 + s.val * 2)
  | .prm c d a b s => some (0x13400000 + chainVal c + d.val * 32768 + a.val * 512 + b.val * 8 + s.val * 2)
  | .icmpEq c m a b s => some (0x13600000 + chainVal c + m.val * 32768 + a.val * 512 + b.val * 8 + s.val * 2)
  | .icmpNe c m a b s => some (0x13800000 + chainVal c + m.val * 32768 + a.val * 512 + b.val * 8 + s.val * 2)
  | .icmpLtI c m a b s => some (0x13a00000 + chainVal c + m.val * 32768 + a.val * 512 + b.val * 8 + s.val * 2)
  | .icmpLtN c m a b s => some (0x13c00000 + chainVal c + m.val * 32768 + a.val * 512 + b.val * 8 + s.val * 2)
  | .icmpLeI c m a b s => some (0x13e00000 + chainVal c + m.val * 32768 + a.val * 512 + b.val * 8 + s.val * 2)
  | .icmpLeN c m a b s => some (0x14000000 + chainVal c + m.val * 32768 + a.val * 512 + b.val * 8 + s.val * 2)
  | .selM1 c d a b s => some (0x14200000 + chainVal c + d.val * 32768 + a.val * 512 + b.val * 8 + s.val * 2)
  | .selM2 c d a b s => some (0x14400000 + chainVal c + d.val * 32768 + a.val * 512 + b.val * 8 + s.val * 2)
  | .selM3 c d a b s => some (0x14600000 + chainVal c + d.val * 32768 + a.val * 512 + b.val * 8 + s.val * 2)
  | .selM4 c d a b s => some (0x14800000 + chainVal c + d.val * 32768 + a.val * 512 + b.val * 8 + s.val * 2)
  | .selM5 c d a b s => some (0x14a00000 + chainVal c + d.val * 32768 + a.val * 512 + b.val * 8 + s.val * 2)
  | .selM6 c d a b s => some (0x14c00000 + chainVal c + d.val * 32768 + a.val * 512 + b.val * 8 + s.val * 2)
  | .selM7 c d a b s => some (0x14e00000 + chainVal c + d.val * 32768 + a.val * 512 + b.val * 8 + s.val * 2)
  | .shflIdx c d a b s => some (0x15000000 + chainVal c + d.val * 32768 + a.val * 512 + b.val * 8 + s.val * 2)
  | .shflUp c d a b s => some (0x15200000 + chainVal c + d.val * 32768 + a.val * 512 + b.val * 8 + s.val * 2)
  | .shflDn c d a b s => some (0x15400000 + chainVal c + d.val * 32768 + a.val * 512 + b.val * 8 + s.val * 2)
  | .shflXor c d a b s => some (0x15600000 + chainVal c + d.val * 32768 + a.val * 512 + b.val * 8 + s.val * 2)
  | .mtov c d m => some (0x15800000 + chainVal c + d.val * 32768 + m.val * 512)
  | .vtom c m a => some (0x15a00000 + chainVal c + m.val * 32768 + a.val * 512)
  | .iaddi c d a i => some (0x18000000 + chainVal c + d.val * 131072 + a.val * 2048 + i.val)
  | .andi c d a i => some (0x18800000 + chainVal c + d.val * 131072 + a.val * 2048 + i.val)
  | .ori c d a i => some (0x19000000 + chainVal c + d.val * 131072 + a.val * 2048 + i.val)
  | .xori c d a i => some (0x19800000 + chainVal c + d.val * 131072 + a.val * 2048 + i.val)
  | .shli c d a n => some (0x1a000000 + chainVal c + d.val * 131072 + a.val * 2048 + n.val)
  | .shri c d a n => some (0x1a800000 + chainVal c + d.val * 131072 + a.val * 2048 + n.val)
  | .sari c d a n => some (0x1b000000 + chainVal c + d.val * 131072 + a.val * 2048 + n.val)
  | .icmpiEq c m a i => some (0x1b800000 + chainVal c + m.val * 131072 + a.val * 2048 + i.val)
  | .icmpiLtI c m a i => some (0x1c000000 + chainVal c + m.val * 131072 + a.val * 2048 + i.val)
  | .movi c d i => some (0x1c800000 + chainVal c + d.val * 131072 + i.val)
  | .swz c d a p => some (0x1d000000 + chainVal c + d.val * 131072 + a.val * 2048 + p.val)
  | .fsli c d a n => some (0x1d800000 + chainVal c + d.val * 131072 + a.val * 2048 + n.val)
  | .fsri c d a n => some (0x1e000000 + chainVal c + d.val * 131072 + a.val * 2048 + n.val)
  | .fadd c d a b s z => some (0x20000000 + chainVal c + d.val * 32768 + a.val * 512 + b.val * 8 + s.val * 2 + z.val)
  | .fsub c d a b s z => some (0x20200000 + chainVal c + d.val * 32768 + a.val * 512 + b.val * 8 + s.val * 2 + z.val)
  | .fmul c d a b s z => some (0x20400000 + chainVal c + d.val * 32768 + a.val * 512 + b.val * 8 + s.val * 2 + z.val)
  | .fmin c d a b s z => some (0x20600000 + chainVal c + d.val * 32768 + a.val * 512 + b.val * 8 + s.val * 2 + z.val)
  | .fmax c d a b s z => some (0x20800000 + chainVal c + d.val * 32768 + a.val * 512 + b.val * 8 + s.val * 2 + z.val)
  | .fminn c d a b s z => some (0x20a00000 + chainVal c + d.val * 32768 + a.val * 512 + b.val * 8 + s.val * 2 + z.val)
  | .fmaxn c d a b s z => some (0x20c00000 + chainVal c + d.val * 32768 + a.val * 512 + b.val * 8 + s.val * 2 + z.val)
  | .famax c d a b s z => some (0x20e00000 + chainVal c + d.val * 32768 + a.val * 512 + b.val * 8 + s.val * 2 + z.val)
  | .fcmpEq c m a b s z => some (0x21000000 + chainVal c + m.val * 32768 + a.val * 512 + b.val * 8 + s.val * 2 + z.val)
  | .fcmpNe c m a b s z => some (0x21200000 + chainVal c + m.val * 32768 + a.val * 512 + b.val * 8 + s.val * 2 + z.val)
  | .fcmpLt c m a b s z => some (0x21400000 + chainVal c + m.val * 32768 + a.val * 512 + b.val * 8 + s.val * 2 + z.val)
  | .fcmpLe c m a b s z => some (0x21600000 + chainVal c + m.val * 32768 + a.val * 512 + b.val * 8 + s.val * 2 + z.val)
  | .fcmpUn c m a b s z => some (0x21800000 + chainVal c + m.val * 32768 + a.val * 512 + b.val * 8 + s.val * 2 + z.val)
  | .frint c d a r z => some (0x21a00000 + chainVal c + d.val * 32768 + a.val * 512 + r.val * 2 + z.val)
  | .fscale c d a b s z => some (0x21c00000 + chainVal c + d.val * 32768 + a.val * 512 + b.val * 8 + s.val * 2 + z.val)
  | .fclass c d a z => some (0x21e00000 + chainVal c + d.val * 32768 + a.val * 512 + z.val)
  | .dadd c d a b s z => some (0x22000000 + chainVal c + d.val * 32768 + a.val * 512 + b.val * 8 + s.val * 2 + z.val)
  | .dmul c d a b s z => some (0x22200000 + chainVal c + d.val * 32768 + a.val * 512 + b.val * 8 + s.val * 2 + z.val)
  | .dmin c d a b s z => some (0x22400000 + chainVal c + d.val * 32768 + a.val * 512 + b.val * 8 + s.val * 2 + z.val)
  | .dmax c d a b s z => some (0x22600000 + chainVal c + d.val * 32768 + a.val * 512 + b.val * 8 + s.val * 2 + z.val)
  | .dcmpLt c m a b s z => some (0x22800000 + chainVal c + m.val * 32768 + a.val * 512 + b.val * 8 + s.val * 2 + z.val)
  | .cvt c d a t r z => some (0x22a00000 + chainVal c + d.val * 32768 + a.val * 512 + t.val * 16 + r.val * 2 + z.val)
  | .qnt c d a t r z => some (0x22c00000 + chainVal c + d.val * 32768 + a.val * 512 + t.val * 16 + r.val * 2 + z.val)
  | .dqnt c d a t r z => some (0x22e00000 + chainVal c + d.val * 32768 + a.val * 512 + t.val * 16 + r.val * 2 + z.val)
  | .mxscl c d a b s z => some (0x23000000 + chainVal c + d.val * 32768 + a.val * 512 + b.val * 8 + s.val * 2 + z.val)
  | .pack2 c d a b s z => some (0x23200000 + chainVal c + d.val * 32768 + a.val * 512 + b.val * 8 + s.val * 2 + z.val)
  | .unpk c d a t k z => some (0x23400000 + chainVal c + d.val * 32768 + a.val * 512 + t.val * 16 + k.val * 2 + z.val)
  | .frcp c d a l => some (0x26000000 + chainVal c + d.val * 32768 + a.val * 512 + l.val * 32)
  | .frsq c d a l => some (0x26200000 + chainVal c + d.val * 32768 + a.val * 512 + l.val * 32)
  | .fsqrt c d a l => some (0x26400000 + chainVal c + d.val * 32768 + a.val * 512 + l.val * 32)
  | .fex2 c d a l => some (0x26600000 + chainVal c + d.val * 32768 + a.val * 512 + l.val * 32)
  | .flg2 c d a l => some (0x26800000 + chainVal c + d.val * 32768 + a.val * 512 + l.val * 32)
  | .fsin c d a l => some (0x26a00000 + chainVal c + d.val * 32768 + a.val * 512 + l.val * 32)
  | .fcos c d a l => some (0x26c00000 + chainVal c + d.val * 32768 + a.val * 512 + l.val * 32)
  | .fdiv c d a l => some (0x26e00000 + chainVal c + d.val * 32768 + a.val * 512 + l.val * 32)
  | .sfuResult => none
  | .ffma c d a b g => some (0x28000000 + chainVal c + d.val * 262144 + a.val * 4096 + b.val * 64 + g.val)
  | .ffms c d a b g => some (0x29000000 + chainVal c + d.val * 262144 + a.val * 4096 + b.val * 64 + g.val)
  | .ffnma c d a b g => some (0x2a000000 + chainVal c + d.val * 262144 + a.val * 4096 + b.val * 64 + g.val)
  | .ffnms c d a b g => some (0x2b000000 + chainVal c + d.val * 262144 + a.val * 4096 + b.val * 64 + g.val)
  | .dfma c d a b g => some (0x2c000000 + chainVal c + d.val * 262144 + a.val * 4096 + b.val * 64 + g.val)
  | .hfma2 c d a b g => some (0x30000000 + chainVal c + d.val * 262144 + a.val * 4096 + b.val * 64 + g.val)
  | .bfma2 c d a b g => some (0x31000000 + chainVal c + d.val * 262144 + a.val * 4096 + b.val * 64 + g.val)
  | .hdot2 c d a b g => some (0x32000000 + chainVal c + d.val * 262144 + a.val * 4096 + b.val * 64 + g.val)
  | .bdot2 c d a b g => some (0x33000000 + chainVal c + d.val * 262144 + a.val * 4096 + b.val * 64 + g.val)
  | .sadd c d a b => some (0x38000000 + chainVal c + d.val * 65536 + a.val * 1024 + b.val * 16)
  | .ssub c d a b => some (0x38400000 + chainVal c + d.val * 65536 + a.val * 1024 + b.val * 16)
  | .smul c d a b => some (0x38800000 + chainVal c + d.val * 65536 + a.val * 1024 + b.val * 16)
  | .sand c d a b => some (0x38c00000 + chainVal c + d.val * 65536 + a.val * 1024 + b.val * 16)
  | .sor c d a b => some (0x39000000 + chainVal c + d.val * 65536 + a.val * 1024 + b.val * 16)
  | .sxor c d a b => some (0x39400000 + chainVal c + d.val * 65536 + a.val * 1024 + b.val * 16)
  | .sshl c d a b => some (0x39800000 + chainVal c + d.val * 65536 + a.val * 1024 + b.val * 16)
  | .sshr c d a b => some (0x39c00000 + chainVal c + d.val * 65536 + a.val * 1024 + b.val * 16)
  | .ssar c d a b => some (0x3a000000 + chainVal c + d.val * 65536 + a.val * 1024 + b.val * 16)
  | .scmpEq c d a b => some (0x3a400000 + chainVal c + d.val * 65536 + a.val * 1024 + b.val * 16)
  | .scmpLtI c d a b => some (0x3a800000 + chainVal c + d.val * 65536 + a.val * 1024 + b.val * 16)
  | .scmpLtN c d a b => some (0x3ac00000 + chainVal c + d.val * 65536 + a.val * 1024 + b.val * 16)
  | .sminI c d a b => some (0x3b000000 + chainVal c + d.val * 65536 + a.val * 1024 + b.val * 16)
  | .smaxI c d a b => some (0x3b400000 + chainVal c + d.val * 65536 + a.val * 1024 + b.val * 16)
  | .smov c d a => some (0x3b800000 + chainVal c + d.val * 65536 + a.val * 1024)
  | .ssel c d a b => some (0x3bc00000 + chainVal c + d.val * 65536 + a.val * 1024 + b.val * 16)
  | .slil c d i => some (0x3c000000 + chainVal c + d.val * 65536 + i.val)
  | .slih c d i => some (0x3c400000 + chainVal c + d.val * 65536 + i.val)
  | .saddi c d i => some (0x3c800000 + chainVal c + d.val * 65536 + i.val)
  | .srdl c d a b => some (0x3cc00000 + chainVal c + d.val * 65536 + a.val * 1024 + b.val * 16)
  | .sbal c d a => some (0x3d000000 + chainVal c + d.val * 65536 + a.val * 1024)
  | .swrl c d a b => some (0x3d400000 + chainVal c + d.val * 65536 + a.val * 1024 + b.val * 16)
  | .lgt c d a b t => some (0x78000000 + chainVal c + d.val * 2097152 + a.val * 32768 + b.val * 512 + t.val * 2)
  | .ld c w p g d a l i => some (0x40000000 + chainVal c + w.val * 16777216 + p.val * 4194304 + g.val * 524288 + d.val * 8192 + a.val * 128 + l.val * 8 + i.val)
  | .ldu c w p g d a l i => some (0x40000000 + chainVal c + w.val * 16777216 + p.val * 4194304 + g.val * 524288 + d.val * 8192 + a.val * 128 + l.val * 8 + i.val)
  | .st c w p g v a i => some (0x48000000 + chainVal c + w.val * 16777216 + p.val * 4194304 + g.val * 524288 + v.val * 8192 + a.val * 128 + i.val)
  | .stu c w p g v a i => some (0x48000000 + chainVal c + w.val * 16777216 + p.val * 4194304 + g.val * 524288 + v.val * 8192 + a.val * 128 + i.val)
  | .stagingQueue => none
  | .lsuAgeBoost => none
  | .pageWalk => none
  | .rdThr => none
  | .rdSis => none
  | .rdWis => none
  | .rdOwn => none
  | .wrThr => none
  | .wrWis => none
  | .pushWr => none
  | .writeback => none
  | .atomicAtHome => none
  | .recall => none
  | .fwdRd => none
  | .invalidation => none
  | .invalidationAck => none
  | .loadReply => none
  | .storeAck => none
  | .errorReply => none
  | .eccL1 => none
  | .eccReg => none
  | .atomAdd c o s d a g w => some (0x50000000 + chainVal c + o.val * 2097152 + s.val * 65536 + d.val * 1024 + a.val * 16 + g.val * 4 + w.val)
  | .atomMinI c o s d a g w => some (0x50800000 + chainVal c + o.val * 2097152 + s.val * 65536 + d.val * 1024 + a.val * 16 + g.val * 4 + w.val)
  | .atomMinN c o s d a g w => some (0x51000000 + chainVal c + o.val * 2097152 + s.val * 65536 + d.val * 1024 + a.val * 16 + g.val * 4 + w.val)
  | .atomMaxI c o s d a g w => some (0x51800000 + chainVal c + o.val * 2097152 + s.val * 65536 + d.val * 1024 + a.val * 16 + g.val * 4 + w.val)
  | .atomMaxN c o s d a g w => some (0x52000000 + chainVal c + o.val * 2097152 + s.val * 65536 + d.val * 1024 + a.val * 16 + g.val * 4 + w.val)
  | .atomAnd c o s d a g w => some (0x52800000 + chainVal c + o.val * 2097152 + s.val * 65536 + d.val * 1024 + a.val * 16 + g.val * 4 + w.val)
  | .atomOr c o s d a g w => some (0x53000000 + chainVal c + o.val * 2097152 + s.val * 65536 + d.val * 1024 + a.val * 16 + g.val * 4 + w.val)
  | .atomXor c o s d a g w => some (0x53800000 + chainVal c + o.val * 2097152 + s.val * 65536 + d.val * 1024 + a.val * 16 + g.val * 4 + w.val)
  | .atomXchg c o s d a g w => some (0x54000000 + chainVal c + o.val * 2097152 + s.val * 65536 + d.val * 1024 + a.val * 16 + g.val * 4 + w.val)
  | .acas c o s d a g w => some (0x54800000 + chainVal c + o.val * 2097152 + s.val * 65536 + d.val * 1024 + a.val * 16 + g.val * 4 + w.val)
  | .atomFadd c o s d a g w => some (0x55000000 + chainVal c + o.val * 2097152 + s.val * 65536 + d.val * 1024 + a.val * 16 + g.val * 4 + w.val)
  | .atomFamax c o s d a g w => some (0x55800000 + chainVal c + o.val * 2097152 + s.val * 65536 + d.val * 1024 + a.val * 16 + g.val * 4 + w.val)
  | .atomXrst c o s d a g w => some (0x56000000 + chainVal c + o.val * 2097152 + s.val * 65536 + d.val * 1024 + a.val * 16 + g.val * 4 + w.val)
  | .ald c o s d a g w => some (0x56800000 + chainVal c + o.val * 2097152 + s.val * 65536 + d.val * 1024 + a.val * 16 + g.val * 4 + w.val)
  | .ast c o s d a g w => some (0x57000000 + chainVal c + o.val * 2097152 + s.val * 65536 + d.val * 1024 + a.val * 16 + g.val * 4 + w.val)
  | .fence c k s => some (0x58000000 + chainVal c + k.val * 262144 + s.val * 8192)
  | .binit c b x => some (0x58400000 + chainVal c + b.val * 1024 + x.val * 16)
  | .binitMem c s b x => some (0x58600000 + chainVal c + s.val * 65536 + b.val * 1024 + x.val * 16)
  | .barr c b => some (0x58800000 + chainVal c + b.val * 1024)
  | .barrMem c b => some (0x58a00000 + chainVal c + b.val * 1024)
  | .barrierUnit => none
  | .barrierWaitRetry => none
  | .bard c b => some (0x58c00000 + chainVal c + b.val * 1024)
  | .bexp c b x => some (0x59000000 + chainVal c + b.val * 1024 + x.val * 16)
  | .bwait c b x => some (0x59400000 + chainVal c + b.val * 1024 + x.val * 16)
  | .bwaitMem c b x => some (0x59600000 + chainVal c + b.val * 1024 + x.val * 16)
  | .btest c b x => some (0x59800000 + chainVal c + b.val * 1024 + x.val * 16)
  | .btestMem c b x => some (0x59a00000 + chainVal c + b.val * 1024 + x.val * 16)
  | .qinit c q x y => some (0x59c00000 + chainVal c + q.val * 262144 + x.val * 4096 + y.val * 64)
  | .qpush c q x => some (0x5a000000 + chainVal c + q.val * 262144 + x.val * 4096)
  | .qpop c q x => some (0x5a400000 + chainVal c + q.val * 262144 + x.val * 4096)
  | .qtry c q x y => some (0x5a800000 + chainVal c + q.val * 262144 + x.val * 4096 + y.val * 64)
  | .qalw c q x y => some (0x5ac00000 + chainVal c + q.val * 262144 + x.val * 4096 + y.val * 64)
  | .slinit c a b p => some (0x5b000000 + chainVal c + a.val * 2048 + b.val * 32 + p.val * 16)
  | .sle c s a b => some (0x5b400000 + chainVal c + s.val * 131072 + a.val * 2048 + b.val * 32)
  | .slx c s a => some (0x5b800000 + chainVal c + s.val * 131072 + a.val * 2048)
  | .slclose c a b => some (0x5bc00000 + chainVal c + a.val * 2048 + b.val * 32)
  | .slq c a b => some (0x5c000000 + chainVal c + a.val * 2048 + b.val * 32)
  | .sluiceRequest => none
  | .sluiceGrant => none
  | .sluiceRelease => none
  | .sluiceBufferRetry => none
  | .slTimeout => none
  | .releaseResend => none
  | .cflush c s a b l => some (0x5c400000 + chainVal c + s.val * 131072 + a.val * 2048 + b.val * 32 + l.val * 16)
  | .cinv c s a b l => some (0x5c800000 + chainVal c + s.val * 131072 + a.val * 2048 + b.val * 32 + l.val * 16)
  | .scbwait c a b l => some (0x5cc00000 + chainVal c + a.val * 2048 + b.val * 32 + l.val * 16)
  | .cp c z s d a b r => some (0x60000000 + chainVal c + z.val * 16777216 + s.val * 2097152 + d.val * 262144 + a.val * 4096 + b.val * 64 + r.val * 4)
  | .cpt c s d a b r => some (0x64000000 + chainVal c + s.val * 2097152 + d.val * 262144 + a.val * 4096 + b.val * 64 + r.val * 4)
  | .cpx c z s d a b r => some (0x60000001 + chainVal c + z.val * 16777216 + s.val * 2097152 + d.val * 262144 + a.val * 4096 + b.val * 64 + r.val * 4)
  | .cpm c z s d a b r => some (0x60000002 + chainVal c + cpmSize z + s.val * 2097152 + d.val * 262144 + a.val * 4096 + b.val * 64 + r.val * 4)
  | .cpe c z s d a b r => some (0x60000003 + chainVal c + z.val * 16777216 + s.val * 2097152 + d.val * 262144 + a.val * 4096 + b.val * 64 + r.val * 4)
  | .copyLineLand => none
  | .copyComplete => none
  | .cpmLineRequest => none
  | .mergeWindow => none
  | .mergeEntryFree => none
  | .cpeEnqueue => none
  | .followOnPost => none
  | .mma c t a b f l z => some (0x68000000 + chainVal c + t.val * 2097152 + a.val * 32768 + b.val * 512 + f.val * 32 + l.val * 2 + z.val)
  | .mmz c t f l => some (0x69000000 + chainVal c + t.val * 2097152 + f.val * 32 + l.val * 2)
  | .mdr c t a b f l z => some (0x6a000000 + chainVal c + t.val * 2097152 + a.val * 32768 + b.val * 512 + f.val * 32 + l.val * 2 + z.val)
  | .mld c t a f l => some (0x6b000000 + chainVal c + t.val * 2097152 + a.val * 32768 + f.val * 32 + l.val * 2)
  | .mfmt c a f l => some (0x6c000000 + chainVal c + a.val * 32768 + f.val * 32 + l.val * 2)
  | .mrq c t a l z => some (0x6d000000 + chainVal c + t.val * 2097152 + a.val * 32768 + l.val * 2 + z.val)
  | .mqry c a l => some (0x6e000000 + chainVal c + a.val * 32768 + l.val * 2)
  | .reservationAccept => none
  | .passGrant => none
  | .tilePathGrant => none
  | .matrixAgeBoost => none
  | .requestFinish => none
  | .mxRsv => none
  | .dice c a b => some (0x70000000 + chainVal c + a.val * 1024 + b.val * 16)
  | .gsh c d a l => some (0x70400000 + chainVal c + d.val * 65536 + a.val * 1024 + l.val)
  | .gwb c a b => some (0x70800000 + chainVal c + a.val * 1024 + b.val * 16)
  | .gemit c a => some (0x70c00000 + chainVal c + a.val * 1024)
  | .stq c d a b l => some (0x71000000 + chainVal c + d.val * 65536 + a.val * 1024 + b.val * 16 + l.val)
  | .bknext c d l => some (0x71400000 + chainVal c + d.val * 65536 + l.val)
  | .bkdone c a => some (0x71800000 + chainVal c + a.val * 1024)
  | .bkspl c a => some (0x71c00000 + chainVal c + a.val * 1024)
  | .binner => none
  | .bucketDistributor => none
  | .bucketSetup => none
  | .dicerJob => none
  | .writeBackJob => none
  | .stuJob => none
  | .gridForward => none
  | .bucketClose => none
  | .park => none
  | .bucketReload => none
  | .ray c a b => some (0x72000000 + chainVal c + a.val * 1024 + b.val * 16)
  | .rayw c d a l => some (0x72400000 + chainVal c + d.val * 65536 + a.val * 1024 + l.val)
  | .rays c d a l => some (0x72800000 + chainVal c + d.val * 65536 + a.val * 1024 + l.val)
  | .query => none
  | .tspawn c a b => some (0x72c00000 + chainVal c + a.val * 1024 + b.val * 16)
  | .spawn => none
  | .tsucc c a => some (0x73000000 + chainVal c + a.val * 1024)
  | .tdone => some (0x73400000)
  | .doorbell => none
  | .frontEndTake => none
  | .steal => none
  | .dispatch => none
  | .crewEnd => none
  | .taskCompletion => none
  | .slotTableWrite => none
  | .eviction => none
  | .swapOut => none
  | .resume => none
  | .handlerEntry => none
  | .serviceDelivery => none
  | .fatalPath => none
  | .watchdog => none
  | .timeLimit => none
  | .dbgHalt => none
  | .flitReceive => none
  | .replay => none
  | .homeTimeout => none
  | .fabUncorr => none
  | .completionTimeout => none
  | .faultFence => none
  | .heartbeatTimeout => none
  | .fenceQuiesce => none
  | .selfRefreshTimeout => none
  | .retrain => none
  | .reAdmission => none
  | .domainSet => none
  | .xlFlush => none
  | .queueSet => none
  | .queueRestart => none
  | .queueShare => none
  | .noticeAnswer => none
  | .domainKill => none
  | .warmReset => none
  | .clearLost => none
  | .imageLoad => none
  | .mailboxComplete => none
  | .notice => none
  | .bar2Write => none
  | .bar2Read => none
  | .registerWrite => none
  | .hostDown => none
  | .d3hot => none
  | .coldReset => none
  | .entdaa => none
  | .powerLimit => none
  | .boardInputPower => none
  | .boardInputAbsent => none
  | .mgmtKill => none
  | .telemetryRefresh => none
  | .powerThrottle => none
  | .thermalKill => none
  | .resident10usElapsed => none
  | .lockhouseFault => none
  | .d3cold => none
  | .correctedSoftError => none
  | .sluiceEntryFree => none

/-- The instruction the decoder reads from a table row's bits: every row is one 32-bit word (R25). -/
def decodeTableWord (_nbits w : Nat) : Option Instr :=
  match decode (BitVec.ofNat 32 w) with
  | .ok i => some i
  | _ => none

end Sys2Proof
end

