-- ==== Sys2Proof/Machine/Operands.lean ====
section
/-! DEFINITION. The operand forms: the registers an instruction names, its latency class and pipe, the built-in
constants, the stepping of register fields under REP (R34, R36, R46, R50, R51). -/

namespace Sys2Proof.Machine
open Sys2Proof

/-- The register files that decode checks name. -/
inductive RegFile where
  | v | s | m
  deriving DecidableEq, Repr

/-- One register operand: file, first register, count, required alignment, whether it is read and written. -/
structure RegUse where
  file : RegFile
  first : Nat
  n : Nat
  align : Nat
  rd : Bool
  wr : Bool
  deriving DecidableEq, Repr

/-- The latency classes of Table 2-8. -/
inductive Lat where
  | fixed | long | atomic | wait | engine | control | prefixed
  deriving DecidableEq, Repr

/-- The pipes of R27. -/
inductive Pipe where
  | v | x | m | s
  deriving DecidableEq, Repr

/-- The alignment of a pair (2) or a group of four (4) is its size (R34). -/
def alignOf (n : Nat) : Nat := if n = 2 then 2 else if n = 4 then 4 else 1

/-- A vector operand of `n` registers: read, written, both. -/
def vr (r : Fin 64) (n : Nat) : RegUse := ⟨.v, r.val, n, alignOf n, true, false⟩
def vw (r : Fin 64) (n : Nat) : RegUse := ⟨.v, r.val, n, alignOf n, false, true⟩
def vrw (r : Fin 64) (n : Nat) : RegUse := ⟨.v, r.val, n, alignOf n, true, true⟩
/-- A vector run of `n` registers without an alignment rule (R420, R449). -/
def vrg (r : Fin 64) (n : Nat) : RegUse := ⟨.v, r.val, n, 1, true, false⟩
def vwg (r : Fin 64) (n : Nat) : RegUse := ⟨.v, r.val, n, 1, false, true⟩
/-- A scalar operand of `n` registers: read, written, both. -/
def sr (r : Fin 64) (n : Nat) : RegUse := ⟨.s, r.val, n, alignOf n, true, false⟩
def sw (r : Fin 64) (n : Nat) : RegUse := ⟨.s, r.val, n, alignOf n, false, true⟩
def srw (r : Fin 64) (n : Nat) : RegUse := ⟨.s, r.val, n, alignOf n, true, true⟩
/-- SCOPEW's six registers from an even one (R485). -/
def s6 (r : Fin 64) : RegUse := ⟨.s, r.val, 6, 2, true, false⟩
/-- A mask register read or written. -/
def mr (m : Nat) : RegUse := ⟨.m, m, 1, 1, true, false⟩
def mw (m : Fin 8) : RegUse := ⟨.m, m.val, 1, 1, false, true⟩

/-- The b operand of format A3 under BS (R36). -/
def bUse (s : Fin 4) (b : Fin 64) : List RegUse :=
  if s.val = 0 then [vr b 1] else if s.val = 1 then [sr b 1] else []

/-- A 64-bit b operand under BS (R36). -/
def dUse (s : Fin 4) (b : Fin 64) : List RegUse := if s.val = 0 then [vr b 2] else [sr b 2]

/-- Destination and source registers of a CVT type pair (Table 5-8). -/
def cvtDst (t : Nat) : Nat := if t = 5 ∨ t = 10 ∨ t = 12 ∨ t = 13 ∨ t = 14 then 2 else 1
def cvtSrc (t : Nat) : Nat := if t = 4 ∨ t = 11 ∨ t = 12 ∨ t = 13 ∨ t = 15 then 2 else 1

/-- Data registers of a load or store width (R39). -/
def lsRegs (w : Nat) : Nat := if w = 3 ∨ w = 6 then 2 else if w = 4 ∨ w = 7 then 4 else 1

/-- Address registers of a segment: a pair in global and host (R39). -/
def adrRegs (g : Nat) : Nat := if g = 0 ∨ g = 6 then 2 else 1

/-- Address registers of a copy space: a pair in global and host (Table 11-1). -/
def spcRegs (p : Nat) : Nat := if p = 0 ∨ p = 6 then 2 else 1

/-- The address operands of CPX and CPE: the tile form's descriptors or per-lane addresses (R41). -/
def cyUse (z s d : Nat) (a b : Fin 64) : List RegUse :=
  if z = 4 then [sr a 4, sr b 4] else [vr a (spcRegs s), vr b (spcRegs d)]

/-- The registers each instruction reads and writes, as its format and Table 2-9 name them. -/
def Instr.uses : Instr → List RegUse
  | .nop _ => []
  | .bra _ => []
  | .br m _ _ _ => [mr m.val]
  | .brx a => [sr a 2]
  | .call _ => [sw 62 2]
  | .ret => [sr 62 2]
  | .loopS d _ => [sr d 1]
  | .loopi _ _ => []
  | .lbrk => []
  | .rep _ _ _ _ _ => []
  | .setx _ m => [mr m.val]
  | .andx _ m => [mr m.val]
  | .orx _ m => [mr m.val]
  | .regang _ _ => []
  | .yield => []
  | .exit => []
  | .waitla _ => []
  | .ageBoost => []
  | .trap _ => []
  | .softi _ a => [sr a 1]
  | .softiNotice => []
  | .mfsr _ d _ => [sw d 1]
  | .mtsr _ d _ => [sr d 1]
  | .segld _ _ a => [sr a 4]
  | .segrd _ d _ => [sw d 4]
  | .scopew _ d _ => [s6 d]
  | .eret => []
  | .bkpt _ => []
  | .time _ d => [sw d 2]
  | .icinv _ => []
  | .ctxsv _ a => [sr a 2]
  | .ctxld _ a => [sr a 2]
  | .iadd _ d a b s => [vw d 1, vr a 1] ++ bUse s b
  | .isub _ d a b s => [vw d 1, vr a 1] ++ bUse s b
  | .imul _ d a b s => [vw d 1, vr a 1] ++ bUse s b
  | .imulhI _ d a b s => [vw d 1, vr a 1] ++ bUse s b
  | .imulhN _ d a b s => [vw d 1, vr a 1] ++ bUse s b
  | .imad _ d a b s => [vrw d 1, vr a 1] ++ bUse s b
  | .iminI _ d a b s => [vw d 1, vr a 1] ++ bUse s b
  | .iminN _ d a b s => [vw d 1, vr a 1] ++ bUse s b
  | .imaxI _ d a b s => [vw d 1, vr a 1] ++ bUse s b
  | .imaxN _ d a b s => [vw d 1, vr a 1] ++ bUse s b
  | .iabs _ d a => [vw d 1, vr a 1]
  | .andV _ d a b s => [vw d 1, vr a 1] ++ bUse s b
  | .orV _ d a b s => [vw d 1, vr a 1] ++ bUse s b
  | .xorV _ d a b s => [vw d 1, vr a 1] ++ bUse s b
  | .andn _ d a b s => [vw d 1, vr a 1] ++ bUse s b
  | .shl _ d a b s => [vw d 1, vr a 1] ++ bUse s b
  | .shr _ d a b s => [vw d 1, vr a 1] ++ bUse s b
  | .sar _ d a b s => [vw d 1, vr a 1] ++ bUse s b
  | .fsl _ d a b s => [vrw d 1, vr a 1] ++ bUse s b
  | .fsr _ d a b s => [vrw d 1, vr a 1] ++ bUse s b
  | .popc _ d a => [vw d 1, vr a 1]
  | .clz _ d a => [vw d 1, vr a 1]
  | .brev _ d a => [vw d 1, vr a 1]
  | .bfxI _ d a b s => [vw d 1, vr a 1] ++ bUse s b
  | .bfxN _ d a b s => [vw d 1, vr a 1] ++ bUse s b
  | .bfi _ d a b s => [vrw d 1, vr a 1] ++ bUse s b
  | .prm _ d a b s => [vrw d 1, vr a 1] ++ bUse s b
  | .icmpEq _ m a b s => [mw m, vr a 1] ++ bUse s b
  | .icmpNe _ m a b s => [mw m, vr a 1] ++ bUse s b
  | .icmpLtI _ m a b s => [mw m, vr a 1] ++ bUse s b
  | .icmpLtN _ m a b s => [mw m, vr a 1] ++ bUse s b
  | .icmpLeI _ m a b s => [mw m, vr a 1] ++ bUse s b
  | .icmpLeN _ m a b s => [mw m, vr a 1] ++ bUse s b
  | .selM1 _ d a b s => [vw d 1, vr a 1, mr 1] ++ bUse s b
  | .selM2 _ d a b s => [vw d 1, vr a 1, mr 2] ++ bUse s b
  | .selM3 _ d a b s => [vw d 1, vr a 1, mr 3] ++ bUse s b
  | .selM4 _ d a b s => [vw d 1, vr a 1, mr 4] ++ bUse s b
  | .selM5 _ d a b s => [vw d 1, vr a 1, mr 5] ++ bUse s b
  | .selM6 _ d a b s => [vw d 1, vr a 1, mr 6] ++ bUse s b
  | .selM7 _ d a b s => [vw d 1, vr a 1, mr 7] ++ bUse s b
  | .shflIdx _ d a b s => [vw d 1, vr a 1] ++ bUse s b
  | .shflUp _ d a b s => [vw d 1, vr a 1] ++ bUse s b
  | .shflDn _ d a b s => [vw d 1, vr a 1] ++ bUse s b
  | .shflXor _ d a b s => [vw d 1, vr a 1] ++ bUse s b
  | .mtov _ d m => [vw d 1, mr m.val]
  | .vtom _ m a => [mw m, vr a 1]
  | .iaddi _ d a _ => [vw d 1, vr a 1]
  | .andi _ d a _ => [vw d 1, vr a 1]
  | .ori _ d a _ => [vw d 1, vr a 1]
  | .xori _ d a _ => [vw d 1, vr a 1]
  | .shli _ d a _ => [vw d 1, vr a 1]
  | .shri _ d a _ => [vw d 1, vr a 1]
  | .sari _ d a _ => [vw d 1, vr a 1]
  | .icmpiEq _ m a _ => [mw m, vr a 1]
  | .icmpiLtI _ m a _ => [mw m, vr a 1]
  | .movi _ d _ => [vw d 1]
  | .swz _ d a _ => [vw d 1, vr a 1]
  | .fsli _ d a _ => [vrw d 1, vr a 1]
  | .fsri _ d a _ => [vrw d 1, vr a 1]
  | .fadd _ d a b s _ => [vw d 1, vr a 1] ++ bUse s b
  | .fsub _ d a b s _ => [vw d 1, vr a 1] ++ bUse s b
  | .fmul _ d a b s _ => [vw d 1, vr a 1] ++ bUse s b
  | .fmin _ d a b s _ => [vw d 1, vr a 1] ++ bUse s b
  | .fmax _ d a b s _ => [vw d 1, vr a 1] ++ bUse s b
  | .fminn _ d a b s _ => [vw d 1, vr a 1] ++ bUse s b
  | .fmaxn _ d a b s _ => [vw d 1, vr a 1] ++ bUse s b
  | .famax _ d a b s _ => [vw d 1, vr a 1] ++ bUse s b
  | .fcmpEq _ m a b s _ => [mw m, vr a 1] ++ bUse s b
  | .fcmpNe _ m a b s _ => [mw m, vr a 1] ++ bUse s b
  | .fcmpLt _ m a b s _ => [mw m, vr a 1] ++ bUse s b
  | .fcmpLe _ m a b s _ => [mw m, vr a 1] ++ bUse s b
  | .fcmpUn _ m a b s _ => [mw m, vr a 1] ++ bUse s b
  | .frint _ d a _ _ => [vw d 1, vr a 1]
  | .fscale _ d a b s _ => [vw d 1, vr a 1] ++ bUse s b
  | .fclass _ d a _ => [vw d 1, vr a 1]
  | .dadd _ d a b s _ => [vw d 2, vr a 2] ++ dUse s b
  | .dmul _ d a b s _ => [vw d 2, vr a 2] ++ dUse s b
  | .dmin _ d a b s _ => [vw d 2, vr a 2] ++ dUse s b
  | .dmax _ d a b s _ => [vw d 2, vr a 2] ++ dUse s b
  | .dcmpLt _ m a b s _ => [mw m, vr a 2] ++ dUse s b
  | .cvt _ d a t _ _ => [vw d (cvtDst t.val), vr a (cvtSrc t.val)]
  | .qnt _ d a _ _ _ => [vrw d 1, vr a 1]
  | .dqnt _ d a _ _ _ => [vw d 1, vr a 1]
  | .mxscl _ d a b s _ => [vw d 1, vr a 1] ++ bUse s b
  | .pack2 _ d a b s _ => [vw d 1, vr a 1] ++ bUse s b
  | .unpk _ d a _ _ _ => [vw d 1, vr a 1]
  | .frcp _ d a _ => [vw d 1, vr a 1]
  | .frsq _ d a _ => [vw d 1, vr a 1]
  | .fsqrt _ d a _ => [vw d 1, vr a 1]
  | .fex2 _ d a _ => [vw d 1, vr a 1]
  | .flg2 _ d a _ => [vw d 1, vr a 1]
  | .fsin _ d a _ => [vw d 1, vr a 1]
  | .fcos _ d a _ => [vw d 1, vr a 1]
  | .fdiv _ d a _ => [vrw d 1, vr a 1]
  | .sfuResult => []
  | .ffma _ d a b g => [vw d 1, vr a 1, vr b 1, vr g 1]
  | .ffms _ d a b g => [vw d 1, vr a 1, vr b 1, vr g 1]
  | .ffnma _ d a b g => [vw d 1, vr a 1, vr b 1, vr g 1]
  | .ffnms _ d a b g => [vw d 1, vr a 1, vr b 1, vr g 1]
  | .dfma _ d a b g => [vw d 2, vr a 2, vr b 2, vr g 2]
  | .hfma2 _ d a b g => [vw d 1, vr a 1, vr b 1, vr g 1]
  | .bfma2 _ d a b g => [vw d 1, vr a 1, vr b 1, vr g 1]
  | .hdot2 _ d a b g => [vw d 1, vr a 1, vr b 1, vr g 1]
  | .bdot2 _ d a b g => [vw d 1, vr a 1, vr b 1, vr g 1]
  | .sadd _ d a b => [sw d 1, sr a 1, sr b 1]
  | .ssub _ d a b => [sw d 1, sr a 1, sr b 1]
  | .smul _ d a b => [sw d 1, sr a 1, sr b 1]
  | .sand _ d a b => [sw d 1, sr a 1, sr b 1]
  | .sor _ d a b => [sw d 1, sr a 1, sr b 1]
  | .sxor _ d a b => [sw d 1, sr a 1, sr b 1]
  | .sshl _ d a b => [sw d 1, sr a 1, sr b 1]
  | .sshr _ d a b => [sw d 1, sr a 1, sr b 1]
  | .ssar _ d a b => [sw d 1, sr a 1, sr b 1]
  | .scmpEq _ d a b => [sw d 1, sr a 1, sr b 1]
  | .scmpLtI _ d a b => [sw d 1, sr a 1, sr b 1]
  | .scmpLtN _ d a b => [sw d 1, sr a 1, sr b 1]
  | .sminI _ d a b => [sw d 1, sr a 1, sr b 1]
  | .smaxI _ d a b => [sw d 1, sr a 1, sr b 1]
  | .smov _ d a => [sw d 1, sr a 1]
  | .ssel _ d a b => [srw d 1, sr a 1, sr b 1]
  | .slil _ d _ => [sw d 1]
  | .slih _ d _ => [srw d 1]
  | .saddi _ d _ => [srw d 1]
  | .srdl _ d a b => [sw d 1, vr a 1, sr b 1]
  | .sbal _ d a => [sw d 1, vr a 1]
  | .swrl _ d a b => [vw d 1, sr a 1, sr b 1]
  | .lgt _ d a b _ => [vrw d 1, vr a 1, vr b 1]
  | .ld _ w _ g d a _ _ => [vw d (lsRegs w.val), vr a (adrRegs g.val)]
  | .ldu _ w _ g d a _ _ => [sw d (lsRegs w.val), sr a (adrRegs g.val)]
  | .st _ w _ g v a _ => [vr v (lsRegs w.val), vr a (adrRegs g.val)]
  | .stu _ w _ g v a _ => [sr v (lsRegs w.val), sr a (adrRegs g.val)]
  | .stagingQueue => []
  | .lsuAgeBoost => []
  | .pageWalk => []
  | .rdThr => []
  | .rdSis => []
  | .rdWis => []
  | .rdOwn => []
  | .wrThr => []
  | .wrWis => []
  | .pushWr => []
  | .writeback => []
  | .atomicAtHome => []
  | .recall => []
  | .fwdRd => []
  | .invalidation => []
  | .invalidationAck => []
  | .loadReply => []
  | .storeAck => []
  | .errorReply => []
  | .eccL1 => []
  | .eccReg => []
  | .atomAdd _ _ _ d a g w => [vrw d (1 + w.val), vr a (adrRegs g.val)]
  | .atomMinI _ _ _ d a g w => [vrw d (1 + w.val), vr a (adrRegs g.val)]
  | .atomMinN _ _ _ d a g w => [vrw d (1 + w.val), vr a (adrRegs g.val)]
  | .atomMaxI _ _ _ d a g w => [vrw d (1 + w.val), vr a (adrRegs g.val)]
  | .atomMaxN _ _ _ d a g w => [vrw d (1 + w.val), vr a (adrRegs g.val)]
  | .atomAnd _ _ _ d a g w => [vrw d (1 + w.val), vr a (adrRegs g.val)]
  | .atomOr _ _ _ d a g w => [vrw d (1 + w.val), vr a (adrRegs g.val)]
  | .atomXor _ _ _ d a g w => [vrw d (1 + w.val), vr a (adrRegs g.val)]
  | .atomXchg _ _ _ d a g w => [vrw d (1 + w.val), vr a (adrRegs g.val)]
  | .acas _ _ _ d a g w => [vr d (2 + 2 * w.val), vw d (1 + w.val), vr a (adrRegs g.val)]
  | .atomFadd _ _ _ d a g w => [vrw d (1 + w.val), vr a (adrRegs g.val)]
  | .atomFamax _ _ _ d a g w => [vrw d (1 + w.val), vr a (adrRegs g.val)]
  | .atomXrst _ _ _ d a g w => [vw d (1 + w.val), vr a (adrRegs g.val)]
  | .ald _ _ _ d a g w => [vw d (1 + w.val), vr a (adrRegs g.val)]
  | .ast _ _ _ d a g w => [vr d (1 + w.val), vr a (adrRegs g.val)]
  | .fence _ _ _ => []
  | .binit _ _ x => [sr x 1]
  | .binitMem _ _ b x => [sr b 2, sr x 1]
  | .barr _ _ => []
  | .barrMem _ b => [sr b 2]
  | .barrierUnit => []
  | .barrierWaitRetry => []
  | .bard _ _ => []
  | .bexp _ _ x => [sr x 1]
  | .bwait _ _ x => [srw x 1]
  | .bwaitMem _ b x => [sr b 2, srw x 1]
  | .btest _ _ x => [sw x 1]
  | .btestMem _ b x => [sr b 2, sw x 1]
  | .qinit _ _ x y => [sr x 1, sr y 1]
  | .qpush _ _ x => [sr x 1]
  | .qpop _ _ x => [sw x 1]
  | .qtry _ _ x y => [srw x 1, srw y 1]
  | .qalw _ _ x y => [sr x 1, sr y 1]
  | .slinit _ a b _ => [vr a 1, vr b 1]
  | .sle _ _ a b => [vr a 1, vr b 1]
  | .slx _ _ a => [vr a 1]
  | .slclose _ a b => [vr a 1, vr b 1]
  | .slq _ a b => [vr a 1, vw b 2]
  | .sluiceRequest => []
  | .sluiceGrant => []
  | .sluiceRelease => []
  | .sluiceBufferRetry => []
  | .slTimeout => []
  | .releaseResend => []
  | .cflush _ _ a b l => if l.val = 1 then [] else [sr a 2, sr b 1]
  | .cinv _ _ a b l => if l.val = 1 then [] else [sr a 2, sr b 1]
  | .scbwait _ a b l => if l.val = 1 then [] else [sr a 1, sr b 1]
  | .cp _ _ s d a b _ => [vr a (spcRegs s.val), vr b (spcRegs d.val)]
  | .cpt _ _ _ a b _ => [sr a 4, sr b 4]
  | .cpx _ z s d a b _ => cyUse z.val s.val d.val a b
  | .cpm _ z s d a b _ => if z.val = 3 then [sr a 4, sr b 4] else [vr a (spcRegs s.val), vr b (spcRegs d.val), sr 60 2]
  | .cpe _ z s d a b _ => cyUse z.val s.val d.val a b ++ [sr 60 2]
  | .copyLineLand => []
  | .copyComplete => []
  | .cpmLineRequest => []
  | .mergeWindow => []
  | .mergeEntryFree => []
  | .cpeEnqueue => []
  | .followOnPost => []
  | .mma _ _ a b _ _ _ => [sr a 4, sr b 2]
  | .mmz _ _ _ _ => []
  | .mdr _ _ a b _ _ _ => [sr a 4, sr b 2]
  | .mld _ _ a _ _ => [sr a 4]
  | .mfmt _ a _ _ => [sr a 2]
  | .mrq _ _ a _ _ => [sw a 1]
  | .mqry _ a _ => [sw a 1]
  | .reservationAccept => []
  | .passGrant => []
  | .tilePathGrant => []
  | .matrixAgeBoost => []
  | .requestFinish => []
  | .mxRsv => []
  | .dice _ a b => [sr a 2, sr b 1]
  | .gsh _ d a _ => [vwg d 8, sr a 1]
  | .gwb _ a b => [vrg a 10, sr b 1]
  | .gemit _ a => [sr a 1]
  | .stq _ d a b _ => [vwg d 2, vrg a 4, sr b 1]
  | .bknext _ d _ => [sw d 2]
  | .bkdone _ a => [sr a 1]
  | .bkspl _ a => [sr a 1]
  | .binner => []
  | .bucketDistributor => []
  | .bucketSetup => []
  | .dicerJob => []
  | .writeBackJob => []
  | .stuJob => []
  | .gridForward => []
  | .bucketClose => []
  | .park => []
  | .bucketReload => []
  | .ray _ a b => [vrg a 11, sr b 1]
  | .rayw _ d a _ => [vwg d 6, sr a 1]
  | .rays _ d a _ => [sw d 1, sr a 2]
  | .query => []
  | .tspawn _ a b => [sr a 2, sr b 1]
  | .spawn => []
  | .tsucc _ a => [sr a 2]
  | .tdone => []
  | .doorbell => []
  | .frontEndTake => []
  | .steal => []
  | .dispatch => []
  | .crewEnd => []
  | .taskCompletion => []
  | .slotTableWrite => []
  | .eviction => []
  | .swapOut => []
  | .resume => []
  | .handlerEntry => []
  | .serviceDelivery => []
  | .fatalPath => []
  | .watchdog => []
  | .timeLimit => []
  | .dbgHalt => []
  | .flitReceive => []
  | .replay => []
  | .homeTimeout => []
  | .fabUncorr => []
  | .completionTimeout => []
  | .faultFence => []
  | .heartbeatTimeout => []
  | .fenceQuiesce => []
  | .selfRefreshTimeout => []
  | .retrain => []
  | .reAdmission => []
  | .domainSet => []
  | .xlFlush => []
  | .queueSet => []
  | .queueRestart => []
  | .queueShare => []
  | .noticeAnswer => []
  | .domainKill => []
  | .warmReset => []
  | .clearLost => []
  | .imageLoad => []
  | .mailboxComplete => []
  | .notice => []
  | .bar2Write => []
  | .bar2Read => []
  | .registerWrite => []
  | .hostDown => []
  | .d3hot => []
  | .coldReset => []
  | .entdaa => []
  | .powerLimit => []
  | .boardInputPower => []
  | .boardInputAbsent => []
  | .mgmtKill => []
  | .telemetryRefresh => []
  | .powerThrottle => []
  | .thermalKill => []
  | .resident10usElapsed => []
  | .lockhouseFault => []
  | .d3cold => []
  | .correctedSoftError => []
  | .sluiceEntryFree => []

/-- The latency class (Tables 2-7 and 2-9). A step without a word has none of its own and is listed as fixed. -/
def Instr.lat : Instr → Lat
  | .nop _ => .fixed
  | .bra _ => .control
  | .br _ _ _ _ => .control
  | .brx _ => .control
  | .call _ => .control
  | .ret => .control
  | .loopS _ _ => .control
  | .loopi _ _ => .control
  | .lbrk => .control
  | .rep _ _ _ _ _ => .prefixed
  | .setx _ _ => .fixed
  | .andx _ _ => .fixed
  | .orx _ _ => .fixed
  | .regang _ _ => .wait
  | .yield => .control
  | .exit => .control
  | .waitla _ => .wait
  | .ageBoost => .fixed
  | .trap _ => .control
  | .softi _ _ => .fixed
  | .softiNotice => .fixed
  | .mfsr _ _ _ => .fixed
  | .mtsr _ _ _ => .fixed
  | .segld _ _ _ => .wait
  | .segrd _ _ _ => .fixed
  | .scopew _ _ _ => .wait
  | .eret => .control
  | .bkpt _ => .control
  | .time _ _ => .fixed
  | .icinv _ => .wait
  | .ctxsv _ _ => .wait
  | .ctxld _ _ => .wait
  | .iadd _ _ _ _ _ => .fixed
  | .isub _ _ _ _ _ => .fixed
  | .imul _ _ _ _ _ => .fixed
  | .imulhI _ _ _ _ _ => .fixed
  | .imulhN _ _ _ _ _ => .fixed
  | .imad _ _ _ _ _ => .fixed
  | .iminI _ _ _ _ _ => .fixed
  | .iminN _ _ _ _ _ => .fixed
  | .imaxI _ _ _ _ _ => .fixed
  | .imaxN _ _ _ _ _ => .fixed
  | .iabs _ _ _ => .fixed
  | .andV _ _ _ _ _ => .fixed
  | .orV _ _ _ _ _ => .fixed
  | .xorV _ _ _ _ _ => .fixed
  | .andn _ _ _ _ _ => .fixed
  | .shl _ _ _ _ _ => .fixed
  | .shr _ _ _ _ _ => .fixed
  | .sar _ _ _ _ _ => .fixed
  | .fsl _ _ _ _ _ => .fixed
  | .fsr _ _ _ _ _ => .fixed
  | .popc _ _ _ => .fixed
  | .clz _ _ _ => .fixed
  | .brev _ _ _ => .fixed
  | .bfxI _ _ _ _ _ => .fixed
  | .bfxN _ _ _ _ _ => .fixed
  | .bfi _ _ _ _ _ => .fixed
  | .prm _ _ _ _ _ => .fixed
  | .icmpEq _ _ _ _ _ => .fixed
  | .icmpNe _ _ _ _ _ => .fixed
  | .icmpLtI _ _ _ _ _ => .fixed
  | .icmpLtN _ _ _ _ _ => .fixed
  | .icmpLeI _ _ _ _ _ => .fixed
  | .icmpLeN _ _ _ _ _ => .fixed
  | .selM1 _ _ _ _ _ => .fixed
  | .selM2 _ _ _ _ _ => .fixed
  | .selM3 _ _ _ _ _ => .fixed
  | .selM4 _ _ _ _ _ => .fixed
  | .selM5 _ _ _ _ _ => .fixed
  | .selM6 _ _ _ _ _ => .fixed
  | .selM7 _ _ _ _ _ => .fixed
  | .shflIdx _ _ _ _ _ => .fixed
  | .shflUp _ _ _ _ _ => .fixed
  | .shflDn _ _ _ _ _ => .fixed
  | .shflXor _ _ _ _ _ => .fixed
  | .mtov _ _ _ => .fixed
  | .vtom _ _ _ => .fixed
  | .iaddi _ _ _ _ => .fixed
  | .andi _ _ _ _ => .fixed
  | .ori _ _ _ _ => .fixed
  | .xori _ _ _ _ => .fixed
  | .shli _ _ _ _ => .fixed
  | .shri _ _ _ _ => .fixed
  | .sari _ _ _ _ => .fixed
  | .icmpiEq _ _ _ _ => .fixed
  | .icmpiLtI _ _ _ _ => .fixed
  | .movi _ _ _ => .fixed
  | .swz _ _ _ _ => .fixed
  | .fsli _ _ _ _ => .fixed
  | .fsri _ _ _ _ => .fixed
  | .fadd _ _ _ _ _ _ => .fixed
  | .fsub _ _ _ _ _ _ => .fixed
  | .fmul _ _ _ _ _ _ => .fixed
  | .fmin _ _ _ _ _ _ => .fixed
  | .fmax _ _ _ _ _ _ => .fixed
  | .fminn _ _ _ _ _ _ => .fixed
  | .fmaxn _ _ _ _ _ _ => .fixed
  | .famax _ _ _ _ _ _ => .fixed
  | .fcmpEq _ _ _ _ _ _ => .fixed
  | .fcmpNe _ _ _ _ _ _ => .fixed
  | .fcmpLt _ _ _ _ _ _ => .fixed
  | .fcmpLe _ _ _ _ _ _ => .fixed
  | .fcmpUn _ _ _ _ _ _ => .fixed
  | .frint _ _ _ _ _ => .fixed
  | .fscale _ _ _ _ _ _ => .fixed
  | .fclass _ _ _ _ => .fixed
  | .dadd _ _ _ _ _ _ => .fixed
  | .dmul _ _ _ _ _ _ => .fixed
  | .dmin _ _ _ _ _ _ => .fixed
  | .dmax _ _ _ _ _ _ => .fixed
  | .dcmpLt _ _ _ _ _ _ => .fixed
  | .cvt _ _ _ _ _ _ => .fixed
  | .qnt _ _ _ _ _ _ => .fixed
  | .dqnt _ _ _ _ _ _ => .fixed
  | .mxscl _ _ _ _ _ _ => .fixed
  | .pack2 _ _ _ _ _ _ => .fixed
  | .unpk _ _ _ _ _ _ => .fixed
  | .frcp _ _ _ _ => .long
  | .frsq _ _ _ _ => .long
  | .fsqrt _ _ _ _ => .long
  | .fex2 _ _ _ _ => .long
  | .flg2 _ _ _ _ => .long
  | .fsin _ _ _ _ => .long
  | .fcos _ _ _ _ => .long
  | .fdiv _ _ _ _ => .long
  | .sfuResult => .fixed
  | .ffma _ _ _ _ _ => .fixed
  | .ffms _ _ _ _ _ => .fixed
  | .ffnma _ _ _ _ _ => .fixed
  | .ffnms _ _ _ _ _ => .fixed
  | .dfma _ _ _ _ _ => .fixed
  | .hfma2 _ _ _ _ _ => .fixed
  | .bfma2 _ _ _ _ _ => .fixed
  | .hdot2 _ _ _ _ _ => .fixed
  | .bdot2 _ _ _ _ _ => .fixed
  | .sadd _ _ _ _ => .fixed
  | .ssub _ _ _ _ => .fixed
  | .smul _ _ _ _ => .fixed
  | .sand _ _ _ _ => .fixed
  | .sor _ _ _ _ => .fixed
  | .sxor _ _ _ _ => .fixed
  | .sshl _ _ _ _ => .fixed
  | .sshr _ _ _ _ => .fixed
  | .ssar _ _ _ _ => .fixed
  | .scmpEq _ _ _ _ => .fixed
  | .scmpLtI _ _ _ _ => .fixed
  | .scmpLtN _ _ _ _ => .fixed
  | .sminI _ _ _ _ => .fixed
  | .smaxI _ _ _ _ => .fixed
  | .smov _ _ _ => .fixed
  | .ssel _ _ _ _ => .fixed
  | .slil _ _ _ => .fixed
  | .slih _ _ _ => .fixed
  | .saddi _ _ _ => .fixed
  | .srdl _ _ _ _ => .fixed
  | .sbal _ _ _ => .fixed
  | .swrl _ _ _ _ => .fixed
  | .lgt _ _ _ _ _ => .fixed
  | .ld _ _ _ _ _ _ _ _ => .long
  | .ldu _ _ _ _ _ _ _ _ => .long
  | .st _ _ _ _ _ _ _ => .fixed
  | .stu _ _ _ _ _ _ _ => .fixed
  | .stagingQueue => .fixed
  | .lsuAgeBoost => .fixed
  | .pageWalk => .fixed
  | .rdThr => .fixed
  | .rdSis => .fixed
  | .rdWis => .fixed
  | .rdOwn => .fixed
  | .wrThr => .fixed
  | .wrWis => .fixed
  | .pushWr => .fixed
  | .writeback => .fixed
  | .atomicAtHome => .fixed
  | .recall => .fixed
  | .fwdRd => .fixed
  | .invalidation => .fixed
  | .invalidationAck => .fixed
  | .loadReply => .fixed
  | .storeAck => .fixed
  | .errorReply => .fixed
  | .eccL1 => .fixed
  | .eccReg => .fixed
  | .atomAdd _ _ _ _ _ _ _ => .atomic
  | .atomMinI _ _ _ _ _ _ _ => .atomic
  | .atomMinN _ _ _ _ _ _ _ => .atomic
  | .atomMaxI _ _ _ _ _ _ _ => .atomic
  | .atomMaxN _ _ _ _ _ _ _ => .atomic
  | .atomAnd _ _ _ _ _ _ _ => .atomic
  | .atomOr _ _ _ _ _ _ _ => .atomic
  | .atomXor _ _ _ _ _ _ _ => .atomic
  | .atomXchg _ _ _ _ _ _ _ => .atomic
  | .acas _ _ _ _ _ _ _ => .atomic
  | .atomFadd _ _ _ _ _ _ _ => .atomic
  | .atomFamax _ _ _ _ _ _ _ => .atomic
  | .atomXrst _ _ _ _ _ _ _ => .atomic
  | .ald _ _ _ _ _ _ _ => .atomic
  | .ast _ _ _ _ _ _ _ => .atomic
  | .fence _ _ _ => .wait
  | .binit _ _ _ => .fixed
  | .binitMem _ _ _ _ => .wait
  | .barr _ _ => .fixed
  | .barrMem _ _ => .wait
  | .barrierUnit => .fixed
  | .barrierWaitRetry => .fixed
  | .bard _ _ => .fixed
  | .bexp _ _ _ => .fixed
  | .bwait _ _ _ => .wait
  | .bwaitMem _ _ _ => .wait
  | .btest _ _ _ => .fixed
  | .btestMem _ _ _ => .wait
  | .qinit _ _ _ _ => .fixed
  | .qpush _ _ _ => .wait
  | .qpop _ _ _ => .wait
  | .qtry _ _ _ _ => .fixed
  | .qalw _ _ _ _ => .fixed
  | .slinit _ _ _ _ => .wait
  | .sle _ _ _ _ => .wait
  | .slx _ _ _ => .fixed
  | .slclose _ _ _ => .wait
  | .slq _ _ _ => .fixed
  | .sluiceRequest => .fixed
  | .sluiceGrant => .fixed
  | .sluiceRelease => .fixed
  | .sluiceBufferRetry => .fixed
  | .slTimeout => .fixed
  | .releaseResend => .fixed
  | .cflush _ _ _ _ _ => .wait
  | .cinv _ _ _ _ _ => .wait
  | .scbwait _ _ _ _ => .wait
  | .cp _ _ _ _ _ _ _ => .engine
  | .cpt _ _ _ _ _ _ => .engine
  | .cpx _ _ _ _ _ _ _ => .engine
  | .cpm _ _ _ _ _ _ _ => .engine
  | .cpe _ _ _ _ _ _ _ => .engine
  | .copyLineLand => .fixed
  | .copyComplete => .fixed
  | .cpmLineRequest => .fixed
  | .mergeWindow => .fixed
  | .mergeEntryFree => .fixed
  | .cpeEnqueue => .fixed
  | .followOnPost => .fixed
  | .mma _ _ _ _ _ _ _ => .long
  | .mmz _ _ _ _ => .long
  | .mdr _ _ _ _ _ _ _ => .long
  | .mld _ _ _ _ _ => .long
  | .mfmt _ _ _ _ => .long
  | .mrq _ _ _ _ _ => .long
  | .mqry _ _ _ => .long
  | .reservationAccept => .fixed
  | .passGrant => .fixed
  | .tilePathGrant => .fixed
  | .matrixAgeBoost => .fixed
  | .requestFinish => .fixed
  | .mxRsv => .fixed
  | .dice _ _ _ => .engine
  | .gsh _ _ _ _ => .long
  | .gwb _ _ _ => .engine
  | .gemit _ _ => .engine
  | .stq _ _ _ _ _ => .long
  | .bknext _ _ _ => .long
  | .bkdone _ _ => .wait
  | .bkspl _ _ => .wait
  | .binner => .fixed
  | .bucketDistributor => .fixed
  | .bucketSetup => .fixed
  | .dicerJob => .fixed
  | .writeBackJob => .fixed
  | .stuJob => .fixed
  | .gridForward => .fixed
  | .bucketClose => .fixed
  | .park => .fixed
  | .bucketReload => .fixed
  | .ray _ _ _ => .engine
  | .rayw _ _ _ _ => .long
  | .rays _ _ _ _ => .long
  | .query => .fixed
  | .tspawn _ _ _ => .engine
  | .spawn => .fixed
  | .tsucc _ _ => .wait
  | .tdone => .control
  | .doorbell => .fixed
  | .frontEndTake => .fixed
  | .steal => .fixed
  | .dispatch => .fixed
  | .crewEnd => .fixed
  | .taskCompletion => .fixed
  | .slotTableWrite => .fixed
  | .eviction => .fixed
  | .swapOut => .fixed
  | .resume => .fixed
  | .handlerEntry => .fixed
  | .serviceDelivery => .fixed
  | .fatalPath => .fixed
  | .watchdog => .fixed
  | .timeLimit => .fixed
  | .dbgHalt => .fixed
  | .flitReceive => .fixed
  | .replay => .fixed
  | .homeTimeout => .fixed
  | .fabUncorr => .fixed
  | .completionTimeout => .fixed
  | .faultFence => .fixed
  | .heartbeatTimeout => .fixed
  | .fenceQuiesce => .fixed
  | .selfRefreshTimeout => .fixed
  | .retrain => .fixed
  | .reAdmission => .fixed
  | .domainSet => .fixed
  | .xlFlush => .fixed
  | .queueSet => .fixed
  | .queueRestart => .fixed
  | .queueShare => .fixed
  | .noticeAnswer => .fixed
  | .domainKill => .fixed
  | .warmReset => .fixed
  | .clearLost => .fixed
  | .imageLoad => .fixed
  | .mailboxComplete => .fixed
  | .notice => .fixed
  | .bar2Write => .fixed
  | .bar2Read => .fixed
  | .registerWrite => .fixed
  | .hostDown => .fixed
  | .d3hot => .fixed
  | .coldReset => .fixed
  | .entdaa => .fixed
  | .powerLimit => .fixed
  | .boardInputPower => .fixed
  | .boardInputAbsent => .fixed
  | .mgmtKill => .fixed
  | .telemetryRefresh => .fixed
  | .powerThrottle => .fixed
  | .thermalKill => .fixed
  | .resident10usElapsed => .fixed
  | .lockhouseFault => .fixed
  | .d3cold => .fixed
  | .correctedSoftError => .fixed
  | .sluiceEntryFree => .fixed

/-- The pipe (Table 2-1). -/
def Instr.pipe : Instr → Pipe
  | .nop _ => .s
  | .bra _ => .s
  | .br _ _ _ _ => .s
  | .brx _ => .s
  | .call _ => .s
  | .ret => .s
  | .loopS _ _ => .s
  | .loopi _ _ => .s
  | .lbrk => .s
  | .rep _ _ _ _ _ => .s
  | .setx _ _ => .s
  | .andx _ _ => .s
  | .orx _ _ => .s
  | .regang _ _ => .s
  | .yield => .s
  | .exit => .s
  | .waitla _ => .s
  | .ageBoost => .s
  | .trap _ => .s
  | .softi _ _ => .s
  | .softiNotice => .s
  | .mfsr _ _ _ => .s
  | .mtsr _ _ _ => .s
  | .segld _ _ _ => .s
  | .segrd _ _ _ => .s
  | .scopew _ _ _ => .s
  | .eret => .s
  | .bkpt _ => .s
  | .time _ _ => .s
  | .icinv _ => .s
  | .ctxsv _ _ => .s
  | .ctxld _ _ => .s
  | .iadd _ _ _ _ _ => .v
  | .isub _ _ _ _ _ => .v
  | .imul _ _ _ _ _ => .v
  | .imulhI _ _ _ _ _ => .v
  | .imulhN _ _ _ _ _ => .v
  | .imad _ _ _ _ _ => .v
  | .iminI _ _ _ _ _ => .v
  | .iminN _ _ _ _ _ => .v
  | .imaxI _ _ _ _ _ => .v
  | .imaxN _ _ _ _ _ => .v
  | .iabs _ _ _ => .v
  | .andV _ _ _ _ _ => .v
  | .orV _ _ _ _ _ => .v
  | .xorV _ _ _ _ _ => .v
  | .andn _ _ _ _ _ => .v
  | .shl _ _ _ _ _ => .v
  | .shr _ _ _ _ _ => .v
  | .sar _ _ _ _ _ => .v
  | .fsl _ _ _ _ _ => .v
  | .fsr _ _ _ _ _ => .v
  | .popc _ _ _ => .v
  | .clz _ _ _ => .v
  | .brev _ _ _ => .v
  | .bfxI _ _ _ _ _ => .v
  | .bfxN _ _ _ _ _ => .v
  | .bfi _ _ _ _ _ => .v
  | .prm _ _ _ _ _ => .v
  | .icmpEq _ _ _ _ _ => .v
  | .icmpNe _ _ _ _ _ => .v
  | .icmpLtI _ _ _ _ _ => .v
  | .icmpLtN _ _ _ _ _ => .v
  | .icmpLeI _ _ _ _ _ => .v
  | .icmpLeN _ _ _ _ _ => .v
  | .selM1 _ _ _ _ _ => .v
  | .selM2 _ _ _ _ _ => .v
  | .selM3 _ _ _ _ _ => .v
  | .selM4 _ _ _ _ _ => .v
  | .selM5 _ _ _ _ _ => .v
  | .selM6 _ _ _ _ _ => .v
  | .selM7 _ _ _ _ _ => .v
  | .shflIdx _ _ _ _ _ => .v
  | .shflUp _ _ _ _ _ => .v
  | .shflDn _ _ _ _ _ => .v
  | .shflXor _ _ _ _ _ => .v
  | .mtov _ _ _ => .v
  | .vtom _ _ _ => .v
  | .iaddi _ _ _ _ => .v
  | .andi _ _ _ _ => .v
  | .ori _ _ _ _ => .v
  | .xori _ _ _ _ => .v
  | .shli _ _ _ _ => .v
  | .shri _ _ _ _ => .v
  | .sari _ _ _ _ => .v
  | .icmpiEq _ _ _ _ => .v
  | .icmpiLtI _ _ _ _ => .v
  | .movi _ _ _ => .v
  | .swz _ _ _ _ => .v
  | .fsli _ _ _ _ => .v
  | .fsri _ _ _ _ => .v
  | .fadd _ _ _ _ _ _ => .v
  | .fsub _ _ _ _ _ _ => .v
  | .fmul _ _ _ _ _ _ => .v
  | .fmin _ _ _ _ _ _ => .v
  | .fmax _ _ _ _ _ _ => .v
  | .fminn _ _ _ _ _ _ => .v
  | .fmaxn _ _ _ _ _ _ => .v
  | .famax _ _ _ _ _ _ => .v
  | .fcmpEq _ _ _ _ _ _ => .v
  | .fcmpNe _ _ _ _ _ _ => .v
  | .fcmpLt _ _ _ _ _ _ => .v
  | .fcmpLe _ _ _ _ _ _ => .v
  | .fcmpUn _ _ _ _ _ _ => .v
  | .frint _ _ _ _ _ => .v
  | .fscale _ _ _ _ _ _ => .v
  | .fclass _ _ _ _ => .v
  | .dadd _ _ _ _ _ _ => .v
  | .dmul _ _ _ _ _ _ => .v
  | .dmin _ _ _ _ _ _ => .v
  | .dmax _ _ _ _ _ _ => .v
  | .dcmpLt _ _ _ _ _ _ => .v
  | .cvt _ _ _ _ _ _ => .v
  | .qnt _ _ _ _ _ _ => .v
  | .dqnt _ _ _ _ _ _ => .v
  | .mxscl _ _ _ _ _ _ => .v
  | .pack2 _ _ _ _ _ _ => .v
  | .unpk _ _ _ _ _ _ => .v
  | .frcp _ _ _ _ => .x
  | .frsq _ _ _ _ => .x
  | .fsqrt _ _ _ _ => .x
  | .fex2 _ _ _ _ => .x
  | .flg2 _ _ _ _ => .x
  | .fsin _ _ _ _ => .x
  | .fcos _ _ _ _ => .x
  | .fdiv _ _ _ _ => .x
  | .sfuResult => .s
  | .ffma _ _ _ _ _ => .v
  | .ffms _ _ _ _ _ => .v
  | .ffnma _ _ _ _ _ => .v
  | .ffnms _ _ _ _ _ => .v
  | .dfma _ _ _ _ _ => .v
  | .hfma2 _ _ _ _ _ => .v
  | .bfma2 _ _ _ _ _ => .v
  | .hdot2 _ _ _ _ _ => .v
  | .bdot2 _ _ _ _ _ => .v
  | .sadd _ _ _ _ => .s
  | .ssub _ _ _ _ => .s
  | .smul _ _ _ _ => .s
  | .sand _ _ _ _ => .s
  | .sor _ _ _ _ => .s
  | .sxor _ _ _ _ => .s
  | .sshl _ _ _ _ => .s
  | .sshr _ _ _ _ => .s
  | .ssar _ _ _ _ => .s
  | .scmpEq _ _ _ _ => .s
  | .scmpLtI _ _ _ _ => .s
  | .scmpLtN _ _ _ _ => .s
  | .sminI _ _ _ _ => .s
  | .smaxI _ _ _ _ => .s
  | .smov _ _ _ => .s
  | .ssel _ _ _ _ => .s
  | .slil _ _ _ => .s
  | .slih _ _ _ => .s
  | .saddi _ _ _ => .s
  | .srdl _ _ _ _ => .s
  | .sbal _ _ _ => .s
  | .swrl _ _ _ _ => .s
  | .lgt _ _ _ _ _ => .v
  | .ld _ _ _ _ _ _ _ _ => .m
  | .ldu _ _ _ _ _ _ _ _ => .m
  | .st _ _ _ _ _ _ _ => .m
  | .stu _ _ _ _ _ _ _ => .m
  | .stagingQueue => .s
  | .lsuAgeBoost => .s
  | .pageWalk => .s
  | .rdThr => .s
  | .rdSis => .s
  | .rdWis => .s
  | .rdOwn => .s
  | .wrThr => .s
  | .wrWis => .s
  | .pushWr => .s
  | .writeback => .s
  | .atomicAtHome => .s
  | .recall => .s
  | .fwdRd => .s
  | .invalidation => .s
  | .invalidationAck => .s
  | .loadReply => .s
  | .storeAck => .s
  | .errorReply => .s
  | .eccL1 => .s
  | .eccReg => .s
  | .atomAdd _ _ _ _ _ _ _ => .m
  | .atomMinI _ _ _ _ _ _ _ => .m
  | .atomMinN _ _ _ _ _ _ _ => .m
  | .atomMaxI _ _ _ _ _ _ _ => .m
  | .atomMaxN _ _ _ _ _ _ _ => .m
  | .atomAnd _ _ _ _ _ _ _ => .m
  | .atomOr _ _ _ _ _ _ _ => .m
  | .atomXor _ _ _ _ _ _ _ => .m
  | .atomXchg _ _ _ _ _ _ _ => .m
  | .acas _ _ _ _ _ _ _ => .m
  | .atomFadd _ _ _ _ _ _ _ => .m
  | .atomFamax _ _ _ _ _ _ _ => .m
  | .atomXrst _ _ _ _ _ _ _ => .m
  | .ald _ _ _ _ _ _ _ => .m
  | .ast _ _ _ _ _ _ _ => .m
  | .fence _ _ _ => .s
  | .binit _ _ _ => .s
  | .binitMem _ _ _ _ => .s
  | .barr _ _ => .s
  | .barrMem _ _ => .s
  | .barrierUnit => .s
  | .barrierWaitRetry => .s
  | .bard _ _ => .s
  | .bexp _ _ _ => .s
  | .bwait _ _ _ => .s
  | .bwaitMem _ _ _ => .s
  | .btest _ _ _ => .s
  | .btestMem _ _ _ => .s
  | .qinit _ _ _ _ => .s
  | .qpush _ _ _ => .s
  | .qpop _ _ _ => .s
  | .qtry _ _ _ _ => .s
  | .qalw _ _ _ _ => .s
  | .slinit _ _ _ _ => .s
  | .sle _ _ _ _ => .s
  | .slx _ _ _ => .s
  | .slclose _ _ _ => .s
  | .slq _ _ _ => .s
  | .sluiceRequest => .s
  | .sluiceGrant => .s
  | .sluiceRelease => .s
  | .sluiceBufferRetry => .s
  | .slTimeout => .s
  | .releaseResend => .s
  | .cflush _ _ _ _ _ => .s
  | .cinv _ _ _ _ _ => .s
  | .scbwait _ _ _ _ => .s
  | .cp _ _ _ _ _ _ _ => .m
  | .cpt _ _ _ _ _ _ => .m
  | .cpx _ _ _ _ _ _ _ => .m
  | .cpm _ _ _ _ _ _ _ => .m
  | .cpe _ _ _ _ _ _ _ => .m
  | .copyLineLand => .s
  | .copyComplete => .s
  | .cpmLineRequest => .s
  | .mergeWindow => .s
  | .mergeEntryFree => .s
  | .cpeEnqueue => .s
  | .followOnPost => .s
  | .mma _ _ _ _ _ _ _ => .s
  | .mmz _ _ _ _ => .s
  | .mdr _ _ _ _ _ _ _ => .s
  | .mld _ _ _ _ _ => .s
  | .mfmt _ _ _ _ => .s
  | .mrq _ _ _ _ _ => .s
  | .mqry _ _ _ => .s
  | .reservationAccept => .s
  | .passGrant => .s
  | .tilePathGrant => .s
  | .matrixAgeBoost => .s
  | .requestFinish => .s
  | .mxRsv => .s
  | .dice _ _ _ => .s
  | .gsh _ _ _ _ => .s
  | .gwb _ _ _ => .s
  | .gemit _ _ => .s
  | .stq _ _ _ _ _ => .s
  | .bknext _ _ _ => .s
  | .bkdone _ _ => .s
  | .bkspl _ _ => .s
  | .binner => .s
  | .bucketDistributor => .s
  | .bucketSetup => .s
  | .dicerJob => .s
  | .writeBackJob => .s
  | .stuJob => .s
  | .gridForward => .s
  | .bucketClose => .s
  | .park => .s
  | .bucketReload => .s
  | .ray _ _ _ => .s
  | .rayw _ _ _ _ => .s
  | .rays _ _ _ _ => .s
  | .query => .s
  | .tspawn _ _ _ => .s
  | .spawn => .s
  | .tsucc _ _ => .s
  | .tdone => .s
  | .doorbell => .s
  | .frontEndTake => .s
  | .steal => .s
  | .dispatch => .s
  | .crewEnd => .s
  | .taskCompletion => .s
  | .slotTableWrite => .s
  | .eviction => .s
  | .swapOut => .s
  | .resume => .s
  | .handlerEntry => .s
  | .serviceDelivery => .s
  | .fatalPath => .s
  | .watchdog => .s
  | .timeLimit => .s
  | .dbgHalt => .s
  | .flitReceive => .s
  | .replay => .s
  | .homeTimeout => .s
  | .fabUncorr => .s
  | .completionTimeout => .s
  | .faultFence => .s
  | .heartbeatTimeout => .s
  | .fenceQuiesce => .s
  | .selfRefreshTimeout => .s
  | .retrain => .s
  | .reAdmission => .s
  | .domainSet => .s
  | .xlFlush => .s
  | .queueSet => .s
  | .queueRestart => .s
  | .queueShare => .s
  | .noticeAnswer => .s
  | .domainKill => .s
  | .warmReset => .s
  | .clearLost => .s
  | .imageLoad => .s
  | .mailboxComplete => .s
  | .notice => .s
  | .bar2Write => .s
  | .bar2Read => .s
  | .registerWrite => .s
  | .hostDown => .s
  | .d3hot => .s
  | .coldReset => .s
  | .entdaa => .s
  | .powerLimit => .s
  | .boardInputPower => .s
  | .boardInputAbsent => .s
  | .mgmtKill => .s
  | .telemetryRefresh => .s
  | .powerThrottle => .s
  | .thermalKill => .s
  | .resident10usElapsed => .s
  | .lockhouseFault => .s
  | .d3cold => .s
  | .correctedSoftError => .s
  | .sluiceEntryFree => .s

/-- The barrier register a word names, checked against the crew's count (R282, R357). -/
def Instr.barOf : Instr → Option Nat
  | .binit _ b _ => some b.val
  | .barr _ b => some b.val
  | .bard _ b => some b.val
  | .bexp _ b _ => some b.val
  | .bwait _ b _ => some b.val
  | .btest _ b _ => some b.val
  | .cp _ _ _ _ _ _ r => some r.val
  | .cpt _ _ _ _ _ r => some r.val
  | .cpx _ _ _ _ _ _ r => some r.val
  | .cpm _ _ _ _ _ _ r => some r.val
  | .cpe _ _ _ _ _ _ r => some r.val
  | _ => none

/-- The queue a word names, checked against the crew's count (R305). -/
def Instr.queOf : Instr → Option Nat
  | .qinit _ q _ _ => some q.val
  | .qpush _ q _ => some q.val
  | .qpop _ q _ => some q.val
  | .qtry _ q _ _ => some q.val
  | .qalw _ q _ _ => some q.val
  | _ => none

/-- The special registers marked privileged in Table 15-6. -/
def srPriv (n : Nat) : Bool := decide (n = 17) || (decide (32 ≤ n) && decide (n ≤ 42))

/-- A copy that names space 4 (R338). -/
def spc4 (s d : Fin 8) : Bool := decide (s.val = 4) || decide (d.val = 4)

/-- The privileged functions (R454); ERET is checked with handler mode by its own meaning. -/
def Instr.privileged : Instr → Bool
  | .segld .. => true
  | .scopew .. => true
  | .ctxsv .. => true
  | .ctxld .. => true
  | .eret => true
  | .mfsr _ _ r => srPriv r.val
  | .mtsr _ _ r => srPriv r.val
  | .cp _ _ s d _ _ _ => spc4 s d
  | .cpt _ s d _ _ _ => spc4 s d
  | .cpx _ _ s d _ _ _ => spc4 s d
  | .cpm _ _ s d _ _ _ => spc4 s d
  | .cpe _ _ s d _ _ _ => spc4 s d
  | _ => false

/-- A segment and policy pair that R39 forbids: a policy in an uncached segment, own or wis in the host segment. -/
def segpolBad (g p : Nat) : Bool :=
  if g = 0 then false else if g = 6 then decide (p = 0) || decide (p = 3) else decide (p ≠ 0)

/-- Check 7 of Table 2-3. -/
def Instr.segpol : Instr → Bool
  | .ld _ _ p g _ _ _ _ => segpolBad g.val p.val
  | .ldu _ _ p g _ _ _ _ => segpolBad g.val p.val
  | .st _ _ p g _ _ _ => segpolBad g.val p.val
  | .stu _ _ p g _ _ _ => segpolBad g.val p.val
  | _ => false

/-- The built-in constants of Table 2-10 from number 32 on; below that a constant is its number. -/
def builtinTable : List Nat :=
  [0x3F800000, 0x40000000, 0x3F000000, 0xBF800000, 0x40800000, 0x3E800000, 0x40400000, 0x41200000,
   0x40490FDB, 0x3FC90FDB, 0x40C90FDB, 0x3EA2F983, 0x3F317218, 0x3FB8AA3B, 0x40549A78, 0x3FB504F3,
   0x3F3504F3, 0x7F800000, 0xFF800000, 0x7FC00000, 0x7F7FFFFF, 0x00800000, 0x80000000, 0xFFFFFFFF,
   0x7FFFFFFF, 0x47600000, 0x0000FFFF, 0x00FF00FF, 0x0F0F0F0F, 0x33333333, 0x55555555, 0x43E00000]

/-- Built-in constant number `n` (R51). -/
def builtin (n : Nat) : Word := if n < 32 then BitVec.ofNat 32 n else BitVec.ofNat 32 (builtinTable.getD (n - 32) 0)

/-- The step of a REP step code (Table 3-2, Step). -/
def stepOf (k : Nat) : Nat := if k = 3 then 4 else k

/-- The low bit of a class's vd, va, vb and vc fields (Table 2-4), none where the format lacks the field. `fn` is the
class's function code. -/
def stepFields (cls w : Nat) : List (Option Nat) :=
  if cls = 2 then [some 15, some 9, some 3, none]
  else if cls = 3 then [some 17, some 11, none, none]
  else if cls = 4 then
    (let fn := fld w 21 6
     if fn = 13 ∨ fn = 15 ∨ fn = 21 ∨ fn = 22 ∨ fn = 23 ∨ fn = 26 ∨ 48 ≤ fn then [some 15, some 9, none, none]
     else [some 15, some 9, some 3, none])
  else if cls = 5 ∨ cls = 6 then [some 18, some 12, some 6, some 0]
  else if cls = 7 then
    (let fn := fld w 22 5
     if 16 ≤ fn ∧ fn ≤ 18 then [some 16, none, none, none] else [some 16, some 10, some 4, none])
  else if cls = 8 ∨ cls = 9 then [some 13, some 7, none, none]
  else if cls = 15 then [some 21, some 15, some 9, none]
  else [none, none, none, none]

/-- The classes REP may prefix (R79). -/
def repeatable (cls : Nat) : Bool :=
  decide (cls = 2) || decide (cls = 3) || decide (cls = 4) || decide (cls = 5) || decide (cls = 6) ||
  decide (cls = 7) || decide (cls = 8) || decide (cls = 9) || decide (cls = 15)

/-- The step codes ID, IA, IB, IC of a REP word (Table 2-6, KP). -/
def repCodes (rw : Nat) : List Nat := [fld rw 14 2, fld rw 12 2, fld rw 10 2, fld rw 8 2]

/-- A non-zero step for a field that the target's format lacks (R50). -/
def stepsBad (rw tw : Nat) : Bool :=
  ((repCodes rw).zip (stepFields (fld tw 27 4) tw)).any (fun p => decide (p.1 ≠ 0) && p.2.isNone)

/-- The word of repetition `j` of the target `tw` (R80), each stepped field kept to its six bits, and whether a stepped
field has left the range 0 to 63 (R34). -/
def stepWord (rw tw j : Nat) : Nat × Bool :=
  ((repCodes rw).zip (stepFields (fld tw 27 4) tw)).foldl
    (fun acc p =>
      match p.2 with
      | none => acc
      | some lo =>
        let v := fld acc.1 lo 6 + j * stepOf p.1
        (acc.1 - fld acc.1 lo 6 * 2 ^ lo + v % 64 * 2 ^ lo, acc.2 || decide (63 < v)))
    (tw, false)

end Sys2Proof.Machine
end

