-- ==== Sys2Proof/Machine/Ops.lean ====
section
/-! DEFINITION. The named operations that every meaning is built from: access to gangs, crews and registers, the
issuing context of a word, Advance and Jump, the completion of a chain, taking a trap, entering a handler and
returning from it (chapters 3 and 15). -/

namespace Sys2Proof.Machine
open Sys2Proof

/-! ### Access to the work -/

/-- Operand `k` of the step being made. DESIGN CHOICE: notes/assumptions/5. -/
def State.op (s : State) (k : Nat) : Nat := s.evt.getD k 0

/-- A gang. -/
def State.gang (s : State) (g : Nat) : Option Gang := smFind s.work.gangs g

/-- A crew and the engines' state of a crew. -/
def State.crew (s : State) (c : Nat) : Option Crew := smFind s.work.crews c
def State.ceng (s : State) (c : Nat) : CrewEng := smGet {} s.work.engs c

/-- The state with a gang, a crew, a crew's engine state replaced. -/
def State.setGang (s : State) (g : Nat) (v : Gang) : State := { s with work.gangs := smSet s.work.gangs g v }
def State.setCrew (s : State) (c : Nat) (v : Crew) : State := { s with work.crews := smSet s.work.crews c v }
def State.setCeng (s : State) (c : Nat) (v : CrewEng) : State := { s with work.engs := smSet s.work.engs c v }

/-- A gang, a crew, a crew's engine state changed by `f`; nothing where there is none. -/
def State.modGang (s : State) (g : Nat) (f : Gang → Gang) : State :=
  { s with work.gangs := smModify s.work.gangs g f }
def State.modCrew (s : State) (c : Nat) (f : Crew → Crew) : State :=
  { s with work.crews := smModify s.work.crews c f }
def State.modCeng (s : State) (c : Nat) (f : CrewEng → CrewEng) : State := s.setCeng c (f (s.ceng c))

/-- A domain's settings (an unset domain has the defaults of Tables 12-7 and 15-1). -/
def State.domain (s : State) (d : Nat) : Domain := smGet {} s.sched.domains d
def State.modDomain (s : State) (d : Nat) (f : Domain → Domain) : State :=
  { s with sched.domains := smSet s.sched.domains d (f (s.domain d)) }

/-- A die (R10). -/
def State.die (s : State) (d : Nat) : Die := smGet {} s.fab.dies d
def State.modDie (s : State) (d : Nat) (f : Die → Die) : State :=
  { s with fab.dies := smSet s.fab.dies d (f (s.die d)) }

/-- The gangs of a crew. -/
def State.gangsOf (s : State) (c : Nat) : List (Nat × Gang) := s.work.gangs.filter (fun p => decide (p.2.crew = c))

/-- The core a crew is resident on. -/
def Crew.core? (c : Crew) : Option Nat := match c.place with | .on k => some k | _ => none

/-- The core whose resources a crew holds: it is resident, or it has ended and they are not freed yet. -/
def Crew.holds? (w : Crew) : Option Nat :=
  match w.place with
  | .on k => some k
  | .ended k => k
  | _ => none

/-- Compute die and cluster of a package core (R12). -/
def coreDie (k : Nat) : Nat := k / 48
def coreCluster (k : Nat) : Nat := k / 4

/-- A fresh number for a request, a copy, an outstanding instruction, a crew or a task. DESIGN CHOICE: notes/assumptions/6. -/
def State.fresh (s : State) : State := { s with work.next := s.work.next + 1 }

/-- The first number that the words of the issuing chain can take: what bears a lower one is older than the chain, whose
words are unordered among themselves (R237). Where no word issues, everything is older. -/
def State.mark (s : State) : Nat := (s.work.cur.map (fun c => c.mark)).getD s.work.next

/-- A free word (a value the specification leaves open), and the state that has taken it. DESIGN CHOICE: notes/assumptions/4. -/
def State.free (s : State) : Word := Config.freeWord s.frees
def State.took (s : State) : State := { s with frees := s.frees + 1 }

/-! ### Kind and resource words (Tables 12-2 and 12-3) -/

def kwKind (w : Word) : Nat := fld w.toNat 0 4
def kwPri (w : Word) : Nat := fld w.toNat 4 3
def kwDom (w : Word) : Nat := fld w.toNat 7 3
def kwSlc (w : Word) : Nat := fld w.toNat 10 3
def kwNb (w : Word) : Nat := fld w.toNat 13 5
def kwNq (w : Word) : Nat := fld w.toNat 18 5
def kwBsn (w : Word) : Nat := fld w.toNat 27 5
def rwNg (w : Word) : Nat := fld w.toNat 0 4
def rwNr (w : Word) : Nat := fld w.toNat 4 6
def rwPk (w : Word) : Nat := fld w.toNat 10 9
def rwLb (w : Word) : Nat := fld w.toNat 19 7
def rwNt (w : Word) : Nat := fld w.toNat 26 4

/-- Lane segment bytes, lanes of a gang, and the Pound bytes a crew takes: its allocation, then its gangs' lane
segments (R198, R371). -/
def rwLane (rw : Word) : Nat := 16 * rwLb rw
def kwLanes (kw : Word) : Nat := 4 * (kwSlc kw + 1)
def poundBytes (kw rw : Word) : Nat := 1024 * rwPk rw + (rwNg rw + 1) * kwLanes kw * rwLane rw

/-! ### Registers -/

/-- Key of vector register `r` of lane `i` in a register file. -/
def vkey (r i : Nat) : Nat := 32 * r + i

/-- v[r] of lane i. -/
def Regs.rdV (g : Regs) (r i : Nat) : Word := smGet 0 g.v (vkey r i)

/-- s[n] as a group sees it: in handler mode s56 to s63 are the banked copies (R463). -/
def Regs.rdS (g : Regs) (hnd : Bool) (n : Nat) : Word :=
  if hnd && decide (56 ≤ n) then smGet 0 g.bank n else smGet 0 g.s n

/-- s[n] written, by the same rule. -/
def Regs.wrS (g : Regs) (hnd : Bool) (n : Nat) (v : Word) : Regs :=
  if hnd && decide (56 ≤ n) then { g with bank := smPut 0 g.bank n v } else { g with s := smPut 0 g.s n v }

/-- m[k] as 32 bits, bit i for lane i; m0 reads as 1 in every lane (R104). -/
def Regs.rdM (g : Regs) (k : Nat) : Word := if k = 0 then 0xFFFFFFFF else smGet 0 g.m k

/-- m[k] written; writes to m0 are ignored (R104). -/
def Regs.wrM (g : Regs) (k : Nat) (v : Word) : Regs := if k = 0 then g else { g with m := smPut 0 g.m k v }

/-- A segment register. -/
def Regs.rdSeg (g : Regs) (k : Nat) : Seg := smGet {} g.seg k
def Regs.wrSeg (g : Regs) (k : Nat) (v : Seg) : Regs := { g with seg := smPut {} g.seg k v }

/-- Vector register writes by key, in order. -/
def Regs.putV (g : Regs) (ps : List (Nat × Word)) : Regs := { g with v := smPuts 0 g.v ps }

/-! ### Groups, slices, lanes -/

/-- The slices named by a group mask. -/
def grpSlices (m : BitVec 8) : List Nat := (List.range 8).filter (fun k => m.getLsbD k)

/-- The lanes of the slices named by a group mask, as 32 bits (SliceLanes). -/
def grpLanes (m : BitVec 8) : Word :=
  (grpSlices m).foldl (fun acc k => acc ||| ((0xF : Word) <<< (4 * k))) 0

/-- Lanes as 32 bits from a list. -/
def lanesOf (l : List Nat) : Word := l.foldl (fun acc i => acc ||| ((1 : Word) <<< i)) 0

/-- Slice `k` of a gang. -/
def Gang.slice (g : Gang) (k : Nat) : Slice := g.slices.getD k {}

/-- The slices of a mask changed by `f`. -/
def Gang.modSlices (g : Gang) (m : BitVec 8) (f : Slice → Slice) : Gang :=
  { g with slices := g.slices.zipIdx.map (fun p => if m.getLsbD p.2 then f p.1 else p.1) }

/-- The first slice of a group. -/
def firstSlice (m : BitVec 8) : Nat := (grpSlices m).headD 0

/-- The group's X as bits 4k + 3 to 4k of each of its slices (EX of Table 15-2). -/
def Gang.grpX (g : Gang) (m : BitVec 8) : Word :=
  (grpSlices m).foldl (fun acc k => acc ||| (((g.slice k).x.zeroExtend 32) <<< (4 * k))) 0

/-! ### The issuing context -/

/-- What a word of an issuing group sees: the context, its gang now and as it stood before the chain (R29), its crew,
the crew's engine state and the core. -/
structure Cx where
  cur : Cur
  gang : Gang
  src : Gang
  crew : Crew
  core : Nat

/-- The context of the word being issued, where there is one on a core. -/
def State.cx (s : State) : Option Cx :=
  match s.work.cur with
  | none => none
  | some c =>
    match s.gang c.gang with
    | none => none
    | some g =>
      match s.crew g.crew with
      | none => none
      | some w =>
        match w.core? with
        | none => none
        | some k => some { cur := c, gang := g, src := c.before.getD g, crew := w, core := k }

/-- The issuing group is in handler mode. -/
def Cx.hnd (x : Cx) : Bool := x.cur.mode.getD (x.src.slice (firstSlice x.cur.grp)).hnd

/-- PRV as the issuing group reads it (R463, R464). -/
def Cx.prv (x : Cx) : Bool := x.hnd || x.src.prv

/-- ActiveLanes (Table 0-1): lanes of the issuing slices whose X bit is 1, ascending. -/
def Cx.lanes (x : Cx) : List Nat :=
  (List.range 32).filter (fun i => x.cur.grp.getLsbD (i / 4) && (x.src.slice (i / 4)).x.getLsbD (i % 4))

/-- Every lane of the issuing group. -/
def Cx.all (x : Cx) : Word := grpLanes x.cur.grp

/-- Operands as the chain reads them (R29). -/
def Cx.v (x : Cx) (r i : Nat) : Word := x.src.r.rdV r i
def Cx.s (x : Cx) (n : Nat) : Word := x.src.r.rdS x.hnd n
def Cx.m (x : Cx) (k : Nat) : Word := x.src.r.rdM k

/-- A 64-bit value in a pair, low word in the even register. -/
def Cx.v2 (x : Cx) (r i : Nat) : DWord := x.v (r + 1) i ++ x.v r i
def Cx.s2 (x : Cx) (n : Nat) : DWord := x.s (n + 1) ++ x.s n

/-- The crew's number and its domain. -/
def Cx.crewNo (x : Cx) : Nat := x.gang.crew
def Cx.dom (x : Cx) : Nat := x.crew.dom

/-- Segment register `k` as the issuing group sees it: in handler mode the code segment is the handler window (R463). -/
def segOf (s : State) (dom : Nat) (hnd : Bool) (r : Regs) (k : Nat) : Seg :=
  if hnd && decide (k = 7) then
    match (s.domain dom).map.handler with
    | some w => { base := BitVec.ofNat 64 w.base, limit := BitVec.ofNat 64 w.size }
    | none => {}
  else r.rdSeg k

/-- CodeBase, and CodeLimit as a PC (Table 3-2). -/
def Cx.code (x : Cx) (s : State) : Seg := segOf s x.dom x.hnd x.src.r 7
def codeLimit (g : Seg) : Nat := g.limit.toNat / 4

/-- The register writes of a word, into the gang as it now stands. -/
def State.modRegs (s : State) (x : Cx) (f : Regs → Regs) : State :=
  s.modGang x.cur.gang (fun g => { g with r := f g.r })

/-- s[n] written by a word. -/
def State.putS (s : State) (x : Cx) (n : Nat) (v : Word) : State := s.modRegs x (fun r => r.wrS x.hnd n v)

/-- A pair written, low word in the even register. -/
def State.putS2 (s : State) (x : Cx) (n : Nat) (v : DWord) : State := (s.putS x n (loW v)).putS x (n + 1) (hiW v)

/-- v[d] of each lane of `ls` written with `f`. -/
def State.putV (s : State) (x : Cx) (ls : List Nat) (d : Nat) (f : Nat → Word) : State :=
  s.modRegs x (fun r => r.putV (ls.map (fun i => (vkey d i, f i))))

/-- The item numbered `k` was made by another word of the chain that issues: the word does not see it (R29). -/
def Cx.newer (x : Cx) (k : Nat) : Bool := x.cur.before.isSome && decide (x.cur.mark ≤ k)

/-- The copies that the word's own chain has forked. -/
def chainCopies (s : State) (x : Cx) : List Nat := (s.eng.copies.filter (fun p => x.newer p.1)).map (fun p => p.1)

/-! ### What a word comes to -/

/-- What a word asks to raise: cause, lanes, address, detail, kind; `after` sets ERPC past the word (R457). -/
structure TrapReq where
  cause : Cause
  lanes : Word
  addr : DWord := 0
  detail : Word := 0
  kind : TrapKind := .precise
  after : Bool := false
  deriving DecidableEq, Repr

/-- What a meaning answers: its effect made, and Advance follows; its effect made with the PCs placed by itself; a
trap, with the writes that survive it; not ready, to be issued again; entered a wait at this word. -/
inductive Res where
  | done (s : State)
  | ctl (s : State)
  | trap (s : State) (t : TrapReq)
  | hold (s : State)
  | block (s : State)

/-! ### Advance, Jump (Table 3-2) -/

/-- InBody. -/
def inBody (e : LoopEntry) (p : Word) : Bool := decide (e.start ≤ p) && decide (p ≤ e.stop)

/-- The PC and the loop stack after the word at `w` completes (Advance). -/
def advanceLoops : List LoopEntry → Word → Word × List LoopEntry
  | [], w => (w + 1, [])
  | e :: es, w =>
    if e.stop = w then
      if e.count - 1 ≠ 0 then (e.start, { e with count := e.count - 1 } :: es) else advanceLoops es w
    else (w + 1, e :: es)

/-- Advance(s, w). -/
def Slice.advance (sl : Slice) (w : Word) : Slice :=
  { sl with pc := (advanceLoops sl.loops w).1, loops := (advanceLoops sl.loops w).2 }

/-- The loop stack after a branch to `t` from inside the top body. -/
def unwind (es : List LoopEntry) (t : Word) : List LoopEntry := es.dropWhile (fun e => !inBody e t)

/-- Jump(s, w, t). -/
def Slice.jump (sl : Slice) (w t : Word) : Slice :=
  match sl.loops with
  | [] => { sl with pc := t }
  | e :: es => if inBody e w then { sl with pc := t, loops := unwind (e :: es) t } else { sl with pc := t }

/-! ### Taking a trap: the record (R456, R457) -/

/-- KIND's number (Table 15-2). -/
def TrapKind.code : TrapKind → Nat
  | .precise => 0
  | .deferred => 1
  | .async => 2
  | .imposed => 3

/-- DISP: 0 handler, 1 service, 2 fatal (R461, R462). -/
def dispOf (s : State) (dom : Nat) (hnd : Bool) (c : Cause) : Nat :=
  match c.cls with
  | .fatal => 2
  | .handler =>
    if !hnd && (s.domain dom).map.handler.any (fun w => decide (w.size ≠ 0)) &&
      (s.domain dom).set_.hmask.getLsbD c.code then 0 else 1
  | _ => 1

/-- Word 0 of a record (Table 15-2). -/
def recWord0 (grp : BitVec 8) (nst repv : Bool) (j slot kind disp code : Nat) : Word :=
  BitVec.ofNat 32 (grp.toNat * 2 ^ 24 + (if nst then 2 ^ 23 else 0) + (if repv then 2 ^ 22 else 0) + j % 64 * 2 ^ 16 +
    slot % 4 * 2 ^ 14 + kind % 4 * 2 ^ 12 + disp % 4 * 2 ^ 10 + code % 128)

/-- Word 8 of a record: gang, core, domain. -/
def recWho (ix core dom : Nat) : Word := BitVec.ofNat 32 (ix % 16 * 2 ^ 16 + core % 256 * 2 ^ 8 + dom % 8)

/-- Fields of word 0. -/
def TrapRec.cause (r : TrapRec) : Nat := fld r.w0.toNat 0 7
def TrapRec.disp (r : TrapRec) : Nat := fld r.w0.toNat 10 2
def TrapRec.grp (r : TrapRec) : BitVec 8 := r.w0.extractLsb' 24 8
def TrapRec.repv (r : TrapRec) : Bool := r.w0.getLsbD 22
def TrapRec.j (r : TrapRec) : Nat := fld r.w0.toNat 16 6

/-- The trap record of a stop of group `m` of gang `g`, made at `epc` for the word at `at_` (R456, R457). -/
def makeRec (s : State) (g : Gang) (w : Crew) (core : Nat) (m : BitVec 8) (t : TrapReq) (epc at_ erpc : Word)
    (rep : Option Nat) : TrapRec :=
  let hnd := (g.slice (firstSlice m)).hnd
  { w0 := recWord0 m hnd rep.isSome (rep.getD 0) (at_.toNat % 3) t.kind.code (dispOf s w.dom hnd t.cause) t.cause.code,
    epc := epc, erpc := erpc, emask := t.lanes, eaddr := t.addr, edetail := t.detail, ex := g.grpX m,
    who := recWho g.ix core w.dom, tstop := BitVec.ofNat 64 s.time }

/-- A record queued in its gang; the group's slices stop (R456, R460). -/
def State.pushRec (s : State) (gk : Nat) (m : BitVec 8) (r : TrapRec) : State :=
  s.modGang gk (fun g => { g.modSlices m (fun sl => { sl with stopped := true }) with recs := g.recs ++ [r] })

/-- The one trap of a word at issue: the record of R457 and the stop of its group. DEDUCED: notes/assumptions/17. -/
def raiseTrap (s : State) (x : Cx) (t : TrapReq) : State :=
  let g := (s.gang x.cur.gang).getD x.gang
  let here := (g.slice (firstSlice x.cur.grp)).pc
  let erpc := if t.after then here else if x.cur.rep.isSome then x.cur.pc else x.cur.first
  let rep := if t.after then none else x.cur.rep
  let r := makeRec s g x.crew x.core x.cur.grp t x.cur.first x.cur.pc erpc rep
  { s.pushRec x.cur.gang x.cur.grp r with work.cur := none, work.issued := .trapped }

/-! ### Completion of a chain (R72, R76, R80, R472) -/

/-- Windows of instructions older than the chain count `n` words less (R72). -/
def countWins (mark n : Nat) (ws : List (Nat × Nat)) : List (Nat × Nat) :=
  ws.map (fun p => if p.1 < mark then (p.1, p.2 - n) else p)

/-- A REP word (bits 31:22). -/
def isRepWord (w : Word) : Bool := decide (fld w.toNat 22 10 = 9)

/-- The words of the issuing chain that count in a lookahead window: all but a REP word (R72). -/
def Cur.counted (c : Cur) : Nat :=
  if c.retry || c.again then 0 else (c.last - c.first).toNat + 1 - (if isRepWord c.word then 1 else 0)

/-- A slice after the chain of `c` has issued: windows counted, PC advanced where `adv`. -/
def Slice.issued (sl : Slice) (c : Cur) (adv : Bool) : Slice :=
  let sl := { sl with age := 0, boost := false, wins := countWins c.mark c.counted sl.wins }
  if c.again then { sl with again := sl.again.drop 1 }
  else if !adv || sl.block.isSome then sl
  else match c.rep with
    | some j =>
      (match sl.rep with
       | some r => if j < fld r.word.toNat 16 6 then { sl with rep := some { r with j := j + 1 } }
         else { sl.advance c.pc with rep := none }
       | none => sl.advance c.pc)
    | none => sl.advance c.last

/-- The PC of the chain that the context's word belongs to; a waiting word's chain has its other words in effect. -/
def Cx.chainPc (x : Cx) : Word :=
  match (x.src.slice (firstSlice x.cur.grp)).block with
  | some b => if x.cur.retry then b.first else x.cur.first
  | none => x.cur.first

/-- The issue groups that the slices `m` of a gang now form, those that go on without a wait. -/
def groupsNow (g : Gang) (m : BitVec 8) : List (BitVec 8) :=
  (((grpSlices m).filter (fun k => (g.slice k).live && (g.slice k).block.isNone)).map (fun k => (g.slice k).grp)).dedup

/-- The SSTEP record of the group `m` of gang `g`: ERPC is the group's PC after the chain (R472). -/
def sstepRec (s : State) (x : Cx) (g : Gang) (m : BitVec 8) : State :=
  let sl := g.slice (firstSlice m)
  s.pushRec x.cur.gang m (makeRec s g x.crew x.core m { cause := .sstep, lanes := grpLanes m } x.chainPc x.chainPc sl.pc
    (sl.rep.map (fun r => r.j)))

/-- SSTEP after the chain of the context, where its gang single-steps outside handler mode, for each group that the
chain leaves (R68, R472). -/
def stepTrap (s : State) (x : Cx) : State :=
  if x.src.ss && !x.hnd then
    match s.gang x.cur.gang with
    | none => s
    | some g =>
      (groupsNow g x.cur.grp).foldl (fun s m => sstepRec s x g m) s
  else s

/-- The issue groups of a gang's live slices. -/
def liveGroups (g : Gang) : List (BitVec 8) :=
  ((List.range g.slices.length).filter (fun k => (g.slice k).live)).map (fun k => (g.slice k).grp) |>.dedup

/-- A slice mask from a list of slices. -/
def sliceMask (l : List Nat) : BitVec 8 := l.foldl (fun m k => m ||| ((1 : BitVec 8) <<< k)) 0

/-- The live slices of a gang. -/
def Gang.liveSlices (g : Gang) : List Nat := (List.range g.slices.length).filter (fun k => (g.slice k).live)

/-- The first arrival of the joined slices. -/
def firstJoined (sls : List Slice) : Slice :=
  sls.foldl (fun a b => if b.joinAt < a.joinAt then b else a) (sls.headD {})

/-- A slice that goes on after a completed join, in the group `m` with the age of `f` (R70). -/
def Slice.joined (sl : Slice) (m : BitVec 8) (f : Slice) : Slice :=
  { sl.advance ((sl.block.map (fun b => b.last)).getD sl.pc) with
    grp := m, join := none, block := none, age := f.age, boost := f.boost }

/-- The trap REGANG_MIX for one former group of a gang whose slices met unequal (R70). DEDUCED: notes/assumptions/19. -/
def mixTrap (s : State) (gk : Nat) (g : Gang) (m : BitVec 8) : State :=
  match s.crew g.crew with
  | none => s
  | some w =>
    let sl := g.slice (firstSlice m)
    let at_ := (sl.block.map (fun b => b.pc)).getD sl.pc
    let s := s.pushRec gk m (makeRec s g w (w.core?.getD 0) m
      { cause := .regangMix, lanes := grpLanes m, detail := (sl.join.getD 0).zeroExtend 32 } at_ at_ at_ none)
    s.modGang gk (fun g => g.modSlices m (fun sl => { sl with join := none, block := none, pc := at_ }))

/-- The join of a gang, resolved when every live slice is in a join wait: one group goes on after REGANG, or each
former group raises REGANG_MIX (R70). -/
def resolveJoin (s : State) (gk : Nat) : State :=
  match s.gang gk with
  | none => s
  | some g =>
    let sls := g.liveSlices.map g.slice
    match sls with
    | [] => s
    | h :: _ =>
      if sls.any (fun sl => sl.join.isNone) then s
      else if sls.all (fun sl => decide (sl.join = h.join) && decide (sl.block.map (fun b => b.pc) = h.block.map (fun b => b.pc))
          && decide (sl.loops = h.loops)) then
        let m := sliceMask g.liveSlices
        let s := s.modGang gk (fun g => g.modSlices m (fun sl => sl.joined m (firstJoined sls)))
        if g.ss && !h.hnd then
          match s.gang gk, s.crew g.crew with
          | some g', some w =>
            let at_ := (h.block.map (fun b => b.first)).getD h.pc
            s.pushRec gk m (makeRec s g' w (w.core?.getD 0) m { cause := .sstep, lanes := grpLanes m } at_ at_
              (g'.slice (firstSlice m)).pc none)
          | _, _ => s
        else s
      else (liveGroups g).foldl (fun s m => mixTrap s gk g m) s

/-- The chain of the context has issued: slices advance, with SS = 1 and HND = 0 an SSTEP follows (R472), and a join
whose last slice has arrived or ended resolves (R70). -/
def endChain (s : State) (x : Cx) (adv : Bool) : State :=
  let s := s.modGang x.cur.gang (fun g => g.modSlices x.cur.grp (fun sl => sl.issued x.cur adv))
  let s := { s with work.cur := none, work.issued := .done }
  resolveJoin (if x.cur.again then s else stepTrap s x) x.cur.gang

/-- A word's effect is made. The last word of the chain completes the chain; before it the context stays. -/
def completeWord (s : State) (x : Cx) (adv : Bool) : State :=
  if x.cur.pc = x.cur.last || x.cur.retry then endChain s x adv else { s with work.issued := .done }

/-- A word of latency class W. -/
def waitWord (w : Word) : Bool :=
  match decode w with
  | .ok i => decide (Instr.lat i = .wait)
  | _ => false

/-- A group that waits at this word with the rest of its chain in effect (latency class W). -/
def blockGroup (s : State) (x : Cx) : State :=
  if x.cur.retry then s
  else s.modGang x.cur.gang (fun g => g.modSlices x.cur.grp (fun sl =>
    { sl with block := some { sl.block.getD {} with pc := x.cur.pc, first := x.cur.first, last := x.cur.last,
                                                    mark := x.cur.mark, wait := waitWord x.cur.word } }))

/-- A waiting group whose wait is over: it will advance past the chain's last word. -/
def unblock (s : State) (x : Cx) : State :=
  if !x.cur.retry then s else s.modGang x.cur.gang (fun g => g.modSlices x.cur.grp (fun sl => { sl with block := none }))

/-- What a word's answer makes of the state. -/
def finish (x : Cx) : Res → State
  | .done s => completeWord (unblock s x) x true
  | .ctl s => completeWord s x false
  | .trap s t => raiseTrap (unblock s x) x t
  | .hold s => { s with work.cur := none, work.issued := .held }
  | .block s => completeWord (blockGroup s x) x true

/-! ### The checks at issue (R33 checks 4 to 7, R34, R78) -/

/-- A register operand within its limits (R34). -/
def useOk (nr : Nat) (u : RegUse) : Bool :=
  decide (u.first % u.align = 0) && decide (u.first + u.n ≤ 64) &&
    (match u.file with | .v => decide (u.first + u.n ≤ nr) | _ => true)

/-- ILL_REG (R34, R282, R305, R357). -/
def regBad (w : Crew) (i : Instr) : Bool :=
  !(Instr.uses i).all (useOk (rwNr w.rw + 1)) ||
    (Instr.barOf i).any (fun b => decide (kwNb w.kw ≤ b)) || (Instr.queOf i).any (fun q => decide (kwNq w.kw ≤ q))

/-- PRIV (R454): a privileged function outside privileged mode, and ERET outside handler mode. -/
def privBad (x : Cx) (i : Instr) : Bool :=
  (Instr.privileged i && !x.prv) || (match i with | .eret => !x.hnd | _ => false)

/-- A non-zero QQ in the pool form of QINIT, which its configuration register selects (R305). DEDUCED: notes/assumptions/54. -/
def fieldBad (x : Cx) (i : Instr) : Bool :=
  match i with
  | .qinit _ q _ y => (x.s y.val).getLsbD 31 && decide (q.val ≠ 0)
  | _ => false

/-- The cause and detail of checks 4 to 7 that the word alone does not decide, in order. DEDUCED: notes/assumptions/25. -/
def checkIssue (x : Cx) (i : Instr) : Option TrapReq :=
  if fieldBad x i then some { cause := .illField, lanes := x.all, detail := x.cur.word }
  else if regBad x.crew i then some { cause := .illReg, lanes := x.all, detail := x.cur.word }
  else if privBad x i then some { cause := .priv, lanes := x.all, detail := x.cur.word }
  else if Instr.segpol i then some { cause := .illSegpol, lanes := x.all, detail := x.cur.word }
  else none

/-- Some slice of the group has its top loop end at a word that chains on (R78, first case). -/
def loopCut (x : Cx) : Word :=
  (grpSlices x.cur.grp).foldl (fun acc k =>
    match (x.src.slice k).loops with
    | e :: _ => if e.stop = x.cur.pc && decide (x.cur.pc ≠ x.cur.last) then acc ||| ((0xF : Word) <<< (4 * k)) else acc
    | [] => acc) 0

/-- The registers a use touches. -/
def useRegs (u : RegUse) : List Nat := (List.range u.n).map (fun k => u.first + k)

/-- An instruction of the group, older than the chain, is outstanding and has the property `p`. -/
def outOlder (s : State) (x : Cx) (p : Out → Bool) : Bool :=
  s.work.outs.any (fun o => decide (o.1 < x.cur.mark) && decide (o.2.gang = x.cur.gang) &&
    decide (o.2.grp &&& x.cur.grp ≠ 0) && p o.2)

/-- A destination of an outstanding instruction of the group is named by the word (R47). -/
def interlocked (s : State) (x : Cx) (i : Instr) : Bool :=
  outOlder s x (fun o =>
    (Instr.uses i).any (fun u =>
      match u.file with
      | .v => (useRegs u).any (fun r => o.dstV.contains r)
      | .s => (useRegs u).any (fun r => o.dstS.contains r)
      | .m => false))

/-- An outstanding instruction of the group whose acquire has not been performed (R248). -/
def acquiring (s : State) (x : Cx) : Bool :=
  outOlder s x (fun o => o.acq.isSome)

/-- A word of fixed latency that accesses memory: a pop or push that does not wait, the sluice words. -/
def fixedMem : Instr → Bool
  | .qtry .. => true
  | .slx .. => true
  | .slq .. => true
  | _ => false

/-- A word that accesses memory, for R248's hold after an acquire. -/
def memWord (i : Instr) : Bool :=
  fixedMem i || decide (Instr.pipe i = .m) || decide (Instr.lat i = .wait) || decide (Instr.lat i = .engine) ||
  (decide (Instr.pipe i = .s) && decide (Instr.lat i = .long))

/-- An L or A instruction, of which a slice has at most eight outstanding. -/
def tracked (i : Instr) : Bool := decide (Instr.lat i = .long) || decide (Instr.lat i = .atomic)

/-- `n` more L and A instructions are too many for a slice of the group, beside those older than the chain (R47). -/
def tooMany (x : Cx) (n : Nat) : Bool :=
  (grpSlices x.cur.grp).any (fun k =>
    decide (8 < n + ((x.gang.slice k).wins.filter (fun p => decide (p.1 < x.cur.mark))).length))

/-- The word cannot issue yet: an interlock, eight outstanding L and A instructions (R47), or an acquire (R248). What
the words of its own chain have begun does not hold it (R29). -/
def mustHold (s : State) (x : Cx) (i : Instr) : Bool :=
  interlocked s x i || (tracked i && tooMany x 1) || (acquiring s x && memWord i)

/-- A word of a chain issues: the checks of R33 in order, the holds, its own effect, its completion. A word for which
no group is issuing changes nothing. -/
def issue (i : Instr) (s : State) (body : State → Cx → Res) : Host.Outcome State Fault Refusal :=
  match s.cx with
  | none => .next s
  | some x =>
    .next (match checkIssue x i with
      | some t => raiseTrap s x t
      | none =>
        if loopCut x ≠ 0 then
          raiseTrap s x
            { cause := .loopBad, lanes := loopCut x,
              detail := BitVec.ofNat 32 (x.src.slice (firstSlice x.cur.grp)).loops.length }
        else if !x.cur.retry && mustHold s x i then finish x (.hold s)
        else finish x (body s x))

/-- A step of an engine, a home, the scheduler or the host side: always a next state. DESIGN CHOICE: notes/assumptions/2. -/
def event (s : State) : Host.Outcome State Fault Refusal := .next s

/-! ### Outstanding instructions -/

/-- An L or A instruction outstanding: the record, and in every slice of the group a window of `la` words (R72). -/
def openOut (s : State) (x : Cx) (o : Out) (la : Nat) : State :=
  let id := s.work.next
  let s := { s with work.next := id + 1, work.outs := smSet s.work.outs id { o with hnd := x.hnd } }
  s.modGang x.cur.gang (fun g => g.modSlices x.cur.grp (fun sl => { sl with wins := sl.wins ++ [(id, la)] }))

/-- An outstanding instruction closed: its record goes and its windows close in every slice. -/
def closeOut (s : State) (id : Nat) : State :=
  match smFind s.work.outs id with
  | none => s
  | some o =>
    let s := { s with work.outs := smErase s.work.outs id }
    s.modGang o.gang (fun g => { g with slices := g.slices.map (fun sl =>
      { sl with wins := sl.wins.filter (fun p => decide (p.1 ≠ id)) }) })

/-- The register writes an outstanding instruction has gathered; its scalars go to the copy of s56 to s63 that the group
saw when it issued (R463, R464). -/
def writeOut (s : State) (o : Out) : State :=
  s.modGang o.gang (fun g => { g with r := o.wrS.foldl (fun r p => r.wrS o.hnd p.1 p.2) (g.r.putV o.wrV) })

/-- No slice of the group has an outstanding L or A instruction. -/
def noOuts (g : Gang) (m : BitVec 8) : Bool := (grpSlices m).all (fun k => (g.slice k).wins.isEmpty)

/-! ### Deferred faults (R228) -/

/-- A deferred fault of an instruction at `pc`: it waits for the groups' next chain boundary. -/
def addLate (s : State) (gk : Nat) (pc : Word) (e : Err) : State :=
  { s with coh.late := s.coh.late ++ [{ gang := gk, pc := pc, err := e }] }

/-- The deferred fault that a group takes at its next chain boundary, if any. -/
def lateOf (s : State) (gk : Nat) (m : BitVec 8) : Option Late :=
  s.coh.late.find? (fun e => decide (e.gang = gk) && decide (e.err.lanes &&& grpLanes m ≠ 0))

/-- The group's lanes taken out of a pending fault; a fault with no lane left goes. -/
def dropLate (s : State) (e : Late) (m : BitVec 8) : State :=
  let rest := s.coh.late.map (fun f =>
    if f = e then { f with err := { f.err with lanes := f.err.lanes &&& ~~~(grpLanes m) } } else f)
  { s with coh.late := rest.filter (fun f => decide (f.err.lanes ≠ 0)) }

/-- A group stops at its chain boundary with a deferred fault: ERPC is the PC of the chain it would have issued. DEDUCED: notes/assumptions/41. -/
def deferTrap (s : State) (gk : Nat) (m : BitVec 8) (e : Late) : State :=
  match s.gang gk with
  | none => s
  | some g =>
    match s.crew g.crew with
    | none => s
    | some w =>
      let sl := g.slice (firstSlice m)
      (dropLate s e m).pushRec gk m (makeRec s g w (w.core?.getD 0) m
        { cause := e.err.cause, lanes := e.err.lanes &&& grpLanes m, addr := e.err.addr, detail := e.err.detail,
          kind := .deferred } e.pc e.pc sl.pc (sl.rep.map (fun r => r.j)))

/-- The PC of the next word a slice would issue: the word it waits at, or its PC. -/
def Slice.nextPc (sl : Slice) : Word := (sl.block.map (fun b => b.pc)).getD sl.pc

/-- A slice that leaves its join wait: it issues its REGANG again when it goes on. -/
def Slice.unjoin (sl : Slice) : Slice :=
  if sl.join.isSome then { sl with pc := sl.nextPc, join := none, block := none } else sl

/-- An imposed cause stops a group at its next chain boundary; a group that waits at a word stops there (R461, R457). DEDUCED: notes/assumptions/97. -/
def imposeTrap (s : State) (gk : Nat) (m : BitVec 8) (c : Cause) (detail : Word) : State :=
  match s.gang gk with
  | none => s
  | some g =>
    match s.crew g.crew with
    | none => s
    | some w =>
      let sl := g.slice (firstSlice m)
      let s := s.pushRec gk m (makeRec s g w (w.core?.getD 0) m
        { cause := c, lanes := grpLanes m, detail := detail, kind := .imposed } sl.nextPc sl.nextPc sl.nextPc
        (sl.rep.map (fun r => r.j)))
      s.modGang gk (fun g => g.modSlices m Slice.unjoin)

/-! ### Stop-all (R471) -/

/-- A record of gang `h` (number `hk`) that waits for delivery to the handler under SA keeps group `m` of gang `gk` from
issuing: not its own group, nor one of the gang whose record comes before it. -/
def saKeeps (hk : Nat) (h : Gang) (gk : Nat) (m : BitVec 8) : Bool :=
  h.sa && (h.recs.drop (if h.cur then 1 else 0)).any (fun r => decide (r.disp = 0) &&
    !(decide (hk = gk) && (decide (r.grp &&& m ≠ 0) ||
      (h.recs.takeWhile (fun q => decide (q ≠ r))).any (fun q => decide (q.grp &&& m ≠ 0)))))

/-- The group is frozen: by a handler that runs under SA or by a context transfer, or because another group of the crew
has stopped under SA with a record for the handler (R471, R488). DEDUCED: notes/assumptions/141. -/
def frozenNow (s : State) (gk : Nat) (g : Gang) (m : BitVec 8) : Bool :=
  (g.slice (firstSlice m)).frozen || (s.gangsOf g.crew).any (fun p => saKeeps p.1 p.2 gk m)

/-- A gang with the freeze of stop-all in its slices, as the image of a crew holds it. -/
def Gang.withFreeze (g : Gang) (s : State) (gk : Nat) : Gang :=
  { g with slices := g.slices.map (fun sl => if sl.live && frozenNow s gk g sl.grp then { sl with frozen := true } else sl) }

/-! ### Entering the handler and returning from it (R463, R480) -/

/-- One slice at handler entry. -/
def Slice.enter (sl : Slice) : Slice :=
  { sl with asideLoops := sl.loops, asideRep := sl.rep, loops := [], rep := none, block := none,
            x := 0xF, pc := 0, hnd := true, stopped := false }

/-- Handler entry for the head record of gang `gk`: the record becomes current and its group enters (R463); with SA
every other group of the crew freezes (R471). -/
def enterHandler (s : State) (gk : Nat) : State :=
  match s.gang gk with
  | none => s
  | some g =>
    match g.recs with
    | [] => s
    | r :: _ =>
      let s := s.modGang gk (fun g => { g.modSlices r.grp Slice.enter with cur := true })
      if g.sa then
        { s with work.gangs := s.work.gangs.map (fun p =>
            if p.2.crew = g.crew then
              (p.1, p.2.modSlices (if p.1 = gk then ~~~r.grp else 0xFF)
                (fun sl => if sl.live then { sl with frozen := true } else sl))
            else p) }
      else s

/-- One slice at ERET under record `r` (slice number `k`). -/
def Slice.leave (sl : Slice) (r : TrapRec) (k : Nat) : Slice :=
  { sl with x := r.ex.extractLsb' (4 * k) 4, loops := sl.asideLoops, asideLoops := [], pc := r.erpc,
            rep := if r.repv then sl.asideRep.map (fun p => { p with j := r.j }) else none, asideRep := none, hnd := false }

/-- The return from the handler (R480): the group resumes, the record is retired, the crew's frozen groups go on. DEDUCED: notes/assumptions/112. -/
def leaveHandler (s : State) (gk : Nat) : State :=
  match s.gang gk with
  | none => s
  | some g =>
    match g.recs with
    | [] => s
    | r :: rs =>
      let s := s.modGang gk (fun g =>
        { g with slices := g.slices.zipIdx.map (fun p => if r.grp.getLsbD p.2 then p.1.leave r p.2 else p.1),
                 recs := rs, cur := false })
      { s with work.gangs := s.work.gangs.map (fun p =>
          if p.2.crew = g.crew then (p.1, p.2.modSlices 0xFF (fun sl => { sl with frozen := false })) else p) }

end Sys2Proof.Machine
end

