-- ==== Sys2Proof/Machine/Flags.lean ====
section
/-! DEFINITION. The flag computations: the mask registers that compares write (R104, R105), the integer relations
(R117), the ballot (R125) and the branch condition (R67). The Dolup has no other flags (R100). -/

namespace Sys2Proof.Machine
open Sys2Proof

/-- Bit `i` of a lane word set to `b`. -/
def setBit (w : Word) (i : Nat) (b : Bool) : Word :=
  if b then w ||| ((1 : Word) <<< i) else w &&& ~~~((1 : Word) <<< i)

/-- A mask register after a compare: each lane of `ls` takes its 1-bit result, every other bit is kept (R105). -/
def maskResult (old : Word) (ls : List Nat) (p : Nat → Bool) : Word := ls.foldl (fun m i => setBit m i (p i)) old

/-- m[k] written in the lanes of `ls` (R104, R105). -/
def State.putM (s : State) (x : Cx) (ls : List Nat) (k : Nat) (p : Nat → Bool) : State :=
  s.modRegs x (fun r => r.wrM k (maskResult (r.rdM k) ls p))

/-- The relations of ICMP and SCMP (R100, R117, R124). -/
def relEq (a b : Word) : Bool := decide (a = b)
def relNe (a b : Word) : Bool := decide (a ≠ b)
def relLtI (a b : Word) : Bool := a.slt b
def relLtN (a b : Word) : Bool := a.ult b
def relLeI (a b : Word) : Bool := !b.slt a
def relLeN (a b : Word) : Bool := !b.ult a

/-- A relation as the value 1 or 0. -/
def boolWord (b : Bool) : Word := if b then 1 else 0

/-- The active lanes of the issuing group in which `p` holds, one bit per lane. -/
def ballot (x : Cx) (p : Nat → Bool) : Word := lanesOf (x.lanes.filter p)

/-- SliceCond (R67): none where the uniform form finds its lanes at odds. `k` is 0 uniform, 1 any, 2 all. -/
def sliceCond (m : Word) (xb : BitVec 4) (slice k : Nat) : Option Bool :=
  let bits := ((List.range 4).filter (fun i => xb.getLsbD i)).map (fun i => m.getLsbD (4 * slice + i))
  if k = 1 then some (bits.any (fun b => b))
  else if k = 2 then some (bits.all (fun b => b))
  else match bits with
    | [] => some false
    | b :: bs => if bs.all (fun c => c == b) then some b else none

end Sys2Proof.Machine
end

