-- ==== Sys2Proof/Machine/Integer.lean ====
section
/-! DEFINITION. The integer, immediate, scalar and logic-table instructions (chapter 4). -/

namespace Sys2Proof.Machine
open Sys2Proof

/-! ### Operands -/

/-- Operand b of lane `i` as BS selects it: a vector register, a scalar, a built-in constant (R36, R101). -/
def Cx.b (x : Cx) (s : Fin 4) (b : Fin 64) (i : Nat) : Word :=
  if s.val = 0 then x.v b.val i else if s.val = 1 then x.s b.val else builtin b.val

/-- A lane of a slice the gang does not have (R103). -/
def Cx.absent (x : Cx) (j : Nat) : Bool := decide (x.src.nsl ≤ j / 4)

/-- SignExtend of an `n`-bit field to a word. -/
def sext (n v : Nat) : Word := (BitVec.ofNat n v).signExtend 32

/-! ### The functions of a lane -/

/-- Bits 63:32 of the exact signed and natural products (R109). -/
def mulhI (a b : Word) : Word := ((a.signExtend 64) * (b.signExtend 64)).extractLsb' 32 32
def mulhN (a b : Word) : Word := ((a.zeroExtend 64) * (b.zeroExtend 64)).extractLsb' 32 32

/-- The minimum and maximum under a strict order (R110). -/
def minBy (lt : Word → Word → Bool) (a b : Word) : Word := if lt b a then b else a
def maxBy (lt : Word → Word → Bool) (a b : Word) : Word := if lt a b then b else a

/-- IABS (R110). -/
def iabsW (a : Word) : Word := if a.getLsbD 31 then 0 - a else a

/-- The shifts by a whole 32-bit natural count (R102, R112). -/
def shlW (a n : Word) : Word := if 32 ≤ n.toNat then 0 else a <<< n.toNat
def shrW (a n : Word) : Word := if 32 ≤ n.toNat then 0 else a >>> n.toNat
def sarW (a n : Word) : Word := a.sshiftRight (if 32 ≤ n.toNat then 31 else n.toNat)

/-- The funnel shifts by 0 to 31 (R113): `d` is the old destination. -/
def fslW (d a : Word) (n : Nat) : Word := ((a ++ d) <<< n).extractLsb' 32 32
def fsrW (d a : Word) (n : Nat) : Word := ((d ++ a) >>> n).extractLsb' 0 32

/-- Pop32, the count of leading zeros, the reversal (R114). -/
def popW (a : Word) : Word := BitVec.ofNat 32 (((List.range 32).filter (fun k => a.getLsbD k)).length)
def clzW (a : Word) : Word := BitVec.ofNat 32 (((List.range 32).takeWhile (fun k => !a.getLsbD (31 - k))).length)
def brevW (a : Word) : Word := (List.range 32).foldl (fun r k => setBit r (31 - k) (a.getLsbD k)) 0

/-- POS and the cut length of Table 4-5 (R115). -/
def bfPos (b : Word) : Nat := fld b.toNat 0 5
def bfLen (b : Word) : Nat := min (fld b.toNat 8 6) (32 - bfPos b)

/-- BFX.n, BFX.i and BFI (R115). -/
def bfxNW (a b : Word) : Word := BitVec.ofNat 32 (fld a.toNat (bfPos b) (bfLen b))
def bfxIW (a b : Word) : Word := if bfLen b = 0 then 0 else sext (bfLen b) (fld a.toNat (bfPos b) (bfLen b))
def bfiW (d a b : Word) : Word :=
  let mk : Word := BitVec.ofNat 32 ((2 ^ bfLen b - 1) * 2 ^ bfPos b)
  (d &&& ~~~mk) ||| ((a <<< bfPos b) &&& mk)

/-- PRM's result byte `k` (R116). -/
def prmByte (d a b : Word) (k : Nat) : BitVec 8 :=
  let q : BitVec 4 := b.extractLsb' (4 * k) 4
  let e : BitVec 8 := (d ++ a).extractLsb' (8 * (q.extractLsb' 0 3).toNat) 8
  if q.getLsbD 3 then (if e.getLsbD 7 then 0xFF else 0) else e
def prmW (d a b : Word) : Word := prmByte d a b 3 ++ prmByte d a b 2 ++ prmByte d a b 1 ++ prmByte d a b 0

/-- LGT's bit function (R43, R126). -/
def lgtW (t : Nat) (d a b : Word) : Word :=
  (List.range 32).foldl (fun r k =>
    setBit r k (t.testBit (4 * (d.getLsbD k).toNat + 2 * (a.getLsbD k).toNat + (b.getLsbD k).toNat))) 0

/-- SourceLane (R107, Table 4-3). `m` is 0 idx, 1 up, 2 dn, 3 xor. -/
def sourceLane (m i : Nat) (b : Word) : Nat :=
  let w := 32 / 2 ^ fld b.toNat 5 2
  let k := fld b.toNat 0 5
  let base := i / w * w
  let o := i - base
  if m = 0 then base + k % w
  else if m = 1 then (if k ≤ o then i - k else i)
  else if m = 2 then (if o + k < w then i + k else i)
  else base + (o ^^^ (k % w))

/-! ### The shapes of a word -/

/-- v[d] of every active lane takes `f` of that lane. -/
def vecOp (d : Fin 64) (f : Cx → Nat → Word) (st : State) (x : Cx) : Res := .done (st.putV x x.lanes d.val (f x))

/-- m[k] of every active lane takes `p` of that lane. -/
def cmpOp (k : Fin 8) (p : Cx → Nat → Bool) (st : State) (x : Cx) : Res := .done (st.putM x x.lanes k.val (p x))

/-- s[d] takes one value for the issue. -/
def scaOp (d : Fin 64) (f : Cx → Word) (st : State) (x : Cx) : Res := .done (st.putS x d.val (f x))

/-- Two operands, and two operands with the old destination. -/
def bin2 (f : Word → Word → Word) (a b : Fin 64) (s : Fin 4) (x : Cx) (i : Nat) : Word := f (x.v a.val i) (x.b s b i)
def bin3 (f : Word → Word → Word → Word) (d a b : Fin 64) (s : Fin 4) (x : Cx) (i : Nat) : Word :=
  f (x.v d.val i) (x.v a.val i) (x.b s b i)

/-- A relation of two operands. -/
def rel2 (p : Word → Word → Bool) (a b : Fin 64) (s : Fin 4) (x : Cx) (i : Nat) : Bool := p (x.v a.val i) (x.b s b i)

/-- SEL (R118). -/
def selV (k : Nat) (a b : Fin 64) (s : Fin 4) (x : Cx) (i : Nat) : Word :=
  if (x.m k).getLsbD i then x.v a.val i else x.b s b i

/-- SHFL (R119): an absent source gives the lane its own value. -/
def shflV (m : Nat) (a b : Fin 64) (s : Fin 4) (x : Cx) (i : Nat) : Word :=
  let j := sourceLane m i (x.b s b i)
  if x.absent j then x.v a.val i else x.v a.val j

/-- SWZ (R122). -/
def swzV (p : Nat) (a : Fin 64) (x : Cx) (i : Nat) : Word :=
  if fld p 9 2 = 0 then x.v a.val (4 * (i / 4) + fld p (2 * (i % 4)) 2) else x.v a.val i + BitVec.ofNat 32 i

/-- Two scalar operands. -/
def sca2 (f : Word → Word → Word) (a b : Fin 64) (x : Cx) : Word := f (x.s a.val) (x.s b.val)

/-! ### INT (R108 to R120) -/

/-- IADD (R109). -/
def execIadd (c : Bool) (d a b : Fin 64) (s : Fin 4) (st : State) : Host.Outcome State Fault Refusal :=
  issue (.iadd c d a b s) st (vecOp d (bin2 (fun a b => a + b) a b s))

/-- ISUB (R109). -/
def execIsub (c : Bool) (d a b : Fin 64) (s : Fin 4) (st : State) : Host.Outcome State Fault Refusal :=
  issue (.isub c d a b s) st (vecOp d (bin2 (fun a b => a - b) a b s))

/-- IMUL (R109). -/
def execImul (c : Bool) (d a b : Fin 64) (s : Fin 4) (st : State) : Host.Outcome State Fault Refusal :=
  issue (.imul c d a b s) st (vecOp d (bin2 (fun a b => a * b) a b s))

/-- IMULH.i (R109). -/
def execImulhI (c : Bool) (d a b : Fin 64) (s : Fin 4) (st : State) : Host.Outcome State Fault Refusal :=
  issue (.imulhI c d a b s) st (vecOp d (bin2 mulhI a b s))

/-- IMULH.n (R109). -/
def execImulhN (c : Bool) (d a b : Fin 64) (s : Fin 4) (st : State) : Host.Outcome State Fault Refusal :=
  issue (.imulhN c d a b s) st (vecOp d (bin2 mulhN a b s))

/-- IMAD (R109). -/
def execImad (c : Bool) (d a b : Fin 64) (s : Fin 4) (st : State) : Host.Outcome State Fault Refusal :=
  issue (.imad c d a b s) st (vecOp d (bin3 (fun d a b => a * b + d) d a b s))

/-- IMIN.i (R110). -/
def execIminI (c : Bool) (d a b : Fin 64) (s : Fin 4) (st : State) : Host.Outcome State Fault Refusal :=
  issue (.iminI c d a b s) st (vecOp d (bin2 (minBy relLtI) a b s))

/-- IMIN.n (R110). -/
def execIminN (c : Bool) (d a b : Fin 64) (s : Fin 4) (st : State) : Host.Outcome State Fault Refusal :=
  issue (.iminN c d a b s) st (vecOp d (bin2 (minBy relLtN) a b s))

/-- IMAX.i (R110). -/
def execImaxI (c : Bool) (d a b : Fin 64) (s : Fin 4) (st : State) : Host.Outcome State Fault Refusal :=
  issue (.imaxI c d a b s) st (vecOp d (bin2 (maxBy relLtI) a b s))

/-- IMAX.n (R110). -/
def execImaxN (c : Bool) (d a b : Fin 64) (s : Fin 4) (st : State) : Host.Outcome State Fault Refusal :=
  issue (.imaxN c d a b s) st (vecOp d (bin2 (maxBy relLtN) a b s))

/-- IABS (R110). -/
def execIabs (c : Bool) (d a : Fin 64) (st : State) : Host.Outcome State Fault Refusal :=
  issue (.iabs c d a) st (vecOp d (fun x i => iabsW (x.v a.val i)))

/-- AND (R111). -/
def execAndV (c : Bool) (d a b : Fin 64) (s : Fin 4) (st : State) : Host.Outcome State Fault Refusal :=
  issue (.andV c d a b s) st (vecOp d (bin2 (fun a b => a &&& b) a b s))

/-- OR (R111). -/
def execOrV (c : Bool) (d a b : Fin 64) (s : Fin 4) (st : State) : Host.Outcome State Fault Refusal :=
  issue (.orV c d a b s) st (vecOp d (bin2 (fun a b => a ||| b) a b s))

/-- XOR (R111). -/
def execXorV (c : Bool) (d a b : Fin 64) (s : Fin 4) (st : State) : Host.Outcome State Fault Refusal :=
  issue (.xorV c d a b s) st (vecOp d (bin2 (fun a b => a ^^^ b) a b s))

/-- ANDN (R111). -/
def execAndn (c : Bool) (d a b : Fin 64) (s : Fin 4) (st : State) : Host.Outcome State Fault Refusal :=
  issue (.andn c d a b s) st (vecOp d (bin2 (fun a b => a &&& ~~~b) a b s))

/-- SHL (R112). -/
def execShl (c : Bool) (d a b : Fin 64) (s : Fin 4) (st : State) : Host.Outcome State Fault Refusal :=
  issue (.shl c d a b s) st (vecOp d (bin2 shlW a b s))

/-- SHR (R112). -/
def execShr (c : Bool) (d a b : Fin 64) (s : Fin 4) (st : State) : Host.Outcome State Fault Refusal :=
  issue (.shr c d a b s) st (vecOp d (bin2 shrW a b s))

/-- SAR (R112). -/
def execSar (c : Bool) (d a b : Fin 64) (s : Fin 4) (st : State) : Host.Outcome State Fault Refusal :=
  issue (.sar c d a b s) st (vecOp d (bin2 sarW a b s))

/-- FSL (R113). -/
def execFsl (c : Bool) (d a b : Fin 64) (s : Fin 4) (st : State) : Host.Outcome State Fault Refusal :=
  issue (.fsl c d a b s) st (vecOp d (bin3 (fun d a b => fslW d a (fld b.toNat 0 5)) d a b s))

/-- FSR (R113). -/
def execFsr (c : Bool) (d a b : Fin 64) (s : Fin 4) (st : State) : Host.Outcome State Fault Refusal :=
  issue (.fsr c d a b s) st (vecOp d (bin3 (fun d a b => fsrW d a (fld b.toNat 0 5)) d a b s))

/-- POPC (R114). -/
def execPopc (c : Bool) (d a : Fin 64) (st : State) : Host.Outcome State Fault Refusal :=
  issue (.popc c d a) st (vecOp d (fun x i => popW (x.v a.val i)))

/-- CLZ (R114). -/
def execClz (c : Bool) (d a : Fin 64) (st : State) : Host.Outcome State Fault Refusal :=
  issue (.clz c d a) st (vecOp d (fun x i => clzW (x.v a.val i)))

/-- BREV (R114). -/
def execBrev (c : Bool) (d a : Fin 64) (st : State) : Host.Outcome State Fault Refusal :=
  issue (.brev c d a) st (vecOp d (fun x i => brevW (x.v a.val i)))

/-- BFX.i (R115). -/
def execBfxI (c : Bool) (d a b : Fin 64) (s : Fin 4) (st : State) : Host.Outcome State Fault Refusal :=
  issue (.bfxI c d a b s) st (vecOp d (bin2 bfxIW a b s))

/-- BFX.n (R115). -/
def execBfxN (c : Bool) (d a b : Fin 64) (s : Fin 4) (st : State) : Host.Outcome State Fault Refusal :=
  issue (.bfxN c d a b s) st (vecOp d (bin2 bfxNW a b s))

/-- BFI (R115). -/
def execBfi (c : Bool) (d a b : Fin 64) (s : Fin 4) (st : State) : Host.Outcome State Fault Refusal :=
  issue (.bfi c d a b s) st (vecOp d (bin3 bfiW d a b s))

/-- PRM (R116). -/
def execPrm (c : Bool) (d a b : Fin 64) (s : Fin 4) (st : State) : Host.Outcome State Fault Refusal :=
  issue (.prm c d a b s) st (vecOp d (bin3 prmW d a b s))

/-- ICMP (R117): Eq. -/
def execIcmpEq (c : Bool) (m : Fin 8) (a b : Fin 64) (s : Fin 4) (st : State) : Host.Outcome State Fault Refusal :=
  issue (.icmpEq c m a b s) st (cmpOp m (rel2 relEq a b s))

/-- ICMP (R117): Ne. -/
def execIcmpNe (c : Bool) (m : Fin 8) (a b : Fin 64) (s : Fin 4) (st : State) : Host.Outcome State Fault Refusal :=
  issue (.icmpNe c m a b s) st (cmpOp m (rel2 relNe a b s))

/-- ICMP (R117): LtI. -/
def execIcmpLtI (c : Bool) (m : Fin 8) (a b : Fin 64) (s : Fin 4) (st : State) : Host.Outcome State Fault Refusal :=
  issue (.icmpLtI c m a b s) st (cmpOp m (rel2 relLtI a b s))

/-- ICMP (R117): LtN. -/
def execIcmpLtN (c : Bool) (m : Fin 8) (a b : Fin 64) (s : Fin 4) (st : State) : Host.Outcome State Fault Refusal :=
  issue (.icmpLtN c m a b s) st (cmpOp m (rel2 relLtN a b s))

/-- ICMP (R117): LeI. -/
def execIcmpLeI (c : Bool) (m : Fin 8) (a b : Fin 64) (s : Fin 4) (st : State) : Host.Outcome State Fault Refusal :=
  issue (.icmpLeI c m a b s) st (cmpOp m (rel2 relLeI a b s))

/-- ICMP (R117): LeN. -/
def execIcmpLeN (c : Bool) (m : Fin 8) (a b : Fin 64) (s : Fin 4) (st : State) : Host.Outcome State Fault Refusal :=
  issue (.icmpLeN c m a b s) st (cmpOp m (rel2 relLeN a b s))

/-- SEL.m1 (R118). -/
def execSelM1 (c : Bool) (d a b : Fin 64) (s : Fin 4) (st : State) : Host.Outcome State Fault Refusal :=
  issue (.selM1 c d a b s) st (vecOp d (selV 1 a b s))

/-- SEL.m2 (R118). -/
def execSelM2 (c : Bool) (d a b : Fin 64) (s : Fin 4) (st : State) : Host.Outcome State Fault Refusal :=
  issue (.selM2 c d a b s) st (vecOp d (selV 2 a b s))

/-- SEL.m3 (R118). -/
def execSelM3 (c : Bool) (d a b : Fin 64) (s : Fin 4) (st : State) : Host.Outcome State Fault Refusal :=
  issue (.selM3 c d a b s) st (vecOp d (selV 3 a b s))

/-- SEL.m4 (R118). -/
def execSelM4 (c : Bool) (d a b : Fin 64) (s : Fin 4) (st : State) : Host.Outcome State Fault Refusal :=
  issue (.selM4 c d a b s) st (vecOp d (selV 4 a b s))

/-- SEL.m5 (R118). -/
def execSelM5 (c : Bool) (d a b : Fin 64) (s : Fin 4) (st : State) : Host.Outcome State Fault Refusal :=
  issue (.selM5 c d a b s) st (vecOp d (selV 5 a b s))

/-- SEL.m6 (R118). -/
def execSelM6 (c : Bool) (d a b : Fin 64) (s : Fin 4) (st : State) : Host.Outcome State Fault Refusal :=
  issue (.selM6 c d a b s) st (vecOp d (selV 6 a b s))

/-- SEL.m7 (R118). -/
def execSelM7 (c : Bool) (d a b : Fin 64) (s : Fin 4) (st : State) : Host.Outcome State Fault Refusal :=
  issue (.selM7 c d a b s) st (vecOp d (selV 7 a b s))

/-- SHFL.idx (R119). -/
def execShflIdx (c : Bool) (d a b : Fin 64) (s : Fin 4) (st : State) : Host.Outcome State Fault Refusal :=
  issue (.shflIdx c d a b s) st (vecOp d (shflV 0 a b s))

/-- SHFL.up (R119). -/
def execShflUp (c : Bool) (d a b : Fin 64) (s : Fin 4) (st : State) : Host.Outcome State Fault Refusal :=
  issue (.shflUp c d a b s) st (vecOp d (shflV 1 a b s))

/-- SHFL.dn (R119). -/
def execShflDn (c : Bool) (d a b : Fin 64) (s : Fin 4) (st : State) : Host.Outcome State Fault Refusal :=
  issue (.shflDn c d a b s) st (vecOp d (shflV 2 a b s))

/-- SHFL.xor (R119). -/
def execShflXor (c : Bool) (d a b : Fin 64) (s : Fin 4) (st : State) : Host.Outcome State Fault Refusal :=
  issue (.shflXor c d a b s) st (vecOp d (shflV 3 a b s))

/-- MTOV (R120). -/
def execMtov (c : Bool) (d : Fin 64) (m : Fin 8) (st : State) : Host.Outcome State Fault Refusal :=
  issue (.mtov c d m) st (vecOp d (fun x i => boolWord ((x.m m.val).getLsbD i)))

/-- VTOM (R120). -/
def execVtom (c : Bool) (m : Fin 8) (a : Fin 64) (st : State) : Host.Outcome State Fault Refusal :=
  issue (.vtom c m a) st (cmpOp m (fun x i => relNe (x.v a.val i) 0))

/-! ### IMM (R121, R122) -/

/-- IADDI (R121). -/
def execIaddi (c : Bool) (d a : Fin 64) (i : Fin 2048) (st : State) : Host.Outcome State Fault Refusal :=
  issue (.iaddi c d a i) st (vecOp d (fun x k => x.v a.val k + sext 11 i.val))

/-- ANDI (R121). -/
def execAndi (c : Bool) (d a : Fin 64) (i : Fin 2048) (st : State) : Host.Outcome State Fault Refusal :=
  issue (.andi c d a i) st (vecOp d (fun x k => x.v a.val k &&& BitVec.ofNat 32 i.val))

/-- ORI (R121). -/
def execOri (c : Bool) (d a : Fin 64) (i : Fin 2048) (st : State) : Host.Outcome State Fault Refusal :=
  issue (.ori c d a i) st (vecOp d (fun x k => x.v a.val k ||| BitVec.ofNat 32 i.val))

/-- XORI (R121). -/
def execXori (c : Bool) (d a : Fin 64) (i : Fin 2048) (st : State) : Host.Outcome State Fault Refusal :=
  issue (.xori c d a i) st (vecOp d (fun x k => x.v a.val k ^^^ BitVec.ofNat 32 i.val))

/-- SHLI (R121). -/
def execShli (c : Bool) (d a : Fin 64) (n : Fin 32) (st : State) : Host.Outcome State Fault Refusal :=
  issue (.shli c d a n) st (vecOp d (fun x k => x.v a.val k <<< n.val))

/-- SHRI (R121). -/
def execShri (c : Bool) (d a : Fin 64) (n : Fin 32) (st : State) : Host.Outcome State Fault Refusal :=
  issue (.shri c d a n) st (vecOp d (fun x k => x.v a.val k >>> n.val))

/-- SARI (R121). -/
def execSari (c : Bool) (d a : Fin 64) (n : Fin 32) (st : State) : Host.Outcome State Fault Refusal :=
  issue (.sari c d a n) st (vecOp d (fun x k => (x.v a.val k).sshiftRight n.val))

/-- ICMPI.eq (R121). -/
def execIcmpiEq (c : Bool) (m : Fin 8) (a : Fin 64) (i : Fin 2048) (st : State) : Host.Outcome State Fault Refusal :=
  issue (.icmpiEq c m a i) st (cmpOp m (fun x k => relEq (x.v a.val k) (sext 11 i.val)))

/-- ICMPI.lt.i (R121). -/
def execIcmpiLtI (c : Bool) (m : Fin 8) (a : Fin 64) (i : Fin 2048) (st : State) : Host.Outcome State Fault Refusal :=
  issue (.icmpiLtI c m a i) st (cmpOp m (fun x k => relLtI (x.v a.val k) (sext 11 i.val)))

/-- MOVI (R121). -/
def execMovi (c : Bool) (d : Fin 64) (i : Fin 2048) (st : State) : Host.Outcome State Fault Refusal :=
  issue (.movi c d i) st (vecOp d (fun _ _ => sext 11 i.val))

/-- SWZ (R122). -/
def execSwz (c : Bool) (d a : Fin 64) (p : Fin 2048) (st : State) : Host.Outcome State Fault Refusal :=
  issue (.swz c d a p) st (vecOp d (swzV p.val a))

/-- FSLI (R121, R113). -/
def execFsli (c : Bool) (d a : Fin 64) (n : Fin 32) (st : State) : Host.Outcome State Fault Refusal :=
  issue (.fsli c d a n) st (vecOp d (fun x k => fslW (x.v d.val k) (x.v a.val k) n.val))

/-- FSRI (R121, R113). -/
def execFsri (c : Bool) (d a : Fin 64) (n : Fin 32) (st : State) : Host.Outcome State Fault Refusal :=
  issue (.fsri c d a n) st (vecOp d (fun x k => fsrW (x.v d.val k) (x.v a.val k) n.val))

/-! ### SCA (R123 to R125) -/

/-- SADD (R124). -/
def execSadd (c : Bool) (d a b : Fin 64) (st : State) : Host.Outcome State Fault Refusal :=
  issue (.sadd c d a b) st (scaOp d (sca2 (fun y z => y + z) a b))

/-- SSUB (R124). -/
def execSsub (c : Bool) (d a b : Fin 64) (st : State) : Host.Outcome State Fault Refusal :=
  issue (.ssub c d a b) st (scaOp d (sca2 (fun y z => y - z) a b))

/-- SMUL (R124). -/
def execSmul (c : Bool) (d a b : Fin 64) (st : State) : Host.Outcome State Fault Refusal :=
  issue (.smul c d a b) st (scaOp d (sca2 (fun y z => y * z) a b))

/-- SAND (R124). -/
def execSand (c : Bool) (d a b : Fin 64) (st : State) : Host.Outcome State Fault Refusal :=
  issue (.sand c d a b) st (scaOp d (sca2 (fun y z => y &&& z) a b))

/-- SOR (R124). -/
def execSor (c : Bool) (d a b : Fin 64) (st : State) : Host.Outcome State Fault Refusal :=
  issue (.sor c d a b) st (scaOp d (sca2 (fun y z => y ||| z) a b))

/-- SXOR (R124). -/
def execSxor (c : Bool) (d a b : Fin 64) (st : State) : Host.Outcome State Fault Refusal :=
  issue (.sxor c d a b) st (scaOp d (sca2 (fun y z => y ^^^ z) a b))

/-- SSHL (R124). -/
def execSshl (c : Bool) (d a b : Fin 64) (st : State) : Host.Outcome State Fault Refusal :=
  issue (.sshl c d a b) st (scaOp d (sca2 shlW a b))

/-- SSHR (R124). -/
def execSshr (c : Bool) (d a b : Fin 64) (st : State) : Host.Outcome State Fault Refusal :=
  issue (.sshr c d a b) st (scaOp d (sca2 shrW a b))

/-- SSAR (R124). -/
def execSsar (c : Bool) (d a b : Fin 64) (st : State) : Host.Outcome State Fault Refusal :=
  issue (.ssar c d a b) st (scaOp d (sca2 sarW a b))

/-- SCMP.eq (R124). -/
def execScmpEq (c : Bool) (d a b : Fin 64) (st : State) : Host.Outcome State Fault Refusal :=
  issue (.scmpEq c d a b) st (scaOp d (sca2 (fun y z => boolWord (relEq y z)) a b))

/-- SCMP.lt.i (R124). -/
def execScmpLtI (c : Bool) (d a b : Fin 64) (st : State) : Host.Outcome State Fault Refusal :=
  issue (.scmpLtI c d a b) st (scaOp d (sca2 (fun y z => boolWord (relLtI y z)) a b))

/-- SCMP.lt.n (R124). -/
def execScmpLtN (c : Bool) (d a b : Fin 64) (st : State) : Host.Outcome State Fault Refusal :=
  issue (.scmpLtN c d a b) st (scaOp d (sca2 (fun y z => boolWord (relLtN y z)) a b))

/-- SMIN.i (R124). -/
def execSminI (c : Bool) (d a b : Fin 64) (st : State) : Host.Outcome State Fault Refusal :=
  issue (.sminI c d a b) st (scaOp d (sca2 (minBy relLtI) a b))

/-- SMAX.i (R124). -/
def execSmaxI (c : Bool) (d a b : Fin 64) (st : State) : Host.Outcome State Fault Refusal :=
  issue (.smaxI c d a b) st (scaOp d (sca2 (maxBy relLtI) a b))

/-- SMOV (R124). -/
def execSmov (c : Bool) (d a : Fin 64) (st : State) : Host.Outcome State Fault Refusal :=
  issue (.smov c d a) st (scaOp d (fun x => x.s a.val))

/-- SSEL (R124). -/
def execSsel (c : Bool) (d a b : Fin 64) (st : State) : Host.Outcome State Fault Refusal :=
  issue (.ssel c d a b) st (scaOp d (fun x => if x.s d.val ≠ 0 then x.s a.val else x.s b.val))

/-- SLIL (R124). -/
def execSlil (c : Bool) (d : Fin 64) (i : Fin 65536) (st : State) : Host.Outcome State Fault Refusal :=
  issue (.slil c d i) st (scaOp d (fun _ => BitVec.ofNat 32 i.val))

/-- SLIH (R124). -/
def execSlih (c : Bool) (d : Fin 64) (i : Fin 65536) (st : State) : Host.Outcome State Fault Refusal :=
  issue (.slih c d i) st (scaOp d (fun x => BitVec.ofNat 16 i.val ++ (x.s d.val).extractLsb' 0 16))

/-- SADDI (R124). -/
def execSaddi (c : Bool) (d : Fin 64) (i : Fin 65536) (st : State) : Host.Outcome State Fault Refusal :=
  issue (.saddi c d i) st (scaOp d (fun x => x.s d.val + sext 16 i.val))

/-- SRDL (R125). -/
def execSrdl (c : Bool) (d a b : Fin 64) (st : State) : Host.Outcome State Fault Refusal :=
  issue (.srdl c d a b) st (scaOp d (fun x =>
    let j := fld (x.s b.val).toNat 0 5
    if x.absent j then 0 else x.v a.val j))

/-- SBAL (R125). -/
def execSbal (c : Bool) (d a : Fin 64) (st : State) : Host.Outcome State Fault Refusal :=
  issue (.sbal c d a) st (scaOp d (fun x => ballot x (fun i => relNe (x.v a.val i) 0)))

/-- SWRL (R125): `d` names a vector register. -/
def execSwrl (c : Bool) (d a b : Fin 64) (st : State) : Host.Outcome State Fault Refusal :=
  issue (.swrl c d a b) st (fun st x =>
    let j := fld (x.s b.val).toNat 0 5
    .done (if x.absent j then st else st.putV x [j] d.val (fun _ => x.s a.val)))

/-! ### LGT (R126) -/

/-- LGT (R126). -/
def execLgt (c : Bool) (d a b : Fin 64) (t : Fin 256) (st : State) : Host.Outcome State Fault Refusal :=
  issue (.lgt c d a b t) st (vecOp d (fun x i => lgtW t.val (x.v d.val i) (x.v a.val i) (x.v b.val i)))

end Sys2Proof.Machine
end

