-- ==== Sys2Proof/Machine/Numbers.lean ====
section
/-! DEFINITION. Number formats (chapter 5): the exact value of a bit pattern, rounding, flushing, exact sums and
products, block scales, the VQ2 codebook, and the functions of the special-function unit. A finite value is held exactly,
as a sign, a natural significand and a power of two. -/

namespace Sys2Proof.Machine
open Sys2Proof

/-- The formats of Table 5-1 but for the E8M0 scale. -/
inductive Fmt where
  | f64 | f32 | f16 | bf16 | e4m3 | e5m2 | e2m3 | e3m2 | e2m1 | i8 | i4
  deriving DecidableEq, Repr

/-- An exact value: a NaN, an infinity with its sign, or (−1)^neg × m × 2^e; m = 0 is a zero with a sign. -/
inductive FV where
  | nan
  | inf (neg : Bool)
  | fin (neg : Bool) (m : Nat) (e : Int)
  deriving DecidableEq, Repr

/-- Format code (Table 5-3). -/
def Fmt.ofCode (t : Nat) : Fmt :=
  match t with
  | 1 => .f16
  | 2 => .bf16
  | 3 => .e4m3
  | 4 => .e5m2
  | 5 => .e2m3
  | 6 => .e3m2
  | 7 => .e2m1
  | 8 => .i8
  | 9 => .i4
  | _ => .f32

/-- Exponent bits, mantissa bits, bias of a floating-point format (Table 5-1); for an integer format its bits. -/
def Fmt.eb : Fmt → Nat
  | .f64 => 11
  | .f32 => 8
  | .f16 => 5
  | .bf16 => 8
  | .e4m3 => 4
  | .e5m2 => 5
  | .e2m3 => 2
  | .e3m2 => 3
  | .e2m1 => 2
  | .i8 => 0
  | .i4 => 0
def Fmt.mb : Fmt → Nat
  | .f64 => 52
  | .f32 => 23
  | .f16 => 10
  | .bf16 => 7
  | .e4m3 => 3
  | .e5m2 => 2
  | .e2m3 => 3
  | .e3m2 => 2
  | .e2m1 => 1
  | .i8 => 8
  | .i4 => 4
def Fmt.isInt (f : Fmt) : Bool := decide (f.eb = 0)
def Fmt.bias (f : Fmt) : Nat := 2 ^ (f.eb - 1) - 1

/-- Width in bits. -/
def Fmt.bits (f : Fmt) : Nat := if f.isInt then f.mb else 1 + f.eb + f.mb

/-- The formats that have infinities and follow IEEE 754 on overflow, and that FZ flushes (R137, R140). -/
def Fmt.ieee : Fmt → Bool
  | .f64 => true
  | .f32 => true
  | .f16 => true
  | .bf16 => true
  | _ => false

/-- emax (Table 5-1). -/
def Fmt.emax : Fmt → Int
  | .f64 => 1023
  | .f32 => 127
  | .f16 => 15
  | .bf16 => 127
  | .e4m3 => 8
  | .e5m2 => 15
  | .e2m3 => 2
  | .e3m2 => 4
  | .e2m1 => 2
  | .i8 => 6
  | .i4 => 2

/-- The canonical NaN (Table 5-2), 0 where the format has none. -/
def Fmt.qnan : Fmt → Nat
  | .f64 => 0x7FF8000000000000
  | .f32 => 0x7FC00000
  | .f16 => 0x7E00
  | .bf16 => 0x7FC0
  | .e4m3 => 0x7F
  | .e5m2 => 0x7E
  | _ => 0

/-- Significand of the largest finite value: all ones, but 14 in E4M3, whose top encoding is a NaN. -/
def Fmt.maxM (f : Fmt) : Nat := if f = .e4m3 then 14 else 2 ^ (f.mb + 1) - 1

/-- The least exponent of a normal value. -/
def Fmt.emin (f : Fmt) : Int := 1 - f.bias

/-! ### Val and Enc (R128, R129) -/

/-- Val(x, f): bits above the format's width are ignored (R131). -/
def val (f : Fmt) (x : Nat) : FV :=
  if f.isInt then
    let n := fld x 0 f.mb
    if 2 ^ (f.mb - 1) ≤ n then .fin true (2 ^ f.mb - n) 0 else .fin false n 0
  else
    let m := fld x 0 f.mb
    let e := fld x f.mb f.eb
    let neg := x.testBit (f.mb + f.eb)
    let top := decide (e = 2 ^ f.eb - 1)
    if (f.ieee || decide (f = .e5m2)) && top then (if m = 0 then .inf neg else .nan)
    else if decide (f = .e4m3) && top && decide (m = 7) then .nan
    else if e = 0 then .fin neg m (f.emin - f.mb)
    else .fin neg (2 ^ f.mb + m) (f.emin + (e : Int) - 1 - f.mb)

/-- Enc(v, f) of a value of the format. -/
def enc (f : Fmt) : FV → Nat
  | .nan => f.qnan
  | .inf neg => (if neg then 2 ^ (f.mb + f.eb) else 0) + (2 ^ f.eb - 1) * 2 ^ f.mb
  | .fin neg m e =>
    if f.isInt then
      (let n := m * 2 ^ e.toNat
       if neg then (2 ^ f.mb - n) % 2 ^ f.mb else n % 2 ^ f.mb)
    else
      let sign := if neg then 2 ^ (f.mb + f.eb) else 0
      if m = 0 then sign
      else
        let top : Int := (Nat.log2 m : Int) + e
        let q := max top f.emin - f.mb
        let sig := if q ≤ e then m * 2 ^ (e - q).toNat else m / 2 ^ (q - e).toNat
        if top < f.emin then sign + sig
        else sign + (top - f.emin + 1).toNat * 2 ^ f.mb + (sig - 2 ^ f.mb)

/-! ### Rounding (R137, R138) -/

/-- Whether a magnitude with quotient `lo` and remainder `rem` of `2^sh` is rounded away from zero; `r` is the draw of
stochastic rounding. -/
def roundsUp (mode : Nat) (neg : Bool) (lo rem sh r : Nat) : Bool :=
  if rem = 0 then false
  else if mode = 0 then decide (2 ^ sh < 2 * rem) || (decide (2 * rem = 2 ^ sh) && decide (lo % 2 = 1))
  else if mode = 2 then !neg
  else if mode = 3 then neg
  else if mode = 4 then decide (65536 * 2 ^ sh ≤ 65536 * rem + r * 2 ^ sh)
  else false

/-- A magnitude m × 2^e rounded to a multiple of 2^q: that multiple's number. -/
def quantise (mode : Nat) (neg : Bool) (m : Nat) (e q : Int) (r : Nat) : Nat :=
  if q ≤ e then m * 2 ^ (e - q).toNat
  else
    let sh := (q - e).toNat
    -- far below the quantum only the fact that the magnitude is small and not zero matters
    let p : Nat × Nat := if Nat.log2 m + 64 < sh then (min m 1, 64) else (m, sh)
    let lo := p.1 / 2 ^ p.2
    if roundsUp mode neg lo (p.1 % 2 ^ p.2) p.2 r then lo + 1 else lo

/-- RoundToInt (R147): the nearest integral value under the mode. -/
def roundToInt (mode : Nat) : FV → FV
  | .nan => .nan
  | .inf neg => .inf neg
  | .fin neg m e => if 0 ≤ e then .fin neg m e else .fin neg (quantise mode neg m e 0 0) 0

/-- m × 2^e is greater than n × 2^k. -/
def magGt (m : Nat) (e : Int) (n : Nat) (k : Int) : Bool :=
  if k ≤ e then decide (n < m * 2 ^ (e - k).toNat) else decide (n * 2 ^ (k - e).toNat < m)

/-- The largest finite value of a sign. -/
def Fmt.largest (f : Fmt) (neg : Bool) : FV := .fin neg f.maxM (f.emax - f.mb)

/-- A value beyond the largest finite one. -/
def overflowed (f : Fmt) (mode : Nat) (neg : Bool) : FV :=
  if !f.ieee then f.largest neg
  else if mode = 1 || (decide (mode = 2) && neg) || (decide (mode = 3) && !neg) then f.largest neg
  else .inf neg

/-- An integer value clamped to an integer format. -/
def clampInt (f : Fmt) (neg : Bool) (n : Nat) : FV :=
  if neg then .fin true (min n (2 ^ (f.mb - 1))) 0 else .fin false (min n (2 ^ (f.mb - 1) - 1)) 0

/-- Round(x, f, mode) with the stochastic draw `r` (R137, R138). -/
def roundR (f : Fmt) (mode r : Nat) : FV → FV
  | .nan => .nan
  | .inf neg =>
    if f.isInt then clampInt f neg (2 ^ f.mb) else if f.ieee then .inf neg else f.largest neg
  | .fin neg m e =>
    if m = 0 then .fin neg 0 0
    else if f.isInt then
      -- beyond 2^16 in magnitude every format's limit has been passed
      (if 16 < (Nat.log2 m : Int) + e then clampInt f neg (2 ^ f.mb)
       else clampInt f neg (quantise mode neg m e 0 r))
    else
      let q := max ((Nat.log2 m : Int) + e) f.emin - f.mb
      if f.emax < (Nat.log2 m : Int) + e then overflowed f mode neg
      else
        let n := quantise mode neg m e q r
        if magGt n q f.maxM (f.emax - f.mb) then overflowed f mode neg else .fin neg n q

/-- Round without a draw. -/
def round (f : Fmt) (mode : Nat) (x : FV) : FV := roundR f mode 0 x

/-! ### Flushing (Table 5-4, R140) -/

/-- Zero of the same sign where FZ flushes a non-zero value below the smallest normal. -/
def flush (z : Bool) (f : Fmt) (x : FV) : FV :=
  match x with
  | .fin neg m e => if z && f.ieee && decide ((Nat.log2 m : Int) + e < f.emin) then .fin neg 0 0 else .fin neg m e
  | _ => x
def flushIn (z : Bool) (f : Fmt) (x : Nat) : FV := flush z f (val f x)
def flushOut (z : Bool) (f : Fmt) (y : FV) : Nat := enc f (flush z f y)

/-! ### Exact arithmetic -/

def FV.neg : FV → FV
  | .nan => .nan
  | .inf n => .inf (!n)
  | .fin n m e => .fin (!n) m e
def FV.abs : FV → FV
  | .nan => .nan
  | .inf _ => .inf false
  | .fin _ m e => .fin false m e
def FV.isNan (x : FV) : Bool := decide (x = .nan)
def FV.isNeg : FV → Bool
  | .nan => false
  | .inf n => n
  | .fin n _ _ => n
def FV.isZero : FV → Bool
  | .fin _ m _ => decide (m = 0)
  | _ => false

/-- The exact product; ∞ × 0 is a NaN. -/
def FV.mul : FV → FV → FV
  | .nan, _ => .nan
  | _, .nan => .nan
  | .inf n, y => if y.isZero then .nan else .inf (n != y.isNeg)
  | x, .inf n => if x.isZero then .nan else .inf (n != x.isNeg)
  | .fin n m e, .fin n' m' e' => .fin (n != n') (m * m') (e + e')

/-- The value times 2^n. -/
def FV.scale (n : Int) : FV → FV
  | .fin s m e => .fin s m (e + n)
  | x => x

/-- A finite value as an integer multiple of 2^e, for e not above its own exponent. -/
def FV.at_ (e : Int) : FV → Int
  | .fin n m k => if n then -((m * 2 ^ (k - e).toNat : Nat) : Int) else ((m * 2 ^ (k - e).toNat : Nat) : Int)
  | _ => 0

/-- The least exponent of the terms that are not zero. -/
def leastExp : List FV → Option Int
  | [] => none
  | .fin _ m e :: l =>
    if m = 0 then leastExp l
    else match leastExp l with
      | some k => some (min e k)
      | none => some e
  | _ :: l => leastExp l

/-- The exact sum of terms, with the sign of a zero sum by R137: −0 where every term is −0, else +0, and −0 toward −∞. -/
def sumV (mode : Nat) (l : List FV) : FV :=
  if l.any FV.isNan then .nan
  else if l.contains (.inf false) then (if l.contains (.inf true) then .nan else .inf false)
  else if l.contains (.inf true) then .inf true
  else
    match leastExp l with
    | none => .fin (l.all FV.isNeg || decide (mode = 3)&& l.any FV.isNeg) 0 0
    | some e =>
      let t := (l.filter (fun x => !x.isZero)).foldl (fun a x => a + x.at_ e) 0
      if t = 0 then .fin (decide (mode = 3)) 0 0 else .fin (decide (t < 0)) t.natAbs e

/-- a is less than b, both finite or infinite; zeros are equal. -/
def FV.lt (a b : FV) : Bool :=
  match a, b with
  | .nan, _ => false
  | _, .nan => false
  | .inf n, .inf n' => n && !n'
  | .inf n, .fin _ _ _ => n
  | .fin _ _ _, .inf n => !n
  | .fin n m e, .fin n' m' e' =>
    (if m = 0 then (decide (m' ≠ 0) && !n')
     else if m' = 0 then n
     else if n && !n' then true
     else if !n && n' then false
     else if n then magGt m e m' e' else magGt m' e' m e)

/-- a equals b as values. -/
def FV.eqv (a b : FV) : Bool := !a.isNan && !b.isNan && !a.lt b && !b.lt a

/-- The order of minimum and maximum: −0 lies below +0 (R145). -/
def FV.below (a b : FV) : Bool := a.lt b || (a.isZero && b.isZero && a.isNeg && !b.isNeg)

/-- A signed integer as a value. -/
def FV.ofInt (n : Int) : FV := .fin (decide (n < 0)) n.natAbs 0

/-- A whole value as an integer, clamped to lo … hi; ±∞ gives the limit and a NaN 0 (R151). -/
def FV.satInt (lo hi : Int) : FV → Int
  | .nan => 0
  | .inf n => if n then lo else hi
  | .fin n m e =>
    if 80 < (Nat.log2 m : Int) + e then (if n then lo else hi)
    else
      let v : Int := (m * 2 ^ e.toNat : Nat)
      max lo (min hi (if n then -v else v))

/-! ### Block scales and VQ2 (R132 to R136, R154) -/

/-- Scale(e): the power of two, or a NaN. -/
def scaleV (e : Nat) : FV := if e = 255 then .nan else .fin false 1 ((e : Int) - 127)

/-- floor(log2) of a non-zero magnitude. -/
def FV.log2 : FV → Int
  | .fin _ m e => (Nat.log2 m : Int) + e
  | _ => 0

/-- The OCP scale for the largest magnitude `a` (R133, R154). -/
def blockScale (a : FV) (f : Fmt) : Nat :=
  match a with
  | .nan => 0xFF
  | .inf _ => 0xFF
  | .fin _ m _ => if m = 0 then 0x7F else (max (-127) (min 127 (a.log2 - f.emax)) + 127).toNat

/-- All vectors of `k` of the integers `ms` with sum of squares `n`, in order from the first coordinate. -/
def normVecs (ms : List Nat) : Nat → Nat → List (List Nat)
  | 0, n => if n = 0 then [[]] else []
  | k + 1, n => ms.flatMap (fun m => if m * m ≤ n then (normVecs ms k (n - m * m)).map (fun v => m :: v) else [])

/-- The magnitude lists (R135). A vector's sum is even exactly where its norm is. -/
def magList (c : Nat) : List (List Nat) :=
  if c = 0 then [0, 2, 4, 6].flatMap (normVecs [0, 1, 2] 8)
  else [8, 16, 24, 32, 40, 48].flatMap (normVecs [1, 3, 5] 8)

/-- Mag(c, l). -/
def mag (c l : Nat) : List Nat := (magList c).getD l []

/-- The signs of a VQ2 index with high byte `h` (R136). -/
def vqSigns (h : Nat) (m : List Nat) : List Bool :=
  let sg := (List.range 7).map (fun j => h.testBit j)
  let last :=
    if h.testBit 7 then
      let t := (List.range 7).foldl (fun (t : Int) j => t + (if h.testBit j then -((m.getD j 0 : Nat) : Int) else ((m.getD j 0 : Nat) : Int)))
        ((m.getD 7 0 : Nat) : Int)
      decide (t % 4 ≠ 0)
    else decide ((sg.filter (fun b => b)).length % 2 = 1)
  sg ++ [last]

/-- VqCoord(x, k) (R136): a zero coordinate is the integer 0, whatever its sign bit. -/
def vqCoord (x k : Nat) : FV :=
  let h := fld x 8 8
  let c := fld x 15 1
  let m := mag c (fld x 0 8)
  .fin ((vqSigns h m).getD k false && decide (m.getD k 0 ≠ 0)) (m.getD k 0) (if c = 1 then -1 else 0)

/-! ### The generator (R139) -/

/-- One step of the Galois generator. -/
def genStep (g : Word) : Word := (g >>> 1) ^^^ (if g.getLsbD 0 then 0x80200003 else 0)

/-- LfsrDraw: the draw and the state after it. -/
def lfsrDraw (g : Word) : Nat × Word :=
  (List.range 16).foldl (fun p k => (p.1 + (if p.2.getLsbD 0 then 2 ^ k else 0), genStep p.2)) (0, g)

/-- The seed of lane `i` of gang G (R139). -/
def genSeed (rnd : Word) (gix i : Nat) : Word :=
  let g := rnd ^^^ (BitVec.ofNat 32 (0x9E3779B9 * (32 * gix + i + 1)))
  if g = 0 then 1 else g

/-- The generator states of a gang's 32 lanes after seeding. -/
def genSeeds (rnd : Word) (gix : Nat) : List (Nat × Word) := (List.range 32).map (fun i => (i, genSeed rnd gix i))

/-! ### Functions with correct rounding: division and square root (R157) -/

/-- The quotient of two finite non-zero values with 191 quotient bits or more, whatever the divisor's length, and a sticky
bit below them. -/
def divV (m : Nat) (e : Int) (m' : Nat) (e' : Int) (neg : Bool) : FV :=
  let k := 192 + Nat.log2 m'
  let n := m * 2 ^ k
  .fin neg (2 * (n / m') + (if n % m' = 0 then 0 else 1)) (e - e' - k - 1)

/-- Floor of the square root of n < 4^k. -/
def sqrtFloor (k n : Nat) : Nat :=
  (List.range k).foldl (fun r j => if (r + 2 ^ (k - 1 - j)) ^ 2 ≤ n then r + 2 ^ (k - 1 - j) else r) 0

/-- The square root of a positive finite value, with a sticky bit. -/
def sqrtV (m : Nat) (e : Int) : FV :=
  let p : Nat × Int := if e % 2 = 0 then (m, e) else (2 * m, e - 1)
  let n := p.1 * 2 ^ 384
  let r := sqrtFloor 224 n
  .fin false (2 * r + (if r * r = n then 0 else 1)) ((p.2 - 384) / 2 - 1)

/-! ### Functions within a bound (R157): close values, and the test of the bound -/

/-- 2π × 2^640 and ln 2 × 2^384, rounded down. -/
def twoPi : Nat :=
  0x6487ED5110B4611A62633145C06E0E68948127044533E63A0105DF531D89CD9128A5043CC71A026EF7CA8CD9E69D218D98158536F92F8A1BA7F09AB6B6A8E122F242DABB312F3F637A262174D31BF6B58
def lnTwo : Nat := 0xB17217F7D1CF79ABC9E3B39803F2F6AF40F343267298B62D8A0D175B8BAAFA2BE7B876206DEBAC98559552FB4AFA1B10

/-- Exponential series of y × 2^-384, 0 ≤ y < 2^384, scaled by 2^384. -/
def expSeries (y : Nat) : Nat :=
  ((List.range 90).foldl (fun (p : Nat × Nat) k =>
    let t := p.2 * y / 2 ^ 384 / (k + 1)
    (p.1 + t, t)) (2 ^ 384, 2 ^ 384)).1

/-- A value close to 2^a. -/
def exp2V (neg : Bool) (m : Nat) (e : Int) : FV :=
  if 7 < (Nat.log2 m : Int) + e then .fin false 1 (if neg then -256 else 256)
  else
    let x : Nat := if 0 ≤ e + 384 then m * 2 ^ (e + 384).toNat else m / 2 ^ (-(e + 384)).toNat
    let v : Int := if neg then -(x : Int) else x
    let n := v / 2 ^ 384
    let f := (v % 2 ^ 384).toNat
    .fin false (expSeries (f * lnTwo / 2 ^ 384)) (n - 384)

/-- The fraction of log2 of x × 2^-448, 1 ≤ x × 2^-448 < 2, as 320 bits. -/
def logFrac (x : Nat) : Nat :=
  ((List.range 320).foldl (fun (p : Nat × Nat) _ =>
    let q := p.2 * p.2 / 2 ^ 448
    if 2 ^ 449 ≤ q then (2 * p.1 + 1, q / 2) else (2 * p.1, q)) (0, x)).1

/-- A value close to log2 of a positive finite value. -/
def log2V (m : Nat) (e : Int) : FV :=
  let l := Nat.log2 m
  let v : Int := ((l : Int) + e) * 2 ^ 320 + (logFrac (m * 2 ^ 448 / 2 ^ l) : Nat)
  .fin (decide (v < 0)) v.natAbs (-320)

/-- Sine (`k0` 1) or cosine (`k0` 0) series of x × 2^-384, scaled by 2^384. -/
def trigSeries (k0 x : Nat) : Int :=
  let t0 : Int := if k0 = 0 then 2 ^ 384 else x
  ((List.range 72).foldl (fun (p : Int × Int) k =>
    let t := -(p.2 * x / 2 ^ 384 * x / 2 ^ 384 / ((2 * k + k0 + 1) * (2 * k + k0 + 2) : Nat))
    (p.1 + t, t)) (t0, t0)).1

/-- A value close to the sine or the cosine. -/
def trigV (k0 : Nat) (neg : Bool) (m : Nat) (e : Int) : FV :=
  let a : Nat := if 0 ≤ e + 640 then m * 2 ^ (e + 640).toNat else m / 2 ^ (-(e + 640)).toNat
  let v := trigSeries k0 (a % twoPi / 2 ^ 256)
  .fin (decide (v < 0) != (neg && decide (k0 = 1))) v.natAbs (-384)

/-- The magnitude of the difference of two values; an infinity counts as 2^128 of its sign. -/
def distV (a b : FV) : FV :=
  let cap : FV → FV := fun x => match x with
    | .inf n => .fin n 1 128
    | y => y
  (sumV 0 [cap a, (cap b).neg]).abs

/-- One unit in the last place of a value's binade in binary32. -/
def ulpV (x : FV) : FV := .fin false 1 (max x.log2 (-126) - 23)

/-- The result `w` where it lies within `bound` of the close value `c`; the rounded close value where it does not. A
close value from 2^128 up admits an infinity. The close values are exact where the function's value is a binary number,
and elsewhere nearer to it than it lies to any binary32 value, so the test is that of the exact value. -/
def within (c bound : FV) (w : Word) : Word :=
  let v := val .f32 w.toNat
  let big := decide (128 ≤ c.log2) && decide (v = .inf c.isNeg)
  if !v.isNan && (big || !bound.lt (distV v c)) then w
  else BitVec.ofNat 32 (enc .f32 (round .f32 0 c))

end Sys2Proof.Machine
end

