-- ==== Sys2Proof/Machine/Float.lean ====
section
/-! DEFINITION. The floating-point instructions (chapter 5): FPA, the special functions, FMA and FMH. -/

namespace Sys2Proof.Machine
open Sys2Proof

/-! ### Operands -/

/-- FZ (word bit 0). -/
def fz (z : Fin 2) : Bool := decide (z.val = 1)

/-- A 64-bit operand b: a vector pair or a scalar pair (R36). -/
def Cx.b2 (x : Cx) (s : Fin 4) (b : Fin 64) (i : Nat) : DWord := if s.val = 0 then x.v2 b.val i else x.s2 b.val

/-- Pairs of every active lane written, low word in the even register. -/
def vecOp2 (d : Fin 64) (f : Cx → Nat → DWord) (st : State) (x : Cx) : Res :=
  .done ((st.putV x x.lanes d.val (fun i => loW (f x i))).putV x x.lanes (d.val + 1) (fun i => hiW (f x i)))

/-- A word from a bit pattern. -/
def wd (n : Nat) : Word := BitVec.ofNat 32 n

/-! ### The functions of a lane -/

/-- An operation on two flushed values with one rounding to nearest-even (R144, R150). -/
def arithF (f : Fmt) (op : FV → FV → FV) (z : Bool) (a b : Nat) : Nat :=
  flushOut z f (round f 0 (op (flushIn z f a) (flushIn z f b)))

/-- a + b, a − b, a × b, exactly. -/
def addV (a b : FV) : FV := sumV 0 [a, b]
def subV (a b : FV) : FV := sumV 0 [a, b.neg]

/-- The lesser or greater of two values, neither a NaN (R145). -/
def pickLess (a b : FV) : FV := if b.below a then b else a
def pickMore (a b : FV) : FV := if a.below b then b else a

/-- FMIN, FMAX: one NaN gives the other operand. -/
def minMaxNum (p : FV → FV → FV) (a b : FV) : FV := if a.isNan then b else if b.isNan then a else p a b

/-- FMINN, FMAXN: any NaN gives a NaN. -/
def minMaxNan (p : FV → FV → FV) (a b : FV) : FV := if a.isNan || b.isNan then .nan else p a b

/-- A choice between two flushed operands: its bits. -/
def pickF (f : Fmt) (p : FV → FV → FV) (z : Bool) (a b : Nat) : Nat := enc f (p (flushIn z f a) (flushIn z f b))

/-- The relations of Table 5-7. -/
def relFEq (a b : FV) : Bool := a.eqv b
def relFNe (a b : FV) : Bool := !a.eqv b
def relFLt (a b : FV) : Bool := a.lt b
def relFLe (a b : FV) : Bool := a.lt b || a.eqv b
def relFUn (a b : FV) : Bool := a.isNan || b.isNan

/-- FRINT (R147). -/
def frintW (r : Nat) (z : Bool) (a : Word) : Word := wd (flushOut z .f32 (roundToInt r (flushIn z .f32 a.toNat)))

/-- FSCALE (R148). -/
def fscaleW (z : Bool) (a b : Word) : Word :=
  wd (flushOut z .f32 (round .f32 0 ((flushIn z .f32 a.toNat).scale b.toInt)))

/-- FCLASS (R149): the bit of the class. -/
def fclassBit (z : Bool) (a : Word) : Nat :=
  match flushIn z .f32 a.toNat with
  | .nan => if a.getLsbD 22 then 9 else 8
  | .inf n => if n then 0 else 7
  | .fin n m e =>
    if m = 0 then (if n then 3 else 4)
    else if (Nat.log2 m : Int) + e < -126 then (if n then 2 else 5)
    else (if n then 1 else 6)

/-- Source and destination of a CVT type pair that rounds into a format (Table 5-8). -/
def cvtToF (t : Nat) (z : Bool) (r : Nat) (a : DWord) : Option (Fmt × FV) :=
  let w := (loW a).toNat
  let go : Fmt → FV → Option (Fmt × FV) := fun f x => some (f, flush z f (round f r x))
  match t with
  | 0 => go .f32 (flushIn z .f16 w)
  | 1 => go .f16 (flushIn z .f32 w)
  | 2 => go .f32 (flushIn z .bf16 w)
  | 3 => go .bf16 (flushIn z .f32 w)
  | 4 => go .f32 (flushIn z .f64 a.toNat)
  | 5 => go .f64 (flushIn z .f32 w)
  | 6 => go .f32 (.ofInt (loW a).toInt)
  | 7 => go .f32 (.ofInt w)
  | 10 => go .f64 (.ofInt (loW a).toInt)
  | 12 => go .f64 (.ofInt a.toInt)
  | 14 => go .f64 (.ofInt w)
  | _ => none

/-- Limits of a CVT integer destination, and its float source. -/
def cvtToI (t : Nat) (z : Bool) (a : DWord) : Int × Int × FV :=
  let w := (loW a).toNat
  match t with
  | 8 => (-(2 ^ 31), 2 ^ 31 - 1, flushIn z .f32 w)
  | 9 => (0, 2 ^ 32 - 1, flushIn z .f32 w)
  | 11 => (-(2 ^ 31), 2 ^ 31 - 1, flushIn z .f64 a.toNat)
  | 13 => (-(2 ^ 63), 2 ^ 63 - 1, flushIn z .f64 a.toNat)
  | _ => (0, 2 ^ 32 - 1, flushIn z .f64 a.toNat)

/-- CVT's result (R151), in 64 bits. -/
def cvtD (t r : Nat) (z : Bool) (a : DWord) : DWord :=
  match cvtToF t z r a with
  | some (f, y) => BitVec.ofNat 64 (enc f y)
  | none =>
    let p := cvtToI t z a
    BitVec.ofInt 64 ((roundToInt r p.2.2).satInt p.1 p.2.1)

/-- The source of CVT in a lane: a pair where the type is 64 bits wide. -/
def cvtSrcD (t : Nat) (a : Fin 64) (x : Cx) (i : Nat) : DWord :=
  if decide (cvtSrc t = 2) then x.v2 a.val i else (x.v a.val i).zeroExtend 64

/-- QNT (R152): the element for the scale in the old destination, with a draw. -/
def qntW (t r : Nat) (z : Bool) (draw : Nat) (d a : Word) : Word :=
  let f := Fmt.ofCode t
  let sc := fld d.toNat 0 8
  let v := flushIn z .f32 a.toNat
  if sc = 255 || v.isNan then wd (enc f .nan)
  else wd (enc f (roundR f r draw (v.scale (127 - (sc : Int)))))

/-- DQNT (R153). -/
def dqntW (t r : Nat) (z : Bool) (a : Word) : Word :=
  let n := a.toNat
  let w := if t = 10 then vqCoord (fld n 0 16) (fld n 24 3) else val (Fmt.ofCode t) (fld n 0 8)
  wd (flushOut z .f32 (round .f32 r (w.mul (scaleV (fld n 16 8)))))

/-- MXSCL (R154). -/
def mxsclW (z : Bool) (a b : Word) : Word :=
  let f := fld b.toNat 0 5
  if f < 3 ∨ 9 < f then 0xFF else wd (blockScale (flushIn z .f32 a.toNat).abs (Fmt.ofCode f))

/-- PACK2 (R155). -/
def pack2W (z : Bool) (a b : Word) : Word :=
  let h : Word → BitVec 16 := fun w => BitVec.ofNat 16 (flushOut z .bf16 (round .bf16 0 (flushIn z .f32 w.toNat)))
  h b ++ h a

/-- UNPK (R156): where element `k` of a format stands, and its widening. -/
def unpkW (t k : Nat) (z : Bool) (a : Word) : Word :=
  let f := Fmt.ofCode t
  let e := if t ≤ 2 then fld a.toNat (16 * k) 16 else if t = 7 ∨ t = 9 then fld a.toNat (4 * k) 4 else fld a.toNat (8 * k) 8
  wd (flushOut z .f32 (round .f32 0 (flushIn z f e)))

/-! ### The special-function unit (R157, R158) -/

/-- The result of a function that a bound leaves open, held to that bound. DEDUCED: notes/assumptions/30. -/
def sfuOpen (k : Nat) (a : Word) (close bound : FV) : Word := within close bound (Config.sfu k a)

/-- n units in the last place of a value. -/
def ulps (n : Nat) (v : FV) : FV := (FV.fin false n 0).mul (ulpV v)

/-- 1.0, a NaN, an infinity, a zero in binary32. -/
def w1 : Word := 0x3F800000
def wNan : Word := 0x7FC00000
def wInf (n : Bool) : Word := if n then 0xFF800000 else 0x7F800000
def wZero (n : Bool) : Word := if n then 0x80000000 else 0

/-- FRCP; like FRSQ, FSQRT, FEX2, FLG2, FSIN and FCOS it takes a alone, not the old destination. -/
def frcpW (_ a : Word) : Word :=
  match val .f32 a.toNat with
  | .nan => wNan
  | .inf n => wZero n
  | .fin n m e => if m = 0 then wInf n else let v := divV 1 0 m e n; sfuOpen 0 a v (ulps 1 v)

/-- FRSQ. -/
def frsqW (_ a : Word) : Word :=
  match val .f32 a.toNat with
  | .nan => wNan
  | .inf n => if n then wNan else 0
  | .fin n m e =>
    if m = 0 then wInf n
    else if n then wNan
    else match sqrtV m e with
      | .fin _ m' e' => (let v := divV 1 0 m' e' false; sfuOpen 1 a v (ulps 1 v))
      | _ => wNan

/-- FSQRT, correctly rounded. -/
def fsqrtW (_ a : Word) : Word :=
  match val .f32 a.toNat with
  | .nan => wNan
  | .inf n => if n then wNan else wInf false
  | .fin n m e => if m = 0 then wZero n else if n then wNan else wd (enc .f32 (round .f32 0 (sqrtV m e)))

/-- FEX2. -/
def fex2W (_ a : Word) : Word :=
  match val .f32 a.toNat with
  | .nan => wNan
  | .inf n => if n then 0 else wInf false
  | .fin n m e =>
    if m = 0 then w1
    else if !n && decide (7 ≤ (Nat.log2 m : Int) + e) then wInf false
    else let v := exp2V n m e; sfuOpen 3 a v (ulps 2 v)

/-- FLG2: the absolute bound holds from 0.5 to 2. -/
def flg2W (_ a : Word) : Word :=
  match val .f32 a.toNat with
  | .nan => wNan
  | .inf n => if n then wNan else wInf false
  | .fin n m e =>
    if m = 0 then wInf true
    else if n then wNan
    else if a = w1 then 0
    else
      let v := log2V m e
      let inside := !(val .f32 a.toNat).lt (.fin false 1 (-1)) && !(FV.fin false 2 0).lt (val .f32 a.toNat)
      sfuOpen 4 a v (if inside then .fin false 1 (-22) else ulps 2 v)

/-- FSIN and FCOS. -/
def ftrigW (k0 : Nat) (_ a : Word) : Word :=
  match val .f32 a.toNat with
  | .nan => wNan
  | .inf _ => wNan
  | .fin n m e =>
    if m = 0 then (if k0 = 1 then wZero n else w1)
    else sfuOpen (6 - k0) a (trigV k0 n m e) (.fin false 1 (-21))

/-- FDIV: the old destination divided by a, correctly rounded. -/
def fdivW (d a : Word) : Word :=
  let x := val .f32 d.toNat
  let y := val .f32 a.toNat
  let sg := x.isNeg != y.isNeg
  match x, y with
  | .nan, _ => wNan
  | _, .nan => wNan
  | .inf _, .inf _ => wNan
  | .inf _, _ => wInf sg
  | .fin _ _ _, .inf _ => wZero sg
  | .fin _ m e, .fin _ m' e' =>
    if m' = 0 then (if m = 0 then wNan else wInf sg)
    else if m = 0 then wZero sg
    else wd (enc .f32 (round .f32 0 (divV m e m' e' sg)))

/-- A special function issues: its results are of the operands read now, and are written when it completes. DEDUCED: notes/assumptions/31. -/
def sfuOp (d a : Fin 64) (l : Fin 16) (f : Word → Word → Word) (st : State) (x : Cx) : Res :=
  .done (openOut st x
    { kind := .sfu, gang := x.cur.gang, grp := x.cur.grp, pc := x.cur.pc, npc := x.cur.last + 1,
      wrV := x.lanes.map (fun i => (vkey d.val i, f (x.v d.val i) (x.v a.val i))), dstV := [d.val] } l.val)

/-! ### FMA and FMH (R159) -/

/-- ±(a × b) ± c, rounded once. -/
def fmaF (f : Fmt) (np nc : Bool) (a b c : Nat) : Nat :=
  let p := (val f a).mul (val f b)
  let q := val f c
  enc f (round f 0 (sumV 0 [if np then p.neg else p, if nc then q.neg else q]))

/-- Two halves, each a fused multiply-add in the format. -/
def fma2W (f : Fmt) (a b c : Word) : Word :=
  let h : Nat → BitVec 16 := fun k =>
    BitVec.ofNat 16 (fmaF f false false (fld a.toNat (16 * k) 16) (fld b.toNat (16 * k) 16) (fld c.toNat (16 * k) 16))
  h 1 ++ h 0

/-- A dot product of two halves and a binary32 addend, rounded once. -/
def dot2W (f : Fmt) (a b c : Word) : Word :=
  let p : Nat → FV := fun k => (val f (fld a.toNat (16 * k) 16)).mul (val f (fld b.toNat (16 * k) 16))
  wd (enc .f32 (round .f32 0 (sumV 0 [p 0, p 1, val .f32 c.toNat])))

/-- A function of three vector operands. -/
def tri (f : Word → Word → Word → Word) (a b g : Fin 64) (x : Cx) (i : Nat) : Word :=
  f (x.v a.val i) (x.v b.val i) (x.v g.val i)

/-- A binary32 fused multiply-add. -/
def fmaW (np nc : Bool) (a b c : Word) : Word := wd (fmaF .f32 np nc a.toNat b.toNat c.toNat)

/-! ### FPA -/

/-- FADD (R144). -/
def execFadd (c : Bool) (d a b : Fin 64) (s : Fin 4) (z : Fin 2) (st : State) : Host.Outcome State Fault Refusal :=
  issue (.fadd c d a b s z) st (vecOp d (bin2 (fun a b => wd (arithF .f32 addV (fz z) a.toNat b.toNat)) a b s))

/-- FSUB (R144). -/
def execFsub (c : Bool) (d a b : Fin 64) (s : Fin 4) (z : Fin 2) (st : State) : Host.Outcome State Fault Refusal :=
  issue (.fsub c d a b s z) st (vecOp d (bin2 (fun a b => wd (arithF .f32 subV (fz z) a.toNat b.toNat)) a b s))

/-- FMUL (R144). -/
def execFmul (c : Bool) (d a b : Fin 64) (s : Fin 4) (z : Fin 2) (st : State) : Host.Outcome State Fault Refusal :=
  issue (.fmul c d a b s z) st (vecOp d (bin2 (fun a b => wd (arithF .f32 FV.mul (fz z) a.toNat b.toNat)) a b s))

/-- FMIN (R145). -/
def execFmin (c : Bool) (d a b : Fin 64) (s : Fin 4) (z : Fin 2) (st : State) : Host.Outcome State Fault Refusal :=
  issue (.fmin c d a b s z) st (vecOp d (bin2 (fun a b => wd (pickF .f32 (minMaxNum pickLess) (fz z) a.toNat b.toNat)) a b s))

/-- FMAX (R145). -/
def execFmax (c : Bool) (d a b : Fin 64) (s : Fin 4) (z : Fin 2) (st : State) : Host.Outcome State Fault Refusal :=
  issue (.fmax c d a b s z) st (vecOp d (bin2 (fun a b => wd (pickF .f32 (minMaxNum pickMore) (fz z) a.toNat b.toNat)) a b s))

/-- FMINN (R145). -/
def execFminn (c : Bool) (d a b : Fin 64) (s : Fin 4) (z : Fin 2) (st : State) : Host.Outcome State Fault Refusal :=
  issue (.fminn c d a b s z) st (vecOp d (bin2 (fun a b => wd (pickF .f32 (minMaxNan pickLess) (fz z) a.toNat b.toNat)) a b s))

/-- FMAXN (R145). -/
def execFmaxn (c : Bool) (d a b : Fin 64) (s : Fin 4) (z : Fin 2) (st : State) : Host.Outcome State Fault Refusal :=
  issue (.fmaxn c d a b s z) st (vecOp d (bin2 (fun a b => wd (pickF .f32 (minMaxNan pickMore) (fz z) a.toNat b.toNat)) a b s))

/-- FAMAX (R145). -/
def execFamax (c : Bool) (d a b : Fin 64) (s : Fin 4) (z : Fin 2) (st : State) : Host.Outcome State Fault Refusal :=
  issue (.famax c d a b s z) st (vecOp d (bin2 (fun a b => wd (pickF .f32 (fun u v => minMaxNum pickMore u.abs v.abs) (fz z) a.toNat b.toNat)) a b s))

/-- FCMP.eq (R146). -/
def execFcmpEq (c : Bool) (m : Fin 8) (a b : Fin 64) (s : Fin 4) (z : Fin 2) (st : State) : Host.Outcome State Fault Refusal :=
  issue (.fcmpEq c m a b s z) st
    (cmpOp m (rel2 (fun a b => relFEq (flushIn (fz z) .f32 a.toNat) (flushIn (fz z) .f32 b.toNat)) a b s))

/-- FCMP.ne (R146). -/
def execFcmpNe (c : Bool) (m : Fin 8) (a b : Fin 64) (s : Fin 4) (z : Fin 2) (st : State) : Host.Outcome State Fault Refusal :=
  issue (.fcmpNe c m a b s z) st
    (cmpOp m (rel2 (fun a b => relFNe (flushIn (fz z) .f32 a.toNat) (flushIn (fz z) .f32 b.toNat)) a b s))

/-- FCMP.lt (R146). -/
def execFcmpLt (c : Bool) (m : Fin 8) (a b : Fin 64) (s : Fin 4) (z : Fin 2) (st : State) : Host.Outcome State Fault Refusal :=
  issue (.fcmpLt c m a b s z) st
    (cmpOp m (rel2 (fun a b => relFLt (flushIn (fz z) .f32 a.toNat) (flushIn (fz z) .f32 b.toNat)) a b s))

/-- FCMP.le (R146). -/
def execFcmpLe (c : Bool) (m : Fin 8) (a b : Fin 64) (s : Fin 4) (z : Fin 2) (st : State) : Host.Outcome State Fault Refusal :=
  issue (.fcmpLe c m a b s z) st
    (cmpOp m (rel2 (fun a b => relFLe (flushIn (fz z) .f32 a.toNat) (flushIn (fz z) .f32 b.toNat)) a b s))

/-- FCMP.un (R146). -/
def execFcmpUn (c : Bool) (m : Fin 8) (a b : Fin 64) (s : Fin 4) (z : Fin 2) (st : State) : Host.Outcome State Fault Refusal :=
  issue (.fcmpUn c m a b s z) st
    (cmpOp m (rel2 (fun a b => relFUn (flushIn (fz z) .f32 a.toNat) (flushIn (fz z) .f32 b.toNat)) a b s))

/-- FRINT (R147). -/
def execFrint (c : Bool) (d a : Fin 64) (r : Fin 8) (z : Fin 2) (st : State) : Host.Outcome State Fault Refusal :=
  issue (.frint c d a r z) st (vecOp d (fun x i => frintW r.val (fz z) (x.v a.val i)))

/-- FSCALE (R148). -/
def execFscale (c : Bool) (d a b : Fin 64) (s : Fin 4) (z : Fin 2) (st : State) : Host.Outcome State Fault Refusal :=
  issue (.fscale c d a b s z) st (vecOp d (bin2 (fscaleW (fz z)) a b s))

/-- FCLASS (R149). -/
def execFclass (c : Bool) (d a : Fin 64) (z : Fin 2) (st : State) : Host.Outcome State Fault Refusal :=
  issue (.fclass c d a z) st (vecOp d (fun x i => wd (2 ^ fclassBit (fz z) (x.v a.val i))))

/-- DADD (R150). -/
def execDadd (c : Bool) (d a b : Fin 64) (s : Fin 4) (z : Fin 2) (st : State) : Host.Outcome State Fault Refusal :=
  issue (.dadd c d a b s z) st
    (vecOp2 d (fun x i => BitVec.ofNat 64 (arithF .f64 addV (fz z) (x.v2 a.val i).toNat (x.b2 s b i).toNat)))

/-- DMUL (R150). -/
def execDmul (c : Bool) (d a b : Fin 64) (s : Fin 4) (z : Fin 2) (st : State) : Host.Outcome State Fault Refusal :=
  issue (.dmul c d a b s z) st
    (vecOp2 d (fun x i => BitVec.ofNat 64 (arithF .f64 FV.mul (fz z) (x.v2 a.val i).toNat (x.b2 s b i).toNat)))

/-- DMIN (R150). -/
def execDmin (c : Bool) (d a b : Fin 64) (s : Fin 4) (z : Fin 2) (st : State) : Host.Outcome State Fault Refusal :=
  issue (.dmin c d a b s z) st
    (vecOp2 d (fun x i => BitVec.ofNat 64 (pickF .f64 (minMaxNum pickLess) (fz z) (x.v2 a.val i).toNat (x.b2 s b i).toNat)))

/-- DMAX (R150). -/
def execDmax (c : Bool) (d a b : Fin 64) (s : Fin 4) (z : Fin 2) (st : State) : Host.Outcome State Fault Refusal :=
  issue (.dmax c d a b s z) st
    (vecOp2 d (fun x i => BitVec.ofNat 64 (pickF .f64 (minMaxNum pickMore) (fz z) (x.v2 a.val i).toNat (x.b2 s b i).toNat)))

/-- DCMP.lt (R146, R150). -/
def execDcmpLt (c : Bool) (m : Fin 8) (a b : Fin 64) (s : Fin 4) (z : Fin 2) (st : State) : Host.Outcome State Fault Refusal :=
  issue (.dcmpLt c m a b s z) st
    (cmpOp m (fun x i => relFLt (flushIn (fz z) .f64 (x.v2 a.val i).toNat) (flushIn (fz z) .f64 (x.b2 s b i).toNat)))

/-- CVT (R151): a pair is written where the type is 64 bits wide. -/
def execCvt (c : Bool) (d a : Fin 64) (t : Fin 32) (r : Fin 8) (z : Fin 2) (st : State) : Host.Outcome State Fault Refusal :=
  issue (.cvt c d a t r z) st
    (fun st x =>
      let f := fun (x : Cx) (i : Nat) => cvtD t.val r.val (fz z) (cvtSrcD t.val a x i)
      if cvtDst t.val = 2 then vecOp2 d f st x else vecOp d (fun x i => loW (f x i)) st x)

/-- QNT's draws and results (R139, R152): a draw is made for each active lane of QNT.rst. Beside an MTSR to RNDSEED in one
chain the writes of the generator states stand in slot order. DESIGN CHOICE: notes/assumptions/142. -/
def qntBody (t r : Nat) (z : Bool) (d a : Fin 64) (st : State) (x : Cx) : Res :=
  let draw := fun (i : Nat) => if r = 4 then (lfsrDraw (smGet 0 x.src.r.gen i)).1 else 0
  let st := st.putV x x.lanes d.val (fun i => qntW t r z (draw i) (x.v d.val i) (x.v a.val i))
  .done (if r = 4 then
      st.modRegs x (fun g => { g with gen := smPuts 0 g.gen (x.lanes.map (fun i => (i, (lfsrDraw (smGet 0 g.gen i)).2))) })
    else st)

/-- QNT (R152). -/
def execQnt (c : Bool) (d a : Fin 64) (t : Fin 32) (r : Fin 8) (z : Fin 2) (st : State) : Host.Outcome State Fault Refusal :=
  issue (.qnt c d a t r z) st (qntBody t.val r.val (fz z) d a)

/-- DQNT (R153). -/
def execDqnt (c : Bool) (d a : Fin 64) (t : Fin 32) (r : Fin 8) (z : Fin 2) (st : State) : Host.Outcome State Fault Refusal :=
  issue (.dqnt c d a t r z) st (vecOp d (fun x i => dqntW t.val r.val (fz z) (x.v a.val i)))

/-- MXSCL (R154). -/
def execMxscl (c : Bool) (d a b : Fin 64) (s : Fin 4) (z : Fin 2) (st : State) : Host.Outcome State Fault Refusal :=
  issue (.mxscl c d a b s z) st (vecOp d (bin2 (mxsclW (fz z)) a b s))

/-- PACK2 (R155). -/
def execPack2 (c : Bool) (d a b : Fin 64) (s : Fin 4) (z : Fin 2) (st : State) : Host.Outcome State Fault Refusal :=
  issue (.pack2 c d a b s z) st (vecOp d (bin2 (pack2W (fz z)) a b s))

/-- UNPK (R156). -/
def execUnpk (c : Bool) (d a : Fin 64) (t : Fin 32) (k : Fin 8) (z : Fin 2) (st : State) : Host.Outcome State Fault Refusal :=
  issue (.unpk c d a t k z) st (vecOp d (fun x i => unpkW t.val k.val (fz z) (x.v a.val i)))

/-! ### Special functions -/

/-- FRCP (R157, R158). -/
def execFrcp (c : Bool) (d a : Fin 64) (l : Fin 16) (st : State) : Host.Outcome State Fault Refusal :=
  issue (.frcp c d a l) st (sfuOp d a l frcpW)

/-- FRSQ (R157, R158). -/
def execFrsq (c : Bool) (d a : Fin 64) (l : Fin 16) (st : State) : Host.Outcome State Fault Refusal :=
  issue (.frsq c d a l) st (sfuOp d a l frsqW)

/-- FSQRT (R157, R158). -/
def execFsqrt (c : Bool) (d a : Fin 64) (l : Fin 16) (st : State) : Host.Outcome State Fault Refusal :=
  issue (.fsqrt c d a l) st (sfuOp d a l fsqrtW)

/-- FEX2 (R157, R158). -/
def execFex2 (c : Bool) (d a : Fin 64) (l : Fin 16) (st : State) : Host.Outcome State Fault Refusal :=
  issue (.fex2 c d a l) st (sfuOp d a l fex2W)

/-- FLG2 (R157, R158). -/
def execFlg2 (c : Bool) (d a : Fin 64) (l : Fin 16) (st : State) : Host.Outcome State Fault Refusal :=
  issue (.flg2 c d a l) st (sfuOp d a l flg2W)

/-- FSIN (R157, R158). -/
def execFsin (c : Bool) (d a : Fin 64) (l : Fin 16) (st : State) : Host.Outcome State Fault Refusal :=
  issue (.fsin c d a l) st (sfuOp d a l (ftrigW 1))

/-- FCOS (R157, R158). -/
def execFcos (c : Bool) (d a : Fin 64) (l : Fin 16) (st : State) : Host.Outcome State Fault Refusal :=
  issue (.fcos c d a l) st (sfuOp d a l (ftrigW 0))

/-- FDIV (R157, R158). -/
def execFdiv (c : Bool) (d a : Fin 64) (l : Fin 16) (st : State) : Host.Outcome State Fault Refusal :=
  issue (.fdiv c d a l) st (sfuOp d a l fdivW)

/-- SFU_RESULT (R142): an outstanding special function writes its results and completes. -/
def execSfuResult (st : State) : Host.Outcome State Fault Refusal :=
  event (match smFind st.work.outs (st.op 0) with
    | some o => if o.kind = .sfu then closeOut (writeOut st o) (st.op 0) else st
    | none => st)

/-! ### Fused instructions -/

/-- FFMA (R159). -/
def execFfma (c : Bool) (d a b g : Fin 64) (st : State) : Host.Outcome State Fault Refusal :=
  issue (.ffma c d a b g) st (vecOp d (tri (fmaW false false) a b g))

/-- FFMS (R159). -/
def execFfms (c : Bool) (d a b g : Fin 64) (st : State) : Host.Outcome State Fault Refusal :=
  issue (.ffms c d a b g) st (vecOp d (tri (fmaW false true) a b g))

/-- FFNMA (R159). -/
def execFfnma (c : Bool) (d a b g : Fin 64) (st : State) : Host.Outcome State Fault Refusal :=
  issue (.ffnma c d a b g) st (vecOp d (tri (fmaW true false) a b g))

/-- FFNMS (R159). -/
def execFfnms (c : Bool) (d a b g : Fin 64) (st : State) : Host.Outcome State Fault Refusal :=
  issue (.ffnms c d a b g) st (vecOp d (tri (fmaW true true) a b g))

/-- DFMA (R159). -/
def execDfma (c : Bool) (d a b g : Fin 64) (st : State) : Host.Outcome State Fault Refusal :=
  issue (.dfma c d a b g) st
    (vecOp2 d (fun x i => BitVec.ofNat 64
      (fmaF .f64 false false (x.v2 a.val i).toNat (x.v2 b.val i).toNat (x.v2 g.val i).toNat)))

/-- HFMA2 (R159). -/
def execHfma2 (c : Bool) (d a b g : Fin 64) (st : State) : Host.Outcome State Fault Refusal :=
  issue (.hfma2 c d a b g) st (vecOp d (tri (fma2W .f16) a b g))

/-- BFMA2 (R159). -/
def execBfma2 (c : Bool) (d a b g : Fin 64) (st : State) : Host.Outcome State Fault Refusal :=
  issue (.bfma2 c d a b g) st (vecOp d (tri (fma2W .bf16) a b g))

/-- HDOT2 (R159). -/
def execHdot2 (c : Bool) (d a b g : Fin 64) (st : State) : Host.Outcome State Fault Refusal :=
  issue (.hdot2 c d a b g) st (vecOp d (tri (dot2W .f16) a b g))

/-- BDOT2 (R159). -/
def execBdot2 (c : Bool) (d a b g : Fin 64) (st : State) : Host.Outcome State Fault Refusal :=
  issue (.bdot2 c d a b g) st (vecOp d (tri (dot2W .bf16) a b g))

end Sys2Proof.Machine
end

