-- ==== Sys2Proof/Machine/Coherence.lean ====
section
/-! DEFINITION. The L1s, the directory and the point of coherence (7.6 to 7.8): reading and writing a word where its
point of coherence is, L1 lines, requests and their posting, eviction, the wide release's pushes and the wide
acquire's drops. -/

namespace Sys2Proof.Machine
open Sys2Proof

/-! ### Lines -/

/-- The 64-byte line number and the word of a package address. -/
def lineOf (a : Nat) : Nat := a / 64
def wordIx (a : Nat) : Nat := a / 4 % 16

/-- The home of a line: its die, its slice, whether it is host memory (R207, R215). -/
def lineDie (l : Nat) : Nat := dieOf (64 * l)
def lineSlice (l : Nat) : Nat := l % 2 ^ 42 % 24
def lineHost (l : Nat) : Bool := isHost (64 * l)

/-! ### Routes (R489, R490) -/

/-- The place of the link to die `e` in the link words of die `d` (R506). -/
def linkIx (d e : Nat) : Nat := if d = 4 then e else if e = 4 then 2 else if e = (d + 1) % 4 then 0 else 1

/-- A link is up. -/
def linkUp (s : State) (d e : Nat) : Bool := ((s.die d).links.getD (linkIx d e) {}).up

/-- The ways from die `a` to die `b`, each as the dies that a packet passes, in the order in which they are tried (R490). -/
def routesOf (a b : Nat) : List (List Nat) :=
  if a = b then [[]]
  else if b = 4 then [[4], [(a + 1) % 4, 4], [(a + 3) % 4, 4]]
  else if a = 4 then [[b], [(b + 1) % 4, b], [(b + 3) % 4, b]]
  else if b = (a + 2) % 4 then [[(a + 1) % 4, b], [(a + 3) % 4, b], [4, b]]
  else [[b]]

/-- The first link of a way from die `a` that is down. -/
def downLink (s : State) : Nat → List Nat → Option (Nat × Nat)
  | _, [] => none
  | a, b :: r => if linkUp s a b then downLink s b r else some (a, b)

/-- A way can be taken: its links are up, and no die between its ends is fenced. -/
def routeOpen (s : State) (a : Nat) (r : List Nat) : Bool :=
  (downLink s a r).isNone && r.dropLast.all (fun d => decide ((s.die d).st = .admitted))

/-- The way that the source chooses for a packet from die `a` to die `b`; where none is open, the first. DEDUCED: notes/assumptions/157. -/
def routeOf (s : State) (a b : Nat) : List Nat := ((routesOf a b).find? (routeOpen s a)).getD ((routesOf a b).headD [])

/-- The die of a line's home: the lockhouse die for host memory. DEDUCED: notes/assumptions/157. -/
def homeDie (l : Nat) : Nat := if lineHost l then 4 else lineDie l

/-- A request sent: the home's incarnation as it is held now, and its way (R490, R498). -/
def Req.sent (s : State) (r : Req) : Req :=
  { r with tinc := (s.die (lineDie r.line)).inc, route := routeOf s (coreDie r.core) (homeDie r.line) }

/-- One word's bit, one sector's words, the byte mask of one word, the words that a byte mask touches. -/
def wordBit (w : Nat) : BitVec 16 := (1 : BitVec 16) <<< w
def secBits (x : Nat) : BitVec 16 := (0xF : BitVec 16) <<< (4 * x)
def maskOf (wm : BitVec 64) (w : Nat) : BitVec 4 := wm.extractLsb' (4 * w) 4
/-- A word's byte mask in its line. -/
def maskAt (w : Nat) (bm : BitVec 4) : BitVec 64 := (bm.zeroExtend 64) <<< (4 * w)
def bitsTo16 (p : Nat → Bool) : BitVec 16 := (List.range 16).foldl (fun m w => if p w then m ||| wordBit w else m) 0
def wordsOf (m : BitVec 16) : List Nat := (List.range 16).filter (fun w => m.getLsbD w)
def touched (wm : BitVec 64) : BitVec 16 := bitsTo16 (fun w => decide (maskOf wm w ≠ 0))

/-- The byte mask of whole words. -/
def wholeMask (m : BitVec 16) : BitVec 64 :=
  (List.range 16).foldl (fun a w => if m.getLsbD w then a ||| ((0xF : BitVec 64) <<< (4 * w)) else a) 0

/-! ### L1 lines (Table 7-5) -/

/-- L1 line of core `c`. -/
def l1Key (c l : Nat) : Nat := c * 2 ^ 60 + l
def State.l1 (s : State) (c l : Nat) : L1Line := smGet {} s.coh.l1 (l1Key c l)

/-- A line with no valid word and no dirty word holds nothing. -/
def L1Line.norm (e : L1Line) : L1Line := if e.st.all (fun t => decide (t = .i)) && decide (e.dm = 0) then {} else e

def State.putL1 (s : State) (c l : Nat) (e : L1Line) : State :=
  { s with coh.l1 := smPut {} s.coh.l1 (l1Key c l) e.norm }

/-- The state of the sector of word `w`. -/
def L1Line.sec (e : L1Line) (w : Nat) : SecSt := e.st.getD (w / 4) .i

/-- Word `w` is owned, is dirty, is dirty outside OM (untracked), is valid. -/
def L1Line.owned (e : L1Line) (w : Nat) : Bool := e.om.getLsbD w
def L1Line.dirty (e : L1Line) (w : Nat) : Bool := e.dm.getLsbD w
def L1Line.loose (e : L1Line) (w : Nat) : Bool := e.dirty w && !e.owned w
def L1Line.valid (e : L1Line) (w : Nat) : Bool :=
  match e.sec w with
  | .v => true
  | .s => true
  | .o => e.owned w || e.dirty w
  | .i => e.dirty w

/-- The untracked dirty words of a line. -/
def L1Line.looseWords (e : L1Line) : BitVec 16 := e.dm &&& ~~~e.om

/-- A sector's state set. -/
def L1Line.setSec (e : L1Line) (x : Nat) (t : SecSt) : L1Line := { e with st := putAt e.st x t }

/-- Bytes merged into word `w`; a whole-word write clears its poison (R229). -/
def L1Line.merge (e : L1Line) (w : Nat) (v : Word) (bm : BitVec 4) : L1Line :=
  { e with data := lineSetMasked e.data w v bm, po := if bm = 0xF then e.po &&& ~~~(wordBit w) else e.po }

/-- A write that makes the word dirty. -/
def L1Line.wrDirty (e : L1Line) (w : Nat) (v : Word) (bm : BitVec 4) : L1Line :=
  let e := e.merge w v bm
  { e with dm := e.dm ||| wordBit w }

/-- The selected words cleaned of DM (they have been pushed). -/
def L1Line.clean (e : L1Line) (ws : BitVec 16) : L1Line := { e with dm := e.dm &&& ~~~ws }

/-- Owned words given up: OM and DM cleared, a sector with OM empty becomes I (Table 7-7, recall). -/
def L1Line.giveUp (e : L1Line) (ws : BitVec 16) : L1Line :=
  let ws := ws &&& e.om
  let e' := { e with om := e.om &&& ~~~ws, dm := e.dm &&& ~~~ws }
  { e' with st := (List.range 4).map (fun x =>
      if decide (e.st.getD x .i = .o) && decide (e'.om &&& secBits x = 0) then .i else e'.st.getD x .i) }

/-- Every V sector to I, keeping DM words (acquire wider than the core, CINV). -/
def L1Line.dropV (e : L1Line) : L1Line := { e with st := e.st.map (fun t => if t = .v then .i else t) }

/-- The V sectors that hold one of the words `ws` to I. -/
def L1Line.dropVIn (e : L1Line) (ws : BitVec 16) : L1Line :=
  { e with st := e.st.zipIdx.map (fun p => if p.1 = .v ∧ ws &&& secBits p.2 ≠ 0 then .i else p.1) }

/-- Every S sector to I (invalidation). -/
def L1Line.dropS (e : L1Line) : L1Line := { e with st := e.st.map (fun t => if t = .s then .i else t) }

/-- Every V and S sector to I (CINV). -/
def L1Line.dropVS (e : L1Line) : L1Line := e.dropV.dropS

/-- The whole L1 of a core changed line by line. -/
def State.mapL1 (s : State) (c : Nat) (f : Nat → L1Line → L1Line) : State :=
  { s with coh.l1 := (s.coh.l1.map (fun p =>
      if p.1 / 2 ^ 60 = c then (p.1, (f (p.1 % 2 ^ 60) p.2).norm) else p)).filter (fun p => decide (p.2 ≠ {})) }

/-- The lines of a core's L1. -/
def State.l1Lines (s : State) (c : Nat) : List (Nat × L1Line) :=
  (s.coh.l1.filter (fun p => decide (p.1 / 2 ^ 60 = c))).map (fun p => (p.1 % 2 ^ 60, p.2))

/-! ### Directory (R224) -/

def State.dirOf (s : State) (l : Nat) : DirEnt := smGet {} s.coh.dir l

/-- An entry with no sharer and no owner is freed. -/
def State.putDir (s : State) (l : Nat) (e : DirEnt) : State :=
  { s with coh.dir := smPut {} s.coh.dir l (if decide (e.sharers = 0) && e.owners.isEmpty then {} else e) }

/-- The owner of word `w`. -/
def DirEnt.owner (e : DirEnt) (w : Nat) : Option Nat := smFind e.owners w
def DirEnt.setOwner (e : DirEnt) (w c : Nat) : DirEnt := { e with owners := smSet e.owners w c }
def DirEnt.clearOwner (e : DirEnt) (w : Nat) : DirEnt := { e with owners := smErase e.owners w }

/-- Lines of one directory set: same die, slice and set of 4,096 (R224). DESIGN CHOICE: notes/assumptions/148. -/
def dirSet (l : Nat) : Nat × Nat × Nat := (lineDie l, lineSlice l, l % 2 ^ 42 / 24 % 4096)

/-! ### The value of a word at its point of coherence -/

/-- A writeback of word `w` on its way from core `c`'s writeback buffer (R222). -/
def pendingWb (s : State) (c l w : Nat) : Option ReqX :=
  s.coh.reqs.find? (fun q => decide (q.r.kind = .writeback) && decide (q.r.core = c) && decide (q.r.line = l) &&
    decide (maskOf q.r.wm w ≠ 0))

/-- The word at `a` at its point of coherence, and whether it is poisoned (R215). -/
def cohWord (s : State) (a : Nat) : Word × Bool :=
  let l := lineOf a
  let w := wordIx a
  match (s.dirOf l).owner w with
  | none => (getWord s.mem a, isPoison s.poison a)
  | some c =>
    if (s.l1 c l).owned w then (lineWord (s.l1 c l).data w, (s.l1 c l).po.getLsbD w)
    else match pendingWb s c l w with
      | some q => (lineWord q.r.wd w, q.r.po.getLsbD w)
      | none => (getWord s.mem a, isPoison s.poison a)

/-- A word of any storage: memory at its point of coherence, the Pound and the Basin directly. DESIGN CHOICE: notes/assumptions/16. -/
def readWord (s : State) (a : Nat) : Word × Bool :=
  if isDev a then cohWord s a else (getWord s.mem a, isPoison s.poison a)

/-- `n` words from `a` up, as values. -/
def readWords (s : State) (a n : Nat) : List Word := (List.range n).map (fun k => (readWord s (a + 4 * k)).1)

/-- Some word of `n` from `a` up is poisoned. -/
def anyPoison (s : State) (a n : Nat) : Bool := (List.range n).any (fun k => (readWord s (a + 4 * k)).2)

/-- Write a masked line at home storage. -/
def applyLine (s : State) (l : Nat) (wm : BitVec 64) (wd : BitVec 512) (po : BitVec 16) : State :=
  (List.range 16).foldl (fun s w =>
    if maskOf wm w = 0 then s
    else s.putWord (64 * l + 4 * w) (lineWord wd w) (maskOf wm w) (po.getLsbD w)) s

/-! ### Requests (R210, Table 7-8) -/

/-- A request that takes a slot: not a writeback, a push of evicted words (R222) or a home's own eviction. -/
def Req.slotted (r : Req) : Bool := decide (r.kind ≠ .writeback) && decide (r.kind ≠ .evict) && !r.evicted

/-- The request has been acknowledged, though invalidations are still out (Table 7-4). -/
def ReqX.acked (q : ReqX) : Bool :=
  q.applied && decide (q.r.kind ≠ .wrWis) && !(decide (q.r.kind = .atomic) && decide (q.op = 14))

/-- The requests of a core that hold slots: from their creation until their acknowledgement has come (R210). DEDUCED: notes/assumptions/149. -/
def slotHolders (s : State) (c : Nat) : List Req :=
  ((s.coh.reqs.filter (fun q => !q.staged && !q.acked)).map (fun q => q.r) ++
    (s.coh.replies.filter (fun p => !p.freed)).map (fun p => p.r)).filter (fun r => decide (r.core = c) && r.slotted)

/-- Their number, and that of those of one home slice. -/
def slotsUsed (s : State) (c : Nat) : Nat := (slotHolders s c).length
def bankOf (l : Nat) : Nat × Nat := if lineHost l then (9, 0) else (lineDie l, lineSlice l)
def bankUsed (s : State) (c : Nat) (b : Nat × Nat) : Nat :=
  ((slotHolders s c).filter (fun r => decide (bankOf r.line = b))).length

/-- Room for one more request (R210). -/
def lsuRoom (s : State) (c : Nat) (b : Nat × Nat) : Bool :=
  decide (slotsUsed s c < 64) && decide (bankUsed s c b < 16)

/-- A request of core `c` older than `id` waits in the staging queue and goes first: for the same bank `b`, or for another
that has room (R210). -/
def stagedFor (s : State) (c : Nat) (b : Nat × Nat) (id : Nat) : Bool :=
  s.coh.reqs.any (fun q => q.staged && decide (q.r.core = c) && decide (q.r.id < id) &&
    (decide (bankOf q.r.line = b) || lsuRoom s c (bankOf q.r.line)))

/-- A request made: numbered and, where it has room, sent; without room in the load/store
unit, or behind a request that waits there and goes first, it waits in the staging queue. Writebacks and pushes of evicted
words need no slot (R222). -/
def post (s : State) (q : ReqX) : State :=
  let r := { q.r with id := s.work.next, made := s.time }.sent s
  let waits := r.slotted && (!lsuRoom s r.core (bankOf r.line) || stagedFor s r.core (bankOf r.line) r.id)
  { s with work.next := s.work.next + 1,
           coh.reqs := s.coh.reqs ++ [{ q with r := r, staged := waits, at_ := s.time }] }

/-- A line is in the lost-line table of its die (R497). -/
def isLost (s : State) (l : Nat) : Bool := !lineHost l && (smFind (s.die (lineDie l)).lost (l % 2 ^ 42)).isSome

/-- The home die of a line is fenced (R503). -/
def fenced (s : State) (l : Nat) : Bool := !lineHost l && decide ((s.die (lineDie l)).st ≠ .admitted)

/-- A core of a fenced die. -/
def coreFenced (s : State) (c : Nat) : Bool := decide ((s.die (coreDie c)).st ≠ .admitted)

/-- The untracked dirty words `ws` of core `c`'s line `l` pushed on behalf of gang `g` (R219): DM is cleared. `ev`: the
line is being evicted. -/
def pushLine (s : State) (c g dom l : Nat) (ws : BitVec 16) (ev : Bool := false) : State :=
  let e := s.l1 c l
  let ws := ws &&& e.looseWords
  if ws = 0 then s
  else post (s.putL1 c l (e.clean ws))
    { r := { kind := .push, core := c, gang := g, dom := dom, line := l, words := ws, wm := wholeMask ws, wd := e.data,
             po := e.po &&& ws, evicted := ev } }

/-- Owned words of a line given up by the L1 and sent back to the home (R222); clean words carry no data. -/
def writebackLine (s : State) (c dom l : Nat) (ws : BitVec 16) : State :=
  let e := s.l1 c l
  let ws := ws &&& e.om
  if ws = 0 then s
  else post (s.putL1 c l (e.giveUp ws))
    { r := { kind := .writeback, core := c, dom := dom, line := l, words := ws, wm := wholeMask (ws &&& e.dm),
             wd := e.data, po := e.po &&& ws &&& e.dm } }

/-- A line evicted from an L1: untracked dirty words pushed, owned words returned, clean copies dropped (Table 7-7). -/
def evictLine (s : State) (c g dom l : Nat) : State :=
  let s := writebackLine (pushLine s c g dom l 0xFFFF true) c dom l 0xFFFF
  s.putL1 c l {}

/-- Room made in the L1 set of line `l` (R218: ten ways; which line goes is not specified). DESIGN CHOICE: notes/assumptions/32.
The set is the line number mod 512. DESIGN CHOICE: notes/assumptions/147. -/
def makeRoom (s : State) (c g dom l : Nat) : State :=
  let set_ := (s.l1Lines c).filter (fun p => decide (p.1 % 512 = l % 512))
  if set_.any (fun p => decide (p.1 = l)) || decide (set_.length < 10) then s
  else match set_[Config.l1Victim s.ticks % set_.length]? with
    | none => s
    | some p => evictLine s c g dom p.1

/-! ### Release and acquire (R217, R248, R518) -/

/-- A store request: one that carries bytes to write. -/
def ReqX.isStore (q : ReqX) : Bool :=
  match q.r.kind with
  | .wrThr => true
  | .wrWis => true
  | .rdOwn => decide (q.r.wm ≠ 0)
  | .rdThr => decide (q.r.wm ≠ 0)
  | .rdSis => decide (q.r.wm ≠ 0)
  | .atomic => true
  | .barrier => true
  | _ => false

/-- A reply to a request that writes. -/
def Reply.isStore (p : Reply) : Bool := decide (p.r.wm ≠ 0) || decide (p.r.kind = .atomic) || decide (p.r.kind = .barrier)

/-- Some store of the gang, older than request `k`, is not yet applied and acknowledged (R248). -/
def storesPending (s : State) (k g : Nat) : Bool :=
  s.coh.reqs.any (fun q => decide (q.r.id < k) && decide (q.r.gang = g) && q.isStore &&
      (!q.applied || decide (q.r.kind = .wrWis))) ||
    s.coh.replies.any (fun p => decide (p.r.id < k) && decide (p.r.gang = g) && decide (p.kind ≠ .done) && p.isStore)

/-- Some store older than request `k`, of the gang or of another gang of its core, whose narrow release the gang may have
joined (R238), or some push of its core, is not yet complete (R217). -/
def storesIncomplete (s : State) (k g c : Nat) : Bool :=
  s.coh.reqs.any (fun q => (decide (q.r.id < k) && (decide (q.r.gang = g) || decide (q.r.core = c)) && q.isStore) ||
      (decide (q.r.core = c) && decide (q.r.kind = .push))) ||
    s.coh.replies.any (fun p => (decide (p.r.id < k) && (decide (p.r.gang = g) || decide (p.r.core = c)) && p.isStore) ||
      (decide (p.r.core = c) && decide (p.r.kind = .push)))

/-- An access of the slices `m` of gang `g`, older than request `k`, has not returned yet (R248). A BKNEXT makes none. -/
def readsPending (s : State) (k g : Nat) (m : BitVec 8) : Bool :=
  s.work.outs.any (fun p => decide (p.1 < k) && decide (p.2.gang = g) && decide (p.2.grp &&& m ≠ 0) && decide (p.2.kind ≠ .graphics))

/-- A load or an atomic of a gang, older than request `k`, or a store of it or of its core, is not complete yet: an engine
thread forked after them signals its completion after theirs, since whoever joins it comes after them too (R238, R249, R250). -/
def forkPending (s : State) (k g c : Nat) : Bool :=
  storesIncomplete s k g c || s.work.outs.any (fun p => decide (p.1 < k) && decide (p.2.gang = g) &&
    (decide (p.2.kind = .load) || decide (p.2.kind = .loadU) || decide (p.2.kind = .atomic)))

/-- Lines of the core's L1 that hold untracked dirty words. -/
def looseLines (s : State) (c : Nat) : List Nat :=
  ((s.l1Lines c).filter (fun p => decide (p.2.looseWords ≠ 0))).map (fun p => p.1)

/-- Every untracked dirty word of the core's L1 pushed, but for those whose home is fenced (R503). -/
def pushAll (s : State) (c g dom : Nat) : State :=
  (looseLines s c).foldl (fun s l => if fenced s l then s else pushLine s c g dom l 0xFFFF) s

/-- What a release comes to: performed, to be waited for in the state given, or met by a fenced die. -/
inductive Rel where
  | ok
  | wait (s : State)
  | bad (die : Nat)

/-- The release side of a word for gang `g` on core `c` (R217, R248, R518). -/
def release (s : State) (g c dom : Nat) (m : BitVec 8) (wide : Bool) : Rel :=
  if readsPending s s.mark g m || storesPending s s.mark g then .wait s
  else if !wide then .ok
  else match (looseLines s c).find? (fun l => fenced s l) with
    | some l => .bad (lineDie l)
    | none =>
      if !(looseLines s c).isEmpty then .wait (pushAll s c g dom)
      else if storesIncomplete s s.mark g c then .wait s else .ok

/-- Fills for untracked copies of core `c` that are on their way, or of which an owner has sent a word already, satisfy
the access that caused them and are then dropped. DEDUCED: notes/assumptions/37. -/
def dropFillsOf (s : State) (c : Nat) (sel : Req → Bool) : State :=
  let mine := fun (r : Req) => decide (r.core = c) && decide (r.kind = .rdSis) && sel r
  { s with coh.replies := s.coh.replies.map (fun p => if mine p.r then { p with dropFill := true } else p),
           coh.reqs := s.coh.reqs.map (fun q => if mine q.r && q.begun then { q with noFill := true } else q) }
def dropFills (s : State) (c : Nat) : State := dropFillsOf s c (fun _ => true)

/-- A wide acquire on core `c`: every V sector becomes I (Table 7-7). -/
def acquireWide (s : State) (c : Nat) : State := dropFills (s.mapL1 c (fun _ e => e.dropV)) c
def acquire (s : State) (c : Nat) (wide : Bool) : State := if wide then acquireWide s c else s

/-! ### Scopes (R240, R241) -/

/-- ScopeSet: the cores of scope `id` as seen from core `c`, with the issuing core; none where V = 0. -/
def scopeIn (scopes : List (Nat × BitVec 192)) (id c : Nat) : Option (BitVec 192) :=
  let own : BitVec 192 := (1 : BitVec 192) <<< c
  if id = 0 then some own
  else if id = 1 then some ((0xF : BitVec 192) <<< (c / 4 * 4))
  else if id = 2 then some ((BitVec.ofNat 192 (2 ^ 48 - 1)) <<< (c / 48 * 48))
  else if id = 3 then some (BitVec.allOnes 192)
  else (smFind scopes id).map (fun m => m ||| own)

/-- The set that the issuing word reads: as the table stood before its chain (R29, R241). -/
def Cx.scopeSet (x : Cx) (s : State) (id : Nat) : Option (BitVec 192) :=
  scopeIn (x.cur.scopes.getD (s.domain x.dom).map.scopes) id x.core

/-- Wide: the set holds a core other than the issuing core. -/
def wideSet (m : BitVec 192) (c : Nat) : Bool := decide (m &&& ~~~((1 : BitVec 192) <<< c) ≠ 0)

/-- The cores of a set. -/
def coresOf (m : BitVec 192) : List Nat := (List.range 192).filter (fun c => m.getLsbD c)

/-! ### Home transactions -/

/-- A home transaction holds the line (R223). -/
def lineBusy (s : State) (l : Nat) : Bool := s.coh.reqs.any (fun q => decide (q.r.line = l) && q.begun)

end Sys2Proof.Machine
end

