-- ==== Sys2Proof/Machine/Fills.lean ====
section
/-! DEFINITION. The completion of loads and stores whose replies reach their core (7.7, 7.10), and the accesses of
engines at the points of coherence (R249). -/

namespace Sys2Proof.Machine
open Sys2Proof

/-! ### Values and failures of a load's words -/

/-- The value a load makes of a word. -/
def accValue (a : Acc) (w : Word) : Word :=
  if a.nb = 1 then (byteAt w a.sh).zeroExtend 32
  else if a.nb = 2 then ((w >>> (8 * a.sh)).extractLsb' 0 16).zeroExtend 32
  else w

/-- A load's failure in the lanes of `as`, from the word at its point of coherence (R228, R229). -/
def loadErr (c : Cause) (as : List Acc) : Option Err :=
  match as with
  | [] => none
  | a :: rest => some { cause := c, lanes := lanesOf ((a :: rest).map (fun p => p.lane)), addr := a.va }

/-- The first failure gathered stands, with the lanes of a later one of its cause added. DEDUCED: notes/assumptions/40. -/
def joinErr (a b : Option Err) : Option Err :=
  match a, b with
  | none, e => e
  | e, none => e
  | some e, some f => some (if e.cause = f.cause then { e with lanes := e.lanes ||| f.lanes } else e)

/-- A request whose reply changes the L1. -/
def Req.fills (r : Req) : Bool :=
  match r.kind with
  | .rdSis => true
  | .rdWis => true
  | .rdOwn => true
  | .rdThr => decide (r.wm ≠ 0)
  | _ => false

/-! ### The structure descriptor of RAYS (R435, R450) -/

/-- A valid structure descriptor (R435). -/
def structOk (ws : List Word) : Bool :=
  let w := fun k => (ws.getD k 0).toNat
  decide (w 7 = 0) && decide (w 12 = 0) && decide (w 13 = 0) && decide (w 14 = 0) && decide (w 15 = 0) &&
  decide (w 0 % 64 = 0) && decide (w 4 % 64 = 0) && decide (w 8 % 64 = 0) && decide (fld (w 2) 30 2 = 0) &&
  (decide (fld (w 3) 30 2 = 1) || decide (fld (w 3) 30 2 = 2))

/-- The descriptor's words out of the values gathered under the keys 64 to 79. -/
def structWords (vs : List (Nat × Word)) : List Word :=
  (List.range 16).map (fun k => ((vs.find? (fun p => decide (p.1 = 64 + k))).map (fun p => p.2)).getD 0)

/-- RAYS's writes: the structure register, and NN into s[d]. -/
def putStruct (s : State) (gk : Nat) (hnd : Bool) (d : Nat) (ws : List Word) : State :=
  s.modGang gk (fun g => { g with struct := some ws, r := g.r.wrS hnd d (ws.getD 2 0) })

/-! ### Completing loads and stores -/

/-- An outstanding instruction whose replies have all come writes its registers and closes, or leaves its deferred
fault (R228); a wide acquire acts first (R248). -/
def closeIfDone (s : State) (id : Nat) : State :=
  match smFind s.work.outs id with
  | none => s
  | some o =>
    if o.left ≠ 0 then s
    else
      let core := (((s.gang o.gang).bind (fun g => s.crew g.crew)).bind (fun w => w.core?)).getD 0
      let s := match o.acq with
        | some wide => acquire s core wide
        | none => s
      match (if o.kind = .ray && o.err.isNone && !structOk (structWords o.wrS) then
          some { cause := .ryNode, lanes := grpLanes o.grp } else o.err) with
      | none =>
        if o.kind = .ray then
          closeOut (putStruct s o.gang o.hnd (o.dstS.headD 0) (structWords o.wrS)) id
        else closeOut (writeOut s o) id
      | some e =>
        let e := if o.kind = .ray then { e with lanes := grpLanes o.grp } else e
        let e := if o.kind = .loadU then { e with lanes := grpLanes o.grp } else e
        let s := if o.kind = .atomic then writeOut s o else s
        addLate (closeOut s id) o.gang o.pc e

/-- What a reply brings an outstanding load: the values of its words in the line, or a failure of theirs. -/
def bring (s : State) (r : Req) (data : BitVec 512) (po : BitVec 16) (c : Option Cause) : State :=
  match smFind s.work.outs r.out with
  | none => s
  | some o =>
    let mine := o.accs.filter (fun a => decide (lineOf a.pa = r.line) && r.words.getLsbD (wordIx a.pa))
    let rest := o.accs.filter (fun a => !(decide (lineOf a.pa = r.line) && r.words.getLsbD (wordIx a.pa)))
    let bad := match c with
      | some c => loadErr c mine
      | none => loadErr .poisonRd (mine.filter (fun a => po.getLsbD (wordIx a.pa)))
    let bad := bad.map (fun e =>
      if e.cause = .homeFenced || e.cause = .incarnation then { e with detail := BitVec.ofNat 32 (lineDie r.line) } else e)
    let vs := mine.map (fun a => (a.dst, accValue a (lineWord data (wordIx a.pa))))
    let o : Out :=
      { o with accs := rest, left := o.left - 1, wrV := if o.kind = .load then o.wrV ++ vs else o.wrV,
               wrS := if o.kind = .load then o.wrS else o.wrS ++ vs, err := joinErr o.err bad }
    closeIfDone { s with work.outs := smSet s.work.outs r.out o } r.out

/-- A request's written bytes merged into word `w` of the L1 as dirty. -/
def mergeStore (r : Req) (e : L1Line) (w : Nat) : L1Line :=
  if maskOf r.wm w = 0 then e else e.wrDirty w (lineWord r.wd w) (maskOf r.wm w)

/-- A returned word placed in the L1, unless a dirty word stands there. -/
def placeClean (p : Reply) (e : L1Line) (w : Nat) : L1Line :=
  if e.dirty w || e.owned w then e
  else
    let e := e.merge w (lineWord p.data w) 0xF
    if p.po.getLsbD w then { e with po := e.po ||| wordBit w } else e

/-- A word of an untracked or tracked copy, or one returned to complete a partial store. -/
def fillLine (p : Reply) (e : L1Line) : L1Line :=
  let ws := wordsOf p.r.words
  let secs := (List.range 4).filter (fun x => decide (p.r.words &&& secBits x ≠ 0))
  let stores := (wordsOf (touched p.r.wm))
  match p.r.kind with
  | .rdSis =>
    let e := ws.foldl (fun e w => if p.dropFill && !(stores.contains w) then e else placeClean p e w) e
    let e := if p.dropFill then e else secs.foldl (fun e x => if e.st.getD x .i = .i then e.setSec x .v else e) e
    stores.foldl (mergeStore p.r) e
  | .rdWis => if p.dropFill then e else secs.foldl (fun e x => e.setSec x .s) (ws.foldl (placeClean p) e)
  | .rdOwn =>
    let e := secs.foldl (fun e x => e.setSec x .o) (ws.foldl (placeClean p) e)
    stores.foldl (mergeStore p.r) { e with om := e.om ||| p.r.words }
  | .rdThr => stores.foldl (mergeStore p.r) (stores.foldl (placeClean p) e)
  | _ => e

/-- The reply changes the L1. -/
def Reply.fills (p : Reply) : Bool := p.r.fills

/-- Read data reaches its core: the L1 takes what the policy gives, and the access that caused it is performed
(R219, R220). -/
def takeData (s : State) (p : Reply) : State :=
  let r := p.r
  let s :=
    if p.fills then
      (let s := makeRoom s r.core r.gang r.dom r.line
       s.putL1 r.core r.line (fillLine p (s.l1 r.core r.line)))
    else s
  if r.out = 0 then s else bring s r p.data p.po none

/-- Reply `k` taken off its way. -/
def State.takeReply (s : State) (k : Nat) : State := { s with coh.replies := dropAt s.coh.replies k }

/-- Data on its way to L1s for a line is delivered: every access that waits for it is performed before the line's words
are recalled or invalidated (R220). -/
def settleFills (s : State) (l : Nat) : State :=
  let mine := fun (p : Reply) => decide (p.kind = .data) && decide (p.r.line = l) && p.fills
  (s.coh.replies.filter mine).foldl takeData { s with coh.replies := s.coh.replies.filter (fun p => !mine p) }

/-! ### Engine accesses (R249) -/

/-- Every owner of the words `ws` returns them, as on a recall; the home applies the values (Table 7-8). -/
def recallWords (s : State) (l : Nat) (ws : BitVec 16) : State :=
  (wordsOf ws).foldl (fun s w =>
    match (s.dirOf l).owner w with
    | none => s
    | some c =>
      let v := cohWord s (64 * l + 4 * w)
      let s := s.putWord (64 * l + 4 * w) v.1 0xF v.2
      let s := s.putL1 c l ((s.l1 c l).giveUp (wordBit w))
      s.putDir l ((s.dirOf l).clearOwner w)) (settleFills s l)

/-- Every tracked sharer but core `skip` drops its S copy, and the sharer bits go (R216). -/
def invalidateSharers (s : State) (l : Nat) (skip : Option Nat) : State :=
  let e := s.dirOf l
  let cs := (List.range 192).filter (fun c => e.sharers.getLsbD (coreCluster c) && decide (some c ≠ skip))
  let s := cs.foldl (fun s c => s.putL1 c l (s.l1 c l).dropS) s
  let keep : BitVec 48 := match skip with
    | some c => e.sharers &&& ((1 : BitVec 48) <<< coreCluster c)
    | none => 0
  s.putDir l { s.dirOf l with sharers := keep }

/-- An engine's masked write of a line at its home: owners recalled, the write applied, every sharer invalidated, and
the V copies of the issuing core dropped, with those on their way (R249, Table 7-8). DEDUCED: notes/assumptions/42. -/
def engineWrite (s : State) (core l : Nat) (wm : BitVec 64) (wd : BitVec 512) (po : BitVec 16) : State :=
  let s := if lineHost l then applyLine s l wm wd po
    else invalidateSharers (applyLine (recallWords s l (touched wm)) l wm wd po) l none
  dropFillsOf (s.putL1 core l ((s.l1 core l).dropVIn (touched wm))) core (fun r => decide (r.line = l))

/-- The core number that names none: a write that no core issues (firmware, the host). -/
def noCore : Nat := 192

/-- One word written by an engine, in any storage. -/
def engineWord (s : State) (core a : Nat) (v : Word) (bm : BitVec 4) (po : Bool) : State :=
  if isDev a then
    engineWrite s core (lineOf a) (maskAt (wordIx a) bm)
      (lineSetMasked 0 (wordIx a) v 0xF) (if po then wordBit (wordIx a) else 0)
  else s.putWord a v bm po

/-- Words written by an engine from `a` up. -/
def engineWords : State → Nat → Nat → List Word → State
  | s, _, _, [] => s
  | s, core, a, w :: ws => engineWords (engineWord s core a w 0xF false) core (a + 4) ws

/-- The byte at `a` of any storage, at its point of coherence. -/
def readByte (s : State) (a : Nat) : Byte := byteAt (readWord s (a / 4 * 4)).1 (a % 4)

/-- A home failure that an engine meets at a line: fenced, or coherence-lost (R497, R503). -/
def homeFail (s : State) (l : Nat) : Option Cause :=
  if lineHost l then none
  else if fenced s l then some .homeFenced
  else if (smFind (s.die (lineDie l)).lost (l % 2 ^ 42)).isSome then some .cohLost
  else none

/-! ### Requests of engine threads to other dies (R490, R495, R496, R498) -/

/-- The request of engine thread `k` for a line. -/
def pktOf (s : State) (k l : Nat) : Option Pkt := s.eng.pkts.find? (fun p => decide (p.who = k) && decide (p.line = l))

/-- The lines among `ls` whose homes lie on another die and for which thread `k` of core `c` has sent no request yet. -/
def unsent (s : State) (k c : Nat) (ls : List Nat) : List Nat :=
  (ls.filter (fun l => decide (homeDie l ≠ coreDie c) && (pktOf s k l).isNone)).dedup

/-- A thread's requests sent: each takes the way of R490 and the number that the core's die holds for its home's die. -/
def sendPkts (s : State) (k c : Nat) (ls : List Nat) : State :=
  { s with eng.pkts := s.eng.pkts ++ ls.map (fun l =>
      { who := k, core := c, line := l, tinc := (s.die (lineDie l)).inc, route := routeOf s (coreDie c) (homeDie l), made := s.time }) }

/-- Thread `k`'s requests for the lines `ls` are answered. -/
def dropPkts (s : State) (k : Nat) (ls : List Nat) : State :=
  { s with eng.pkts := s.eng.pkts.filter (fun p => !(decide (p.who = k) && ls.contains p.line)) }

/-- What a step of thread `k` over the lines `ls` comes to: its requests to other dies go out first, and the step is made
when they are with their homes and it is ready. -/
def throughFabric (s : State) (k c : Nat) (ls : List Nat) (ready : Bool) (go : State → State) : State :=
  let new := unsent s k c ls
  if !new.isEmpty then sendPkts s k c new
  else if ready && !ls.any (fun l => (pktOf s k l).any (fun p => p.lost && p.fail.isNone)) then dropPkts (go s) k ls
  else s

/-- A thread over: none of its requests is under way. -/
def endPkts (s : State) (k : Nat) : State := { s with eng.pkts := s.eng.pkts.filter (fun p => decide (p.who ≠ k)) }

/-- The failure that thread `k` meets at a line: its request was lost, its home refuses it, or it names an earlier
incarnation of the home's die (R496, R497, R499, R503). -/
def threadFail (s : State) (k l : Nat) : Option Cause :=
  match pktOf s k l with
  | none => homeFail s l
  | some p =>
    (p.fail.or (homeFail s l)).or (if !lineHost l && decide ((s.die (lineDie l)).inc ≠ p.tinc) then some .incarnation else none)

/-- What the record of such a failure names: the die, or the link (Table 15-3). -/
def threadInfo (s : State) (k l : Nat) (c : Cause) : Word :=
  if c = .fabUncorr then ((pktOf s k l).map (fun p => p.info)).getD 0
  else if c = .homeFenced ∨ c = .incarnation then BitVec.ofNat 32 (lineDie l) else 0

/-- The words of a line that come or go poisoned with thread `k`'s request (R495). -/
def threadPo (s : State) (k l : Nat) : BitVec 16 := ((pktOf s k l).map (fun p => p.po)).getD 0

/-- The issuing core's untracked dirty words of a line pushed as part of an engine's access (R249, step 2). -/
def enginePush (s : State) (core l : Nat) : State :=
  let e := s.l1 core l
  if e.looseWords = 0 then s
  else
    let s := s.putL1 core l (e.clean e.looseWords)
    engineWrite s core l (wholeMask e.looseWords) e.data (e.po &&& e.looseWords)

end Sys2Proof.Machine
end

