-- ==== Sys2Proof/Machine/Translate.lean ====
section
/-! DEFINITION. Segments, address checks and translation (7.1 to 7.4): page-table entries, the five-level walk, the
TLBs, PhysAddr and CheckAddr. -/

namespace Sys2Proof.Machine
open Sys2Proof

/-- The access kinds of CheckAddr, numbered as EDETAIL takes them (Table 15-3). -/
inductive AccKind where
  | read | write | atomic | execute
  deriving DecidableEq, Repr

def AccKind.code : AccKind → Nat
  | .read => 0
  | .write => 1
  | .atomic => 2
  | .execute => 3

/-- A failed check: its place in CheckAddr's order (R202), cause and detail. -/
structure CkFail where
  rank : Nat
  cause : Cause
  detail : Word := 0
  deriving DecidableEq, Repr

/-! ### Page-table entries (Table 7-3) -/

def ptePm (e : DWord) : Nat := fld e.toNat 60 4
def pteHd (e : DWord) : Nat := fld e.toNat 57 3
def pteIl (e : DWord) : Nat := fld e.toNat 55 2
def pteHm (e : DWord) : Bool := e.getLsbD 54
def pteX (e : DWord) : Bool := e.getLsbD 3
def pteW (e : DWord) : Bool := e.getLsbD 2
def pteR (e : DWord) : Bool := e.getLsbD 1
/-- A leaf's PA; the next table's address {PA, TA}. -/
def ptePa (e : DWord) : Nat := fld e.toNat 16 32 * 2 ^ 16
def pteNext (e : DWord) : Nat := fld e.toNat 8 40 * 2 ^ 8

/-- A table pointer: PM = 0 and R = W = X = 0 (R205). -/
def pteTable (e : DWord) : Bool := decide (ptePm e = 0) && !pteR e && !pteW e && !pteX e

/-- Reserved bits of every entry: 53:48, 7:4 and 0. -/
def pteRsv (e : DWord) : Bool := decide (fld e.toNat 48 6 ≠ 0) || decide (fld e.toNat 4 4 ≠ 0) || e.getLsbD 0

/-- The entry is malformed at this level (R205). -/
def pteBad (e : DWord) (lvl : Nat) : Bool :=
  pteRsv e || decide (4 ≤ pteHd e) ||
  (if pteTable e then
    decide (pteIl e ≠ 0) || pteHm e || decide (lvl = 0) ||
      decide (pteNext e % (if lvl = 1 then 256 else 4096) ≠ 0)
   else
    decide (3 ≤ lvl) || decide (pteIl e = 3) || decide (fld e.toNat 8 8 ≠ 0) ||
      (pteHm e && (decide (pteHd e ≠ 0) || decide (pteIl e ≠ 0))))

/-- The bytes a leaf of level `lvl` maps. -/
def pageSize (lvl : Nat) : Nat := if lvl = 2 then 2 ^ 30 else if lvl = 1 then 2 ^ 21 else 2 ^ 16

/-- The index of a virtual address in a table of level `lvl` (R204). -/
def pteIndex (lvl va : Nat) : Nat :=
  if lvl = 0 then fld va 16 5 else fld va (21 + 9 * (lvl - 1)) 9

/-! ### The carve-out (R206) -/

/-- `n` bytes from `a` lie inside the range. -/
def Range.holds (r : Range) (a n : Nat) : Bool := decide (r.base ≤ a) && decide (a + n ≤ r.base + r.size)

/-- `n` bytes from die-local address `a` of die `d` lie in the domain's carve-out. -/
def inCarve (m : DomMap) (d a n : Nat) : Bool := (smFind m.carve d).any (fun r => r.holds a n)

/-- InCarveOut: every byte of the page lies in the domain's ranges, or in its host window. -/
def leafInCarve (m : DomMap) (e : DWord) (size : Nat) : Bool :=
  if pteHm e then m.host.any (fun r => decide (ptePa e + size ≤ r.size))
  else if pteIl e = 0 then inCarve m (pteHd e) (ptePa e) size
  else if pteIl e = 1 then (List.range 4).all (fun d => inCarve m d (ptePa e) (size / 4))
  else inCarve m (pteHd e) (ptePa e) (size / 2) && inCarve m (pteHd e ^^^ 1) (ptePa e) (size / 2)

/-- PhysAddr (R207): the package address of byte `p` of the page. -/
def physAddr (m : DomMap) (e : DWord) (p : Nat) : Nat :=
  if pteHm e then hostAddr ((m.host.getD {}).base + ptePa e + p)
  else if pteIl e = 0 then devAddr (pteHd e) (ptePa e + p)
  else if pteIl e = 1 then devAddr ((pteHd e + p / 4096) % 4) (ptePa e + 4096 * (p / 2 ^ 14) + p % 4096)
  else devAddr (pteHd e ^^^ (p / 4096 % 2)) (ptePa e + 4096 * (p / 2 ^ 13) + p % 4096)

/-! ### The walk and the TLBs (R204, R208) -/

/-- A walk from level `lvl` down: `n` levels are left. Reads are made at the points of coherence. -/
def walkFrom (s : State) (m : DomMap) (va : Nat) : Nat → Nat → Nat → Nat → Except CkFail TlbEnt
  | 0, _, _, _ => .error { rank := 7, cause := .walkErr }
  | n + 1, lvl, d, tab =>
    let la := tab + 8 * pteIndex lvl va
    let a := devAddr d la
    if !inCarve m d la 8 then .error { rank := 8, cause := .xlDomain }
    else match homeFail s (lineOf a) with
    | some .homeFenced => .error { rank := 5, cause := .homeFenced, detail := BitVec.ofNat 32 d }
    | some _ => .error { rank := 7, cause := .walkErr, detail := BitVec.ofNat 32 lvl }
    | none =>
      if anyPoison s a 2 then .error { rank := 7, cause := .walkErr, detail := BitVec.ofNat 32 lvl }
      else
        let e : DWord := (readWord s (a + 4)).1 ++ (readWord s a).1
        if e = 0 then .error { rank := 6, cause := .xlNotpresent }
        else if pteBad e lvl then .error { rank := 7, cause := .walkErr, detail := BitVec.ofNat 32 lvl }
        else if pteTable e then walkFrom s m va n (lvl - 1) (pteHd e) (pteNext e)
        else if leafInCarve m e (pageSize lvl) then
          .ok { va := va / pageSize lvl * pageSize lvl, size := pageSize lvl, leaf := e }
        else .error { rank := 8, cause := .xlDomain }

/-- The walk of a domain's tables for `va` (R204); a domain without settings fails with XL_DOMAIN at the root. -/
def walk (s : State) (dom va : Nat) : Except CkFail TlbEnt :=
  let m := (s.domain dom).map
  match m.root with
  | none => .error { rank := 8, cause := .xlDomain }
  | some (d, tab) =>
    match walkFrom s m va 5 4 d tab with
    | .ok e => .ok { e with dom := dom }
    | .error f => .error f

/-- A TLB entry that holds the page of `va`. -/
def tlbHit (dom va : Nat) (e : TlbEnt) : Bool := decide (e.dom = dom) && decide (e.va ≤ va) && decide (va < e.va + e.size)

/-- The entry of the core's TLB, or of its die's. -/
def tlbFind (s : State) (core dom va : Nat) : Option TlbEnt :=
  match s.coh.tlb1.find? (fun p => decide (p.1 / 64 = core) && tlbHit dom va p.2) with
  | some p => some p.2
  | none => (s.coh.tlb2.find? (fun p => decide (p.1 / 8192 = coreDie core) && tlbHit dom va p.2)).map (fun p => p.2)

/-- TlbLookup: a TLB's entry, or the walk's. -/
def xlate (s : State) (core dom va : Nat) : Except CkFail TlbEnt :=
  match tlbFind s core dom va with
  | some e => .ok e
  | none => walk s dom va

/-- An entry placed in a table of `n` ways at unit `u`: the first free way, or one the model leaves open. DESIGN CHOICE: notes/assumptions/33. -/
def tlbPut (t : List (Nat × TlbEnt)) (u n k : Nat) (e : TlbEnt) : List (Nat × TlbEnt) :=
  let used := (t.filter (fun p => decide (p.1 / n = u))).length
  let way := if used < n then (leastBelow (fun w => (smFind t (u * n + w)).isNone) n).getD 0 else Config.tlbVictim k % n
  smSet t (u * n + way) e

/-- The TLBs after a lookup of `va`: a walk that succeeded fills them (R208). -/
def fillTlb (s : State) (core dom va : Nat) : State :=
  if (tlbFind s core dom va).isSome then s
  else match walk s dom va with
    | .error _ => s
    | .ok e => { s with coh.tlb1 := tlbPut s.coh.tlb1 core 64 s.ticks e,
                        coh.tlb2 := tlbPut s.coh.tlb2 (coreDie core) 8192 s.ticks e }

/-- A page walk of the flush or of a change takes nothing; the domain's entries go (R209). -/
def flushTlb (s : State) (dom : Nat) : State :=
  { s with coh.tlb1 := s.coh.tlb1.filter (fun p => decide (p.2.dom ≠ dom)),
           coh.tlb2 := s.coh.tlb2.filter (fun p => decide (p.2.dom ≠ dom)) }

/-! ### CheckAddr (R201) -/

/-- The last checks on a leaf: permissions, the host bit and the policy. `pol` is PolBit's number. -/
def leafCheck (e : DWord) (kind : AccKind) (host : Bool) (pol : Nat) : Option CkFail :=
  let kd := BitVec.ofNat 32 kind.code
  if (kind = .read || kind = .atomic) && !pteR e then some { rank := 9, cause := .xlPermR, detail := kd }
  else if (kind = .write || kind = .atomic) && !pteW e then some { rank := 10, cause := .xlPermW, detail := kd }
  else if kind = .execute && !pteX e then some { rank := 11, cause := .xlPermX, detail := kd }
  else if kind ≠ .execute && (pteHm e != host || !(ptePm e).testBit pol) then
    some { rank := 12, cause := .xlPolicy, detail := BitVec.ofNat 32 pol }
  else none

/-- A virtual address checked and translated. -/
def checkVa (s : State) (core dom : Nat) (va : DWord) (seg : Nat) (kind : AccKind) (pol : Nat) : Except CkFail Nat :=
  if fld va.toNat 57 7 ≠ 0 then .error { rank := 4, cause := .segLimit, detail := BitVec.ofNat 32 seg }
  else match xlate s core dom va.toNat with
    | .error f =>
      .error (if f.cause = .xlNotpresent then { f with detail := BitVec.ofNat 32 kind.code } else f)
    | .ok e =>
      match leafCheck e.leaf kind (decide (seg = 6)) pol with
      | some f => .error f
      | none => .ok (physAddr (s.domain dom).map e.leaf (va.toNat - e.va))

/-- The crew of the team of crew `w` that is resident on core `c` (R83, R199): two teams of a launch may share a core. -/
def memberOn (s : State) (w : Crew) (c : Nat) : Option (Nat × Crew) :=
  s.work.crews.find? (fun p => decide (p.2.task = w.task) && decide (p.2.crewid.toNat / 4 = w.crewid.toNat / 4) && decide (p.2.place = .on c))

/-- StorageAddr: the package address of offset `off` of an uncached segment, seen by lane `i` (R198, R199, R201). -/
def storageAddr (s : State) (core : Nat) (w : Crew) (g : Seg) (seg i off : Nat) : Nat :=
  if seg = 1 then poundAddr core (g.base.toNat + off)
  else if seg = 2 then
    (let c := core / 4 * 4 + fld off 19 2
     poundAddr c (((memberOn s w c).map (fun p => p.2.pbase)).getD 0 + fld off 0 19))
  else if seg = 3 then basinAddr (coreDie core) (g.base.toNat + off)
  else if seg = 4 then poundAddr core (g.base.toNat + i * g.limit.toNat + off)
  else off

/-- A reach offset names a member that is not on its core now and has not ended: its bytes are in no Pound until it is,
and the access waits. DESIGN CHOICE: notes/assumptions/43. -/
def reachAway (s : State) (core : Nat) (w : Crew) (seg : Nat) (off : DWord) : Bool :=
  decide (seg = 2) && (memberOn s w (core / 4 * 4 + fld off.toNat 19 2)).isNone

/-- CheckAddr's tests that need no translation: bucket, member, limit, alignment, each with its place in the order. -/
def checkOff (g : Seg) (seg : Nat) (off : DWord) (n : Nat) (kind : AccKind) (bucket : Bool) : Option CkFail :=
  let sl := fun (r : Nat) => ({ rank := r, cause := .segLimit, detail := BitVec.ofNat 32 seg } : CkFail)
  let o := off.toNat
  if seg = 5 && (decide (kind ≠ .read) || !bucket) then some { rank := 0, cause := .bucketSeg }
  else if seg = 2 && (decide (fld o 21 11 ≠ 0) || !g.base.getLsbD (fld o 19 2)) then some (sl 1)
  else if seg = 2 && decide (g.limit.toNat < fld o 0 19 + n) then some (sl 2)
  else if seg ≠ 2 && decide ((if seg = 5 then 64 else g.limit.toNat) < o + n) then some (sl 2)
  else if o % n ≠ 0 then some { rank := 3, cause := .misalign, detail := BitVec.ofNat 32 seg }
  else none

/-- CheckAddr for lane `i` of a word of gang registers `r`: the package address, or the failing check. -/
def checkAddr (s : State) (x : Cx) (seg i : Nat) (off : DWord) (n : Nat) (kind : AccKind) (pol : Nat) :
    Except CkFail Nat :=
  let g := segOf s x.dom x.hnd x.src.r seg
  match checkOff g seg off n kind (s.ceng x.crewNo).bkt.cur.isSome with
  | some f => .error f
  | none =>
    if seg = 0 || seg = 6 || seg = 7 then checkVa s x.core x.dom (g.base + off) seg kind pol
    else .ok (storageAddr s x.core x.crew g seg i off.toNat)

/-- The least-ranked failure of a list of lanes with their results. -/
def minRank : List (Nat × DWord × Except CkFail Nat) → Option CkFail
  | [] => none
  | (_, _, .ok _) :: l => minRank l
  | (_, _, .error f) :: l =>
    match minRank l with
    | some h => if h.rank < f.rank then some h else some f
    | none => some f

/-- EADDR of a failed check: the segment offset for SEG_LIMIT and MISALIGN, the virtual address otherwise. DEDUCED: notes/assumptions/26. -/
def faultAddr (c : Cause) (base off : DWord) : DWord :=
  if c = .bucketSeg then 0 else if c = .segLimit || c = .misalign || c = .atomAlign || c = .atomSeg then off else base + off

/-- The one trap of a word whose lanes were checked: the earliest failing check among all lanes, the lanes that failed
it, the address of the lowest of them (R202). -/
def lanesFail (base : DWord) (rs : List (Nat × DWord × Except CkFail Nat)) : Option TrapReq :=
  match minRank rs with
  | none => none
  | some f =>
    let bad := rs.filter (fun p => match p.2.2 with
      | .error h => decide (h.rank = f.rank) && decide (h.cause = f.cause)
      | .ok _ => false)
    some { cause := f.cause, lanes := lanesOf (bad.map (fun p => p.1)), detail := f.detail,
           addr := faultAddr f.cause base ((bad.map (fun p => p.2.1)).headD 0) }

/-- The one trap of a check made once for the issue: every lane of the group (R234). -/
def onceFail (x : Cx) (base off : DWord) (f : CkFail) : TrapReq :=
  { cause := f.cause, lanes := x.all, detail := f.detail, addr := faultAddr f.cause base off }

/-! ### Instruction fetch (R26, R487) -/

/-- The line of the instruction cache that holds virtual line `vl` for a domain. -/
def icKey (core dom vl : Nat) : Nat := (core * 8 + dom) * 2 ^ 60 + vl

/-- The word at `pc` of the issuing group's code segment: through the core's instruction cache, which a miss fills
after an execute check (R201, R487); a line whose home does not answer fails the fetch (R497, R503). DEDUCED: notes/assumptions/29.
DEDUCED: notes/assumptions/163. -/
def fetchWord (s : State) (core dom : Nat) (g : Seg) (pc : Word) : Except CkFail Word :=
  let va := g.base + BitVec.ofNat 64 (4 * pc.toNat)
  if codeLimit g ≤ pc.toNat then .error { rank := 0, cause := .codeLimit, detail := pc }
  else match smFind s.coh.icache (icKey core dom (va.toNat / 64)) with
    | some l => .ok (lineWord l (va.toNat / 4 % 16))
    | none =>
      match checkVa s core dom va 7 .execute 1 with
      | .error f => .error f
      | .ok a => match homeFail s (lineOf a) with
        | some c => .error { rank := 10, cause := c, detail := if c = .homeFenced then BitVec.ofNat 32 (lineDie (lineOf a)) else 0 }
        | none => .ok (readWord s a).1

/-- The instruction cache and the TLBs after the fetch of `pc`. -/
def fillIc (s : State) (core dom : Nat) (g : Seg) (pc : Word) : State :=
  let va := g.base + BitVec.ofNat 64 (4 * pc.toNat)
  let k := icKey core dom (va.toNat / 64)
  if (smFind s.coh.icache k).isSome then s
  else match checkVa s core dom va 7 .execute 1 with
    | .error _ => s
    | .ok a =>
      let line := (List.range 16).foldl (fun l k => lineSetMasked l k (readWord s (a / 64 * 64 + 4 * k)).1 0xF) 0
      let s := fillTlb s core dom va.toNat
      { s with coh.icache := smSet s.coh.icache k line }

/-- The words of the chain that begins at `pc`, at most `n`, and the fetch that failed. -/
def fetchChain (s : State) (core dom : Nat) (g : Seg) : Nat → Word → List (Word × Word) × Option (Word × CkFail)
  | 0, _ => ([], none)
  | n + 1, pc =>
    match fetchWord s core dom g pc with
    | .error f => ([], some (pc, f))
    | .ok w =>
      if chainBit w.toNat && decide (pc.toNat % 3 ≠ 2) then
        let rest := fetchChain s core dom g n (pc + 1)
        ((pc, w) :: rest.1, rest.2)
      else ([(pc, w)], none)

/-- The instructions of a chain that passed its decode checks. -/
def chainInstrs (ws : List (Word × Word)) : List (Word × Word × Instr) :=
  ws.filterMap (fun p => match decode p.2 with
    | .ok i => some (p.1, p.2, i)
    | _ => none)

/-- The instruction cache of a core emptied for a domain (R487). -/
def icInv (s : State) (core dom : Nat) : State :=
  { s with coh.icache := s.coh.icache.filter (fun p => decide (p.1 / 2 ^ 60 ≠ core * 8 + dom)) }

end Sys2Proof.Machine
end

