-- ==== Sys2Proof/Machine/Memory.lean ====
section
/-! DEFINITION. Loads and stores at issue (7.5 to 7.7, 7.11): the accesses of a word, the L1's actions of Table 7-6, the
requests that go to the homes, and the storage that has no L1 path. -/

namespace Sys2Proof.Machine
open Sys2Proof

/-! ### The accesses of a word -/

/-- Access size in bytes of a width code (R39). -/
def lsBytes (w : Nat) : Nat := [1, 2, 4, 8, 16, 4, 8, 16].getD w 4

/-- Words of an access. -/
def lsWords (n : Nat) : Nat := max (n / 4) 1

/-- Global and host segments: translated, and cached in the L1s. -/
def cachedSeg (g : Nat) : Bool := decide (g = 0) || decide (g = 6)

/-- The segment offset of a lane, and of an access made once (R201). -/
def laneOff (x : Cx) (g a k i : Nat) : DWord :=
  if cachedSeg g then x.v2 a i + BitVec.ofNat 64 k else (x.v a i + BitVec.ofNat 32 k).zeroExtend 64
def onceOff (x : Cx) (g a k : Nat) : DWord :=
  if cachedSeg g then x.s2 a + BitVec.ofNat 64 k else (x.s a + BitVec.ofNat 32 k).zeroExtend 64

/-- EADDR of an access that passed its checks: the virtual address, or the offset in storage without one. -/
def accAddr (s : State) (x : Cx) (g : Nat) (off : DWord) : DWord :=
  if cachedSeg g then (segOf s x.dom x.hnd x.src.r g).base + off else off

/-- A checked access: lane, address for a record, package address. -/
structure Chk where
  lane : Nat
  va : DWord
  pa : Nat

/-- The checks of the lanes of `ls`, each at its own offset. -/
def checkLanes (s : State) (x : Cx) (g : Nat) (ls : List Nat) (off : Nat → DWord) (n : Nat) (kind : AccKind) (pol : Nat) :
    List (Nat × DWord × Except CkFail Nat) :=
  ls.map (fun i => (i, off i, checkAddr s x g i (off i) n kind pol))

/-- The lanes that passed. -/
def passed (s : State) (x : Cx) (g : Nat) (rs : List (Nat × DWord × Except CkFail Nat)) : List Chk :=
  rs.filterMap (fun p => match p.2.2 with
    | .ok a => some { lane := p.1, va := accAddr s x g p.2.1, pa := a }
    | .error _ => none)

/-- The TLBs after the translations of a word (R208). -/
def fillTlbs (s : State) (x : Cx) (g : Nat) (cs : List Chk) : State :=
  if cachedSeg g then cs.foldl (fun s c => fillTlb s x.core x.dom c.va.toNat) s else s

/-- The word accesses of a load: `dst` gives the destination key of a lane's k-th word. -/
def loadAccs (n : Nat) (dst : Nat → Nat → Nat) (cs : List Chk) : List Acc :=
  cs.flatMap (fun c => (List.range (lsWords n)).map (fun k =>
    { pa := c.pa / 4 * 4 + 4 * k, va := c.va, lane := c.lane, sh := c.pa % 4, nb := min n 4, dst := dst c.lane k }))

/-- ByteMask(n, b) of R233. -/
def byteMask (n b : Nat) : BitVec 4 := BitVec.ofNat 4 ((2 ^ min n 4 - 1) * 2 ^ b)

/-- One masked word of a store. -/
structure StW where
  lane : Nat
  va : DWord
  pa : Nat
  v : Word
  bm : BitVec 4

/-- The masked words of a store: `val` gives a lane's k-th register. -/
def storeWords (n : Nat) (val : Nat → Nat → Word) (cs : List Chk) : List StW :=
  cs.flatMap (fun c => (List.range (lsWords n)).map (fun k =>
    { lane := c.lane, va := c.va, pa := c.pa / 4 * 4 + 4 * k, v := val c.lane k <<< (8 * (c.pa % 4)),
      bm := byteMask n (c.pa % 4) }))

/-! ### Outstanding requests that a new access must wait for (R212, R220) -/

/-- The words of the sectors that hold a word of `m`. -/
def sectorsOf (m : BitVec 16) : BitVec 16 :=
  (List.range 4).foldl (fun a x => if m &&& secBits x ≠ 0 then a ||| secBits x else a) 0

/-- The words a request concerns. -/
def Req.foot (r : Req) : BitVec 16 := r.words ||| touched r.wm

/-- A new access by gang `g` to the words `ws`, which sends a request (`send`), fills (`fill`) or writes (`wr`), has to
wait for the outstanding request `r` of its core and line: the same gang's accesses to a word keep their order, a
sector's fill is not mixed with other traffic of the sector, and words on their way home arrive first. -/
def clashes (g : Nat) (ws : BitVec 16) (send fill wr : Bool) (r : Req) : Bool :=
  (decide (r.gang = g) && decide (ws &&& r.foot ≠ 0)) ||
  ((r.fills && (send || wr) || fill) && decide (sectorsOf ws &&& sectorsOf r.foot ≠ 0)) ||
  ((decide (r.kind = .push) || decide (r.kind = .writeback)) && decide (ws &&& r.foot ≠ 0))

/-- The outstanding requests of a core on a line, older than the issuing chain: those not answered, and those whose
answer is on its way. -/
def outstanding (s : State) (c l : Nat) : List Req :=
  ((s.coh.reqs.map (fun q => q.r)) ++ (s.coh.replies.map (fun p => p.r))).filter (fun r =>
    decide (r.id < s.mark) && decide (r.core = c) && decide (r.line = l) && decide (r.kind ≠ .evict))

/-- Some outstanding request holds the access back. DEDUCED: notes/assumptions/36. -/
def mustWait (s : State) (x : Cx) (l : Nat) (ws : BitVec 16) (send fill wr : Bool) : Bool :=
  (outstanding s x.core l).any (clashes x.cur.gang ws send fill wr)

/-! ### What the L1 does with a local access (Table 7-6) -/

/-- A load's word: read in the L1, push the sector first, or send a request. -/
inductive LdAct where
  | hit | push | send (k : ReqKind)
  deriving DecidableEq, Repr

def ldAct (e : L1Line) (pol w : Nat) : LdAct :=
  let loose := decide (e.looseWords &&& secBits (w / 4) ≠ 0)
  if pol = 0 then (if e.owned w then .hit else if loose then .push else .send .rdOwn)
  else if pol = 1 then (if e.owned w then .hit else if e.dirty w then .push else .send .rdThr)
  else if pol = 2 then
    (if e.valid w then .hit else if e.sec w = .o then .send .rdThr else .send .rdSis)
  else if decide (e.sec w = .s) || e.owned w then .hit
  else if decide (e.sec w = .o) && !e.dirty w then .send .rdThr
  else if loose then .push
  else .send .rdWis

/-- A store's word: write in the L1 (the sector then V where it was S), push first, or send a request. -/
inductive StAct where
  | write | push | send (k : ReqKind)
  deriving DecidableEq, Repr

def stAct (e : L1Line) (pol w : Nat) (full : Bool) : StAct :=
  if e.owned w then .write
  else if pol = 0 then (if e.looseWords &&& secBits (w / 4) ≠ 0 then .push else .send .rdOwn)
  else if pol = 1 then .send .wrThr
  else if pol = 3 then .send .wrWis
  else if e.valid w || full then .write
  else if e.sec w = .o then .send .rdThr
  else .send .rdSis

/-- A kind of request fills the L1. -/
def ReqKind.fill (k : ReqKind) : Bool := decide (k = .rdSis) || decide (k = .rdWis) || decide (k = .rdOwn)

/-- The words a request of a kind names for accessed words `ws`: whole sectors for the copies of SIS and WIS. -/
def reqWords (k : ReqKind) (ws : BitVec 16) : BitVec 16 :=
  if k = .rdSis || k = .rdWis then sectorsOf ws else ws

/-- Registers gathered for an outstanding load: vector keys, or scalar registers for LDU. -/
structure LdDst where
  uni : Bool
  regs : List Nat

/-- Values of a load's words that can be read at once. -/
def readAccs (rd : Nat → Word × Bool) (as : List Acc) : List (Nat × Word) := as.map (fun a => (a.dst, accValue a (rd a.pa).1))

/-- A load that has all its words at issue: registers written, or a deferred fault (R228). -/
def loadNow (st : State) (x : Cx) (uni : Bool) (vs : List (Nat × Word)) (e : Option Err) : Res :=
  match e with
  | some e => .done (addLate st x.cur.gang x.cur.pc (if uni then { e with lanes := x.all } else e))
  | none =>
    .done (if uni then vs.foldl (fun st p => st.putS x p.1 p.2) st else st.modRegs x (fun r => r.putV vs))

/-! ### Loads and stores in storage without an L1 path -/

/-- A copy in flight holds a range of the Pound that meets `n` bytes at `pa` (R213). -/
def scoreHit (s : State) (pa n : Nat) : Bool :=
  decide (2 ^ 66 ≤ pa) && decide (pa < 2 ^ 67) &&
    s.eng.copies.any (fun p => p.2.ranges.any (fun r =>
      decide (poundAddr r.1 r.2.1 < pa + n) && decide (pa ≤ poundAddr r.1 r.2.2)))

/-- The cause of a poisoned word read from storage: ECC_POUND in a Pound (R229). -/
def poisonCause (pa : Nat) : Cause := if 2 ^ 66 ≤ pa ∧ pa < 2 ^ 67 then .eccPound else .poisonRd

/-- Words of the bucket header (Table 13-2). -/
def headerWord (b : Bucket) (k : Nat) : Word :=
  match k with
  | 0 => BitVec.ofNat 32 (b.id.bx + b.id.byy * 65536)
  | 1 => BitVec.ofNat 32 (b.id.bw + b.id.bw * 65536)
  | 2 => loW b.id.fdAddr
  | 3 => hiW b.id.fdAddr
  | 4 => BitVec.ofNat 32 b.slots.length
  | 5 => BitVec.ofNat 32 b.cnt.ngr
  | 6 => BitVec.ofNat 32 b.cnt.nem
  | 7 => BitVec.ofNat 32 b.cnt.occ
  | 8 => BitVec.ofNat 32 ((if b.cnt.split then 1 else 0) + (if b.cnt.fen then 2 else 0))
  | _ => 0

/-- The current bucket of a crew (R200). -/
def bucketOf (s : State) (crew : Nat) : Option Bucket :=
  match (s.ceng crew).bkt.cur with
  | none => none
  | some k => smFind s.gfx.buckets k

/-- A word of an uncached segment: the bucket's header, or storage. -/
def rawWord (s : State) (x : Cx) (g a : Nat) : Word × Bool :=
  if g = 5 then (((bucketOf s x.crewNo).map (fun b => headerWord b (a / 4))).getD 0, false)
  else (getWord s.mem a, isPoison s.poison a)

/-- The words `as` of a load from an uncached segment. -/
def loadRaw (st : State) (x : Cx) (g : Nat) (uni : Bool) (as : List Acc) : Res :=
  if as.any (fun a => scoreHit st a.pa 4) then .hold st
  else
    let bad := as.filter (fun a => (rawWord st x g a.pa).2)
    loadNow st x uni (readAccs (rawWord st x g) as) (loadErr (poisonCause ((bad.map (fun a => a.pa)).headD 0)) bad)

/-- A store to an uncached segment, in ascending lanes (R9, R214). -/
def storeRaw (st : State) (ws : List StW) : Res :=
  if ws.any (fun w => scoreHit st w.pa 4) then .hold st
  else .done (ws.foldl (fun st w => st.putWord w.pa w.v w.bm false) st)

/-! ### Loads in global and host -/

/-- What the L1 does with one word of a load; for a word of a lost line the home is asked, which answers COH_LOST (R497). -/
def accAct (s : State) (x : Cx) (pol : Nat) (a : Acc) : LdAct :=
  if isLost s (lineOf a.pa) then .send .rdThr else ldAct (s.l1 x.core (lineOf a.pa)) pol (wordIx a.pa)

/-- The accessed words of a line. -/
def accWords (as : List Acc) (l : Nat) : BitVec 16 :=
  (as.filter (fun a => decide (lineOf a.pa = l))).foldl (fun m a => m ||| wordBit (wordIx a.pa)) 0

/-- One access waits for an outstanding request. -/
def accWaits (s : State) (x : Cx) (pol : Nat) (a : Acc) : Bool :=
  match accAct s x pol a with
  | .send k => mustWait s x (lineOf a.pa) (wordBit (wordIx a.pa)) true k.fill false
  | _ => mustWait s x (lineOf a.pa) (wordBit (wordIx a.pa)) false false false

/-- The requests of a load: per line and kind (R210, R219). -/
def loadReqs (s : State) (x : Cx) (pol id : Nat) (as : List Acc) : List ReqX :=
  let lines := (as.map (fun a => lineOf a.pa)).dedup
  [ReqKind.rdOwn, .rdThr, .rdSis, .rdWis].flatMap (fun k =>
    let mine := as.filter (fun a => decide (accAct s x pol a = .send k))
    (lines.filter (fun l => decide (accWords mine l ≠ 0))).map (fun l =>
      { r := { kind := k, core := x.core, gang := x.cur.gang, dom := x.dom, line := l, words := reqWords k (accWords mine l),
               out := id, pc := x.cur.pc, npc := x.cur.last + 1,
               lanes := lanesOf ((mine.filter (fun a => decide (lineOf a.pa = l))).map (fun a => a.lane)) } }))

/-- Every sector that is pushed before its access. A sector in O that a WIS load fills has its owned words returned as
well, so that it holds none afterwards (Table 7-6). DEDUCED: notes/assumptions/152. -/
def pushFor (s : State) (x : Cx) (pol : Nat) (ps : List Nat) : State :=
  ps.foldl (fun s a =>
    let s := pushLine s x.core x.cur.gang x.dom (lineOf a) (secBits (wordIx a / 4))
    if pol = 3 then writebackLine s x.core x.dom (lineOf a) (secBits (wordIx a / 4)) else s) s

/-- A load of cached words, after the pushes that go before it on their way to the same homes: `kind` is .load with vector
destinations, or .loadU or .ray with scalar ones; `dsts` are the registers it will write; `now` takes the values where every
word is served at once. -/
def loadLines (st : State) (x : Cx) (pol la : Nat) (kind : OutKind) (dsts : List Nat) (as : List Acc)
    (now : List (Nat × Word) → Option Err → Res) : Res :=
  let was := st
  let st := pushFor st x pol ((as.filter (fun a => decide (accAct st x pol a = .push))).map (fun a => a.pa))
  if as.any (accWaits was x pol) || as.any (accWaits st x pol) then .hold was
  else
    let hits := as.filter (fun a => decide (accAct st x pol a = .hit))
    let rest := as.filter (fun a => decide (accAct st x pol a ≠ .hit))
    let rd := fun (pa : Nat) =>
      (lineWord (st.l1 x.core (lineOf pa)).data (wordIx pa), (st.l1 x.core (lineOf pa)).po.getLsbD (wordIx pa))
    let vs := readAccs rd hits
    let e := loadErr .poisonRd (hits.filter (fun a => (rd a.pa).2))
    if rest.isEmpty then now vs e
    else
      let id := st.work.next
      let rq := loadReqs st x pol id rest
      let o : Out :=
        { kind := kind, gang := x.cur.gang, grp := x.cur.grp, pc := x.cur.pc,
          npc := x.cur.last + 1, accs := rest, hits := hits, left := rq.length, wrV := if kind ≠ .load then [] else vs,
          wrS := if kind ≠ .load then vs else [], dstV := if kind ≠ .load then [] else dsts,
          dstS := if kind ≠ .load then dsts else [], err := e }
      .done (rq.foldl post (openOut st x o la))

/-- LD and LDU of cached words. -/
def loadCached (st : State) (x : Cx) (pol la : Nat) (uni : Bool) (as : List Acc) : Res :=
  loadLines st x pol la (if uni then .loadU else .load) ((as.map (fun a => if uni then a.dst else a.dst / 32)).dedup) as
    (loadNow st x uni)

/-! ### Stores in global and host -/

/-- The bytes a store writes in line `l`: mask and values, in ascending lanes (R9). -/
def lineStore (ws : List StW) (l : Nat) : BitVec 64 × BitVec 512 :=
  (ws.filter (fun w => decide (lineOf w.pa = l))).foldl
    (fun (p : BitVec 64 × BitVec 512) w =>
      (p.1 ||| maskAt (wordIx w.pa) w.bm, lineSetMasked p.2 (wordIx w.pa) w.v w.bm)) (0, 0)

/-- What the L1 does with one word of a store of bytes `wm`; for a word of a lost line the home is asked, which answers
COH_LOST (R497). -/
def stActOf (s : State) (x : Cx) (pol l : Nat) (wm : BitVec 64) (w : Nat) : StAct :=
  if isLost s l then .send .wrThr else stAct (s.l1 x.core l) pol w (decide (maskOf wm w = 0xF))

/-- One word of a store waits for an outstanding request. -/
def stWaits (s : State) (x : Cx) (pol l : Nat) (wm : BitVec 64) (w : Nat) : Bool :=
  match stActOf s x pol l wm w with
  | .send k => mustWait s x l (wordBit w) true (k.fill || decide (k = .rdThr)) true
  | _ => mustWait s x l (wordBit w) false false true

/-- A word written in the L1 as dirty; a sector in S becomes V unless the word is owned. -/
def writeHere (e : L1Line) (w : Nat) (v : Word) (bm : BitVec 4) : L1Line :=
  let e := if decide (e.sec w = .s) && !e.owned w then e.setSec (w / 4) .v else e
  e.wrDirty w v bm

/-- A word that is sent to its home: an untracked dirty value goes with it, DM is cleared, and a V or S copy takes the
written bytes. -/
def sendHome (e : L1Line) (w : Nat) (v : Word) (bm : BitVec 4) : L1Line :=
  if e.dirty w || decide (e.sec w = .v) || decide (e.sec w = .s) then (e.merge w v bm).clean (wordBit w) else e

/-- The word as it goes home: the written bytes, or the whole word where it was dirty in the L1. -/
def homeBytes (e : L1Line) (w : Nat) (p : BitVec 64 × BitVec 512) : BitVec 64 × BitVec 512 :=
  if e.dirty w then
    (p.1 ||| ((0xF : BitVec 64) <<< (4 * w)), lineSetMasked p.2 w (lineWord (e.merge w (lineWord p.2 w) (maskOf p.1 w)).data w) 0xF)
  else p

/-- The bytes of the words `ws` alone. -/
def onlyWords (ws : BitVec 16) (wm : BitVec 64) : BitVec 64 := wm &&& wholeMask ws

/-- The words of a line's store that go one way. -/
def stSet (s : State) (x : Cx) (pol l : Nat) (wm : BitVec 64) (t : StAct) : BitVec 16 :=
  bitsTo16 (fun w => decide (maskOf wm w ≠ 0) && decide (stActOf s x pol l wm w = t))

/-- The lanes that store into a line, and the address of the lowest. -/
def stLanes (ws : List StW) (l : Nat) : Word × DWord :=
  let mine := ws.filter (fun w => decide (lineOf w.pa = l))
  (lanesOf (mine.map (fun w => w.lane)), (mine.map (fun w => w.va)).headD 0)

/-- The request of kind `k` of a store in line `l`; the single access of STU is of every lane of the group (R234). -/
def storeReq (st : State) (x : Cx) (pol : Nat) (uni : Bool) (l : Nat) (ws : List StW) (k : ReqKind) : Option ReqX :=
  let p := lineStore ws l
  let e := st.l1 x.core l
  let set_ := stSet st x pol l p.1 (.send k)
  if set_ = 0 then none
  else
    let q := if k = .wrThr || k = .wrWis then (wordsOf set_).foldl (fun q w => homeBytes e w q) p else p
    some { r := { kind := k, core := x.core, gang := x.cur.gang, dom := x.dom, line := l, words := reqWords k set_,
                  wm := onlyWords set_ q.1, wd := q.2,
                  po := bitsTo16 (fun w => e.dirty w && e.po.getLsbD w && decide (maskOf p.1 w ≠ 0xF)),
                  pc := x.cur.pc, npc := x.cur.last + 1, lanes := if uni then x.all else (stLanes ws l).1,
                  va := (stLanes ws l).2 } }

/-- The L1 after a store's words of one line: those written here, those that go home. -/
def storeLine (st : State) (x : Cx) (pol : Nat) (uni : Bool) (l : Nat) (ws : List StW) : State :=
  let p := lineStore ws l
  let here := stSet st x pol l p.1 .write
  let away := stSet st x pol l p.1 (.send .wrThr) ||| stSet st x pol l p.1 (.send .wrWis)
  let rq := [ReqKind.rdOwn, .rdThr, .rdSis, .wrThr, .wrWis].filterMap (storeReq st x pol uni l ws)
  let st := if here = 0 then st else makeRoom st x.core x.cur.gang x.dom l
  let e := (wordsOf here).foldl (fun e w => writeHere e w (lineWord p.2 w) (maskOf p.1 w)) (st.l1 x.core l)
  let e := (wordsOf away).foldl (fun e w => sendHome e w (lineWord p.2 w) (maskOf p.1 w)) e
  rq.foldl post (st.putL1 x.core l e)

/-- A store in global or host (R219, R233): it completes at issue (R214). -/
def storeCached (st : State) (x : Cx) (pol : Nat) (uni : Bool) (ws : List StW) : Res :=
  let lines := (ws.map (fun w => lineOf w.pa)).dedup
  if lines.any (fun l => (wordsOf (touched (lineStore ws l).1)).any (stWaits st x pol l (lineStore ws l).1)) then .hold st
  else
    let push := lines.flatMap (fun l => (wordsOf (stSet st x pol l (lineStore ws l).1 .push)).map (fun w => 64 * l + 4 * w))
    let was := st
    let st := pushFor st x pol push
    if lines.any (fun l => (wordsOf (touched (lineStore ws l).1)).any (stWaits st x pol l (lineStore ws l).1)) then .hold was
    else .done (lines.foldl (fun st l => storeLine st x pol uni l ws) st)

/-! ### The instructions -/

/-- LD and LDU after their checks. -/
def loadBody (st : State) (x : Cx) (g pol la n : Nat) (uni : Bool) (dst : Nat → Nat → Nat)
    (rs : List (Nat × DWord × Except CkFail Nat)) : Res :=
  let as := loadAccs n dst (passed st x g rs)
  if cachedSeg g then loadCached (fillTlbs st x g (passed st x g rs)) x pol la uni as else loadRaw st x g uni as

/-- ST and STU after their checks. -/
def storeBody (st : State) (x : Cx) (g pol n : Nat) (uni : Bool) (val : Nat → Nat → Word)
    (rs : List (Nat × DWord × Except CkFail Nat)) : Res :=
  let ws := storeWords n val (passed st x g rs)
  if cachedSeg g then storeCached (fillTlbs st x g (passed st x g rs)) x pol uni ws else storeRaw st ws

/-- The checks of a per-lane word, and of a word that acts once. -/
def laneChecks (st : State) (x : Cx) (g a k n : Nat) (kind : AccKind) (pol : Nat) :
    List (Nat × DWord × Except CkFail Nat) :=
  checkLanes st x g x.lanes (laneOff x g a k) n kind pol
def onceCheck (st : State) (x : Cx) (g a k n : Nat) (kind : AccKind) (pol : Nat) : Nat × DWord × Except CkFail Nat :=
  (0, onceOff x g a k, checkAddr st x g 0 (onceOff x g a k) n kind pol)

/-- A word whose lanes are checked: its one trap, the wait for a member of the team that is out, or its effect. -/
def checkedLanes (st : State) (x : Cx) (g : Nat) (rs : List (Nat × DWord × Except CkFail Nat)) (body : Res) : Res :=
  match lanesFail (segOf st x.dom x.hnd x.src.r g).base rs with
  | some t => .trap st t
  | none => if rs.any (fun p => reachAway st x.core x.crew g p.2.1) then .hold st else body

/-- A word that acts once: an address fault names every lane of the group (R234). -/
def checkedOnce (st : State) (x : Cx) (g : Nat) (p : Nat × DWord × Except CkFail Nat) (body : Res) : Res :=
  match p.2.2 with
  | .error f => .trap st (onceFail x (segOf st x.dom x.hnd x.src.r g).base p.2.1 f)
  | .ok _ => if reachAway st x.core x.crew g p.2.1 then .hold st else body

/-- LD (R232). -/
def execLd (c : Bool) (w : Fin 8) (p : Fin 4) (g : Fin 8) (d a : Fin 64) (l : Fin 16) (i : Fin 8) (st : State) :
    Host.Outcome State Fault Refusal :=
  issue (.ld c w p g d a l i) st (fun st x =>
    let n := lsBytes w.val
    let rs := laneChecks st x g.val a.val (i.val * n) n .read p.val
    checkedLanes st x g.val rs (loadBody st x g.val p.val l.val n false (fun j k => vkey (d.val + k) j) rs))

/-- LDU (R234). -/
def execLdu (c : Bool) (w : Fin 8) (p : Fin 4) (g : Fin 8) (d a : Fin 64) (l : Fin 16) (i : Fin 8) (st : State) :
    Host.Outcome State Fault Refusal :=
  issue (.ldu c w p g d a l i) st (fun st x =>
    let n := lsBytes w.val
    let r := onceCheck st x g.val a.val (i.val * n) n .read p.val
    checkedOnce st x g.val r (loadBody st x g.val p.val l.val n true (fun _ k => d.val + k) [r]))

/-- ST (R233). -/
def execSt (c : Bool) (w : Fin 8) (p : Fin 4) (g : Fin 8) (v a : Fin 64) (i : Fin 8) (st : State) :
    Host.Outcome State Fault Refusal :=
  issue (.st c w p g v a i) st (fun st x =>
    let n := lsBytes w.val
    let rs := laneChecks st x g.val a.val (i.val * n) n .write p.val
    checkedLanes st x g.val rs (storeBody st x g.val p.val n false (fun j k => x.v (v.val + k) j) rs))

/-- STU (R234). -/
def execStu (c : Bool) (w : Fin 8) (p : Fin 4) (g : Fin 8) (v a : Fin 64) (i : Fin 8) (st : State) :
    Host.Outcome State Fault Refusal :=
  issue (.stu c w p g v a i) st (fun st x =>
    let n := lsBytes w.val
    let r := onceCheck st x g.val a.val (i.val * n) n .write p.val
    checkedOnce st x g.val r (storeBody st x g.val p.val n true (fun _ k => x.s (v.val + k)) [r]))

end Sys2Proof.Machine
end

