-- ==== Sys2Proof/Machine/Home.lean ====
section
/-! DEFINITION. The homes, the messages between homes and L1s, and the completion of loads and stores (7.5, 7.7 to
7.10): every event of a request from its slot to its reply. -/

namespace Sys2Proof.Machine
open Sys2Proof

/-! ### Requests -/

/-- The request with number `id` changed by `f`. -/
def State.modReq (s : State) (id : Nat) (f : ReqX → ReqX) : State :=
  { s with coh.reqs := s.coh.reqs.map (fun q => if q.r.id = id then f q else q) }

/-- The request with number `id` gone. -/
def State.dropReq (s : State) (id : Nat) : State :=
  { s with coh.reqs := s.coh.reqs.filter (fun q => decide (q.r.id ≠ id)) }

/-- A reply sent. -/
def State.reply (s : State) (p : Reply) : State :=
  { s with coh.replies := s.coh.replies ++ [{ p with route := routeOf s (homeDie p.r.line) (coreDie p.r.core),
                                                      inc := (s.die (homeDie p.r.line)).inc }] }

/-- The die that a message of a home goes to. -/
def Snoop.die (m : Snoop) : Nat := if m.kind = .inv then m.dest / 12 else coreDie m.dest

/-- The cluster that it goes to. -/
def Snoop.cluster (m : Snoop) : Nat := if m.kind = .inv then m.dest else coreCluster m.dest

/-- Messages of homes sent. -/
def State.snoop (s : State) (ms : List Snoop) : State :=
  { s with coh.snoops := s.coh.snoops ++ ms.map (fun m =>
      { m with route := routeOf s (homeDie m.line) m.die, inc := (s.die (homeDie m.line)).inc }) }

/-- A packet's flits carry the number that its receiver holds for its sender (R498); within a die there is none. -/
def incOk (s : State) (route : List Nat) (src dst : Nat) (inc : BitVec 8) : Bool :=
  decide (route = []) || decide ((s.die dst).table[src]? = some inc)

/-- Message `k` of the homes, where it arrives next: no older one is on the same way to the same cluster (R490). -/
def State.snoopAt (s : State) (k : Nat) : Option Snoop :=
  (s.coh.snoops[k]?).filter (fun m => !m.lost && incOk s m.route (homeDie m.line) m.die m.inc &&
    (decide (m.route = []) || !(s.coh.snoops.take k).any (fun v => decide (v.route = m.route) &&
      decide (homeDie v.line = homeDie m.line) && decide (v.cluster = m.cluster))))

/-- Acknowledgement `k`, where it arrives next of its way (R490). -/
def State.ackAt (s : State) (k : Nat) : Option Ack :=
  (s.coh.acks[k]?).filter (fun a => incOk s a.route a.src a.dst a.inc &&
    (decide (a.route = []) || !(s.coh.acks.take k).any (fun v => decide (v.route = a.route) && decide (v.src = a.src) &&
      decide (v.dst = a.dst))))

/-- Clocks since a time, at the compute clock (R516). -/
def clocksSince (s : State) (t : Nat) : Nat := (s.time - t) * s.mgmt.clock / 1000

/-- A raised request of the same core, older than `q`, goes first, whatever its bank (R210). -/
def outranked (s : State) (q : ReqX) : Bool :=
  !q.begun && q.r.slotted && s.coh.reqs.any (fun p => p.boost && !p.begun && p.r.slotted && decide (p.r.core = q.r.core) &&
    decide (p.r.id < q.r.id))

/-- An older request of the core is still in the queue of the same bank, or on its way to the same line (R210): one whose
line another request holds has reached its home and waits there (R223). -/
def behind (s : State) (q : ReqX) : Bool :=
  !q.begun && !q.r.evicted && s.coh.reqs.any (fun p => !p.begun && !p.staged && decide (p.r.core = q.r.core) &&
    decide (p.r.id < q.r.id) && decide (p.r.kind ≠ .evict) && decide (bankOf p.r.line = bankOf q.r.line) &&
    (decide (p.r.line = q.r.line) || (p.r.slotted && !lineBusy s p.r.line)))

/-- A request carried on DAT (Table 16-1): a writeback or a push of evicted words. -/
def Req.onDat (r : Req) : Bool := r.evicted || decide (r.kind = .writeback)

/-- An older request to the same line is on the same way, in the same channel: it arrives first (R490). -/
def overtakes (s : State) (q : ReqX) : Bool :=
  decide (q.r.route ≠ []) && s.coh.reqs.any (fun p => !p.begun && !p.staged && decide (p.r.id < q.r.id) &&
    decide (p.r.kind ≠ .evict) && decide (p.r.line = q.r.line) && decide (coreDie p.r.core = coreDie q.r.core) &&
    decide (p.r.route = q.r.route) && decide (p.r.onDat = q.r.onDat) && !outranked s p)

/-- Reply `k` has no older one of its channel on its way from the same die to the same die (R490); the answers of the
barrier unit wait at their core. -/
def firstReply (s : State) (k : Nat) (p : Reply) : Bool :=
  decide (p.route = []) || !(s.coh.replies.take k).any (fun v => decide (v.route = p.route) &&
    decide (homeDie v.r.line = homeDie p.r.line) && decide ((v.kind = .data) = (p.kind = .data)) && decide (v.r.kind ≠ .barrier))

/-- The reply at place `k` of those on their way, where it arrives next of its channel and way. -/
def State.arriving (s : State) (k : Nat) : Option Reply :=
  (s.coh.replies[k]?).filter (fun p => !p.lost && firstReply s k p && incOk s p.route (homeDie p.r.line) (coreDie p.r.core) p.inc)

/-- Request `k`, of kind `kd`, where its home can take it now: it holds a slot, it is first in its queue, its line is not
held by another request (R210, R223). A push of evicted words is taken at once (R222). -/
def takeReq (s : State) (k : Nat) (kd : ReqKind) : Option ReqX :=
  match s.coh.reqs[k]? with
  | none => none
  | some q =>
    if decide (q.r.kind = kd) && !q.staged && !q.applied && !q.lost && (q.begun || q.r.evicted || !lineBusy s q.r.line) &&
      !outranked s q && !behind s q && !overtakes s q then some q
    else none

/-- Messages of request `id` still on their way. -/
def msgsOut (s : State) (id : Nat) : Bool := s.coh.snoops.any (fun m => decide (m.req = id)) || s.coh.acks.any (fun a => decide (a.req = id))

/-- Why a home refuses a request it has not taken: its die is fenced, the request names an earlier incarnation, the
line is lost (R497, R498, R503). A push of a lost line is applied at its home. DEDUCED: notes/assumptions/38. -/
def refusal (s : State) (q : ReqX) : Option Cause :=
  if q.begun || lineHost q.r.line then none
  else if fenced s q.r.line then some .homeFenced
  else if (s.die (lineDie q.r.line)).inc ≠ q.r.tinc then some .incarnation
  else if isLost s q.r.line && decide (q.r.kind ≠ .push) then some .cohLost
  else none

/-- A refused request answered. -/
def refuse (s : State) (q : ReqX) (c : Cause) : State :=
  (s.dropReq q.r.id).reply { kind := .error c, r := q.r, ats := q.ats, wide := q.wide }

/-! ### Messages that a request causes (Table 7-8) -/

/-- The owners of the words `ws` of a line, `skip` left out. -/
def ownersOf (e : DirEnt) (ws : BitVec 16) (skip : Option Nat) : List Nat :=
  (((wordsOf ws).filterMap e.owner).filter (fun c => decide (some c ≠ skip))).dedup

/-- The words among `ws` that core `c` owns. -/
def ownedBy (e : DirEnt) (ws : BitVec 16) (c : Nat) : BitVec 16 :=
  bitsTo16 (fun w => ws.getLsbD w && decide (e.owner w = some c))

/-- Messages of a kind to the owners of words. -/
def ownerMsgs (s : State) (l : Nat) (ws : BitVec 16) (skip : Option Nat) (k : SnoopKind) (id : Nat) : List Snoop :=
  (ownersOf (s.dirOf l) ws skip).map (fun c =>
    { kind := k, dest := c, line := l, words := ownedBy (s.dirOf l) ws c, req := id })

/-- Invalidations to the clusters of the sharer vector. -/
def invMsgs (s : State) (l : Nat) (skip : Option Nat) (id : Nat) : List Snoop :=
  ((List.range 48).filter (fun k => (s.dirOf l).sharers.getLsbD k)).map (fun k =>
    { kind := .inv, dest := k, line := l, req := id, skip := skip })

/-- The messages a request needs answered before its home performs it. -/
def firstMsgs (s : State) (q : ReqX) : List Snoop :=
  let l := q.r.line
  let me := some q.r.core
  if lineHost l then []
  else match q.r.kind with
  | .rdThr => ownerMsgs s l q.r.words me .fwdRd q.r.id
  | .rdSis => ownerMsgs s l q.r.words me .fwdRd q.r.id
  | .rdWis => ownerMsgs s l q.r.words me .recall q.r.id
  | .rdOwn => ownerMsgs s l q.r.words me .recall q.r.id ++ invMsgs s l none q.r.id
  | .atomic => ownerMsgs s l q.r.words none .recall q.r.id
  | .barrier => ownerMsgs s l q.r.words none .recall q.r.id
  | .evict => ownerMsgs s l 0xFFFF none .recall q.r.id ++ invMsgs s l none q.r.id
  | .writeback => []
  | _ => ownerMsgs s l (touched q.r.wm) me .recall q.r.id

/-- A home takes request `q`: refused, or its messages go out first, or it is performed. A request whose messages are
still on their way changes nothing. A push of evicted words, which does not hold its line alone, looks for owners once
more. DEDUCED: notes/assumptions/35. -/
def homeTake (s : State) (q : ReqX) (perform : State → ReqX → State) : State :=
  match refusal s q with
  | some c => refuse s q c
  | none =>
    if q.begun && msgsOut s q.r.id then s
    else
      let ms := if q.begun && !q.r.evicted then [] else firstMsgs s q
      if ms.isEmpty then perform s q
      else (s.modReq q.r.id (fun q => { q with begun := true, at_ := s.time })).snoop ms

/-! ### Performing reads -/

/-- The line as the home answers with it: its own values, and those owners have sent. -/
def homeLine (s : State) (q : ReqX) : BitVec 512 :=
  q.got.foldl (fun d p => lineSetMasked d p.1 p.2.1 0xF) (getLine s.mem q.r.line)

/-- The poisoned words of that line. -/
def homePo (s : State) (q : ReqX) : BitVec 16 :=
  bitsTo16 (fun w => match smFind q.got w with
    | some v => v.2
    | none => isPoison s.poison (64 * q.r.line + 4 * w))

/-- A read answered. -/
def answerRead (s : State) (q : ReqX) : State :=
  (s.dropReq q.r.id).reply { kind := .data, r := q.r, data := homeLine s q, po := homePo s q, dropFill := q.noFill }

/-- The directory entry of a line changed and marked as used now. -/
def State.useDir (s : State) (l : Nat) (f : DirEnt → DirEnt) : State := s.putDir l { f (s.dirOf l) with used := s.ticks }

/-- RdWis performed: the requester's cluster becomes a sharer. -/
def doRdWis (s : State) (q : ReqX) : State :=
  if lineHost q.r.line then answerRead s q
  else answerRead (s.useDir q.r.line (fun e => { e with sharers := e.sharers ||| ((1 : BitVec 48) <<< coreCluster q.r.core) })) q

/-- RdOwn performed: no sharer is left, and the requester owns the words. -/
def doRdOwn (s : State) (q : ReqX) : State :=
  answerRead (s.useDir q.r.line (fun e => (wordsOf q.r.words).foldl (fun e w => e.setOwner w q.r.core) { e with sharers := 0 })) q

/-! ### Directory eviction (R226) -/

/-- The entries of a line's directory set. -/
def dirPeers (s : State) (l : Nat) : List (Nat × DirEnt) := s.coh.dir.filter (fun p => decide (dirSet p.1 = dirSet l))

/-- The line needs an entry and its set of 16 is full. -/
def dirFull (s : State) (l : Nat) : Bool := (smFind s.coh.dir l).isNone && decide (16 ≤ (dirPeers s l).length)

/-- The least recently used entry of a list. DEDUCED: notes/assumptions/34. -/
def leastUsed : List (Nat × DirEnt) → Option (Nat × DirEnt)
  | [] => none
  | p :: ps =>
    match leastUsed ps with
    | none => some p
    | some r => if r.2.used < p.2.used then some r else some p

/-- One step of making room in a full set: an eviction begins, where none is in progress. -/
def dirEvict (s : State) (l : Nat) : State :=
  if s.coh.reqs.any (fun q => decide (q.r.kind = .evict) && decide (dirSet q.r.line = dirSet l)) then s
  else match leastUsed ((dirPeers s l).filter (fun p => !lineBusy s p.1)) with
    | none => s
    | some p =>
      let id := s.work.next
      let q : ReqX := { r := { id := id, kind := .evict, line := p.1 }, begun := true, at_ := s.time }
      ({ s with work.next := id + 1, coh.reqs := s.coh.reqs ++ [q] } : State).snoop (firstMsgs s q)

/-- An eviction all of whose messages have been answered frees its entry (R226). -/
def evictDone (s : State) (id : Nat) : State :=
  match s.coh.reqs.find? (fun q => decide (q.r.id = id) && decide (q.r.kind = .evict)) with
  | none => s
  | some q => if msgsOut s id then s else (s.putDir q.r.line {}).dropReq id

/-- A request that needs a directory entry: it waits while its set makes room, once more where the answers to its own
messages have freed its line's entry. -/
def homeTakeDir (s : State) (q : ReqX) (perform : State → ReqX → State) : State :=
  if (refusal s q).isNone && !lineHost q.r.line && !(q.begun && msgsOut s q.r.id) && dirFull s q.r.line then dirEvict s q.r.line
  else homeTake s q perform

/-! ### Performing writes -/

/-- The sharers of a written line invalidated for request `q` that has been applied, but the writing core (R216): none
where there is no sharer; else the request stays until every invalidation is acknowledged. -/
def startInv (s : State) (q : ReqX) : Option State :=
  let l := q.r.line
  let ms := if lineHost l then [] else invMsgs s l (some q.r.core) q.r.id
  if ms.isEmpty then none
  else
    let own : BitVec 48 := (1 : BitVec 48) <<< coreCluster q.r.core
    let s := s.useDir l (fun e => { e with sharers := e.sharers &&& own })
    let s := s.modReq q.r.id (fun p => { q with begun := true, applied := true, at_ := s.time, staged := p.staged })
    some (s.snoop ms)

/-- A write applied at its home (R216): it is done at once where no sharer is to be invalidated; otherwise it is
acknowledged (`early`) and is done when every invalidation has been. -/
def doWrite (early : Bool) (s : State) (q : ReqX) : State :=
  let s := applyLine s q.r.line q.r.wm q.r.wd q.r.po
  match startInv s q with
  | none => (s.dropReq q.r.id).reply { kind := .done, r := q.r }
  | some s => if early then s.reply { kind := .ack, r := q.r } else s

/-- A refused push: its words are dirty in their L1 again (R503). DEDUCED: notes/assumptions/39. -/
def redirty (s : State) (r : Req) : State :=
  let s := makeRoom s r.core r.gang r.dom r.line
  s.putL1 r.core r.line ((wordsOf (touched r.wm)).foldl (fun e w =>
    if e.owned w || e.dirty w then e else e.wrDirty w (lineWord r.wd w) 0xF) (s.l1 r.core r.line))

/-- The failure of a request in all its lanes: the die is named for HOME_FENCED and INCARNATION (Table 15-3). -/
def reqErr (r : Req) (c : Cause) : Err :=
  { cause := c, lanes := r.lanes, addr := r.va,
    detail := if c = .homeFenced || c = .incarnation then BitVec.ofNat 32 (lineDie r.line) else 0 }

/-- A failed store: a deferred fault of its lanes (R228). -/
def storeFault (s : State) (r : Req) (c : Cause) : State := addLate s r.gang r.pc (reqErr r c)

/-- An error reply reaches the core. -/
def takeError (s : State) (p : Reply) (c : Cause) : State :=
  let r := p.r
  if r.kind = .push then redirty s r
  else if r.out ≠ 0 then bring s r 0 0 (some c)
  else storeFault s r c

/-! ### The events -/

/-- STAGING_QUEUE (R210): a staged request takes a slot; of one core the oldest that has room goes first. -/
def execStagingQueue (st : State) : Host.Outcome State Fault Refusal :=
  event (match st.coh.reqs[st.op 0]? with
    | none => st
    | some q =>
      if q.staged && !stagedFor st q.r.core (bankOf q.r.line) q.r.id && lsuRoom st q.r.core (bankOf q.r.line) then st.modReq q.r.id (fun q => { q with r := q.r.sent st, staged := false })
      else st)

/-- LSU_AGE_BOOST (R210). -/
def execLsuAgeBoost (st : State) : Host.Outcome State Fault Refusal :=
  event (match st.coh.reqs[st.op 0]? with
    | none => st
    | some q =>
      if !q.begun && decide (4096 ≤ clocksSince st q.at_) then st.modReq q.r.id (fun q => { q with boost := true }) else st)

/-- PAGE_WALK (R208): operands core, domain, virtual address. -/
def execPageWalk (st : State) : Host.Outcome State Fault Refusal :=
  event (if st.op 0 < 192 then fillTlb st (st.op 0) (st.op 1) (st.op 2) else st)

/-- A home's event on request `k`. -/
def homeEvent (st : State) (kd : ReqKind) (f : State → ReqX → State) : Host.Outcome State Fault Refusal :=
  event (match takeReq st (st.op 0) kd with
    | some q => f st q
    | none => st)

/-- RD_THR (R225). -/
def execRdThr (st : State) : Host.Outcome State Fault Refusal := homeEvent st .rdThr (fun s q => homeTake s q answerRead)
/-- RD_SIS (R225). -/
def execRdSis (st : State) : Host.Outcome State Fault Refusal := homeEvent st .rdSis (fun s q => homeTake s q answerRead)
/-- RD_WIS (R225, R226). -/
def execRdWis (st : State) : Host.Outcome State Fault Refusal := homeEvent st .rdWis (fun s q => homeTakeDir s q doRdWis)
/-- RD_OWN (R225, R226). -/
def execRdOwn (st : State) : Host.Outcome State Fault Refusal := homeEvent st .rdOwn (fun s q => homeTakeDir s q doRdOwn)
/-- WR_THR (R216, R225). -/
def execWrThr (st : State) : Host.Outcome State Fault Refusal :=
  homeEvent st .wrThr (fun s q => homeTake s q (doWrite true))
/-- WR_WIS (R216, R225). -/
def execWrWis (st : State) : Host.Outcome State Fault Refusal :=
  homeEvent st .wrWis (fun s q => homeTake s q (doWrite false))
/-- PUSH (R219, R225). -/
def execPushWr (st : State) : Host.Outcome State Fault Refusal :=
  homeEvent st .push (fun s q => homeTake s q (doWrite true))

/-- WRITEBACK (R222, R225): taken at once; a word that its sender no longer owns is ignored. -/
def execWriteback (st : State) : Host.Outcome State Fault Refusal :=
  event (match st.coh.reqs[st.op 0]? with
    | none => st
    | some q =>
      if q.r.kind ≠ .writeback || q.lost then st
      else
        let mine := ownedBy (st.dirOf q.r.line) q.r.words q.r.core
        let s := applyLine st q.r.line (onlyWords mine q.r.wm) q.r.wd q.r.po
        let s := s.putDir q.r.line ((wordsOf mine).foldl DirEnt.clearOwner (s.dirOf q.r.line))
        s.dropReq q.r.id)

/-- The die of a core still passes messages. -/
def coreAnswers (s : State) (c : Nat) : Bool :=
  decide ((s.die (coreDie c)).st = .admitted) || decide ((s.die (coreDie c)).st = .fenced)

/-- Data on its way to core `c` for a line: the access it serves goes first (R220). -/
def dataComing (s : State) (c l : Nat) : Bool :=
  s.coh.replies.any (fun p => decide (p.kind = .data) && decide (p.r.core = c) && decide (p.r.line = l) && p.r.fills)

/-- Snoop `k` replaced, or gone where no word is left. -/
def leaveSnoop (s : State) (k : Nat) (m : Snoop) (left : BitVec 16) : State :=
  evictDone { s with coh.snoops := if left = 0 then dropAt s.coh.snoops k else putAt s.coh.snoops k { m with words := left } } m.req

/-- The acknowledgement of an invalidation. -/
def Snoop.answer (m : Snoop) (s : State) : Ack :=
  { req := m.req, src := m.die, dst := homeDie m.line, route := routeOf s m.die (homeDie m.line), inc := (s.die m.die).inc }

/-- RECALL (R221, Table 7-7): each recalled owned word goes home, its value where it was dirty; a word in the
writeback buffer waits for its writeback. -/
def execRecall (st : State) : Host.Outcome State Fault Refusal :=
  event (match st.snoopAt (st.op 0) with
    | none => st
    | some m =>
      if m.kind ≠ .recall || !coreAnswers st m.dest || dataComing st m.dest m.line then st
      else
        let e := st.l1 m.dest m.line
        let mine := m.words &&& e.om
        let left := bitsTo16 (fun w => m.words.getLsbD w && !mine.getLsbD w && (pendingWb st m.dest m.line w).isSome)
        let s := applyLine st m.line (wholeMask (mine &&& e.dm)) e.data ((e.po ||| m.po) &&& mine &&& e.dm)
        let s := s.putL1 m.dest m.line (e.giveUp mine)
        let s := s.putDir m.line ((wordsOf mine).foldl DirEnt.clearOwner (s.dirOf m.line))
        leaveSnoop s (st.op 0) m left)

/-- FWD_RD (R221, Table 7-7): the owner sends its values and keeps ownership. -/
def execFwdRd (st : State) : Host.Outcome State Fault Refusal :=
  event (match st.snoopAt (st.op 0) with
    | none => st
    | some m =>
      if m.kind ≠ .fwdRd || !coreAnswers st m.dest || dataComing st m.dest m.line then st
      else
        let e := st.l1 m.dest m.line
        let mine := m.words &&& e.om
        let left := bitsTo16 (fun w => m.words.getLsbD w && !mine.getLsbD w && (pendingWb st m.dest m.line w).isSome)
        let s := st.modReq m.req (fun q =>
          { q with got := (wordsOf mine).foldl (fun g w => smSet g w (lineWord e.data w, (e.po ||| m.po).getLsbD w)) q.got })
        leaveSnoop s (st.op 0) m left)

/-- INVALIDATION (R216, R220, R221): every core of the cluster but the writer drops its S sectors, after the accesses that
data on its way serves. -/
def execInvalidation (st : State) : Host.Outcome State Fault Refusal :=
  event (match st.snoopAt (st.op 0) with
    | none => st
    | some m =>
      let cs := ((List.range 4).map (fun k => 4 * m.dest + k)).filter (fun c => decide (some c ≠ m.skip))
      if m.kind ≠ .inv || !coreAnswers st (4 * m.dest) || cs.any (fun c => dataComing st c m.line) then st
      else
        let s := cs.foldl (fun s c => s.putL1 c m.line ((s.l1 c m.line).dropS)) st
        { s with coh.snoops := dropAt st.coh.snoops (st.op 0), coh.acks := st.coh.acks ++ [m.answer st] })

/-- INVALIDATION_ACK (R216): with the last one a write that has been applied is done. -/
def execInvalidationAck (st : State) : Host.Outcome State Fault Refusal :=
  event (match st.ackAt (st.op 0) with
    | none => st
    | some a =>
      let id := a.req
      let s := { st with coh.acks := dropAt st.coh.acks (st.op 0) }
      match s.coh.reqs.find? (fun q => decide (q.r.id = id)) with
      | some q =>
        if q.r.kind = .evict then evictDone s id
        else if !q.applied || msgsOut s id then s
        else if q.r.kind = .atomic && decide (q.op = 14) then
          (s.dropReq id).reply { kind := .data, r := q.r, data := q.r.wd, bad := q.bad }
        else (s.dropReq id).reply { kind := .done, r := q.r, freed := q.acked }
      | none => s)

/-- The lanes of an atomic whose results its reply brings poisoned, and their failure (R495). -/
def lostLanes (p : Reply) : List AtLane :=
  p.ats.filter (fun a => p.po.getLsbD (wordIx a.pa) || (p.wide && p.po.getLsbD (wordIx (a.pa + 4))))
def lostErr (p : Reply) : Option Err :=
  match lostLanes p with
  | [] => none
  | a :: as => some { cause := .poisonRd, lanes := lanesOf ((a :: as).map (fun q => q.lane)), addr := a.va }

/-- Atomic results gathered by an outstanding atomic: values by register key, failed lanes (R261, R267). -/
def bringAtomic (s : State) (p : Reply) : State :=
  match smFind s.work.outs p.r.out with
  | none => s
  | some o =>
    let lost := (lostLanes p).map (fun a => a.lane)
    let vs := (p.res.filter (fun q => !lost.contains (q.1 % 32))).map (fun q => (q.1, loW q.2))
    let o := { o with left := o.left - 1, wrV := o.wrV ++ vs, err := joinErr (joinErr o.err p.bad) (lostErr p) }
    closeIfDone { s with work.outs := smSet s.work.outs p.r.out o } p.r.out

/-- The words an atomic wrote, in the issuing L1's V and S copies (R259). -/
def atomicCopy (s : State) (p : Reply) : State :=
  let e := s.l1 p.r.core p.r.line
  s.putL1 p.r.core p.r.line ((wordsOf (touched p.r.wm)).foldl (fun e w =>
    if (decide (e.sec w = .v) || decide (e.sec w = .s)) && !e.dirty w then
      (let e := e.merge w (lineWord p.data w) 0xF
       if p.po.getLsbD w then { e with po := e.po ||| wordBit w } else e)
    else e) e)

/-- LOAD_REPLY (R214, R219 to R221): data, ownership or atomic results. -/
def execLoadReply (st : State) : Host.Outcome State Fault Refusal :=
  event (match st.arriving (st.op 0) with
    | none => st
    | some p =>
      if p.kind ≠ .data then st
      else if p.r.kind = .atomic then bringAtomic (atomicCopy (st.takeReply (st.op 0)) p) p
      else if p.r.kind = .barrier then st
      else takeData (st.takeReply (st.op 0)) p)

/-- STORE_ACK (R214, R215): ACK or DONE of a store or a push. -/
def execStoreAck (st : State) : Host.Outcome State Fault Refusal :=
  event (match st.arriving (st.op 0) with
    | none => st
    | some p => if p.kind = .ack || p.kind = .done then st.takeReply (st.op 0) else st)

/-- ERROR_REPLY (R228, R499, R503). -/
def execErrorReply (st : State) : Host.Outcome State Fault Refusal :=
  event (match st.arriving (st.op 0) with
    | none => st
    | some p =>
      match p.kind with
      | .error c =>
        if p.r.kind = .barrier then st
        else if p.r.kind = .atomic && decide (p.r.out ≠ 0) then
          bringAtomic (st.takeReply (st.op 0)) { p with bad := some (reqErr p.r c) }
        else takeError (st.takeReply (st.op 0)) p c
      | _ => st)

/-- The source blocks that a copy has still to read for its line operations. -/
def blocksLeft (c : Copy) : List Nat := (c.lines.flatten.map (fun q => q.src / 64)).dedup

/-- A copy whose host read of its `l`-th remaining source block, or the zero-length read after its host write, gets an
error completion or none (R335, R344). -/
def loseHostRead (l : Nat) (p : Nat × CopyX) : Nat × CopyX :=
  let c := p.2.c
  if c.sps = 6 then
    match (blocksLeft c)[l]? with
    | none => p
    | some b => (p.1, { p.2 with c := { c with bad := smSet c.bad b { cause := .hostErr, addr := BitVec.ofNat 64 (64 * b) } } })
  else if c.spd = 6 then
    (p.1, { p.2 with c := { c with bad := c.lines.flatten.foldl (fun m q =>
      smSet m (q.src / 64) { cause := .hostErr, addr := BitVec.ofNat 64 (q.dst / 64 * 64) }) c.bad } })
  else p

/-- AER records a completion that does not come (R507). PRESUMED: notes/assumptions/177. -/
def noCompletion (s : State) : State := { s with host.aer := s.host.aer ||| ((1 : Word) <<< 14) }

/-- COMPLETION_TIMEOUT (R229, R344): a host read that gets an error completion, or none in the PCIe completion timeout,
fails. Operand 0 counts the requests, and after them the copies in flight; operand 1 is the block of a copy. -/
def execCompletionTimeout (st : State) : Host.Outcome State Fault Refusal :=
  event (match st.coh.reqs[st.op 0]? with
    | none =>
      (match st.eng.copies[st.op 0 - st.coh.reqs.length]? with
       | none => st
       | some c =>
         { noCompletion st with eng.copies := st.eng.copies.map (fun p => if p.1 = c.1 then loseHostRead (st.op 1) p else p) })
    | some q =>
      if lineHost q.r.line && !q.begun && (decide (q.r.kind = .rdThr) || decide (q.r.kind = .rdSis) || decide (q.r.kind = .rdWis))
      then refuse (noCompletion st) q .hostErr else st)

/-! ### Soft errors in an L1 (R229) -/

/-- An error recorded in a die's block (Table 16-4): the last cause and its die-local address. -/
def recordErr (s : State) (d : Nat) (c : Cause) (la : Nat) : State :=
  s.modDie d (fun e => { e with err := { e.err with lcause := BitVec.ofNat 7 c.code, laddr := BitVec.ofNat 64 la } })

/-- ECC_L1 (R229): operands core and the package address of a word. An owned or dirty word goes home marked poisoned,
after another core's owned value of it; loads of the core whose read of the word is in progress raise ECC_L1. -/
def execEccL1 (st : State) : Host.Outcome State Fault Refusal :=
  let c := st.op 0
  let a := st.op 1 / 4 * 4
  let l := lineOf a
  let w := wordIx a
  let e := st.l1 c l
  event (if !(e.owned w || e.dirty w) || decide (192 ≤ c) then st
    else
      let s := (if lineHost l then st else recallWords st l (wordBit w)).putWord a (lineWord e.data w) 0xF true
      let s := if lineHost l then s else invalidateSharers s l (some c)
      let e := ((s.l1 c l).giveUp (wordBit w)).clean (wordBit w)
      let s := s.putL1 c l (if e.valid w then { e with po := e.po ||| wordBit w } else e)
      let s := recordErr s (if lineHost l then coreDie c else lineDie l) .eccL1 (a % 2 ^ 48)
      { s with work.outs := s.work.outs.map (fun p =>
          let mine := p.2.hits.filter (fun q => decide (q.pa = a))
          let here := (((s.gang p.2.gang).bind (fun g => s.crew g.crew)).bind (fun w => w.core?)) = some c
          if here && !mine.isEmpty then (p.1, { p.2 with err := joinErr p.2.err (loadErr .eccL1 mine) }) else p) })

end Sys2Proof.Machine
end

