-- ==== Sys2Proof/Machine/Atomics.lean ====
section
/-! DEFINITION. The atomics (9.1, 9.2): their checks, the operation of a lane, requests to the homes, and the atomic
units of Pound and Basin. -/

namespace Sys2Proof.Machine
open Sys2Proof

/-! ### Scopes and releases at issue -/

/-- FENCE_SCOPE (R241). -/
def scopeTrap (x : Cx) (sc : Nat) : TrapReq := { cause := .fenceScope, lanes := x.all, detail := BitVec.ofNat 32 sc }

/-- A word with a release side: it does not issue until that side has been performed (R518); a push that meets a fenced
home raises HOME_FENCED at the word (R503). Where the chain's release sides have been performed, its effect follows. -/
def afterRelease (st : State) (x : Cx) (wide : Bool) (body : Res) : Res :=
  if x.cur.released then body
  else match release st x.cur.gang x.core x.dom x.cur.grp wide with
  | .ok => body
  | .wait s => .hold s
  | .bad d => .trap st { cause := .homeFenced, lanes := x.all, detail := BitVec.ofNat 32 d }

/-! ### The operation of a lane (Table 9-2) -/

/-- The value of a floating-point add: NaNs canonical, no flush. -/
def atomFadd (f : Fmt) (old v : Nat) : Nat := enc f (round f 0 (sumV 0 [val f old, val f v]))

/-- FAMAX of two patterns, no flush. -/
def atomFamax (f : Fmt) (old v : Nat) : Nat := enc f (minMaxNum pickMore (val f old).abs (val f v).abs)

/-- The lesser or greater of two words or pairs under an order. -/
def atomPick (lt : Nat → Nat → Bool) (more : Bool) (old v : Nat) : Nat :=
  if more then (if lt old v then v else old) else (if lt v old then v else old)

/-- The signed order of `n`-bit patterns. -/
def sltN (n a b : Nat) : Bool := (BitVec.ofNat n a).slt (BitVec.ofNat n b)

/-- AtomOp: the new value where the operation writes; `n` is 32 or 64. -/
def atomOp (op n old v v2 : Nat) : Option Nat :=
  let f : Fmt := if n = 64 then .f64 else .f32
  match op with
  | 0 => some ((old + v) % 2 ^ n)
  | 1 => some (atomPick (sltN n) false old v)
  | 2 => some (atomPick (fun a b => decide (a < b)) false old v)
  | 3 => some (atomPick (sltN n) true old v)
  | 4 => some (atomPick (fun a b => decide (a < b)) true old v)
  | 5 => some (old &&& v)
  | 6 => some (old ||| v)
  | 7 => some (old ^^^ v)
  | 8 => some v
  | 9 => if old = v then some v2 else none
  | 10 => some (atomFadd f old v)
  | 11 => some (atomFamax f old v)
  | 12 => some 0
  | 14 => some v
  | _ => none

/-- The value returned: what the word held, a NaN of ATOM.fadd canonical (R263). -/
def atomOld (op n old : Nat) : Nat :=
  let f : Fmt := if n = 64 then .f64 else .f32
  if op = 10 && (val f old).isNan then f.qnan else old

/-! ### A request performed at its unit (R260, R267) -/

/-- What a unit has made of the lanes so far: state, results by register key, failed lanes, words written. -/
structure AtDone where
  s : State
  res : List (Nat × DWord) := []
  bad : List AtLane := []
  words : List Nat := []

/-- The value at a lane's address, in storage, of 32 or 64 bits. -/
def atomRead (s : State) (n a : Nat) : Nat := if n = 64 then (getDWord s.mem a).toNat else (getWord s.mem a).toNat

/-- A lane's new value written. -/
def atomWrite (s : State) (n a v : Nat) : State :=
  let s := s.putWord a (BitVec.ofNat 32 v) 0xF false
  if n = 64 then s.putWord (a + 4) (BitVec.ofNat 32 (v / 2 ^ 32)) 0xF false else s

/-- The words of a lane. -/
def atomWords (n a : Nat) : List Nat := if n = 64 then [a, a + 4] else [a]

/-- One lane performed: a poisoned word fails it and writes nothing. DEDUCED: notes/assumptions/49. -/
def atomLane (op n : Nat) (r : AtDone) (l : AtLane) : AtDone :=
  if (atomWords n l.pa).any (fun a => isPoison r.s.poison a) then { r with bad := r.bad ++ [l] }
  else
    let old := atomRead r.s n l.pa
    let out := BitVec.ofNat 64 (atomOld op n old)
    let res := if op = 14 then []
      else if n = 64 then [(l.dst, out), (l.dst + 32, (hiW out).zeroExtend 64)] else [(l.dst, out)]
    match atomOp op n old l.v.toNat l.v2.toNat with
    | none => { r with res := r.res ++ res }
    | some v => { r with s := atomWrite r.s n l.pa v, res := r.res ++ res, words := r.words ++ atomWords n l.pa }

/-- The lanes of a request in ascending order. -/
def atomLanes (s : State) (op n : Nat) (ls : List AtLane) : AtDone := ls.foldl (atomLane op n) { s := s }

/-- The failure of the lanes that failed: POISON_RD. -/
def atomErr (bad : List AtLane) : Option Err :=
  match bad with
  | [] => none
  | l :: ls => some { cause := .poisonRd, lanes := lanesOf ((l :: ls).map (fun p => p.lane)), addr := l.va }

/-! ### Issue -/

/-- The checks of an ATM word (R266): ATOM_SEG first, ATOM_ALIGN in the place of MISALIGN. DEDUCED: notes/assumptions/48. -/
def atomChecks (st : State) (x : Cx) (op g a n : Nat) : List (Nat × DWord × Except CkFail Nat) :=
  (laneChecks st x g a 0 n .atomic 1).map (fun p =>
    (p.1, p.2.1,
      if (op = 10 || op = 11) && (g = 1 || g = 2) then .error { rank := 0, cause := .atomSeg }
      else match p.2.2 with
        | .error f => .error (if f.cause = .misalign then { f with cause := .atomAlign, detail := 0 } else f)
        | .ok q => .ok q))

/-- The lanes of an ATM word that passed its checks. -/
def atLanes (x : Cx) (op d : Nat) (wide : Bool) (cs : List Chk) : List AtLane :=
  cs.map (fun c =>
    { lane := c.lane, va := c.va, pa := c.pa, v := if wide then x.v2 d c.lane else (x.v d c.lane).zeroExtend 64,
      v2 := if op = 9 then (if wide then x.v2 (d + 2) c.lane else (x.v (d + 1) c.lane).zeroExtend 64) else 0,
      dst := vkey d c.lane })

/-- An atomic performed at a Pound port or a Basin bank: it has returned when it issues. -/
def atomNear (st : State) (x : Cx) (op n : Nat) (acq : Option Bool) (ls : List AtLane) : Res :=
  if ls.any (fun l => scoreHit st l.pa (n / 8)) then .hold st
  else
    let r := atomLanes st op n ls
    let s := r.s.modRegs x (fun g => g.putV (r.res.map (fun p => (p.1, loW p.2))))
    let s := match acq with
      | some w => acquire s x.core w
      | none => s
    .done (match atomErr r.bad with
      | some e => addLate s x.cur.gang x.cur.pc e
      | none => s)

/-- The request of an ATM word to the home of line `l`. -/
def atomReq (x : Cx) (op : Nat) (wide : Bool) (id : Nat) (ls : List AtLane) (l : Nat) : ReqX :=
  let mine := ls.filter (fun p => decide (lineOf p.pa = l))
  let ws := mine.foldl (fun (m : BitVec 16) p =>
    m ||| wordBit (wordIx p.pa) ||| (if wide then wordBit (wordIx (p.pa + 4)) else 0)) 0
  { r := { kind := .atomic, core := x.core, gang := x.cur.gang, dom := x.dom, line := l, words := ws, out := id,
           pc := x.cur.pc, npc := x.cur.last + 1, lanes := lanesOf (mine.map (fun p => p.lane)),
           va := (mine.map (fun p => p.va)).headD 0 },
    op := op, wide := wide, ats := mine }

/-- An atomic in the global segment: dirty copies are pushed first, then one request goes to each line (R259, R260). -/
def atomFar (st : State) (x : Cx) (op d : Nat) (wide : Bool) (acq : Option Bool) (ls : List AtLane) : Res :=
  let words := ls.flatMap (fun l => atomWords (if wide then 64 else 32) l.pa)
  if words.any (fun a => mustWait st x (lineOf a) (wordBit (wordIx a)) true false true) then .hold st
  else
    let push := words.filter (fun a => (st.l1 x.core (lineOf a)).loose (wordIx a))
    let st := pushFor st x 1 push
    if ls.isEmpty then .done (match acq with
      | some w => acquire st x.core w
      | none => st)
    else
      let lines := (ls.map (fun l => lineOf l.pa)).dedup
      let id := st.work.next
      let dst := if op = 14 then [] else if wide then [d, d + 1] else [d]
      let o : Out :=
        { kind := .atomic, gang := x.cur.gang, grp := x.cur.grp, pc := x.cur.pc, npc := x.cur.last + 1,
          left := lines.length, dstV := dst, acq := acq }
      .done ((lines.map (atomReq x op wide id ls)).foldl post (openOut st x o 15))

/-- An ATM word (R266). -/
def atomBody (op : Nat) (o : Fin 4) (sc : Fin 32) (d a : Fin 64) (g : Fin 4) (w : Fin 2) (st : State) (x : Cx) : Res :=
  match x.scopeSet st sc.val with
  | none => .trap st (scopeTrap x sc.val)
  | some set_ =>
    let wide := wideSet set_ x.core
    let big := decide (w.val = 1)
    let n := if big then 64 else 32
    let rs := atomChecks st x op g.val a.val (n / 8)
    let cs := passed st x g.val rs
    let ls := atLanes x op d.val big cs
    let acq := if o.val.testBit 0 && decide (op ≠ 14) then some wide else none
    let body := checkedLanes st x g.val rs
      (if g.val = 0 then atomFar (fillTlbs st x 0 cs) x op d.val big acq ls else atomNear st x op n acq ls)
    if o.val.testBit 1 && decide (op ≠ 13) then afterRelease st x wide body else body

/-- ATOM.add (R263, R266). -/
def execAtomAdd (c : Bool) (o : Fin 4) (s : Fin 32) (d a : Fin 64) (g : Fin 4) (w : Fin 2) (st : State) :
    Host.Outcome State Fault Refusal :=
  issue (.atomAdd c o s d a g w) st (atomBody 0 o s d a g w)

/-- ATOM.min.i (R263, R266). -/
def execAtomMinI (c : Bool) (o : Fin 4) (s : Fin 32) (d a : Fin 64) (g : Fin 4) (w : Fin 2) (st : State) :
    Host.Outcome State Fault Refusal :=
  issue (.atomMinI c o s d a g w) st (atomBody 1 o s d a g w)

/-- ATOM.min.n (R263, R266). -/
def execAtomMinN (c : Bool) (o : Fin 4) (s : Fin 32) (d a : Fin 64) (g : Fin 4) (w : Fin 2) (st : State) :
    Host.Outcome State Fault Refusal :=
  issue (.atomMinN c o s d a g w) st (atomBody 2 o s d a g w)

/-- ATOM.max.i (R263, R266). -/
def execAtomMaxI (c : Bool) (o : Fin 4) (s : Fin 32) (d a : Fin 64) (g : Fin 4) (w : Fin 2) (st : State) :
    Host.Outcome State Fault Refusal :=
  issue (.atomMaxI c o s d a g w) st (atomBody 3 o s d a g w)

/-- ATOM.max.n (R263, R266). -/
def execAtomMaxN (c : Bool) (o : Fin 4) (s : Fin 32) (d a : Fin 64) (g : Fin 4) (w : Fin 2) (st : State) :
    Host.Outcome State Fault Refusal :=
  issue (.atomMaxN c o s d a g w) st (atomBody 4 o s d a g w)

/-- ATOM.and (R263, R266). -/
def execAtomAnd (c : Bool) (o : Fin 4) (s : Fin 32) (d a : Fin 64) (g : Fin 4) (w : Fin 2) (st : State) :
    Host.Outcome State Fault Refusal :=
  issue (.atomAnd c o s d a g w) st (atomBody 5 o s d a g w)

/-- ATOM.or (R263, R266). -/
def execAtomOr (c : Bool) (o : Fin 4) (s : Fin 32) (d a : Fin 64) (g : Fin 4) (w : Fin 2) (st : State) :
    Host.Outcome State Fault Refusal :=
  issue (.atomOr c o s d a g w) st (atomBody 6 o s d a g w)

/-- ATOM.xor (R263, R266). -/
def execAtomXor (c : Bool) (o : Fin 4) (s : Fin 32) (d a : Fin 64) (g : Fin 4) (w : Fin 2) (st : State) :
    Host.Outcome State Fault Refusal :=
  issue (.atomXor c o s d a g w) st (atomBody 7 o s d a g w)

/-- ATOM.xchg (R263, R266). -/
def execAtomXchg (c : Bool) (o : Fin 4) (s : Fin 32) (d a : Fin 64) (g : Fin 4) (w : Fin 2) (st : State) :
    Host.Outcome State Fault Refusal :=
  issue (.atomXchg c o s d a g w) st (atomBody 8 o s d a g w)

/-- ACAS (R263, R266). -/
def execAcas (c : Bool) (o : Fin 4) (s : Fin 32) (d a : Fin 64) (g : Fin 4) (w : Fin 2) (st : State) :
    Host.Outcome State Fault Refusal :=
  issue (.acas c o s d a g w) st (atomBody 9 o s d a g w)

/-- ATOM.fadd (R263, R266). -/
def execAtomFadd (c : Bool) (o : Fin 4) (s : Fin 32) (d a : Fin 64) (g : Fin 4) (w : Fin 2) (st : State) :
    Host.Outcome State Fault Refusal :=
  issue (.atomFadd c o s d a g w) st (atomBody 10 o s d a g w)

/-- ATOM.famax (R263, R266). -/
def execAtomFamax (c : Bool) (o : Fin 4) (s : Fin 32) (d a : Fin 64) (g : Fin 4) (w : Fin 2) (st : State) :
    Host.Outcome State Fault Refusal :=
  issue (.atomFamax c o s d a g w) st (atomBody 11 o s d a g w)

/-- ATOM.xrst (R263, R266). -/
def execAtomXrst (c : Bool) (o : Fin 4) (s : Fin 32) (d a : Fin 64) (g : Fin 4) (w : Fin 2) (st : State) :
    Host.Outcome State Fault Refusal :=
  issue (.atomXrst c o s d a g w) st (atomBody 12 o s d a g w)

/-- ALD (R263, R266). -/
def execAld (c : Bool) (o : Fin 4) (s : Fin 32) (d a : Fin 64) (g : Fin 4) (w : Fin 2) (st : State) :
    Host.Outcome State Fault Refusal :=
  issue (.ald c o s d a g w) st (atomBody 13 o s d a g w)

/-- AST (R263, R266). -/
def execAst (c : Bool) (o : Fin 4) (s : Fin 32) (d a : Fin 64) (g : Fin 4) (w : Fin 2) (st : State) :
    Host.Outcome State Fault Refusal :=
  issue (.ast c o s d a g w) st (atomBody 14 o s d a g w)

/-- ATOMIC_AT_HOME (R258 to R260, R267): operand k. -/
def execAtomicAtHome (st : State) : Host.Outcome State Fault Refusal :=
  homeEvent st .atomic (fun s q => homeTake s q (fun s q =>
    let d := atomLanes s q.op (if q.wide then 64 else 32) q.ats
    let bad := atomErr d.bad
    let wr := wholeMask (bitsTo16 (fun w => d.words.contains (64 * q.r.line + 4 * w)))
    let q := { q with bad := bad, r := { q.r with wm := wr, wd := getLine d.s.mem q.r.line } }
    let p : Reply := { kind := .data, r := q.r, data := getLine d.s.mem q.r.line, res := d.res, bad := bad, ats := q.ats, wide := q.wide }
    match (if wr = 0 then none else startInv d.s q) with
    | none => (d.s.dropReq q.r.id).reply p
    | some s => if q.op = 14 then s else s.reply p))

end Sys2Proof.Machine
end

