-- ==== Sys2Proof/Machine/Control.lean ====
section
/-! DEFINITION. The control-flow instructions (chapter 3); EXIT stands with the end of gangs and crews in Tasks. -/

namespace Sys2Proof.Machine
open Sys2Proof

/-- The slices of the issuing group changed by `f` of their number. -/
def State.modSl (s : State) (x : Cx) (f : Nat → Slice → Slice) : State :=
  s.modGang x.cur.gang (fun g =>
    { g with slices := g.slices.zipIdx.map (fun p => if x.cur.grp.getLsbD p.2 then f p.2 p.1 else p.1) })

/-- What a waiting word has kept since its issue; nothing at its first issue, and nothing on resume, where it issues
again. -/
def Cx.held (x : Cx) : List Nat :=
  if x.cur.retry then ((x.gang.slice (firstSlice x.cur.grp)).block.map (fun b => b.args)).getD [] else []

/-- What a word that may wait acts with: what it read when it issued (R241). -/
def Cx.heldOr (x : Cx) (as : List Nat) : List Nat := if x.held.isEmpty then as else x.held

/-- The group waits, and its word keeps `as`. -/
def keepArgs (st : State) (x : Cx) (as : List Nat) : State :=
  st.modSl x (fun _ sl => { sl with block := some { sl.block.getD {} with args := as } })

/-- A signed word offset from the word at `w` (R45). -/
def relPc (w : Word) (n o : Nat) : Word := w + (BitVec.ofNat n o).signExtend 32

/-- A PC from a number, saturating at the last. DEDUCED: notes/assumptions/20. -/
def satPc (n : Nat) : Word := if n < 2 ^ 32 then BitVec.ofNat 32 n else 0xFFFFFFFF

/-- The PC that a register-held byte address selects (R26, R87). -/
def pcOf (g : Seg) (tb : DWord) : Word :=
  if g.base ≤ tb then satPc ((tb - g.base).toNat / 4) else satPc (codeLimit g)

/-- The lanes of the slices of the group for which `p` holds. -/
def slicesLanes (x : Cx) (p : Nat → Bool) : Word := grpLanes (sliceMask ((grpSlices x.cur.grp).filter p))

/-- NOP (R84). -/
def execNop (c : Bool) (st : State) : Host.Outcome State Fault Refusal := issue (.nop c) st (fun st _ => .done st)

/-- BRA (R85). -/
def execBra (o : Fin 4194304) (st : State) : Host.Outcome State Fault Refusal :=
  issue (.bra o) st (fun st x => .ctl (st.modSl x (fun _ sl => sl.jump x.cur.pc (relPc x.cur.pc 22 o.val))))

/-- The outcome of BR for each slice of the group; none where it raises BR_NONUNI (R67). -/
def brTaken (x : Cx) (m : Fin 8) (n : Fin 2) (k : Fin 4) (slice : Nat) : Option Bool :=
  (sliceCond (x.m m.val) (x.src.slice slice).x slice k.val).map (fun b => b != decide (n.val = 1))

/-- BR (R67, R68, R86). -/
def brBody (m : Fin 8) (n : Fin 2) (k : Fin 4) (o : Fin 65536) (st : State) (x : Cx) : Res :=
  let t := brTaken x m n k
  if (grpSlices x.cur.grp).any (fun j => (t j).isNone) then
    .trap st { cause := .brNonuni, lanes := slicesLanes x (fun j => (t j).isNone) }
  else
    let tm := sliceMask ((grpSlices x.cur.grp).filter (fun j => t j == some true))
    let nm := sliceMask ((grpSlices x.cur.grp).filter (fun j => t j == some false))
    .ctl (st.modSl x (fun j sl =>
      if tm.getLsbD j then { sl.jump x.cur.pc (relPc x.cur.pc 16 o.val) with grp := tm }
      else { sl.advance x.cur.pc with grp := nm }))

def execBr (m : Fin 8) (n : Fin 2) (k : Fin 4) (o : Fin 65536) (st : State) : Host.Outcome State Fault Refusal :=
  issue (.br m n k o) st (brBody m n k o)

/-- PC_ALIGN of a register-held target (R26). -/
def alignTrap (x : Cx) (g : Seg) (tb : DWord) : TrapReq :=
  { cause := .pcAlign, lanes := x.all, addr := tb, detail := pcOf g tb }

/-- BRX (R87). -/
def execBrx (a : Fin 64) (st : State) : Host.Outcome State Fault Refusal :=
  issue (.brx a) st (fun st x =>
    let tb := x.s2 a.val
    if tb.toNat % 4 ≠ 0 then .trap st (alignTrap x (x.code st) tb)
    else .ctl (st.modSl x (fun _ sl => sl.jump x.cur.pc (pcOf (x.code st) tb))))

/-- CALL (R82, R85). -/
def execCall (o : Fin 4194304) (st : State) : Host.Outcome State Fault Refusal :=
  issue (.call o) st (fun st x =>
    let link := (x.code st).base + BitVec.ofNat 64 (4 * (x.cur.pc.toNat + 1))
    .ctl ((st.putS2 x 62 link).modSl x (fun _ sl => { sl with pc := relPc x.cur.pc 22 o.val })))

/-- RET (R87). -/
def execRet (st : State) : Host.Outcome State Fault Refusal :=
  issue .ret st (fun st x =>
    let tb := x.s2 62
    if tb.toNat % 4 ≠ 0 then .trap st (alignTrap x (x.code st) tb)
    else .ctl (st.modSl x (fun _ sl => { sl with pc := pcOf (x.code st) tb })))

/-- The loop a LOOP word at `w` would push runs past the code segment or out of the enclosing body (R78, R88). DEDUCED: notes/assumptions/23. -/
def loopBad (limit : Nat) (w : Word) (bl : Nat) (sl : Slice) : Bool :=
  decide (bl = 0) || decide (limit ≤ w.toNat + bl) ||
    (match sl.loops with
     | e :: _ => inBody e w && decide (e.stop.toNat < w.toNat + bl)
     | [] => false)

/-- LOOP and LOOPI with count `n` and body length `bl` (R88). -/
def loopBody (n : Word) (bl : Nat) (st : State) (x : Cx) : Res :=
  let w := x.cur.pc
  let limit := codeLimit (x.code st)
  let depth := BitVec.ofNat 32 (x.src.slice (firstSlice x.cur.grp)).loops.length
  let bad := slicesLanes x (fun j => loopBad limit w bl (x.src.slice j))
  let full := slicesLanes x (fun j => decide (n ≠ 0) && decide (4 ≤ (x.src.slice j).loops.length))
  if bad ≠ 0 then .trap st { cause := .loopBad, lanes := bad, detail := depth }
  else if full ≠ 0 then .trap st { cause := .loopOvf, lanes := full, detail := depth }
  else
    let stop := w + BitVec.ofNat 32 bl
    .ctl (st.modSl x (fun _ sl =>
      if n = 0 then sl.advance stop
      else { sl with loops := { start := w + 1, stop := stop, count := n } :: sl.loops, pc := w + 1 }))

/-- LOOP (R88). -/
def execLoopS (d : Fin 64) (l : Fin 65536) (st : State) : Host.Outcome State Fault Refusal :=
  issue (.loopS d l) st (fun st x => loopBody (x.s d.val) l.val st x)

/-- LOOPI (R88). -/
def execLoopi (n : Fin 4096) (l : Fin 1024) (st : State) : Host.Outcome State Fault Refusal :=
  issue (.loopi n l) st (loopBody (BitVec.ofNat 32 n.val) l.val)

/-- LBRK (R89). -/
def execLbrk (st : State) : Host.Outcome State Fault Refusal :=
  issue .lbrk st (fun st x =>
    let bad := slicesLanes x (fun j => (x.src.slice j).loops.isEmpty)
    if bad ≠ 0 then .trap st { cause := .loopBad, lanes := bad }
    else .ctl (st.modSl x (fun _ sl =>
      match sl.loops with
      | [] => sl
      | e :: es => { sl with loops := es }.advance e.stop)))

/-- The slices of the group begin the repeat of the word after REP (R90). -/
def startRepeat (st : State) (x : Cx) : State :=
  st.modSl x (fun _ sl => { sl with rep := some { j := 0, word := x.cur.word }, pc := x.cur.pc + 1 })

/-- REP (R78, R79, R90): the target word is read as it will be fetched. DEDUCED: notes/assumptions/21. -/
def repBody (st : State) (x : Cx) : Res :=
  let g := x.code st
  match fetchWord st x.core x.dom g (x.cur.pc + 1) with
  | .error f => .trap st
      { cause := f.cause, lanes := x.all, detail := f.detail,
        addr := if f.cause = .codeLimit then 0 else g.base + BitVec.ofNat 64 (4 * (x.cur.pc.toNat + 1)) }
  | .ok tw =>
    let onEnd := slicesLanes x (fun j =>
      match (x.src.slice j).loops with
      | e :: _ => decide (e.stop = x.cur.pc)
      | [] => false)
    if chainBit tw.toNat || !repeatable (fld tw.toNat 27 4) || stepsBad x.cur.word.toNat tw.toNat then
      .trap st { cause := .repBad, lanes := x.all, detail := x.cur.word }
    else if onEnd ≠ 0 then
      .trap st { cause := .loopBad, lanes := onEnd,
                 detail := BitVec.ofNat 32 (x.src.slice (firstSlice x.cur.grp)).loops.length }
    else .ctl (startRepeat st x)

/-- REP's counts and steps are read again from its word at each repetition (Table 3-3). -/
def execRep (n : Fin 64) (d a b e : Fin 4) (st : State) : Host.Outcome State Fault Refusal :=
  issue (.rep n d a b e) st repBody

/-- The bits of slice `j` in a mask word. -/
def sliceBits (m : Word) (j : Nat) : BitVec 4 := m.extractLsb' (4 * j) 4

/-- SETX (R91). -/
def execSetx (c : Bool) (m : Fin 8) (st : State) : Host.Outcome State Fault Refusal :=
  issue (.setx c m) st (fun st x => .done (st.modSl x (fun j sl => { sl with x := sliceBits (x.m m.val) j })))

/-- ANDX (R91). -/
def execAndx (c : Bool) (m : Fin 8) (st : State) : Host.Outcome State Fault Refusal :=
  issue (.andx c m) st (fun st x => .done (st.modSl x (fun j sl => { sl with x := sl.x &&& sliceBits (x.m m.val) j })))

/-- ORX (R91). -/
def execOrx (c : Bool) (m : Fin 8) (st : State) : Host.Outcome State Fault Refusal :=
  issue (.orx c m) st (fun st x => .done (st.modSl x (fun j sl => { sl with x := sl.x ||| sliceBits (x.m m.val) j })))

/-- REGANG (R70, R92): the group enters the join wait; the join itself resolves when the chain has issued. -/
def execRegang (c : Bool) (i : Fin 65536) (st : State) : Host.Outcome State Fault Refusal :=
  issue (.regang c i) st (fun st x =>
    .block (st.fresh.modSl x (fun _ sl => { sl with join := some (BitVec.ofNat 16 i.val), joinAt := st.work.next })))

/-- YIELD (R93): the issue itself sets the group's age to zero and cancels its boost. -/
def execYield (st : State) : Host.Outcome State Fault Refusal :=
  issue .yield st (fun st x => .done (st.modSl x (fun _ sl => { sl with age := 0, boost := false })))

/-- WAITLA (R95): with other words in its chain it waits for theirs too. -/
def execWaitla (c : Bool) (st : State) : Host.Outcome State Fault Refusal :=
  issue (.waitla c) st (fun st x =>
    if noOuts x.gang x.cur.grp && (x.cur.retry || decide (x.cur.pc = x.cur.last)) then .done st else .block st)

/-- AGE_BOOST (R61): an issue group that has been ready for 4,096 clocks without issuing is raised until it next issues. -/
def execAgeBoost (st : State) : Host.Outcome State Fault Refusal :=
  let m : BitVec 8 := BitVec.ofNat 8 (st.op 1)
  event (st.modGang (st.op 0) (fun g =>
    if (liveGroups g).contains m then
      g.modSlices m (fun sl => if 4096 ≤ sl.age then { sl with boost := true } else sl)
    else g))

end Sys2Proof.Machine
end

