-- ==== Sys2Proof/Machine/Barriers.lean ====
section
/-! DEFINITION. Barrier registers and memory barrier objects (9.3 to 9.5): every change to a barrier, and the barrier
instructions in both forms. -/

namespace Sys2Proof.Machine
open Sys2Proof

/-! ### Barrier registers (R268 to R274) -/

/-- Barrier `b` of a crew, and the crew's state with it replaced. -/
def CrewEng.bar (e : CrewEng) (b : Nat) : Barrier := smGet {} e.bars b
def CrewEng.setBar (e : CrewEng) (b : Nat) (v : Barrier) : CrewEng := { e with bars := smPut {} e.bars b v }

/-- The phase test, made after every change (R270). -/
def Barrier.tryComplete (b : Barrier) : Barrier :=
  if b.i && !b.p && decide (b.arr = 0) && decide (b.dp = 0) && decide (b.txb = 0) then
    { b with ph := b.ph + 1, arr := b.exp, xa := false, td := false }
  else b

/-- Room for slice arrivals (R271). -/
def Barrier.room (b : Barrier) : Nat := if b.t && !b.td then b.arr - 1 else b.arr

/-- The transfer unit's arrival, where TXB is 0 and it is armed (R272); ARR is 12 bits and wraps (R6). -/
def Barrier.unitArrives (b : Barrier) : Barrier :=
  if decide (b.txb = 0) && b.xa then { b with xa := false, td := true, arr := (b.arr + 4095) % 4096 } else b

/-- A change to barrier `b` of a crew, with the phase test that follows it. -/
def State.modBar (s : State) (crew b : Nat) (f : Barrier → Barrier) : State :=
  s.modCeng crew (fun e => e.setBar b ((f (e.bar b)).tryComplete))

/-- The groups of a crew that wait on barrier `b` take note that its bytes overran (R272). -/
def burstWaiters (s : State) (crew b : Nat) : State :=
  { s with work.gangs := s.work.gangs.map (fun p =>
      if p.2.crew = crew then
        (p.1, { p.2 with slices := p.2.slices.map (fun sl =>
          { sl with block := sl.block.map (fun w => if w.bar = some b then { w with burst := true } else w) }) })
      else p) }

/-- `n` bytes land against barrier `b` (R272). -/
def landBytes (s : State) (crew b n : Nat) : State :=
  let v := (s.ceng crew).bar b
  if !v.i || v.p || !v.bc then s
  else if v.txb < n then burstWaiters (s.modBar crew b (fun v => { v with txb := 0, p := true })) crew b
  else s.modBar crew b (fun v => { v with txb := v.txb - n }.unitArrives)

/-- A failure recorded in CE where none is pending; BAR_UNINIT where the barrier is not initialised (R274). -/
def recordCE (s : State) (crew b : Nat) (c : Cause) (info : Word) (addr : DWord) : State :=
  s.modBar crew b (fun v =>
    if v.ce ≠ 0 then v
    else if !v.i then { v with ce := BitVec.ofNat 7 Cause.barUninit.code, info := BitVec.ofNat 32 b, addr := 0 }
    else { v with ce := BitVec.ofNat 7 c.code, info := info, addr := addr })

/-- An engine request's arrival, without a room check (R273). -/
def engineArrives (s : State) (crew b : Nat) : State :=
  let v := (s.ceng crew).bar b
  let me := BitVec.ofNat 32 b
  if !v.i then recordCE s crew b .barUninit me 0
  else if v.p then s
  else if v.arr = 0 then recordCE (s.modBar crew b (fun v => { v with p := true })) crew b .barArrOverrun me 0
  else s.modBar crew b (fun v => { v with arr := v.arr - 1 })

/-- Key of a gang's unbound count for a barrier. -/
def ubKey (g b : Nat) : Nat := 16 * g + b

/-- A copy of gang `g` (its index in the crew) is issued against barrier `b` (R273). -/
def bindCopy (s : State) (crew g b : Nat) : State :=
  s.modCeng crew (fun e => { e with unbound := smPut 0 e.unbound (ubKey g b) (smGet 0 e.unbound (ubKey g b) + 1) })

/-- A copy of gang `g` against `b` is over: an unbound copy leaves the unbound count, a bound one its binding, and a
binding whose count reaches 0 gives up its deferred arrivals. Which copy was bound is told by `bound`. -/
def unbindCopy (s : State) (crew g b : Nat) (bound : Option Nat) : State :=
  match bound with
  | none => s.modCeng crew (fun e => { e with unbound := smPut 0 e.unbound (ubKey g b) (smGet 0 e.unbound (ubKey g b) - 1) })
  | some k =>
    match (s.ceng crew).binds.find? (fun p => decide (p.num = k)) with
    | none => s
    | some p =>
      if p.copies = 1 then
        (s.modCeng crew (fun e => { e with binds := e.binds.filter (fun q => decide (q.num ≠ k)) })).modBar crew b
          (fun v => { v with dp := v.dp - p.arrivals })
      else s.modCeng crew (fun e =>
        { e with binds := e.binds.map (fun q => if q.num = k then { q with copies := q.copies - 1 } else q) })

/-- A copy in flight against barrier `b` of a crew, freed of its count or binding by a BINIT (R285). -/
def freeCopy (crew b : Nat) (p : Nat × CopyX) : Nat × CopyX :=
  if p.2.c.gang / 16 = crew && decide (p.2.c.bar = b) then (p.1, { p.2 with bound := some 0 }) else p

/-- A copy in flight that a BARD of gang `gk` binds (R287). -/
def boundCopy (gk b num : Nat) (p : Nat × CopyX) : Nat × CopyX :=
  if p.2.c.gang = gk && decide (p.2.c.bar = b) && p.2.bound.isNone then (p.1, { p.2 with bound := some num }) else p

/-! ### The barrier register instructions -/

/-- A barrier's trap: every lane of the group, the barrier's number. -/
def barTrap (x : Cx) (c : Cause) (b : Nat) : TrapReq := { cause := c, lanes := x.all, detail := BitVec.ofNat 32 b }

/-- The slices of the issuing group. -/
def Cx.nSlices (x : Cx) : Nat := (grpSlices x.cur.grp).length

/-- The unbound copies of the gang on `b` that the word's own chain has forked. -/
def chainBound (s : State) (x : Cx) (b : Nat) : Nat :=
  (s.eng.copies.filter (fun p => x.newer p.1 && decide (p.2.c.gang = x.cur.gang) && decide (p.2.c.bar = b))).length

/-- BINIT, register form (R285). -/
def execBinit (c : Bool) (b : Fin 16) (x : Fin 64) (st : State) : Host.Outcome State Fault Refusal :=
  issue (.binit c b x) st (fun st y =>
    let v := y.s x.val
    let t := v.getLsbD 12
    let bc := v.getLsbD 13
    let ex := fld v.toNat 0 12
    if ex = 0 || (t && !bc) then .trap st (barTrap y .barUninit b.val)
    else
      let keep := smPut 0 ((st.ceng y.crewNo).unbound.filter (fun p => decide (p.1 % 16 ≠ b.val))) (ubKey y.gang.ix b.val)
        (chainBound st y b.val)
      let st := st.modCeng y.crewNo (fun e =>
        { e with binds := e.binds.filter (fun p => decide (p.bar ≠ b.val)), unbound := keep })
      let st := { st with eng.copies := st.eng.copies.map (fun (p : Nat × CopyX) => if y.newer p.1 then p else freeCopy y.crewNo b.val p) }
      .done (st.modBar y.crewNo b.val (fun v => { i := true, t := t, bc := bc, arr := ex, exp := ex, ph := v.ph })))

/-- BARR, register form (R286). -/
def execBarr (c : Bool) (b : Fin 16) (st : State) : Host.Outcome State Fault Refusal :=
  issue (.barr c b) st (fun st x =>
    afterRelease st x false (
      let v := (st.ceng x.crewNo).bar b.val
      if !v.i then .trap st (barTrap x .barUninit b.val)
      else if v.p then .trap st (barTrap x .barPoisoned b.val)
      else if v.room < x.nSlices then .trap st (barTrap x .barArrOverrun b.val)
      else .done (st.modBar x.crewNo b.val (fun v => { v with arr := v.arr - x.nSlices }))))

/-- The bindings of a gang on a barrier. -/
def bindsOf (s : State) (crew g b : Nat) : Nat :=
  ((s.ceng crew).binds.filter (fun p => decide (p.gang = g) && decide (p.bar = b))).length

/-- BARD's effect: arrivals, and where the gang has unbound copies in flight a binding that holds them (R287). -/
def bardEffect (st : State) (x : Cx) (b : Nat) : State :=
  let k := x.nSlices
  let new := chainBound st x b
  let n := smGet 0 (st.ceng x.crewNo).unbound (ubKey x.gang.ix b) - new
  let st := { st with work.next := st.work.next + 1 }
  let num := st.work.next
  if n = 0 then st.modBar x.crewNo b (fun v => { v with arr := v.arr - k })
  else
    let st := { st with eng.copies := st.eng.copies.map (fun (p : Nat × CopyX) => if x.newer p.1 then p else boundCopy x.cur.gang b num p) }
    let st := st.modCeng x.crewNo (fun e =>
      { e with binds := e.binds ++ [{ gang := x.gang.ix, bar := b, copies := n, arrivals := k, num := num }],
               unbound := smPut 0 e.unbound (ubKey x.gang.ix b) new })
    st.modBar x.crewNo b (fun v => { v with arr := v.arr - k, dp := v.dp + k })

/-- BARD (R287): with four bindings of its gang on the barrier it stalls. -/
def execBard (c : Bool) (b : Fin 16) (st : State) : Host.Outcome State Fault Refusal :=
  issue (.bard c b) st (fun st x =>
    afterRelease st x false (
      let v := (st.ceng x.crewNo).bar b.val
      if !v.i then .trap st (barTrap x .barUninit b.val)
      else if v.p then .trap st (barTrap x .barPoisoned b.val)
      else if v.room < x.nSlices then .trap st (barTrap x .barArrOverrun b.val)
      else if 4 ≤ bindsOf st x.crewNo x.gang.ix b.val then .hold st
      else .done (bardEffect st x b.val)))

/-- BEXP (R288). -/
def execBexp (c : Bool) (b : Fin 16) (x : Fin 64) (st : State) : Host.Outcome State Fault Refusal :=
  issue (.bexp c b x) st (fun st y =>
    let v := (st.ceng y.crewNo).bar b.val
    let n := (y.s x.val).toNat
    if !v.i || !v.bc then .trap st (barTrap y .barUninit b.val)
    else if v.p then .trap st (barTrap y .barPoisoned b.val)
    else if 8388607 < v.txb + n then .trap st (barTrap y .barTxOverrun b.val)
    else .done (st.modBar y.crewNo b.val (fun v =>
      { v with txb := v.txb + n, xa := v.xa || (v.t && !v.td) }.unitArrives)))

/-- The group waits on barrier `b`. -/
def waitOn (st : State) (x : Cx) (b : Nat) : State :=
  st.modSl x (fun _ sl => { sl with block := some { sl.block.getD {} with bar := some b } })

/-- BWAIT, register form (R289): the token is that of its issue; CE is raised and cleared; a wait whose barrier's bytes
overran raises BAR_TX_OVERRUN. -/
def bwaitBody (b x : Nat) (st : State) (y : Cx) : Res :=
  let v := (st.ceng y.crewNo).bar b
  let burst := (grpSlices y.cur.grp).any (fun k => ((y.gang.slice k).block.map (fun w => w.burst)).getD false)
  let tok := (y.heldOr [((y.s x).extractLsb' 0 8).toNat]).headD 0
  if y.cur.retry && (burst || v.p) then .trap st (barTrap y .barTxOverrun b)
  else if !v.i then .trap st (barTrap y .barUninit b)
  else if v.p then .trap st (barTrap y .barPoisoned b)
  else match (if v.ce = 0 then none else causeOf v.ce.toNat) with
  | some c =>
    .trap (st.modCeng y.crewNo (fun e => e.setBar b { v with ce := 0, info := 0, addr := 0 }))
      { cause := c, lanes := y.all, addr := v.addr, detail := v.info, kind := .async }
  | none =>
    let d := v.ph - BitVec.ofNat 8 tok
    if d = 0 then .block (waitOn (keepArgs st y [tok]) y b) else .done (st.putS y x (d.zeroExtend 32))

def execBwait (c : Bool) (b : Fin 16) (x : Fin 64) (st : State) : Host.Outcome State Fault Refusal :=
  issue (.bwait c b x) st (bwaitBody b.val x.val)

/-- BTEST's word, register form (R290). -/
def Barrier.testWord (b : Barrier) : Word :=
  BitVec.ofNat 32 (b.i.toNat * 2 ^ 31 + b.p.toNat * 2 ^ 30 + b.t.toNat * 2 ^ 29 + b.xa.toNat * 2 ^ 28 + b.td.toNat * 2 ^ 27 +
    b.bc.toNat * 2 ^ 26 + (decide (b.ce ≠ 0)).toNat * 2 ^ 22 + (decide (b.dp ≠ 0)).toNat * 2 ^ 21 +
    (decide (b.txb ≠ 0)).toNat * 2 ^ 20 + b.arr * 2 ^ 8 + b.ph.toNat)

def execBtest (c : Bool) (b : Fin 16) (x : Fin 64) (st : State) : Host.Outcome State Fault Refusal :=
  issue (.btest c b x) st (fun st y => .done (st.putS y x.val ((st.ceng y.crewNo).bar b.val).testWord))

/-! ### Memory barrier objects (R277 to R281) -/

/-- The object's words 0 and 1 and its mask. -/
structure BarObj where
  lo : Word
  hi : Word
  mask : BitVec 192

def BarObj.i (o : BarObj) : Bool := o.hi.getLsbD 31
def BarObj.b (o : BarObj) : Bool := o.hi.getLsbD 29
def BarObj.arr (o : BarObj) : Nat := fld o.lo.toNat 20 12
def BarObj.exp (o : BarObj) : Nat := fld o.lo.toNat 8 12
def BarObj.ph (o : BarObj) : BitVec 8 := o.lo.extractLsb' 0 8

/-- The object made of eight words. -/
def objOf (ws : List Word) : BarObj :=
  { lo := ws.getD 0 0, hi := ws.getD 1 0,
    mask := ws.getD 7 0 ++ ws.getD 6 0 ++ ws.getD 5 0 ++ ws.getD 4 0 ++ ws.getD 3 0 ++ ws.getD 2 0 }

/-- Word 0 from ARR, EXP and PH. -/
def objLo (arr ex : Nat) (ph : BitVec 8) : Word := BitVec.ofNat 32 (arr * 2 ^ 20 + ex * 2 ^ 8 + ph.toNat)

/-- The words of a fresh object (R285). -/
def objFresh (ex sc : Nat) (mask : BitVec 192) : List Word :=
  [objLo ex ex 0, BitVec.ofNat 32 (2 ^ 31 + sc)] ++ (List.range 6).map (fun k => mask.extractLsb' (32 * k) 32)

/-- Every wait registered on the object at `pa` is woken. -/
def wakeObj (s : State) (pa : Nat) : State :=
  { s with coh.waits := s.coh.waits.map (fun w => if w.pa = pa then { w with woken := true } else w) }

/-- Every wait registered on it is woken and raises `c` (R280). -/
def failObj (s : State) (pa : Nat) (c : Cause) : State :=
  { s with coh.waits := s.coh.waits.map (fun w => if w.pa = pa then { w with woken := true, fail := w.fail.or (some c) } else w) }

/-- A break that awaits the barrier unit's next step on the object, whose words still stand as the fence found them, is applied
first (R280). DEDUCED: notes/assumptions/181. -/
def breakFirst (s : State) (pa : Nat) : State :=
  match smFind s.coh.breaks pa with
  | none => s
  | some ws =>
    let s := { s with coh.breaks := smErase s.coh.breaks pa }
    if getWords s.mem pa 8 = ws then s.putWord (pa + 4) (ws.getD 1 0 ||| ((1 : Word) <<< 29)) 0xF false else s

/-- Registered waits at the home slice of a line (R281). -/
def waitsAt (s : State) (l : Nat) : Nat :=
  (s.coh.waits.filter (fun w => decide (bankOf (lineOf w.pa) = bankOf l) && !w.woken && !w.repeats)).length

/-- What the barrier unit makes of one request: the state, the answer, and whether the object was written. -/
structure BarDone where
  s : State
  ans : Option (Except Cause Word)
  wrote : Bool := false

/-- Arrivals at an object (R286, R278). -/
def objArrive (s : State) (pa k : Nat) (o : BarObj) : BarDone :=
  if !o.i then { s := s, ans := some (.error .barUninit) }
  else if o.b then { s := s, ans := some (.error .barBroken) }
  else if o.arr < k then { s := s, ans := some (.error .barArrOverrun) }
  else if o.arr = k then
    { s := wakeObj (s.putWord pa (objLo o.exp o.exp (o.ph + 1)) 0xF false) pa, ans := some (.ok 0), wrote := true }
  else { s := s.putWord pa (objLo (o.arr - k) o.exp o.ph) 0xF false, ans := some (.ok 0), wrote := true }

/-- A wait at an object (R289, R281): answered, or registered while the home has room. DEDUCED: notes/assumptions/53. -/
def objWait (s : State) (q : ReqX) (pa token : Nat) (o : BarObj) : BarDone :=
  let d := o.ph - BitVec.ofNat 8 token
  if !o.i then { s := s, ans := some (.error .barUninit) }
  else if o.b then { s := s, ans := some (.error .barBroken) }
  else if d ≠ 0 then { s := s, ans := some (.ok (d.zeroExtend 32)) }
  else
    let w : BarWait :=
      { gang := q.r.gang, grp := BitVec.ofNat 8 (q.bar.getD 4 0), pa := pa, token := token,
        repeats := decide (256 ≤ waitsAt s q.r.line), at_ := s.time }
    { s := { s with coh.waits := s.coh.waits ++ [w] }, ans := none }

/-- BTEST's word, memory form (R290). -/
def BarObj.testWord (o : BarObj) : Word :=
  BitVec.ofNat 32 (o.i.toNat * 2 ^ 31 + o.b.toNat * 2 ^ 25 + o.arr * 2 ^ 8 + o.ph.toNat)

/-- One operation of the barrier unit on the object at `pa`: 0 init, 1 arrive, 2 wait, 3 test (R277). DEDUCED: notes/assumptions/50. -/
def objStep (s : State) (q : ReqX) (pa : Nat) : BarDone :=
  let o := objOf (getWords s.mem pa 8)
  let arg := q.bar.getD 1 0
  match q.bar.getD 0 0 with
  | 0 =>
    let ws := objFresh arg (q.bar.getD 2 0) (BitVec.ofNat 192 (q.bar.getD 3 0))
    let s := ws.zipIdx.foldl (fun s p => s.putWord (pa + 4 * p.2) p.1 0xF false) s
    { s := wakeObj s pa, ans := some (.ok 0), wrote := true }
  | 1 => objArrive s pa arg o
  | 2 => objWait s q pa arg o
  | _ => { s := s, ans := some (.ok o.testWord) }

/-- The package address of a barrier request's object. -/
def objAddr (q : ReqX) : Nat := 64 * q.r.line + 4 * ((wordsOf q.r.words).headD 0)

/-- BARRIER_UNIT (R277): operand k. A poisoned object answers POISON_RD. -/
def execBarrierUnit (st : State) : Host.Outcome State Fault Refusal :=
  homeEvent st .barrier (fun s q => homeTake s q (fun s q =>
    let pa := objAddr q
    let m := (objOf (getWords s.mem pa 8)).mask
    let p : Reply := { kind := .data, r := q.r, wide := wideSet m q.r.core }
    if (List.range 8).any (fun k => isPoison s.poison (pa + 4 * k)) && decide (q.bar.getD 0 0 ≠ 0) then
      (s.dropReq q.r.id).reply { p with kind := .error .poisonRd }
    else
      let s := { breakFirst s pa with coh.objs := pa :: s.coh.objs.filter (fun a => decide (a ≠ pa)) }
      let d := objStep s q pa
      let s := match d.ans with
        | none => d.s
        | some (.ok v) => d.s.reply { p with res := [(0, v.zeroExtend 64)] }
        | some (.error c) =>
          d.s.reply { p with bad := some { cause := c, lanes := q.r.lanes, addr := q.r.va,
                                           detail := BitVec.ofNat 32 (16 : Nat) } }
      match (if d.wrote then startInv s q else none) with
      | none => s.dropReq q.r.id
      | some s => s))

/-- BARRIER_WAIT_RETRY (R281): a wait that found the registrations full is repeated every 256 clocks. Operand k. -/
def execBarrierWaitRetry (st : State) : Host.Outcome State Fault Refusal :=
  event (match st.coh.waits[st.op 0]? with
    | none => st
    | some w =>
      if w.repeats && decide (256 ≤ clocksSince st w.at_) then
        { st with coh.waits := putAt st.coh.waits (st.op 0) { w with woken := true } }
      else st)

/-! ### The memory forms -/

/-- The group's request to the barrier unit, its answer, and its registered wait. -/
def myBarReq (s : State) (x : Cx) : Bool :=
  s.coh.reqs.any (fun q => decide (q.r.kind = .barrier) && decide (q.r.gang = x.cur.gang) && decide (q.r.lanes = x.all) && !q.applied)
def myBarReply (s : State) (x : Cx) : Option (Nat × Reply) :=
  (s.coh.replies.zipIdx.find? (fun p => decide (p.1.r.kind = .barrier) && decide (p.1.r.gang = x.cur.gang) &&
    decide (p.1.r.lanes = x.all) && (decide (p.1.kind ≠ .ack) && decide (p.1.kind ≠ .done)))).map (fun p => (p.2, p.1))
def isMine (x : Cx) (w : BarWait) : Bool := decide (w.gang = x.cur.gang) && decide (w.grp = x.cur.grp)

/-- Checks 2 and 3 of R283 on the address `off` of the pair s[b]: the object's package address. -/
def objCheck (st : State) (x : Cx) (off : DWord) : Except TrapReq Nat :=
  let base := (segOf st x.dom x.hnd x.src.r 0).base
  if off.toNat % 32 ≠ 0 then .error { cause := .atomAlign, lanes := x.all, addr := off }
  else match checkAddr st x 0 0 off 32 .atomic 1 with
    | .error f => .error (onceFail x base off f)
    | .ok a => .ok a

/-- The request of a memory form. -/
def barReq (st : State) (x : Cx) (off : DWord) (pa : Nat) (bar : List Nat) : State :=
  let ws := (List.range 8).foldl (fun (m : BitVec 16) k => m ||| wordBit (wordIx pa + k)) 0
  post (fillTlb st x.core x.dom ((segOf st x.dom x.hnd x.src.r 0).base + off).toNat)
    { r := { kind := .barrier, core := x.core, gang := x.cur.gang, dom := x.dom, line := lineOf pa, words := ws,
             pc := x.cur.pc, npc := x.cur.last + 1, lanes := x.all, va := (segOf st x.dom x.hnd x.src.r 0).base + off },
      bar := bar }

/-- A memory form begins: its request goes out and the group waits with its operands; words of the object on their way go
first. -/
def barSend (st : State) (x : Cx) (off : DWord) (pa : Nat) (bar : List Nat) : Res :=
  let ws := (List.range 8).foldl (fun (m : BitVec 16) k => m ||| wordBit (wordIx pa + k)) 0
  if mustWait st x (lineOf pa) ws true false true then .hold st
  else .block (keepArgs (barReq (pushFor st x 1 [pa, pa + 16]) x off pa bar) x (off.toNat :: bar))

/-- What a registered wait of the group raises for a fence: BAR_BROKEN as the object's answer gives it, HOME_FENCED as an error
reply does (R280, R503). -/
def barFenced (st : State) (x : Cx) (off : DWord) (pa : Nat) (c : Cause) : Res :=
  let va := (segOf st x.dom x.hnd x.src.r 0).base + off
  if c = .barBroken then .trap st { cause := c, lanes := x.all, addr := va, detail := 16 }
  else .done (addLate st x.cur.gang x.cur.pc { cause := c, lanes := x.all, addr := va, detail := BitVec.ofNat 32 (dieOf pa) })

/-- A memory form that waits: its answer once it has arrived, a wake, or still nothing. `again` repeats the request. DEDUCED: notes/assumptions/51. -/
def barAnswer (st : State) (x : Cx) (off : DWord) (fin : State → Word → Bool → Res) (again : State → Res) : Res :=
  match myBarReply st x with
  | some (k, p) =>
    if (st.arriving k).isNone then .block st
    else
    let st := st.takeReply k
    (match p.kind with
     | .error c => .done (addLate st x.cur.gang x.cur.pc (p.bad.getD (reqErr p.r c)))
     | _ => match p.bad with
       | some e => .trap st { cause := e.cause, lanes := e.lanes, addr := e.addr, detail := e.detail }
       | none => fin st (((p.res.map (fun q => loW q.2)).headD 0)) p.wide)
  | none =>
    if myBarReq st x then .block st
    else match st.coh.waits.find? (isMine x) with
      | some w =>
        let st' := { st with coh.waits := st.coh.waits.filter (fun w => !isMine x w) }
        (match w.fail with
         | some c => barFenced st' x off w.pa c
         | none => if w.woken then again st' else .block st)
      | none => again st

/-- A memory form: the first issue checks and sends; later the answer is taken. A wait that is repeated keeps its address
and token. DEDUCED: notes/assumptions/52. -/
def barMem (st : State) (x : Cx) (off : DWord) (bar : List Nat) (fin : State → Word → Bool → Res) : Res :=
  let as := x.heldOr (off.toNat :: bar)
  let send := fun (st : State) => match objCheck st x (BitVec.ofNat 64 (as.headD 0)) with
    | .error t => Res.trap st t
    | .ok pa => barSend st x (BitVec.ofNat 64 (as.headD 0)) pa as.tail
  if x.cur.retry then barAnswer st x (BitVec.ofNat 64 (as.headD 0)) fin send else send st

/-- BINIT, memory form (R279, R285). -/
def execBinitMem (c : Bool) (s : Fin 32) (b x : Fin 64) (st : State) : Host.Outcome State Fault Refusal :=
  issue (.binitMem c s b x) st (fun st y =>
    if !y.held.isEmpty then barMem st y 0 [] (fun st _ _ => .done st)
    else match y.scopeSet st s.val with
    | none => .trap st (scopeTrap y s.val)
    | some m =>
      let ex := fld (y.s x.val).toNat 0 12
      if ex = 0 then
        (match objCheck st y (y.s2 b.val) with
         | .error t => .trap st t
         | .ok _ => .trap st { cause := .barUninit, lanes := y.all, detail := 16,
                               addr := (segOf st y.dom y.hnd y.src.r 0).base + y.s2 b.val })
      else barMem st y (y.s2 b.val) [0, ex, s.val, m.toNat, y.cur.grp.toNat] (fun st _ _ => .done st))

/-- The recorded set of an object, as the core reads it for the release of BARR: wide or not. -/
def objWide (st : State) (x : Cx) (b : Nat) : Bool :=
  match objCheck st x (x.s2 b) with
  | .error _ => false
  | .ok pa => wideSet (objOf (readWords st pa 8)).mask x.core

/-- BARR, memory form (R286): the release at the recorded set, then the arrival. -/
def execBarrMem (c : Bool) (b : Fin 64) (st : State) : Host.Outcome State Fault Refusal :=
  issue (.barrMem c b) st (fun st x =>
    let go := barMem st x (x.s2 b.val) [1, x.nSlices, 0, 0, x.cur.grp.toNat] (fun st _ _ => .done st)
    if x.cur.retry then go else afterRelease st x (objWide st x b.val) go)

/-- BWAIT, memory form (R289): its return is an acquire at the recorded set. -/
def execBwaitMem (c : Bool) (b x : Fin 64) (st : State) : Host.Outcome State Fault Refusal :=
  issue (.bwaitMem c b x) st (fun st y =>
    barMem st y (y.s2 b.val) [2, fld (y.s x.val).toNat 0 8, 0, 0, y.cur.grp.toNat]
      (fun st d wide => .done (acquire (st.putS y x.val d) y.core wide)))

/-- BTEST, memory form (R290). -/
def execBtestMem (c : Bool) (b x : Fin 64) (st : State) : Host.Outcome State Fault Refusal :=
  issue (.btestMem c b x) st (fun st y =>
    barMem st y (y.s2 b.val) [3, 0, 0, 0, y.cur.grp.toNat] (fun st v _ => .done (st.putS y x.val v)))

end Sys2Proof.Machine
end

