-- ==== Sys2Proof/Machine/Notices.lean ====
section
/-! DEFINITION. Interrupts and notices to the host: MSI-X signalling (R508), the notice rings (R510), the notices that
wait in firmware, and the release that the Dolup performs for a gang in the background (R386, R481, R503). -/

namespace Sys2Proof.Machine
open Sys2Proof

/-! ### MSI-X (R507, R508) -/

/-- Word `k` of the MSI-X table; a vector's control word (its fourth) starts masked. PRESUMED: notes/assumptions/11. -/
def msixReset (k : Nat) : Word := if k % 4 = 3 then 1 else 0
def State.msix (s : State) (k : Nat) : Word := smGet (msixReset k) s.host.msix k

/-- Vector `v` is masked. -/
def State.masked (s : State) (v : Nat) : Bool := (s.msix (4 * v + 3)).getLsbD 0

/-- Vector `v` is signalled: sent, or kept pending while it is masked. DESIGN CHOICE: notes/assumptions/131. -/
def signal (s : State) (v : Nat) : State :=
  if s.masked v then { s with host.pending := s.host.pending ||| ((1 : BitVec 64) <<< v) }
  else { s with host.sent := v :: s.host.sent }

/-- A pending vector that is no longer masked is sent. -/
def sendPending (s : State) (v : Nat) : State :=
  if s.host.pending.getLsbD v && !s.masked v then
    { s with host.pending := s.host.pending &&& ~~~((1 : BitVec 64) <<< v), host.sent := v :: s.host.sent }
  else s

/-! ### Notice rings (R510) -/

/-- The notice ring registers of a domain. -/
def State.ring (s : State) (d : Nat) : RingRegs := smGet {} s.host.rings d
def State.modRing (s : State) (d : Nat) (f : RingRegs → RingRegs) : State :=
  { s with host.rings := smPut {} s.host.rings d (f (s.ring d)) }

/-- The ring has been set: K is 4 to 12 (Table 15-1). -/
def RingRegs.isSet (r : RingRegs) : Bool := decide (4 ≤ r.k.toNat) && decide (r.k.toNat ≤ 12)

/-- Records in the ring that the host has not consumed, and whether `n` further ones fit. -/
def RingRegs.fits (r : RingRegs) (n : Nat) : Bool := r.isSet && decide ((r.tail - r.head).toNat + n < 2 ^ r.k.toNat)

/-- Notices of domain `d` that wait in firmware. -/
def waitingNotices (s : State) (d : Nat) : Nat := (s.host.notices.filter (fun n => decide (n.dom = d))).length

/-- A notice made: it takes the domain's next sequence number and waits until the ring has room. -/
def addNotice (s : State) (n : Notice) : State :=
  let q := (s.ring n.dom).seq
  let s := s.modRing n.dom (fun r => { r with seq := q + 1 })
  { s with host.notices := s.host.notices ++ [{ n with seq := q }] }

/-- The trap record words of a notice that has no trap record: values the specification does not state. DESIGN CHOICE: notes/assumptions/109. -/
def freeRec (n : Nat) : TrapRec :=
  let f := fun k => Config.freeWord (n + k)
  { w0 := f 0, epc := f 1, erpc := f 2, emask := f 3, eaddr := f 5 ++ f 4, edetail := f 6, ex := f 7, who := f 8,
    tstop := f 10 ++ f 9 }

/-- A notice without a trap record: its kind, word 12 and word 14. -/
def postNotice (s : State) (dom kind : Nat) (w12 w14 : Word) : State :=
  addNotice { s with frees := s.frees + 11 } { dom := dom, rcd := freeRec s.frees, kind := kind, w12 := w12, w14 := w14 }

/-- A SOFTI notice: one that finds the ring full is dropped and counted (R481). DEDUCED: notes/assumptions/110. -/
def postSofti (s : State) (dom : Nat) (w12 w14 : Word) : State :=
  if (s.ring dom).fits (waitingNotices s dom) then postNotice s dom 1 w12 w14
  else s.modRing dom (fun r => { r with ovf := r.ovf + 1 })

/-- The sixteen words of a trap record (Table 15-2). -/
def TrapRec.words (r : TrapRec) : List Word :=
  [r.w0, r.epc, r.erpc, r.emask, loW r.eaddr, hiW r.eaddr, r.edetail, r.ex, r.who, loW r.tstop, hiW r.tstop, 0, 0, 0, 0, 0]

/-- The sixteen words of a notice. -/
def Notice.words (n : Notice) : List Word :=
  n.rcd.words.take 11 ++ [BitVec.ofNat 32 n.kind, n.w12, n.seq, n.w14, 0]

/-- Whole words stored at a package address without a coherence path (host memory, dumps). -/
def putWords : State → Nat → List Word → State
  | s, _, [] => s
  | s, a, w :: ws => putWords (s.putWord a w 0xF false) (a + 4) ws

/-- The domain's oldest waiting notice is written to its ring where it fits; TAIL advances and the vector is signalled. -/
def sendNotice (s : State) (d : Nat) : State :=
  match s.host.notices.find? (fun n => decide (n.dom = d)) with
  | none => s
  | some n =>
    let r := s.ring d
    if !r.fits 0 then s
    else
      let s := putWords s (hostAddr (r.base.toNat + 64 * (r.tail.toNat % 2 ^ r.k.toNat))) n.words
      let s := s.modRing d (fun r => { r with tail := r.tail + 1 })
      signal { s with host.notices := s.host.notices.erase n } d

def execNotice (st : State) : Host.Outcome State Fault Refusal := event (sendNotice st (st.op 0))

/-! ### The release made in the background -/

/-- How far a background release of gang `g` on core `c` has come: it waits in this state; or it is performed, and
whether a push met a fenced home. -/
inductive BgRel where
  | wait (s : State) (bad : Bool)
  | done (bad : Bool)

/-- The package-scope release on the gang's behalf, without holding it (R386, R481): its accesses older than request `k`
return and complete, then every untracked dirty word of its core is pushed, but for the words of fenced homes, which stay
dirty (R248, R503). -/
def bgRelease (s : State) (k g c dom : Nat) : BgRel :=
  let bad := (looseLines s c).any (fenced s)
  if readsPending s k g 0xFF || storesPending s k g then .wait s false
  else if (looseLines s c).any (fun l => !fenced s l) then .wait (pushAll s c g dom) bad
  else if storesIncomplete s k g c then .wait s bad
  else .done bad

/-- One more notice or mailbox word dropped, in the counter that the host reads (R481). -/
def dropSofti (s : State) (dom : Nat) : State := s.modRing dom (fun r => { r with ovf := r.ovf + 1 })

/-- The place in device memory of the next word of lockkeeper core `n`'s wake mailbox for a domain; none where firmware has
placed none, the mailbox holds 16 words, or its home refuses the write. DEDUCED: notes/assumptions/111. -/
def mailPlace (s : State) (dom n : Nat) : Option Nat :=
  let b := smGet {} (s.domain dom).mail n
  ((s.domain dom).set_.mailAt.map (fun p => devAddr p.1 (p.2 + 64 * n + 4 * (b.put % 16)))).filter (fun a =>
    decide (b.put < b.got + 16) && (homeFail s (lineOf a)).isNone)

/-- A word written into a wake mailbox, and the core woken (R481). -/
def mailWord (s : State) (dom n : Nat) (w : Word) : State :=
  match mailPlace s dom n with
  | none => dropSofti s dom
  | some a => (engineWord s noCore a w 0xF false).modDomain dom (fun d =>
      { d with mail := smModify (smSet d.mail n (smGet {} d.mail n)) n (fun b => { b with put := b.put + 1, woken := true }) })

/-- A woken lockkeeper core takes the oldest word of its mailbox; what it does with it is firmware's.
DESIGN CHOICE: notes/assumptions/160. -/
def takeMail (s : State) (dom n : Nat) : State :=
  s.modDomain dom (fun d => { d with mail := smModify d.mail n (fun b =>
    if b.woken then { b with got := b.got + 1, woken := decide (b.got + 1 < b.put) } else b) })

/-- The notice or mailbox word of a SOFTI whose release is performed (R481): target word `w`, the release failed. -/
def deliverSofti (s : State) (dom : Nat) (w : Word) (failed : Bool) : State :=
  let v := fld w.toNat 8 16
  if fld w.toNat 30 2 = 0 then postSofti s dom (BitVec.ofNat 32 (v * 2 ^ 16 + fld w.toNat 0 6)) (if failed then 1 else 0)
  else mailWord s dom (fld w.toNat 0 2) (BitVec.ofNat 32 (v + (if failed then 2 ^ 31 else 0)))

/-- The mailbox word of a SOFTI has to wait: a home transaction holds its line. -/
def mailBusy (s : State) (dom : Nat) (w : Word) : Bool :=
  decide (fld w.toNat 30 2 = 1) && (mailPlace s dom (fld w.toNat 0 2)).any (fun a => lineBusy s (lineOf a))

/-- Background SOFTI `k` goes on (SOFTI_NOTICE); past the last one, a lockkeeper core takes a word of its mailbox. DEDUCED: notes/assumptions/111. -/
def softiStep (s : State) (k : Nat) : State :=
  match s.sched.softis[k]? with
  | none => takeMail s ((k - s.sched.softis.length) / 4) ((k - s.sched.softis.length) % 4)
  | some q =>
    match bgRelease s q.mark q.gang q.core q.dom with
    | .wait s bad => { s with sched.softis := putAt s.sched.softis k { q with failed := q.failed || bad } }
    | .done bad =>
      if mailBusy s q.dom q.word then { s with sched.softis := putAt s.sched.softis k { q with failed := q.failed || bad } }
      else deliverSofti { s with sched.softis := dropAt s.sched.softis k } q.dom q.word (q.failed || bad)

def execSoftiNotice (st : State) : Host.Outcome State Fault Refusal := event (softiStep st (st.op 0))

end Sys2Proof.Machine
end

