-- ==== Sys2Proof/Machine/Queues.lean ====
section
/-! DEFINITION. Pound queues (10.1 to 10.4): the ring, the spare pool, allowances, waiting, and the queue
instructions. -/

namespace Sys2Proof.Machine
open Sys2Proof

/-! ### The queue controller's steps (R294, R295, R299) -/

/-- Queue `q` of a crew, and the crew's state with it changed. -/
def CrewEng.que (e : CrewEng) (q : Nat) : PQueue := smGet {} e.qs q
def State.modQue (s : State) (crew q : Nat) (f : PQueue → PQueue) : State :=
  s.modCeng crew (fun e => { e with qs := smPut {} e.qs q (f (e.que q)) })

/-- The package address of word `k` of a crew's pound segment. -/
def crewWord (s : State) (crew core k : Nat) : Nat :=
  poundAddr core (((s.crew crew).map (fun w => w.pbase)).getD 0 + 4 * k)

/-- The allowance of a producer. -/
def PQueue.allowance (q : PQueue) (p : Nat) : Nat := smGet 0 q.allow p

/-- The lowest free slot of the crew's pool, where a queue may borrow one more. -/
def poolSlot (e : CrewEng) (q : PQueue) : Option Nat :=
  if q.lent.length < 64 then leastBelow (fun j => !e.lentPool.contains j) e.spn else none

/-- The queue takes one more entry. -/
def queRoom (e : CrewEng) (q : PQueue) : Bool := decide (q.cnt < q.cap) || (poolSlot e q).isSome

/-- A push by producer `p` can take place. -/
def canPush (s : State) (crew q p : Nat) : Bool :=
  let e := s.ceng crew
  decide (0 < (e.que q).allowance p) && queRoom e (e.que q)

/-- The push: one unit of allowance, the handle placed in the ring or in a lent slot (R294). -/
def pushHandle (s : State) (crew core q p : Nat) (h : Word) (cpe : Bool) : State :=
  let e := s.ceng crew
  let v := e.que q
  let took := fun (v : PQueue) =>
    { v with cnt := v.cnt + 1, allow := smPut 0 v.allow p (v.allowance p - 1), byCpe := v.byCpe ++ [cpe] }
  if v.cnt < v.cap then
    (s.putWord (crewWord s crew core (v.rb + (v.hd + v.cnt) % v.cap)) h 0xF false).modQue crew q took
  else match poolSlot e v with
    | none => s
    | some j =>
      ((s.putWord (crewWord s crew core (e.pb + j)) h 0xF false).modCeng crew (fun e =>
        { e with lentPool := e.lentPool ++ [j] })).modQue crew q (fun v => took { v with lent := v.lent ++ [j] })

/-- The handle at the head, and whether a CPE entry. -/
def headHandle (s : State) (crew core q : Nat) : Word × Bool :=
  let v := (s.ceng crew).que q
  (getWord s.mem (crewWord s crew core (v.rb + v.hd)), v.byCpe.headD false)

/-- The pop and its reclaim (R295). -/
def popHandle (s : State) (crew core q : Nat) : State :=
  let e := s.ceng crew
  let v := e.que q
  let popped := fun (v : PQueue) => { v with hd := (v.hd + 1) % v.cap, cnt := v.cnt - 1, byCpe := v.byCpe.tail }
  match v.lent with
  | [] => s.modQue crew q popped
  | j :: js =>
    let h := getWord s.mem (crewWord s crew core (e.pb + j))
    ((s.putWord (crewWord s crew core (v.rb + v.hd)) h 0xF false).modCeng crew (fun e =>
      { e with lentPool := e.lentPool.filter (fun k => decide (k ≠ j)) })).modQue crew q (fun v => { popped v with lent := js })

/-! ### Waiting (R301) -/

/-- The producer number of a gang (R292). -/
def Cx.producer (x : Cx) : Nat := 16 * (x.core % 4) + x.gang.ix

/-- The waiting group of the context. -/
def Cx.waiter (x : Cx) : Nat × Nat := (x.gang.ix, x.cur.grp.toNat)

/-- A waiter added at the end, once. -/
def addWaiter (l : List (Nat × Nat)) (me : Nat × Nat) : List (Nat × Nat) := if l.contains me then l else l ++ [me]

/-- The queue's waiter `me` goes, as a push or a pop. -/
def leavePush (s : State) (crew q : Nat) (me : Nat × Nat) : State :=
  s.modQue crew q (fun v => { v with pushW := v.pushW.filter (fun p => decide (p ≠ me)) })
def leavePop (s : State) (crew q : Nat) (me : Nat × Nat) : State :=
  s.modQue crew q (fun v => { v with popW := v.popW.filter (fun p => decide (p ≠ me)) })

/-- The context in which group `m` of gang `gk` waits at a word, where its slices do. -/
def waitCx (s : State) (gk : Nat) (m : BitVec 8) : Option Cx :=
  match s.gang gk with
  | none => none
  | some g =>
    match (g.slice (firstSlice m)).block with
    | none => none
    | some b =>
      if (grpSlices m).all (fun k => (g.slice k).live && !(g.slice k).stopped && !(g.slice k).frozen && (g.slice k).block.isSome &&
          (g.slice k).join.isNone) then
        State.cx { s with work.cur := some { gang := gk, grp := m, pc := b.pc, first := b.first, last := b.last, mark := b.mark, retry := true } }
      else none

/-- A waiting group's word completes in the controller's step; the word being issued keeps its context. -/
def wakeDone (s : State) (y : Cx) : State :=
  let t := finish y (.done { s with work.cur := some y.cur })
  { t with work.cur := s.work.cur, work.issued := s.work.issued }

/-- The entry at the head taken into s[x], with its acquire (R302). -/
def takeHead (q x : Nat) (st : State) (y : Cx) : State :=
  let h := headHandle st y.crewNo y.core q
  acquire ((popHandle st y.crewNo y.core q).putS y x h.1) y.core h.2

/-- A copy's enqueue made (R351): the handle pushed, the wait left. -/
def enqueueNow (s : State) (k crew core q prod : Nat) (h : Word) : State :=
  let s := leavePush (pushHandle s crew core q prod h true) crew q (64 + k, prod)
  { s with eng.copies := smModify s.eng.copies k (fun p => { p with enqDone := true, pended := false }) }

/-- A push that waits on queue `q` of a crew takes place, where it can now: a group's, or a copy's enqueue. -/
def servePush (s : State) (crew core q : Nat) (me : Nat × Nat) : Option State :=
  if me.1 < 64 then
    (match waitCx s (16 * crew + me.1) (BitVec.ofNat 8 me.2) with
     | none => none
     | some y =>
       if canPush s crew q y.producer then
         some (wakeDone (leavePush (pushHandle s crew core q y.producer (y.s (y.held.headD 0)) false) crew q me) y)
       else none)
  else if canPush s crew q me.2 then
    ((smFind s.eng.copies (me.1 - 64)).bind (fun p => p.enq)).map (fun e => enqueueNow s (me.1 - 64) crew core q me.2 e.1)
  else none

/-- The same of a pop that waits. -/
def servePop (s : State) (crew q : Nat) (me : Nat × Nat) : Option State :=
  if ((s.ceng crew).que q).cnt = 0 then none
  else (waitCx s (16 * crew + me.1) (BitVec.ofNat 8 me.2)).map (fun y =>
    wakeDone (leavePop (takeHead q (y.held.headD 0) s y) crew q me) y)

/-- The first waiter of a crew's queues whose operation can take place, performed. -/
def serveOne (s : State) (crew core : Nat) : Option State :=
  (s.ceng crew).qs.findSome? (fun p =>
    (p.2.popW.findSome? (servePop s crew p.1)).or (p.2.pushW.findSome? (servePush s crew core p.1)))

/-- The blocked operations of a crew's queues, in the order in which they blocked, as long as one can take place (R301). -/
def serveLoop : Nat → State → Nat → Nat → State
  | 0, s, _, _ => s
  | n + 1, s, crew, core =>
    match serveOne s crew core with
    | none => s
    | some t => serveLoop n t crew core
def serveQueues (s : State) (crew core : Nat) : State :=
  serveLoop (((s.ceng crew).qs.map (fun p => p.2.popW.length + p.2.pushW.length)).sum) s crew core

/-- A queue's trap. -/
def queTrap (x : Cx) (c : Cause) (q : Nat) : TrapReq := { cause := c, lanes := x.all, detail := BitVec.ofNat 32 q }

/-- Q_UNINIT, then the word's own body (R305). -/
def queOk (st : State) (x : Cx) (q : Nat) (body : Res) : Res :=
  if !((st.ceng x.crewNo).que q).i then .trap st (queTrap x .qUninit q) else body

/-! ### QINIT (R300, R306) -/

/-- A copy whose enqueue is refused (R352): it places nothing, and the copy fails with CP_ENQ, the underlying cause in
its detail. -/
def refuseEnq (under : Nat) (p : CopyX) : CopyX :=
  { p with enqDone := true, pended := false, c := { p.c with fail := some { cause := .cpEnq, detail := BitVec.ofNat 32 under } } }

/-- The copy waits with its enqueue at queue `q` of a crew. -/
def CopyX.pendsAt (p : CopyX) (crew q : Nat) : Bool :=
  p.pended && p.enq.any (fun e => decide (e.2.1 = crew) && decide (e.2.2.1 = q))

/-- The pending enqueues of a queue refused. -/
def refusePending (s : State) (crew q under : Nat) : State :=
  { s with eng.copies := s.eng.copies.map (fun p => if p.2.pendsAt crew q then (p.1, refuseEnq under p.2) else p) }

/-- QINIT, queue form. -/
def qinitQueue (q : Nat) (off : Word) (cap : Nat) (st : State) (x : Cx) : Res :=
  if cap = 0 then .trap st (queTrap x .qUninit q)
  else if (x.src.r.rdSeg 1).limit.toNat < off.toNat + 4 * cap then
    .trap st { cause := .segLimit, lanes := x.all, detail := 1, addr := off.zeroExtend 64 }
  else
    let st := refusePending st x.crewNo q Cause.qUninit.code
    let old := (st.ceng x.crewNo).que q
    let st := st.modCeng x.crewNo (fun e => { e with lentPool := e.lentPool.filter (fun j => !old.lent.contains j) })
    let st := st.modQue x.crewNo q (fun v =>
      { i := true, own := x.gang.ix, rb := off.toNat / 4, cap := cap, pushW := v.pushW.filter (fun p => decide (p.1 < 64)), popW := v.popW })
    .done (serveQueues st x.crewNo x.core)

/-- QINIT, pool form. -/
def qinitPool (off : Word) (spn : Nat) (st : State) (x : Cx) : Res :=
  if 256 < spn || !(st.ceng x.crewNo).lentPool.isEmpty then .trap st (queTrap x .qUninit 0)
  else if (x.src.r.rdSeg 1).limit.toNat < off.toNat + 4 * spn then
    .trap st { cause := .segLimit, lanes := x.all, detail := 1, addr := off.zeroExtend 64 }
  else .done (serveQueues (st.modCeng x.crewNo (fun e => { e with pb := off.toNat / 4, spn := spn })) x.crewNo x.core)

def execQinit (c : Bool) (q : Fin 16) (x y : Fin 64) (st : State) : Host.Outcome State Fault Refusal :=
  issue (.qinit c q x y) st (fun st z =>
    let off := z.s x.val
    let cfg := z.s y.val
    if off.toNat % 4 ≠ 0 then .trap st { cause := .misalign, lanes := z.all, detail := 1, addr := off.zeroExtend 64 }
    else if cfg.getLsbD 31 then qinitPool off (fld cfg.toNat 0 9) st z
    else qinitQueue q.val off (fld cfg.toNat 0 12) st z)

/-! ### QPUSH, QPOP, QTRY, QALW -/

/-- QPUSH (R307): a CPE enqueue waits beside the groups as 64 plus its copy's number with its producer. -/
def qpushBody (q x : Nat) (st : State) (y : Cx) : Res :=
  queOk st y q (
    if canPush st y.crewNo q y.producer then
      .done (serveQueues (leavePush (pushHandle st y.crewNo y.core q y.producer (y.s x) false) y.crewNo q y.waiter) y.crewNo y.core)
    else .block (keepArgs (st.modQue y.crewNo q (fun v => { v with pushW := addWaiter v.pushW y.waiter })) y [x]))

def execQpush (c : Bool) (q : Fin 16) (x : Fin 64) (st : State) : Host.Outcome State Fault Refusal :=
  issue (.qpush c q x) st (fun st y =>
    if y.cur.retry then qpushBody q.val x.val st y
    else afterRelease st y false (qpushBody q.val x.val st y))

/-- QPOP (R308): one that waits goes on waiting, whoever owns the queue meanwhile (R300). -/
def qpopBody (q x : Nat) (st : State) (y : Cx) : Res :=
  queOk st y q (
    let v := (st.ceng y.crewNo).que q
    if y.held.isEmpty && decide (v.own ≠ y.gang.ix) then .trap st (queTrap y .qOwner q)
    else if v.cnt ≠ 0 then .done (serveQueues (leavePop (takeHead q x st y) y.crewNo q y.waiter) y.crewNo y.core)
    else .block (keepArgs (st.modQue y.crewNo q (fun v => { v with popW := addWaiter v.popW y.waiter })) y [x]))

def execQpop (c : Bool) (q : Fin 16) (x : Fin 64) (st : State) : Host.Outcome State Fault Refusal :=
  issue (.qpop c q x) st (qpopBody q.val x.val)

/-- QTRY (R309). DEDUCED: notes/assumptions/55. -/
def qtryBody (q x y : Nat) (st : State) (z : Cx) : Res :=
  queOk st z q (
    let e := st.ceng z.crewNo
    let v := e.que q
    if !(z.s y).getLsbD 0 then
      (if v.own ≠ z.gang.ix then .trap st (queTrap z .qOwner q)
       else if v.cnt = 0 then .done (st.putS z y 1)
       else .done (serveQueues ((takeHead q x st z).putS z y 0) z.crewNo z.core))
    else if v.allowance z.producer = 0 then .done (st.putS z y 2)
    else if !queRoom e v then .done (st.putS z y 1)
    else afterRelease st z false
      (.done (serveQueues ((pushHandle st z.crewNo z.core q z.producer (z.s x) false).putS z y 0) z.crewNo z.core)))

def execQtry (c : Bool) (q : Fin 16) (x y : Fin 64) (st : State) : Host.Outcome State Fault Refusal :=
  issue (.qtry c q x y) st (qtryBody q.val x.val y.val)

/-- QALW (R310). -/
def execQalw (c : Bool) (q : Fin 16) (x y : Fin 64) (st : State) : Host.Outcome State Fault Refusal :=
  issue (.qalw c q x y) st (fun st z =>
    queOk st z q.val (
      let v := (st.ceng z.crewNo).que q.val
      let p := fld (z.s y.val).toNat 0 6
      let n : Int := (v.allowance p : Int) + (z.s x.val).toInt
      if v.own ≠ z.gang.ix then .trap st (queTrap z .qOwner q.val)
      else if n < 0 then .trap st (queTrap z .qAllowNeg q.val)
      else .done (serveQueues (st.modQue z.crewNo q.val (fun v => { v with allow := smPut 0 v.allow p (min n.toNat 4095) }))
        z.crewNo z.core)))

end Sys2Proof.Machine
end

