-- ==== Sys2Proof/Machine/Saved.lean ====
section
/-! DEFINITION. What changes in a crew's saved context while the crew is out (R360, R386, R421): the words of its image
are kept as the crew's state is. -/

namespace Sys2Proof.Machine
open Sys2Proof

/-- A bit as a number. -/
def bitN (b : Bool) : Nat := if b then 1 else 0

/-- A number as a word. -/
def nw (n : Nat) : Word := BitVec.ofNat 32 n

/-- `n` words of a value, lowest first. -/
def wordsOfNat (v n : Nat) : List Word := (List.range n).map (fun k => nw (v / 2 ^ (32 * k)))

/-- A list padded with zeros or cut to `n` words. -/
def padTo (n : Nat) (l : List Word) : List Word := (List.range n).map (fun k => l.getD k 0)

/-- A pending failure in two words, and in one. -/
def encErr2 (e : Option AErr) : List Word := match e with | some e => [nw (2 ^ 31 + e.cause.code), e.info] | none => [0, 0]
def encErr1 (e : Option AErr) : List Word :=
  match e with | some e => [nw (2 ^ 31 + e.info.toNat % 2 ^ 16 * 2 ^ 8 + e.cause.code)] | none => [0]

/-- A barrier register's 96 bits (Table 9-3). -/
def encBar (b : Barrier) : List Word :=
  wordsOfNat (b.ph.toNat + b.exp * 2 ^ 8 + b.arr * 2 ^ 20 + b.ce.toNat * 2 ^ 47 + b.dp * 2 ^ 54 + b.txb * 2 ^ 66 +
    bitN b.td * 2 ^ 90 + bitN b.xa * 2 ^ 91 + bitN b.bc * 2 ^ 92 + bitN b.t * 2 ^ 93 + bitN b.p * 2 ^ 94 + bitN b.i * 2 ^ 95) 3

/-- The bucket words: the current bucket's number and BKERR. -/
def encBkt (b : CrewBkt) : List Word := [nw (match b.cur with | some k => 2 ^ 31 + k | none => 0)] ++ encErr2 b.err ++ [0]

/-- The package address of an out crew's image: the context slot that it holds. -/
def savedAt (s : State) (c : Nat) : Option Nat :=
  match s.crew c with
  | none => none
  | some w =>
    match w.place with
    | .on _ => none
    | .ended _ => none
    | _ =>
      let d := (s.domain w.dom).set_
      match d.ctxUse.find? (fun p => decide (p.2 = c)) with
      | none => none
      | some u => (d.ctx[u.1]?).map (fun p => devAddr p.1 p.2)

/-- Words of an out crew's image rewritten at a byte offset. -/
def saveWords (s : State) (c off : Nat) (ws : List Word) : State :=
  match savedAt s c with
  | none => s
  | some a => engineWords s noCore (a + off) ws

end Sys2Proof.Machine
end

