-- ==== Sys2Proof/Machine/Sluices.lean ====
section
/-! DEFINITION. Sluices (10.5 to 10.8): keys and their homes, requests, grants and releases, hold stacks, kills, and the
sluice instructions. -/

namespace Sys2Proof.Machine
open Sys2Proof

/-! ### Keys (R311 to R314) -/

/-- A key's number: domain, namespace, key. -/
def slNum (dom ns : Nat) (key : Word) : Nat := (dom * 2 + ns) * 2 ^ 32 + key.toNat

/-- KeyHome (R312): the number of the package's slice. -/
def keySlice (dom ns : Nat) (key : Word) : Nat :=
  let h := (key * 0x9E3779B1) ^^^ (BitVec.ofNat 32 (dom * 2 ^ 24)) ^^^ (BitVec.ofNat 32 (ns * 2 ^ 31))
  h.toNat / 65536 % 96
def numSlice (k : Nat) : Nat := keySlice (k / 2 ^ 33) (k / 2 ^ 32 % 2) (BitVec.ofNat 32 k)
def keyDie (dom ns : Nat) (key : Word) : Nat := keySlice dom ns key / 24

/-- The home die of a key is fenced. -/
def keyFenced (s : State) (dom ns : Nat) (key : Word) : Bool := decide ((s.die (keyDie dom ns key)).st ≠ .admitted)

/-- A key's entry; a key without one is fresh (R311). -/
def State.slKey (s : State) (k : Nat) : SlKey := (smFind s.eng.keys k).getD {}

/-- A sluice entry's eight words: Table 10-5 in the first four. -/
def keyWords (k : Nat) (v : SlKey) : List Word :=
  wordsOfNat (k % 2 ^ 32 + v.ne.toNat * 2 ^ 32 + v.fin.toNat * 2 ^ 64 + v.rln * 2 ^ 96 + v.hn * 2 ^ 113 + bitN v.clp * 2 ^ 119 +
    bitN v.hld * 2 ^ 120 + bitN v.brk * 2 ^ 121 + bitN v.pol * 2 ^ 122 + k / 2 ^ 33 * 2 ^ 123 + k / 2 ^ 32 % 2 * 2 ^ 126 + 2 ^ 127) 8

/-- Place `ix` of a domain's overflow table in its memory, where firmware has placed the table (R313). -/
def putOvf (s : State) (dom ix : Nat) (ws : List Word) : State :=
  match (s.domain dom).set_.ovfAt with
  | none => s
  | some (die, base) => ws.zipIdx.foldl (fun s p => s.putWord (devAddr die (base + 32 * ix + 4 * p.2)) p.1 0xF false) s

/-- The first place of a domain's overflow table that no key has. -/
def freeOvf (s : State) (dom : Nat) : Nat :=
  let used := (s.eng.keys.filter (fun p => p.2.ovf && decide (p.1 / 2 ^ 33 = dom))).map (fun p => p.2.ix)
  (leastBelow (fun j => !used.contains j) (used.length + 1)).getD 0

/-- A key loses its entry. -/
def State.dropKey (s : State) (k : Nat) : State :=
  let s' := { s with eng.keys := smErase s.eng.keys k }
  if (s.slKey k).ovf then putOvf s' (k / 2 ^ 33) (s.slKey k).ix (List.replicate 8 0) else s'

/-- A key's entry written: one that comes into the overflow table takes a place there, one that leaves it gives its place
up, and its image there follows it (R313). DEDUCED: notes/assumptions/161. -/
def State.putKey (s : State) (k : Nat) (v : SlKey) : State :=
  let old := s.slKey k
  let v := { v with ix := if !v.ovf then 0 else if old.ovf then old.ix else freeOvf s (k / 2 ^ 33) }
  let s' := { (if old.ovf && !v.ovf then s.dropKey k else s) with eng.keys := smSet s.eng.keys k v }
  if v.ovf then putOvf s' (k / 2 ^ 33) v.ix (keyWords k v) else s'

/-- The key number of a request, and whether it waits at the home. -/
def SlReq.num (r : SlReq) : Nat := slNum r.dom r.ns r.key
def SlReq.waits (r : SlReq) : Bool := r.registered && !r.granted && r.fail.isNone

/-- A key is idle: no holder, no waiter, no close pending. -/
def keyIdle (s : State) (k : Nat) (v : SlKey) : Bool :=
  !v.hld && !v.clp && !s.eng.slreqs.any (fun r => decide (r.num = k) && (r.waits || r.mark))

/-- Entries in a home's own table, and in a domain's overflow table. -/
def tableUsed (s : State) (slice : Nat) : Nat :=
  (s.eng.keys.filter (fun p => !p.2.ovf && decide (numSlice p.1 = slice))).length
def ovfUsed (s : State) (dom : Nat) : Nat := (s.eng.keys.filter (fun p => p.2.ovf && decide (p.1 / 2 ^ 33 = dom))).length
def ovfRoom (s : State) (dom : Nat) : Bool := decide (ovfUsed s dom < (s.domain dom).set_.slOvf)

/-- The least recently used of a list of keys. DEDUCED: notes/assumptions/60. -/
def oldestKey : List (Nat × SlKey) → Option (Nat × SlKey)
  | [] => none
  | p :: ps =>
    match oldestKey ps with
    | none => some p
    | some r => if r.2.used < p.2.used then some r else some p

/-- A key given an entry: its own, a free one of the home's table, that of the least recently used idle key, or one of
the overflow table; none while both are full (R314). An idle key whose own domain's overflow table is full stays.
DESIGN CHOICE: notes/assumptions/167. -/
def ensureKey (s : State) (k : Nat) : Option State :=
  if (smFind s.eng.keys k).isSome then some s
  else
    let slice := numSlice k
    let fresh : SlKey := { used := s.ticks }
    if tableUsed s slice < 128 then some (s.putKey k fresh)
    else
      let idle := s.eng.keys.filter (fun p => !p.2.ovf && decide (numSlice p.1 = slice) && keyIdle s p.1 p.2 && ovfRoom s (p.1 / 2 ^ 33))
      match oldestKey idle with
      | some p => some ((s.putKey p.1 { p.2 with ovf := true }).putKey k fresh)
      | none => if ovfRoom s (k / 2 ^ 33) then some (s.putKey k { fresh with ovf := true }) else none

/-! ### Sequences (R316) and the requests of a key -/

/-- A sequence has passed. -/
def passedSeq (ne s : Word) : Bool := decide (1 ≤ (ne - s).toNat) && decide ((ne - s).toNat ≤ 2 ^ 31)

/-- The requests of a key changed by `f`. -/
def modKeyReqs (s : State) (k : Nat) (f : SlReq → SlReq) : State :=
  { s with eng.slreqs := s.eng.slreqs.map (fun r => if r.num = k then f r else r) }

/-- Every waiting request to enter a key fails. -/
def failWaiters (s : State) (k : Nat) (c : Cause) : State :=
  modKeyReqs s k (fun r => if r.waits && decide (r.kind = .enter) && !r.mark then { r with fail := some c } else r)

/-- Waiting requests whose sequence has passed fail with SL_STALE (R328). -/
def failStale (s : State) (k : Nat) : State :=
  modKeyReqs s k (fun r =>
    if r.waits && decide (r.kind = .enter) && !r.mark && passedSeq (s.slKey k).ne r.first then { r with fail := some .slStale } else r)

/-- The key retires (R320): fresh again, without skip marks, and its waiting requests are stale. -/
def retireKey (s : State) (k : Nat) : State :=
  let s := failWaiters (s.dropKey k) k .slStale
  { s with eng.slreqs := s.eng.slreqs.filter (fun r => !(r.mark && decide (r.num = k))) }

/-- NE has reached the final sequence of a pending close. -/
def closeDue (v : SlKey) : Bool := v.clp && !v.hld && (decide (v.ne = v.fin) || passedSeq v.ne v.fin)

/-- NE passes over the skip marks it has reached (R321): at most `n` of them. -/
def passMarks : Nat → State → Nat → State
  | 0, s, _ => s
  | n + 1, s, k =>
    let v := s.slKey k
    if v.hld then s
    else match s.eng.slreqs.find? (fun r => r.mark && decide (r.num = k) && decide (r.first = v.ne)) with
      | none => s
      | some m =>
        let s := s.putKey k { v with ne := v.ne + BitVec.ofNat 32 m.n }
        passMarks n { s with eng.slreqs := s.eng.slreqs.filter (fun r => decide (r ≠ m)) } k

/-- After a change of NE: skip marks, then the retirement that is due. -/
def settleKey (s : State) (k : Nat) : State :=
  let s := passMarks (s.eng.slreqs.length + 1) s k
  if (smFind s.eng.keys k).isSome && closeDue (s.slKey k) then retireKey s k else s

/-- `n` lanes of the holding batch released (R320); a release of a key that is not held, which a break has let go, changes
nothing. DESIGN CHOICE: notes/assumptions/154. -/
def releaseLanes (s : State) (k n : Nat) : State :=
  let v := s.slKey k
  if !v.hld then s
  else if v.rln + n < v.hn then s.putKey k { v with rln := v.rln + n }
  else settleKey (s.putKey k { v with hld := false, rln := 0, ne := v.ne + BitVec.ofNat 32 v.hn, hn := 0, holders := [] }) k

/-- The key broken by a killed holder or waiter (R321). -/
def breakKey (s : State) (k : Nat) : State :=
  match ensureKey s k with
  | none => s
  | some s => failWaiters (s.putKey k { s.slKey k with brk := true, hld := false, hn := 0, rln := 0, holders := [] }) k .slBroken

/-- A killed holder's `n` lanes of key `k` (R321). A key homed on a fenced die is not broken while it is: the kill waits
there as a kept release does. DEDUCED: notes/assumptions/155. -/
def killHolder (s : State) (k n : Nat) : State :=
  let v := s.slKey k
  if (s.die (numSlice k / 24)).st ≠ .admitted then
    { s with eng.slrels := s.eng.slrels ++ [{ dom := k / 2 ^ 33, ns := k / 2 ^ 32 % 2, key := BitVec.ofNat 32 k, n := n,
                                              kept := true, kill := true }] }
  else if !v.hld then s
  else if v.pol then releaseLanes s k n else breakKey s k

/-- A killed waiter's request (R321). DEDUCED: notes/assumptions/57. -/
def killWaiter (s : State) (r : SlReq) : State :=
  let gone := { s with eng.slreqs := s.eng.slreqs.filter (fun q => decide (q ≠ r)) }
  if r.kind ≠ .enter || !r.waits || (s.die (numSlice r.num / 24)).st ≠ .admitted then gone
  else if (s.slKey r.num).pol then
    settleKey { gone with eng.slreqs := gone.eng.slreqs ++ [{ r with mark := true, gang := 0 }] } r.num
  else breakKey gone r.num

/-! ### Hold stacks (R319) -/

/-- The lanes of a slice's level with their keys. -/
def Hold.pairs (h : Hold) (slice : Nat) : List (Nat × Word) :=
  ((List.range 4).filter (fun i => h.lanes.getLsbD i)).map (fun i => (4 * slice + i, h.keys.getD i 0))

/-- The distinct keys of a level and how many of its lanes hold each. -/
def Hold.counts (h : Hold) (slice : Nat) : List (Word × Nat) :=
  ((h.pairs slice).map (fun p => p.2)).dedup.map (fun k => (k, ((h.pairs slice).filter (fun p => decide (p.2 = k))).length))

/-- Every lane of a slice that holds a key is killed, and the slice's stack emptied. -/
def killSlice (s : State) (dom gk k : Nat) : State :=
  match s.gang gk with
  | none => s
  | some g =>
    let s := (g.slice k).hold.foldl (fun s h => (h.counts k).foldl (fun s p => killHolder s (slNum dom 0 p.1) p.2) s) s
    s.modGang gk (fun g => g.modSlices ((1 : BitVec 8) <<< k) (fun sl => { sl with hold := [] }))

/-- A gang's holders and waiters killed: a batch granted to a word that still waits for others holds its key. -/
def killGangSl (s : State) (dom gk : Nat) : State :=
  let s := (List.range 8).foldl (fun s k => killSlice s dom gk k) s
  let held := fun (r : SlReq) => decide (r.gang = gk) && !r.mark && r.granted && decide (r.kind = .enter)
  let hs := s.eng.slreqs.filter held
  let s := hs.foldl (fun s r => killHolder s r.num r.n) { s with eng.slreqs := s.eng.slreqs.filter (fun r => !held r) }
  (s.eng.slreqs.filter (fun r => decide (r.gang = gk) && !r.mark)).foldl killWaiter s

/-! ### Batches (R317) -/

/-- The key and the sequence of a lane. -/
structure SlLane where
  lane : Nat
  key : Word
  seq : Word
  deriving DecidableEq, Repr

/-- The lanes of a word with their keys and sequences. -/
def slLanes (x : Cx) (a b : Nat) : List SlLane := x.lanes.map (fun i => { lane := i, key := x.v a i, seq := x.v b i })

/-- The lanes that name a key, in ascending order. -/
def batchOf (ls : List SlLane) (k : Word) : List SlLane := ls.filter (fun l => decide (l.key = k))

/-- A batch's sequences run up by one from lane to lane. -/
def runsOk (b : List SlLane) : Bool := b.zipIdx.all (fun p => decide (p.1.seq = ((b.map (fun l => l.seq)).headD 0) + BitVec.ofNat 32 p.2))

/-- Lanes as a mask. -/
def maskOfLanes (b : List SlLane) : Word := lanesOf (b.map (fun l => l.lane))

/-- A sluice trap: the key of the lowest lane named. -/
def slTrap (c : Cause) (ls : List SlLane) : TrapReq :=
  { cause := c, lanes := maskOfLanes ls, detail := (ls.map (fun l => l.key)).headD 0 }

/-- Lanes of a slice. -/
def inSlice (ls : List SlLane) (k : Nat) : List SlLane := ls.filter (fun l => decide (l.lane / 4 = k))

/-- The key a lane holds at a slice's first level. -/
def firstHeld (sl : Slice) (lane : Nat) : Option Word :=
  match sl.hold.getLast? with
  | some h => if h.lanes.getLsbD (lane % 4) then some (h.keys.getD (lane % 4) 0) else none
  | none => none

/-- An earlier SLX of the group's slices has not been acknowledged (R325). DEDUCED: notes/assumptions/56. -/
def slxPending (s : State) (x : Cx) : Bool :=
  s.eng.slrels.any (fun r => decide (r.gang = x.cur.gang) && x.cur.grp.getLsbD r.slice)

/-- The context's requests. -/
def mySl (x : Cx) (r : SlReq) : Bool :=
  decide (r.gang = x.cur.gang) && !r.mark && decide (r.lanes &&& ~~~x.all = 0) && decide (r.lanes ≠ 0)

/-- The key that lane `i` asked for among requests. -/
def keyAsked (rs : List SlReq) (i : Nat) : Word := ((rs.find? (fun r => r.lanes.getLsbD i)).map (fun r => r.key)).getD 0

/-- A level pushed for the lanes of the granted requests `rs`, with the keys they asked for. A slice without one of these
lanes gets no level. DESIGN CHOICE: notes/assumptions/153. -/
def pushLevel (st : State) (x : Cx) (rs : List SlReq) : State :=
  let m := rs.foldl (fun (m : Word) r => m ||| r.lanes) 0
  st.modSl x (fun k sl =>
    let b : BitVec 4 := m.extractLsb' (4 * k) 4
    if b = 0 then sl
    else { sl with hold := { keys := (List.range 4).map (fun i => keyAsked rs (4 * k + i)), lanes := b } :: sl.hold })

/-- The lanes of the context's requests that satisfy `p`. -/
def slMask (st : State) (x : Cx) (p : SlReq → Bool) : Word :=
  (st.eng.slreqs.filter (fun r => mySl x r && p r)).foldl (fun m r => m ||| r.lanes) 0

/-- The context's requests gone. -/
def dropMine (st : State) (x : Cx) : State := { st with eng.slreqs := st.eng.slreqs.filter (fun r => !mySl x r) }

/-- A word that waits for its homes: failed, done, or still waiting (R323). Batches that fail with different causes make one
record, with the cause of the lowest failing lane's. DESIGN CHOICE: notes/assumptions/169. A cause of the fabric or of a
fenced home is precise there. DEDUCED: notes/assumptions/170. -/
def slAnswer (st : State) (x : Cx) (keep : State → List SlReq → State) (fin : State → List SlReq → Res) : Res :=
  let mine := st.eng.slreqs.filter (mySl x)
  let bad := slMask st x (fun r => r.fail.isSome)
  if bad ≠ 0 then
    (let low := (List.range 32).find? (fun i => bad.getLsbD i)
     let r := mine.find? (fun r => r.fail.isSome && low.any (fun i => r.lanes.getLsbD i))
     let st := keep (dropMine st x) (mine.filter (fun r => r.granted))
     let c := (r.bind (fun r => r.fail)).getD .slStale
     let key := (r.map (fun r => r.key)).getD 0
     .trap st { cause := c, lanes := bad,
                detail := if c = .homeFenced ∨ c = .incarnation then BitVec.ofNat 32 (keyDie x.dom 0 key)
                  else if c = .fabUncorr then (r.map (fun r => r.info)).getD 0 else key })
  else if mine.all (fun r => r.granted) then fin (dropMine st x) mine
  else .block st

/-! ### SLE, SLX, SLINIT, SLCLOSE, SLQ -/

/-- A request as core `c` sends it: it names the incarnation of its home's die, and takes the way of R490. -/
def SlReq.sent (s : State) (c : Nat) (r : SlReq) : SlReq :=
  { r with tinc := (s.die (numSlice r.num / 24)).inc, route := routeOf s (coreDie c) (numSlice r.num / 24), made := s.time }

/-- SLE's requests, one for each batch. -/
def sleReqs (x : Cx) (set_ : BitVec 192) (ls : List SlLane) : List SlReq :=
  ((ls.map (fun l => l.key)).dedup).map (fun k =>
    let b := batchOf ls k
    { kind := .enter, dom := x.dom, key := k, first := (b.map (fun l => l.seq)).headD 0, n := b.length, gang := x.cur.gang,
      grp := x.cur.grp, pc := x.cur.pc, lanes := maskOfLanes b, scope := set_ })

/-- SLE at its first issue: the checks in order, then the requests (R326). The stacks are checked slice by slice: the lowest
slice that fails gives the cause, and the record names the lanes of every slice that fails so. DEDUCED: notes/assumptions/171. -/
def sleIssue (set_ : BitVec 192) (ls : List SlLane) (st : State) (x : Cx) : Res :=
  let full := ls.filter (fun l => decide (2 ≤ (x.src.slice (l.lane / 4)).hold.length))
  let bad := ls.filter (fun l => match firstHeld (x.src.slice (l.lane / 4)) l.lane with
    | some k => decide (l.key ≤ k)
    | none => false)
  let gap := ls.filter (fun l => !runsOk (batchOf ls l.key))
  let low := (ls.find? (fun l => full.contains l || bad.contains l)).map (fun l => l.lane / 4)
  if low.any (fun k => full.any (fun l => decide (l.lane / 4 = k))) then .trap st (slTrap .slHoldOvf full)
  else if !bad.isEmpty then .trap st (slTrap .slOrder bad)
  else if !gap.isEmpty then .trap st (slTrap .slGap gap)
  else .block { st with eng.slreqs := st.eng.slreqs ++ (sleReqs x set_ ls).map (SlReq.sent st x.core) }

/-- A waiting SLE whose batches have all been granted: its level, with the keys and the set of its issue, and its acquire. -/
def sleDone (x : Cx) (st : State) (rs : List SlReq) : State :=
  acquire (pushLevel st x rs) x.core (wideSet ((rs.map (fun r => r.scope)).headD 0) x.core)

/-- What stands of an SLE that fails: the batches granted hold their keys, each grant with its acquire (R244, R323). -/
def sleKept (x : Cx) (st : State) (rs : List SlReq) : State := if rs.isEmpty then st else sleDone x st rs

/-- SLE (R326). -/
def sleBody (sc a b : Nat) (st : State) (x : Cx) : Res :=
  if x.cur.retry then slAnswer st x (sleKept x) (fun st rs => .done (sleDone x st rs))
  else match x.scopeSet st sc with
  | none => .trap st (scopeTrap x sc)
  | some m =>
    if slxPending st x then .hold st
    else if x.lanes.isEmpty then .done (acquire st x.core (wideSet m x.core))
    else sleIssue m (slLanes x a b) st x

def execSle (c : Bool) (s : Fin 32) (a b : Fin 64) (st : State) : Host.Outcome State Fault Refusal :=
  issue (.sle c s a b) st (sleBody s.val a.val b.val)

/-- The slices of the group. -/
def Cx.slices (x : Cx) : List Nat := grpSlices x.cur.grp

/-- The lanes an SLX finds not held as named: of slices with an empty stack, and those whose key differs (R327). Where
R319 and R327 name no lanes, the record names those of the slices that fail. DESIGN CHOICE: notes/assumptions/168. -/
def notHeld (x : Cx) (a : Nat) : List SlLane :=
  x.slices.flatMap (fun k =>
    match (x.src.slice k).hold with
    | [] => (List.range 4).map (fun i => { lane := 4 * k + i, key := x.v a (4 * k + i), seq := 0 })
    | h :: _ => ((h.pairs k).filter (fun p => decide (p.2 ≠ x.v a p.1))).map (fun p =>
      { lane := p.1, key := x.v a p.1, seq := 0 }))

/-- The releases an SLX sends (R320). -/
def slxRels (x : Cx) : List SlRel :=
  x.slices.flatMap (fun k =>
    match (x.src.slice k).hold with
    | [] => []
    | h :: _ => (h.counts k).map (fun p => { dom := x.dom, key := p.1, n := p.2, gang := x.cur.gang, slice := k }))

/-- SLX (R327). -/
def slxBody (sc a : Nat) (st : State) (x : Cx) : Res :=
  match x.scopeSet st sc with
  | none => .trap st (scopeTrap x sc)
  | some m =>
    afterRelease st x (wideSet m x.core) (
      let empty := (notHeld x a).filter (fun l => (x.src.slice (l.lane / 4)).hold.isEmpty)
      if !empty.isEmpty then .trap st (slTrap .slNotheld empty)
      else if !(notHeld x a).isEmpty then .trap st (slTrap .slNotheld (notHeld x a))
      else
        let st := st.modSl x (fun _ sl => { sl with hold := sl.hold.tail })
        .done { st with eng.slrels := st.eng.slrels ++ slxRels x })

def execSlx (c : Bool) (s : Fin 32) (a : Fin 64) (st : State) : Host.Outcome State Fault Refusal :=
  issue (.slx c s a) st (slxBody s.val a.val)

/-- SLINIT and SLCLOSE: one request for each active lane, answered by its home (R325). DEDUCED: notes/assumptions/58. -/
def slEach (kind : SlKind) (a b : Nat) (skip : Bool) (st : State) (x : Cx) : Res :=
  if x.cur.retry then slAnswer st x (fun st _ => st) (fun st _ => .done st)
  else if slxPending st x then .hold st
  else if x.lanes.isEmpty then .done st
  else .block { st with eng.slreqs := st.eng.slreqs ++ (slLanes x a b).map (fun l => SlReq.sent st x.core
      { kind := kind, dom := x.dom, key := l.key, first := l.seq, n := 1, gang := x.cur.gang, grp := x.cur.grp,
        pc := x.cur.pc, lanes := maskOfLanes [l], skip := skip }) }

/-- SLINIT (R328). -/
def execSlinit (c : Bool) (a b : Fin 64) (p : Fin 2) (st : State) : Host.Outcome State Fault Refusal :=
  issue (.slinit c a b p) st (slEach .init a.val b.val (decide (p.val = 1)))

/-- SLCLOSE (R329). -/
def execSlclose (c : Bool) (a b : Fin 64) (st : State) : Host.Outcome State Fault Refusal :=
  issue (.slclose c a b) st (slEach .close a.val b.val false)

/-- The flags SLQ returns for a key (R330). -/
def slFlags (s : State) (k : Nat) : Word :=
  match smFind s.eng.keys k with
  | none => 0
  | some v =>
    BitVec.ofNat 32 (v.brk.toNat + 2 * v.hld.toNat +
      4 * (s.eng.slreqs.any (fun r => decide (r.num = k) && r.waits && !r.mark)).toNat + 8 * v.pol.toNat + 16 * v.ovf.toNat +
      32 * v.clp.toNat + 64)

/-- SLQ (R330); a key homed on a fenced die raises HOME_FENCED (R321). -/
def execSlq (c : Bool) (a b : Fin 64) (st : State) : Host.Outcome State Fault Refusal :=
  issue (.slq c a b) st (fun st x =>
    let bad := x.lanes.filter (fun i => keyFenced st x.dom 0 (x.v a.val i))
    match bad with
    | i :: _ => .trap st { cause := .homeFenced, lanes := lanesOf bad, detail := BitVec.ofNat 32 (keyDie x.dom 0 (x.v a.val i)) }
    | [] =>
      let k := fun (i : Nat) => slNum x.dom 0 (x.v a.val i)
      .done ((st.putV x x.lanes b.val (fun i => (st.slKey (k i)).ne)).putV x x.lanes (b.val + 1) (fun i => slFlags st (k i))))

/-! ### The homes' events -/

/-- Request `k` changed by `f`. -/
def modSlReq (s : State) (k : Nat) (f : SlReq → SlReq) : State :=
  match s.eng.slreqs[k]? with
  | none => s
  | some r => { s with eng.slreqs := putAt s.eng.slreqs k (f r) }

/-- Lane requests that wait at a home slice (R315). -/
def buffered (s : State) (slice : Nat) : Nat :=
  (s.eng.slreqs.filter (fun r => r.waits && decide (numSlice r.num = slice))).foldl (fun n r => n + r.n) 0

/-- A home registers request `k`, or refuses it as fenced; with its buffer full it does not take it. -/
def registerSl (s : State) (k : Nat) : State :=
  match s.eng.slreqs[k]? with
  | none => s
  | some r =>
    if r.registered || r.fail.isSome || r.granted then s
    else if keyFenced s r.dom r.ns r.key then modSlReq s k (fun r => { r with fail := some .homeFenced })
    else if r.route ≠ [] ∧ (s.die (numSlice r.num / 24)).inc ≠ r.tinc then modSlReq s k (fun r => { r with fail := some .incarnation })
    else if 512 < buffered s (numSlice r.num) + r.n then modSlReq s k (fun r => { r with at_ := s.time })
    else
      let s := modSlReq s k (fun r => { r with registered := true })
      (ensureKey s r.num).getD s

/-- SLUICE_REQUEST (R314): operand k. -/
def execSluiceRequest (st : State) : Host.Outcome State Fault Refusal := event (registerSl st (st.op 0))

/-- SLUICE_BUFFER_RETRY (R315): a request that found the buffer full is repeated 256 clocks later. Operand k. -/
def execSluiceBufferRetry (st : State) : Host.Outcome State Fault Refusal :=
  event (match st.eng.slreqs[st.op 0]? with
    | none => st
    | some r => if decide (r.at_ ≠ 0) && decide (256 ≤ clocksSince st r.at_) then registerSl st (st.op 0) else st)

/-- The home examines a request to enter (R317, R326). -/
def grantEnter (s : State) (k : Nat) (r : SlReq) : State :=
  let v := s.slKey r.num
  if v.brk then modSlReq s k (fun r => { r with fail := some .slBroken })
  else if passedSeq v.ne r.first then modSlReq s k (fun r => { r with fail := some .slStale })
  else if v.ne = r.first && !v.hld then
    (modSlReq s k (fun r => { r with granted := true })).putKey r.num
      { v with hld := true, hn := r.n, rln := 0, holders := [r.gang], used := s.ticks }
  else s

/-- The requests of the word of a request: its lanes, in ascending order. -/
def SlReq.mate (r q : SlReq) : Bool := decide (q.kind = r.kind) && decide (q.gang = r.gang) && decide (q.grp = r.grp) && !q.mark
def mates (s : State) (r : SlReq) : List SlReq := s.eng.slreqs.filter r.mate

/-- The entries of the keys that requests name, all of them (R314). -/
def ensureKeys (s : State) (rs : List SlReq) : Option State := rs.foldl (fun s r => s.bind (fun s => ensureKey s r.num)) (some s)

/-- A lane's SLINIT (R328) or SLCLOSE (R329) applied at its home. -/
def applyLane (s : State) (r : SlReq) : State :=
  let v := s.slKey r.num
  match r.kind with
  | .init =>
    settleKey (failStale (s.putKey r.num { v with ne := r.first, pol := r.skip, brk := false, clp := false, used := s.ticks }) r.num) r.num
  | .close => settleKey (s.putKey r.num { v with clp := true, fin := r.first, used := s.ticks }) r.num
  | .enter => s

/-- The lanes of an SLINIT or SLCLOSE can be applied: every one is at its home and has an entry, and for SLINIT its key
has no holder. -/
def lanesReady (s : State) (r : SlReq) : Bool :=
  (mates s r).all (fun q => q.waits && (decide (r.kind = .close) || !(s.slKey q.num).hld)) && (ensureKeys s (mates s r)).isSome

/-- The lanes of one SLINIT or SLCLOSE take effect together, in ascending order (R9): a cause that one of them raises
leaves none applied (R8). DEDUCED: notes/assumptions/156. -/
def applyWord (s : State) (r : SlReq) : State :=
  if !lanesReady s r then s
  else
    let s := (ensureKeys s (mates s r)).getD s
    let s := (mates s r).foldl applyLane s
    { s with eng.slreqs := s.eng.slreqs.map (fun q => if r.mate q then { q with granted := true } else q) }

/-- SLUICE_GRANT (R317): operand k. -/
def execSluiceGrant (st : State) : Host.Outcome State Fault Refusal :=
  event (match st.eng.slreqs[st.op 0]? with
    | none => st
    | some r =>
      if !r.waits || r.mark then st
      else if keyFenced st r.dom r.ns r.key then modSlReq st (st.op 0) (fun r => { r with fail := some .homeFenced })
      else match ensureKey st r.num with
        | none => st
        | some s =>
          match r.kind with
          | .enter => grantEnter s (st.op 0) r
          | .init => applyWord s r
          | .close => applyWord s r)

/-- SLUICE_RELEASE (R320, R321): operand k; a fenced home leaves the release with the releasing core. -/
def execSluiceRelease (st : State) : Host.Outcome State Fault Refusal :=
  event (match st.eng.slrels[st.op 0]? with
    | none => st
    | some r =>
      if r.kept then st
      else if keyFenced st r.dom r.ns r.key then { st with eng.slrels := putAt st.eng.slrels (st.op 0) { r with kept := true } }
      else (if r.kill then killHolder else releaseLanes) { st with eng.slrels := dropAt st.eng.slrels (st.op 0) }
        (slNum r.dom r.ns r.key) r.n)

/-- RELEASE_RESEND (R321): operand k. -/
def execReleaseResend (st : State) : Host.Outcome State Fault Refusal :=
  event (match st.eng.slrels[st.op 0]? with
    | none => st
    | some r =>
      if r.kept && !keyFenced st r.dom r.ns r.key then
        { st with eng.slrels := putAt st.eng.slrels (st.op 0) { r with kept := false } }
      else st)

/-- A waiting request that its home cannot answer yet: for want of an entry (R314), or by what it waits for. -/
def slStuck (s : State) (r : SlReq) : Bool :=
  match ensureKey s r.num with
  | none => true
  | some t =>
    let v := t.slKey r.num
    match r.kind with
    | .enter => !v.brk && !passedSeq v.ne r.first && !(decide (v.ne = r.first) && !v.hld)
    | _ => !lanesReady s r

/-- SL_TIMEOUT (R322, R314): operand k; the request is withdrawn and fails in its slice. -/
def execSlTimeout (st : State) : Host.Outcome State Fault Refusal :=
  event (match st.eng.slreqs[st.op 0]? with
    | none => st
    | some r =>
      if r.waits && !r.mark && slStuck st r && decide ((st.domain r.dom).set_.slTimeout < r.timer) then
        modSlReq st (st.op 0) (fun r => { r with fail := some .slTimeout })
      else st)

/-- SLUICE_ENTRY_FREE (R314): operand k, the place among the entries; only a key in the fresh state. -/
def execSluiceEntryFree (st : State) : Host.Outcome State Fault Refusal :=
  event (match st.eng.keys[st.op 0]? with
    | none => st
    | some p => if { p.2 with used := 0, ovf := false, ix := 0 } = ({} : SlKey) then st.dropKey p.1 else st)

/-- A gang's crew is resident. -/
def gangResident (s : State) (gk : Nat) : Bool := (((s.gang gk).bind (fun g => s.crew g.crew)).bind (fun w => w.core?)).isSome

/-- The timers of waiting requests after `dt` nanoseconds (R322). DEDUCED: notes/assumptions/59. -/
def tickSluices (s : State) (dt : Nat) : State :=
  { s with eng.slreqs := s.eng.slreqs.map (fun r =>
      let v := s.slKey r.num
      if r.waits && !r.mark && gangResident s r.gang && (!v.hld || v.holders.all (gangResident s)) then { r with timer := r.timer + dt }
      else r) }

end Sys2Proof.Machine
end

