-- ==== Sys2Proof/Machine/Copies.lean ====
section
/-! DEFINITION. Asynchronous copies (chapter 11): the copy instructions, the line operations of the transfer unit,
multicast reads, enqueues and the copies' completion. -/

namespace Sys2Proof.Machine
open Sys2Proof

/-! ### Spaces (Table 11-1) -/

/-- The global and host spaces: translated. -/
def spcVa (sp : Nat) : Bool := decide (sp = 0) || decide (sp = 6)

/-- CP_SPACES (R338). -/
def spacesBad (sps spd flg : Nat) : Bool :=
  (decide (sps = 6) && decide (spd = 6)) || decide (sps = 5) || (decide (sps = 4) && decide (spd = 6)) ||
  (decide (sps = 6) && decide (spd = 4)) || decide (sps = 7) || decide (spd = 7) ||
  (decide (flg = 2) && !(decide (sps = 0) && decide (spd = 1)))

/-- The segment register that goes with a space. -/
def spcSeg (x : Cx) (st : State) (sp : Nat) : Seg := segOf st x.dom x.hnd x.src.r sp

/-- The range of Table 11-1 broken by `n` bytes at address `a` of a space. -/
def spcOut (st : State) (x : Cx) (sp : Nat) (a : Nat) (n : Nat) : Bool :=
  let g := spcSeg x st sp
  let t := rwNt x.crew.rw
  if spcVa sp then decide (2 ^ 57 ≤ a) || decide (a < g.base.toNat) || decide (g.limit.toNat < a - g.base.toNat + n)
  else if sp = 4 then decide (32768 * t < a + n)
  else if sp = 5 then decide (262144 * t < a + n)
  else if sp = 2 then decide (2 ^ 32 ≤ a) || (checkOff g 2 (BitVec.ofNat 64 a) 1 .read false).isSome ||
    (checkOff g 2 (BitVec.ofNat 64 (a + n - 1)) 1 .read false).isSome
  else decide (g.limit.toNat < a + n)

/-- Where a copy's address leads: package addresses in the Pounds and the Basin, fixed at issue. -/
def spcAddr (st : State) (x : Cx) (sp a : Nat) : Nat :=
  if sp = 1 || sp = 2 || sp = 3 then storageAddr st x.core x.crew (spcSeg x st sp) sp 0 a else a

/-- EADDR of a copy's SEG_LIMIT: the offset in the segment. -/
def spcEaddr (st : State) (x : Cx) (sp a : Nat) : DWord :=
  if spcVa sp then BitVec.ofNat 64 a - (spcSeg x st sp).base else BitVec.ofNat 64 a

/-! ### The address operands -/

/-- CopyAddr: the operand of lane `i`. -/
def copyAddr (x : Cx) (sp r i : Nat) : Nat := if spcVa sp then (x.v2 r i).toNat else (x.v r i).toNat

/-- A tile descriptor (Table 11-2). -/
structure TileD where
  addr : Nat
  str : Nat
  shape : Word

def tileD (x : Cx) (r : Nat) : TileD := { addr := (x.s2 r).toNat, str := (x.s (r + 2)).toNat, shape := x.s (r + 3) }
def TileD.rows (d : TileD) : Nat := fld d.shape.toNat 16 12
def TileD.rb (d : TileD) : Nat := fld d.shape.toNat 0 16

/-- The region's last byte is out of range; in the Reach every row's ends are looked at. -/
def tileOut (st : State) (x : Cx) (sp : Nat) (d : TileD) (rows rb : Nat) : Bool :=
  if sp = 2 then (List.range rows).any (fun j => spcOut st x sp (d.addr + j * d.str) rb)
  else spcOut st x sp d.addr ((rows - 1) * d.str + rb)

/-- A cause named by every lane of the group. -/
def allTrap (x : Cx) (c : Cause) : TrapReq := { cause := c, lanes := x.all }

/-- TileChecks (R341). DEDUCED: notes/assumptions/62. -/
def tileChecks (st : State) (x : Cx) (sps spd : Nat) (s d : TileD) : Option TrapReq :=
  let rows := s.rows
  let rb := s.rb
  if rows = 0 || rb = 0 || rb % 16 ≠ 0 || fld s.shape.toNat 28 4 ≠ 0 || d.shape ≠ 0 || 2 ^ 24 < rows * rb ||
    (d.str < rb && 1 < rows) then some (allTrap x .cpSize)
  else if s.addr % 16 ≠ 0 || s.str % 16 ≠ 0 then some { allTrap x .cpAlign with addr := BitVec.ofNat 64 s.addr }
  else if d.addr % 16 ≠ 0 || d.str % 16 ≠ 0 then some { allTrap x .cpAlign with addr := BitVec.ofNat 64 d.addr }
  else if tileOut st x sps s rows rb then
    some { allTrap x .segLimit with addr := spcEaddr st x sps s.addr, detail := BitVec.ofNat 32 sps }
  else if tileOut st x spd d rows rb then
    some { allTrap x .segLimit with addr := spcEaddr st x spd d.addr, detail := BitVec.ofNat 32 spd }
  else none

/-- A lane check broken by some active lane (R202): its lanes, the address and the detail of the lowest. -/
def laneTrap (x : Cx) (c : Cause) (bad : Nat → Bool) (ea : Nat → DWord) (detail : Nat → Word) : Option TrapReq :=
  match x.lanes.filter bad with
  | [] => none
  | i :: is => some { cause := c, lanes := lanesOf (i :: is), addr := ea i, detail := detail i }

/-- The lane checks of R358: CP_ALIGN, then SEG_LIMIT; a lane that fails on both sides names its source. -/
def copyLaneChecks (st : State) (x : Cx) (n sps spd a b : Nat) : Option TrapReq :=
  let s := copyAddr x sps a
  let d := copyAddr x spd b
  let outS := fun i => spcOut st x sps (s i) n
  let al := laneTrap x .cpAlign (fun i => decide (s i % n ≠ 0) || decide (d i % n ≠ 0))
    (fun i => BitVec.ofNat 64 (if s i % n ≠ 0 then s i else d i)) (fun _ => 0)
  al <|> laneTrap x .segLimit (fun i => outS i || spcOut st x spd (d i) n)
    (fun i => if outS i then spcEaddr st x sps (s i) else spcEaddr st x spd (d i))
    (fun i => BitVec.ofNat 32 (if outS i then sps else spd))

/-- A Reach address of the copy names a member that is on no core now (R199). DESIGN CHOICE: notes/assumptions/43. -/
def copyAway (st : State) (x : Cx) (sp : Nat) (as : List Nat) : Bool :=
  as.any (fun a => reachAway st x.core x.crew sp (BitVec.ofNat 64 a))

/-- The same over a whole copy: the lanes' addresses, or the rows' of a tile. -/
def wordAway (st : State) (x : Cx) (tile : Bool) (sps spd a b : Nat) (sd dd : TileD) : Bool :=
  if tile then
    (let rows := List.range sd.rows
     copyAway st x sps (rows.map (fun j => sd.addr + j * sd.str)) || copyAway st x spd (rows.map (fun j => dd.addr + j * dd.str)))
  else copyAway st x sps (x.lanes.map (copyAddr x sps a)) || copyAway st x spd (x.lanes.map (copyAddr x spd b))

/-! ### The copy that a word forks -/

/-- The parts of a per-lane copy, in ascending lanes. -/
def laneParts (st : State) (x : Cx) (n sps spd a b : Nat) : List CpPart :=
  x.lanes.map (fun i =>
    { dst := spcAddr st x spd (copyAddr x spd b i), src := spcAddr st x sps (copyAddr x sps a i), n := n,
      lane := i })

/-- The parts of a tile copy: sixteen bytes each. -/
def tileParts (st : State) (x : Cx) (sps spd : Nat) (s d : TileD) : List CpPart :=
  (List.range s.rows).flatMap (fun j => (List.range (s.rb / 16)).map (fun k =>
    { dst := spcAddr st x spd (d.addr + j * d.str + 16 * k), src := spcAddr st x sps (s.addr + j * s.str + 16 * k),
      n := 16 }))

/-- Parts gathered by their destination block (R334). -/
def partLines (ps : List CpPart) : List (List CpPart) :=
  (ps.foldl (fun m p => smSet m (p.dst / 64) (smGet [] m (p.dst / 64) ++ [p])) []).map (fun e => e.2)

/-- The destination words of a part. -/
def CpPart.dsts (p : CpPart) : List Nat := (List.range (p.n / 4)).map (fun k => p.dst + 4 * k)

/-- The distinct destination words of parts (R342), told apart by the addresses that the copy names: one physical byte that it
reaches through two virtual addresses counts twice. DESIGN CHOICE: notes/assumptions/172. -/
def dstWords (ps : List CpPart) : List Nat := (ps.flatMap CpPart.dsts).dedup
def srcBlocks (ps : List CpPart) : List Nat := (ps.map (fun p => p.src / 64)).dedup

/-- The core and the offset of a Pound address. -/
def poundCore (a : Nat) : Nat := (a - 2 ^ 66) / 2 ^ 20
def poundOff (a : Nat) : Nat := (a - 2 ^ 66) % 2 ^ 20

/-- The scoreboard entries of a copy into a Pound (R345): one for each Pound that it writes. -/
def cpRanges (spd : Nat) (ps : List CpPart) : List (Nat × Nat × Nat) :=
  if spd = 1 || spd = 2 then
    ((ps.map (fun p => poundCore p.dst)).dedup).map (fun c =>
      let os := (ps.filter (fun p => decide (poundCore p.dst = c))).map (fun p => (poundOff p.dst, poundOff p.dst + p.n - 1))
      (c, (os.map (fun o => o.1)).foldl min (2 ^ 20), (os.map (fun o => o.2)).foldl max 0))
  else []

/-- Entries in a core's scoreboard (32, Table 1-2). -/
def scoreUsed (s : State) (c : Nat) : Nat :=
  (s.eng.copies.flatMap (fun p => p.2.ranges.filter (fun r => decide (r.1 = c)))).length

/-- The fork of a copy: its entries, its unbound count, its place in the follow-on latch, or the stall (R345, R353). -/
def forkCopy (st : State) (x : Cx) (c : Copy) (mask : Nat) (enq : Option (Word × Nat × Nat × Nat)) (ps : List CpPart) : Res :=
  let rs := cpRanges c.spd ps
  if rs.any (fun r => decide (32 ≤ scoreUsed st r.1)) then .hold st
  else if c.flg = 1 && decide (8 ≤ x.gang.latch.copies.length) then .hold st
  else
    let id := st.work.next
    let c := { c with gang := x.cur.gang, core := x.core, dom := x.dom, lines := partLines ps,
                      need := srcBlocks ps }
    let st := { st with work.next := id + 1,
                        eng.copies := smSet st.eng.copies id { c := c, mask := mask, enq := enq, ranges := rs, total := 4 * (dstWords ps).length } }
    let st := bindCopy st x.crewNo x.gang.ix c.bar
    .done (if c.flg = 1 then
        st.modGang x.cur.gang (fun g => { g with latch := { g.latch with armed := true, copies := g.latch.copies ++ [id] } })
      else st)

/-- CP_ENQ at issue (R350): s61 is malformed, the member's bit is clear, or the queue is not declared. -/
def enqBad (x : Cx) : Bool :=
  let t := (x.s 61).toNat
  decide (fld t 6 26 ≠ 0) || !(x.src.r.rdSeg 2).base.getLsbD (fld t 4 2) || decide (kwNq x.crew.kw ≤ fld t 0 4)

/-- The crew of member `c` of the issuing crew's team, on a core or out; none before it starts. -/
def teamMember (st : State) (x : Cx) (c : Nat) : Option Nat :=
  if kwKind x.crew.kw ≠ 1 then (if c = x.core % 4 then some x.crewNo else none)
  else (st.work.crews.find? (fun p => decide (p.2.task = x.crew.task) &&
    decide (p.2.crewid.toNat = x.crew.crewid.toNat / 4 * 4 + c) && (match p.2.place with | .ended _ => false | _ => true))).map
      (fun p => p.1)

/-- The enqueue of a CPE: its handle, target crew, queue and producer (R350, R351). -/
def enqTarget (st : State) (x : Cx) : Option (Word × Nat × Nat × Nat) :=
  let t := (x.s 61).toNat
  (teamMember st x (fld t 4 2)).map (fun c => (x.s 60, c, fld t 0 4, x.producer))

/-- One side's translation of a part (R350), with its place in the order of checks: CheckAddr's step first, and the source
before the destination within a step. DESIGN CHOICE: notes/assumptions/173. -/
def partXl (st : State) (x : Cx) (sp a : Nat) (kind : AccKind) : Except CkFail Unit :=
  if spcVa sp then
    (match checkVa st x.core x.dom (BitVec.ofNat 64 a) sp kind 1 with
     | .error f => .error { f with rank := 2 * f.rank + kind.code }
     | .ok _ => .ok ())
  else .ok ()

/-- The checks of CPE's translation over its parts: each lane, or the whole word, with its address. -/
def partChecks (st : State) (x : Cx) (sps spd : Nat) (ps : List (Nat × CpPart)) : List (Nat × DWord × Except CkFail Nat) :=
  ps.flatMap (fun p =>
    [(p.1, BitVec.ofNat 64 p.2.src, (partXl st x sps p.2.src .read).map (fun _ => 0)),
     (p.1, BitVec.ofNat 64 p.2.dst, (partXl st x spd p.2.dst .write).map (fun _ => 0))])

/-- The trap of those checks. DEDUCED: notes/assumptions/61. -/
def partTrap (x : Cx) (tile : Bool) (rs : List (Nat × DWord × Except CkFail Nat)) : Option TrapReq :=
  (lanesFail 0 rs).map (fun t => if tile then { t with lanes := x.all } else t)

/-- The TLBs after a CPE's translations. -/
def fillParts (st : State) (x : Cx) (sps spd : Nat) (ps : List CpPart) : State :=
  ps.foldl (fun st p =>
    let st := if spcVa sps then fillTlb st x.core x.dom p.src else st
    if spcVa spd then fillTlb st x.core x.dom p.dst else st) st

/-- The multicast mask of s60:s61 (R346). -/
def maskBad (x : Cx) (m : DWord) : Bool := decide (2 ^ 48 ≤ m.toNat) || !m.getLsbD (x.core % 48)

/-- A CPY word after decode (R358). `n` is 4, 8, 16, or 0 for the tile form. A word whose member is on no core, or whose
enqueue names a member that has not started, is held at issue. DESIGN CHOICE: notes/assumptions/43. -/
def copyBody (n sps spd a b bar flg : Nat) (st : State) (x : Cx) : Res :=
  let tile := decide (n = 0)
  let sd := tileD x a
  let dd := tileD x b
  if spacesBad sps spd flg then .trap st (allTrap x .cpSpaces)
  else if flg = 2 && tile then .trap st (allTrap x .cpSize)
  else match (if tile then tileChecks st x sps spd sd dd else none) with
  | some t => .trap st t
  | none =>
    if flg = 2 && maskBad x (x.s2 60) then .trap st (allTrap x .cpMcast)
    else match (if tile then none else copyLaneChecks st x n sps spd a b) with
    | some t => .trap st t
    | none =>
      let away := wordAway st x tile sps spd a b sd dd
      let ps := if tile then tileParts st x sps spd sd dd else laneParts st x n sps spd a b
      let c : Copy := { flg := flg, tile := tile, sps := sps, spd := spd, bar := bar }
      if flg ≠ 3 then (if away then .hold st else forkCopy st x c (if flg = 2 then (x.s2 60).toNat else 0) none ps)
      else if enqBad x then .trap st (allTrap x .cpEnq)
      else match partTrap x tile (partChecks st x sps spd (if tile then ps.map (fun p => (0, p)) else x.lanes.zip ps)) with
      | some t => .trap st t
      | none =>
        if away then .hold st
        else match enqTarget st x with
        | none => .hold st
        | some e => forkCopy (fillParts st x sps spd ps) x c 0 (some e) ps

/-- Bytes per lane of a size code; the tile form has 0. -/
def cpBytes (z : Nat) : Nat := if z = 0 then 4 else if z = 1 then 8 else if z = 2 then 16 else 0

/-- CP (R358). -/
def execCp (c : Bool) (z : Fin 4) (s d : Fin 8) (a b : Fin 64) (r : Fin 16) (st : State) : Host.Outcome State Fault Refusal :=
  issue (.cp c z s d a b r) st (copyBody (cpBytes z.val) s.val d.val a.val b.val r.val 0)

/-- CPT (R341). -/
def execCpt (c : Bool) (s d : Fin 8) (a b : Fin 64) (r : Fin 16) (st : State) : Host.Outcome State Fault Refusal :=
  issue (.cpt c s d a b r) st (copyBody 0 s.val d.val a.val b.val r.val 0)

/-- CPX (R353). -/
def execCpx (c : Bool) (z : Fin 8) (s d : Fin 8) (a b : Fin 64) (r : Fin 16) (st : State) : Host.Outcome State Fault Refusal :=
  issue (.cpx c z s d a b r) st (copyBody (cpBytes z.val) s.val d.val a.val b.val r.val 1)

/-- CPM (R346). -/
def execCpm (c : Bool) (z : Fin 4) (s d : Fin 8) (a b : Fin 64) (r : Fin 16) (st : State) : Host.Outcome State Fault Refusal :=
  issue (.cpm c z s d a b r) st (copyBody (cpBytes z.val) s.val d.val a.val b.val r.val 2)

/-- CPE (R350). -/
def execCpe (c : Bool) (z : Fin 8) (s d : Fin 8) (a b : Fin 64) (r : Fin 16) (st : State) : Host.Outcome State Fault Refusal :=
  issue (.cpe c z s d a b r) st (copyBody (cpBytes z.val) s.val d.val a.val b.val r.val 3)

/-! ### The line operations of the transfer unit (R334, R335, R342, R344) -/

/-- Copy `k` changed. -/
def State.modCopy (s : State) (k : Nat) (f : CopyX → CopyX) : State := { s with eng.copies := smModify s.eng.copies k f }

/-- The first failure stands. -/
def Copy.failed (c : Copy) (e : Err) : Copy := { c with fail := some (c.fail.getD e) }

/-- A block of the global or host space translated on the issuing core's TLBs, and its home asked by copy `k` (R339, R344). -/
def blockXl (s : State) (k : Nat) (c : Copy) (sp blk : Nat) (kind : AccKind) : Except Err Nat :=
  let va := BitVec.ofNat 64 (64 * blk)
  match checkVa s c.core c.dom va sp kind 1 with
  | .error f => .error { cause := f.cause, addr := va, detail := f.detail }
  | .ok pa =>
    match threadFail s k (lineOf pa) with
    | none => .ok pa
    | some e => .error { cause := e, addr := va, detail := threadInfo s k (lineOf pa) e }

/-- The line that a block of the global or host space names; none where it has no translation. -/
def blockLine (s : State) (c : Copy) (sp blk : Nat) (kind : AccKind) : List Nat :=
  if !spcVa sp then []
  else match checkVa s c.core c.dom (BitVec.ofNat 64 (64 * blk)) sp kind 1 with
    | .error _ => []
    | .ok pa => [lineOf pa]

/-- An engine forked as number `k` by gang `g` of core `c` may act on a line now: no home transaction holds it, the gang's
earlier accesses to it have been performed, and the core's words that are on their way to it have been applied (R238,
R249). -/
def engineReady (s : State) (k g c l : Nat) : Bool :=
  !lineBusy s l &&
  !s.coh.reqs.any (fun q => decide (q.r.line = l) && decide (q.r.kind ≠ .evict) && !q.applied &&
    ((decide (q.r.gang = g) && decide (q.r.id < k)) ||
      (decide (q.r.core = c) && (decide (q.r.kind = .push) || decide (q.r.kind = .writeback))))) &&
  !s.coh.replies.any (fun p => decide (p.r.line = l) && decide (p.r.gang = g) && decide (p.r.id < k) && decide (p.kind = .data) &&
    decide (p.r.wm ≠ 0) && decide (p.r.kind ≠ .atomic))

/-- A block of a space may be read or written now. -/
def blockReady (s : State) (k : Nat) (c : Copy) (sp blk : Nat) (kind : AccKind) : Bool :=
  if spcVa sp then
    (match blockXl s k c sp blk kind with
     | .error _ => true
     | .ok pa => engineReady s k c.gang c.core (lineOf pa))
  else true

/-- A word of accumulator memory at byte offset `o` (Table 11-1). -/
def accWord (e : CrewEng) (o : Nat) : Word := if o % 8 = 0 then loW (smGet 0 e.acc (o / 8)) else hiW (smGet 0 e.acc (o / 8))

/-- A word of accumulator memory written; P is not changed (R165). -/
def setAccWord (e : CrewEng) (o : Nat) (v : Word) : CrewEng :=
  let old := smGet 0 e.acc (o / 8)
  { e with acc := smPut 0 e.acc (o / 8) (if o % 8 = 0 then hiW old ++ v else v ++ loW old) }

/-- A word of the B-store window written, with its poison mark. -/
def setBstWord (e : CrewEng) (o : Nat) (v : Word) (po : Bool) : CrewEng :=
  { e with bst := (List.range 4).foldl (fun m k => smPut 0 m (o + k) (byteAt v k)) e.bst, bstP := smPut false e.bstP (o / 4) po }

/-- The words `ws` of source block `blk` read (R335): values with their poison, or the refusal. -/
def blockWords (s : State) (k : Nat) (c : Copy) (blk : Nat) (ws : List Nat) : Except Err (List (Nat × (Word × Bool))) :=
  if spcVa c.sps then
    (match blockXl s k c c.sps blk .read with
     | .error e => .error e
     | .ok pa => .ok (ws.map (fun w =>
         let v := readWord s (pa + w % 64)
         (w, (v.1, v.2 || (threadPo s k (lineOf pa)).getLsbD (w / 4 % 16))))))
  else if c.sps = 4 then .ok (ws.map (fun w => (w, (accWord (s.ceng (c.gang / 16)) w, false))))
  else .ok (ws.map (fun w => (w, (getWord s.mem w, isPoison s.poison w))))

/-- The issuing core's untracked dirty words of a block pushed before the engine reads or writes it (R249). -/
def pushBlock (s : State) (k : Nat) (c : Copy) (sp blk : Nat) (kind : AccKind) : State :=
  if spcVa sp then
    (match blockXl s k c sp blk kind with
     | .error _ => s
     | .ok pa => enginePush (fillTlb s c.core c.dom (64 * blk)) c.core (lineOf pa))
  else s

/-- The source words of parts that lie in a block. -/
def partSrcs (ps : List CpPart) (blk : Nat) : List Nat :=
  ((ps.filter (fun p => decide (p.src / 64 = blk))).flatMap (fun p => (List.range (p.n / 4)).map (fun k => p.src + 4 * k))).dedup

/-- One source block read into a copy. DEDUCED: notes/assumptions/63. -/
def Copy.readBlk (c : Copy) (s : State) (k : Nat) (ps : List CpPart) (blk : Nat) : Copy :=
  match blockWords s k c blk (partSrcs ps blk) with
  | .error e => { c with bad := smSet c.bad blk e }
  | .ok vs => { c with got := vs.foldl (fun m p => smSet m p.1 p.2) c.got }

/-- Source blocks read for parts, each after the push of the issuing core's words of it. DEDUCED: notes/assumptions/64. -/
def readBlocks (s : State) (k : Nat) (c : Copy) (ps : List CpPart) (blks : List Nat) : State × Copy :=
  let s := blks.foldl (fun s b => pushBlock s k c c.sps b .read) s
  (s, blks.foldl (fun c b => c.readBlk s k ps b) c)

/-- The words a line operation writes: address, value, poison, in ascending lanes. -/
def lineWrites (c : Copy) (ps : List CpPart) : List (Nat × (Word × Bool)) :=
  ps.flatMap (fun p => (List.range (p.n / 4)).map (fun k => (p.dst + 4 * k, smGet (0, false) c.got (p.src + 4 * k))))

/-- A line operation's words written into their storage (R342). -/
def writeLine (s : State) (k : Nat) (c : Copy) (blk : Nat) (ws : List (Nat × (Word × Bool))) : Except Err State :=
  if spcVa c.spd then
    (match blockXl s k c c.spd blk .write with
     | .error e => .error e
     | .ok pa =>
       let bad := threadPo s k (lineOf pa)
       let s := pushBlock s k c c.spd blk .write
       let wm := ws.foldl (fun (m : BitVec 64) w => m ||| maskAt (w.1 / 4 % 16) 0xF) 0
       let wd := ws.foldl (fun (d : BitVec 512) w => lineSetMasked d (w.1 / 4 % 16) w.2.1 0xF) 0
       let po := ws.foldl (fun (m : BitVec 16) w =>
         if w.2.2 then m ||| wordBit (w.1 / 4 % 16) else m &&& ~~~(wordBit (w.1 / 4 % 16))) 0
       .ok (engineWrite s c.core (lineOf pa) wm wd (po ||| (bad &&& touched wm))))
  else if c.spd = 4 then .ok (s.modCeng (c.gang / 16) (fun e => ws.foldl (fun e w => setAccWord e w.1 w.2.1) e))
  else if c.spd = 5 then .ok (s.modCeng (c.gang / 16) (fun e => ws.foldl (fun e w => setBstWord e w.1 w.2.1 w.2.2) e))
  else .ok (ws.foldl (fun s w => s.putWord w.1 w.2.1 0xF w.2.2) s)

/-- What reading a poisoned source word makes the copy fail with (R344). -/
def poisonErr (c : Copy) (a : Nat) : Err :=
  if 2 ^ 66 ≤ a ∧ a < 2 ^ 67 ∧ spcVa c.sps = false then { cause := .eccPound, addr := BitVec.ofNat 64 (poundOff a) }
  else { cause := .cpPoison, detail := BitVec.ofNat 32 c.bar }

/-- The physical place of a destination block, for the order of two copies of one gang (R336). -/
def dstPlace (s : State) (k : Nat) (c : Copy) (blk : Nat) : Nat × Nat :=
  if spcVa c.spd then
    (match blockXl s k c c.spd blk .write with
     | .error _ => (1, blk)
     | .ok pa => (0, pa / 64))
  else if c.spd = 4 then (2, blk) else if c.spd = 5 then (3, blk) else (0, blk)

/-- An earlier copy of the gang has still to write some of these destination words (R336). -/
def copyBefore (s : State) (k : Nat) (c : Copy) (ps : List CpPart) : Bool :=
  s.eng.copies.any (fun q => decide (q.1 < k) && decide (q.2.c.gang = c.gang) && q.2.c.lines.any (fun l =>
    l.any (fun p => ps.any (fun r => decide (dstPlace s q.1 q.2.c (p.dst / 64) = dstPlace s k c (r.dst / 64)) &&
      (CpPart.dsts p).any (fun w => (CpPart.dsts r).any (fun v => decide (w % 64 = v % 64)))))))

/-- The entries of the scoreboard whose Pound has no line operation left retire (R345). -/
def CopyX.retire (p : CopyX) : CopyX :=
  { p with ranges := p.ranges.filter (fun r => p.c.lines.any (fun l => l.any (fun q => decide (poundCore q.dst = r.1)))) }

/-- A list without the places of `l`. -/
def dropAll (ls : List (List CpPart)) (l : List Nat) : List (List CpPart) :=
  (ls.zipIdx.filter (fun e => !l.contains e.2)).map (fun e => e.1)

/-- Line operations over: their bytes land where it wrote them, and for a CPE's last line with the completion (R351). -/
def lineOver (s : State) (k : Nat) (p : CopyX) (l : List Nat) (c : Copy) (n : Nat) (wrote : Bool) : State :=
  let c := { c with lines := dropAll c.lines l }
  let n := if wrote && !(decide (c.flg = 3) && c.lines.isEmpty) then n else 0
  let s := s.modCopy k (fun _ => { p with c := c, landed := p.landed + n }.retire)
  landBytes s (c.gang / 16) c.bar n

/-- Lines `l` of copy `k`, which share one place, with their sources read; `ps` are their parts in ascending lanes. -/
def landLine (s : State) (k : Nat) (p : CopyX) (c : Copy) (l : List Nat) (ps : List CpPart) : State :=
  let n := 4 * (dstWords ps).length
  let blk := (ps.headD {}).dst / 64
  match (srcBlocks ps).findSome? (fun b => smFind c.bad b) with
  | some e => lineOver s k p l (c.failed e) n false
  | none =>
    let ws := lineWrites c ps
    match writeLine s k c blk ws with
    | .error e => lineOver s k p l (c.failed e) n false
    | .ok s =>
      let po := ps.flatMap (fun q => (List.range (q.n / 4)).filterMap (fun j =>
        if (smGet (0, false) c.got (q.src + 4 * j)).2 then some (q.src + 4 * j) else none))
      lineOver s k p l (match po with
        | [] => c
        | a :: _ => c.failed (poisonErr c a)) n true

/-- Some multicast request of the copy is still in a merge table. -/
def inMerge (s : State) (k : Nat) : Bool := s.eng.merges.any (fun m => !m.sent && m.who.any (fun w => decide (w.1 = k)))

/-- The source blocks that a line's landing reads first: all of them for a per-lane copy's first line, and of a tile those
of the line that no earlier line has read (R334). -/
def toRead (c : Copy) (ps : List CpPart) : List Nat := if c.tile then (srcBlocks ps).filter c.need.contains else c.need

/-- The lines of a per-lane copy that lie in the place of line `l` through other addresses and whose sources were read:
they land with it, so that a byte takes the highest lane's value (R9, R334). -/
def sharers (s : State) (k : Nat) (c : Copy) (l : Nat) (ps : List CpPart) : List Nat :=
  let here := dstPlace s k c ((ps.headD {}).dst / 64)
  if c.tile then [l]
  else (c.lines.zipIdx.filter (fun e => decide (e.2 = l) || (decide (dstPlace s k c ((e.1.headD {}).dst / 64) = here) &&
    !(srcBlocks e.1).any (fun b => (smFind c.bad b).isSome)))).map (fun e => e.2)

/-- Parts in ascending lanes. -/
def byLane (ps : List CpPart) : List CpPart := (List.range 32).flatMap (fun i => ps.filter (fun p => decide (p.lane = i)))

/-- COPY_LINE_LAND (R342): line operation l of copy k. -/
def execCopyLineLand (st : State) : Host.Outcome State Fault Refusal :=
  let k := st.op 0
  let l := st.op 1
  event (match smFind st.eng.copies k with
    | none => st
    | some p =>
      match p.c.lines[l]? with
      | none => st
      | some ps =>
        let now := toRead p.c ps
        let dst := (ps.headD {}).dst / 64
        let ready := !(p.c.flg = 2 && (!p.c.need.isEmpty || inMerge st k)) &&
          !copyBefore st k p.c ((sharers st k p.c l ps).flatMap (fun i => p.c.lines.getD i [])) &&
          now.all (fun b => blockReady st k p.c p.c.sps b .read) && blockReady st k p.c p.c.spd dst .write
        throughFabric st k p.c.core (now.flatMap (fun b => blockLine st p.c p.c.sps b .read) ++ blockLine st p.c p.c.spd dst .write)
          ready (fun st =>
            let r := readBlocks st k { p.c with need := p.c.need.filter (fun b => !now.contains b) } p.c.lines.flatten now
            let ls := if (srcBlocks ps).any (fun b => (smFind r.2.bad b).isSome) then [l] else sharers r.1 k r.2 l ps
            landLine r.1 k p r.2 ls (byLane (ls.flatMap (fun i => p.c.lines.getD i [])))))

/-! ### Completion (R343, R344, R353, R355) -/

/-- A copy leaves its gang's latch, and the captured follow-ons that wait for it. -/
def leaveLatch (s : State) (k gk : Nat) (bad : Bool) : State :=
  let s := s.modGang gk (fun g =>
    if g.latch.copies.contains k then
      { g with latch := { g.latch with copies := g.latch.copies.filter (fun j => decide (j ≠ k)), failed := g.latch.failed || bad } }
    else g)
  { s with eng.mx := s.eng.mx.map (fun p =>
      if p.2.q.copies.contains k then
        (p.1, { p.2 with q := { p.2.q with copies := p.2.q.copies.filter (fun j => decide (j ≠ k)), dropped := p.2.q.dropped || bad } })
      else p) }

/-- Barrier `b` of a crew in the crew's saved context, where the crew is out (R360). -/
def saveBar (s : State) (crew b : Nat) : State := saveWords s crew (0xD000 + 12 * b) (encBar ((s.ceng crew).bar b))

/-- A copy over: its cause recorded, its remaining bytes landed, its count or binding let go. -/
def endCopy (s : State) (k : Nat) (p : CopyX) : State :=
  let crew := p.c.gang / 16
  let s := endPkts { s with eng.copies := smErase s.eng.copies k } k
  let s := leaveLatch s k p.c.gang p.c.fail.isSome
  if (s.crew crew).isNone then s
  else
    let s := match p.c.fail with
      | none => s
      | some e => recordCE s crew p.c.bar e.cause e.detail e.addr
    let s := landBytes s crew p.c.bar (p.total - p.landed)
    saveBar (unbindCopy s crew (p.c.gang % 16) p.c.bar p.bound) crew p.c.bar

/-- COPY_COMPLETE (R343): copy k, all of whose line operations have landed or failed, whose enqueue is over, and whose gang's
earlier accesses are complete (R249, R250). -/
def execCopyComplete (st : State) : Host.Outcome State Fault Refusal :=
  event (match smFind st.eng.copies (st.op 0) with
    | none => st
    | some p =>
      if p.c.lines.isEmpty && (p.enq.isNone || p.enqDone) && !forkPending st (st.op 0) p.c.gang p.c.core then endCopy st (st.op 0) p
      else st)

/-! ### Multicast reads (R346 to R348) -/

/-- The key of a merge table entry. -/
def MergeEnt.isFor (m : MergeEnt) (die slice dom line mask : Nat) : Bool :=
  decide (m.die = die) && decide (m.slice = slice) && decide (m.dom = dom) && decide (m.line = line) && decide (m.mask = mask)

/-- The requester set of an entry as bits of a mask, its cores numbered within their die: the key has no die of the requesters,
so cores of two dies that name one mask share an entry. DESIGN CHOICE: notes/assumptions/174. -/
def whoMask (s : State) (who : List (Nat × Nat)) : Nat :=
  (((who.filterMap (fun w => (smFind s.eng.copies w.1).map (fun p => p.c.core % 48))).dedup).map (fun c => 2 ^ c)).sum

/-- The cores that an entry has served. -/
def servedMask (m : MergeEnt) : Nat := ((m.served.dedup).map (fun c => 2 ^ c)).sum

/-- Block `blk` read for copy `k` (R348). -/
def serveBlock (s : State) (w : Nat × Nat) : State :=
  s.modCopy w.1 (fun p => { p with c := p.c.readBlk s w.1 p.c.lines.flatten w.2 })

/-- A send: one read of the line for every requester. -/
def sendMerge (s : State) (m : MergeEnt) : State × MergeEnt :=
  ({ s with eng.copies := (m.who.foldl (fun (t : State) w =>
      t.modCopy w.1 (fun p => { p with c := p.c.readBlk s w.1 p.c.lines.flatten w.2 })) s).eng.copies },
   { m with sent := true, at_ := s.time,
            served := m.served ++ m.who.filterMap (fun w => (smFind s.eng.copies w.1).map (fun p => p.c.core % 48)) })

/-- An entry put back into the table, or freed when every core of its mask has been served. -/
def putMerge (s : State) (i : Nat) (m : MergeEnt) : State :=
  if m.sent && decide (servedMask m &&& m.mask = m.mask) then { s with eng.merges := dropAt s.eng.merges i }
  else { s with eng.merges := putAt s.eng.merges i m }

/-- A request joins the WAIT entry at place `i`, which is sent when its set equals the mask. -/
def joinMerge (s : State) (i : Nat) (m : MergeEnt) (w : Nat × Nat) : State :=
  let m := { m with who := m.who ++ [w] }
  if whoMask s m.who = m.mask then
    (let r := sendMerge s m
     putMerge r.1 i r.2)
  else { s with eng.merges := putAt s.eng.merges i m }

/-- A request of copy `k` on core `c` for block `blk`, homed at `l`, handled at the home (R347). -/
def mergeRequest (s : State) (k : Nat) (p : CopyX) (blk l : Nat) : State :=
  let die := lineDie l
  let sl := lineSlice l
  let at_ := s.eng.merges.findIdx? (fun m => m.isFor die sl p.c.dom l p.mask)
  match at_ with
  | some i =>
    let m := s.eng.merges.getD i {}
    if m.sent then putMerge (serveBlock s (k, blk)) i { m with served := m.served ++ [p.c.core % 48] }
    else joinMerge s i m (k, blk)
  | none =>
    if (s.domain p.c.dom).set_.window = 0 ||
      256 ≤ (s.eng.merges.filter (fun m => decide (m.die = die) && decide (m.slice = sl))).length then serveBlock s (k, blk)
    else
      let m : MergeEnt := { die := die, slice := sl, dom := p.c.dom, line := l, mask := p.mask, at_ := s.time }
      joinMerge { s with eng.merges := s.eng.merges ++ [m] } s.eng.merges.length m (k, blk)

/-- CPM_LINE_REQUEST (R347): the l-th source block that copy k has still to ask for. -/
def execCpmLineRequest (st : State) : Host.Outcome State Fault Refusal :=
  let k := st.op 0
  let l := st.op 1
  event (match smFind st.eng.copies k with
    | none => st
    | some p =>
      if p.c.flg ≠ 2 then st
      else match p.c.need[l]? with
      | none => st
      | some blk =>
        throughFabric st k p.c.core (blockLine st p.c p.c.sps blk .read) (blockReady st k p.c p.c.sps blk .read) (fun st =>
          let asked := fun (s : State) => s.modCopy k (fun p => { p with c := { p.c with need := dropAt p.c.need l } })
          match blockXl st k p.c p.c.sps blk .read with
          | .error _ => asked (serveBlock st (k, blk))
          | .ok pa => mergeRequest (asked (pushBlock st k p.c p.c.sps blk .read)) k p blk (lineOf pa)))

/-- MERGE_WINDOW (R347): the entry at place k has waited for the domain's window. -/
def execMergeWindow (st : State) : Host.Outcome State Fault Refusal :=
  event (match st.eng.merges[st.op 0]? with
    | none => st
    | some m =>
      if m.sent || lineBusy st m.line || clocksSince st m.at_ < (st.domain m.dom).set_.window then st
      else
        let r := sendMerge st m
        putMerge r.1 (st.op 0) r.2)

/-- MERGE_ENTRY_FREE (R347): 4,096 clocks after its send. -/
def execMergeEntryFree (st : State) : Host.Outcome State Fault Refusal :=
  event (match st.eng.merges[st.op 0]? with
    | none => st
    | some m =>
      if m.sent && decide (4096 ≤ clocksSince st m.at_) then { st with eng.merges := dropAt st.eng.merges (st.op 0) } else st)

/-! ### The enqueue of a CPE (R351, R352, R303) -/

/-- Pending enqueues of the queues of the crews on a core. DEDUCED: notes/assumptions/66. -/
def pendOn (s : State) (core : Nat) : Nat :=
  (s.eng.copies.filter (fun p => p.2.pended && p.2.enq.any (fun e => decide (((s.crew e.2.1).bind Crew.core?) = some core)))).length

/-- An enqueue at its target's queue. DEDUCED: notes/assumptions/65. -/
def enqueueAt (s : State) (k : Nat) (p : CopyX) (h : Word) (crew core q prod : Nat) : State :=
  if !((s.ceng crew).que q).i then s.modCopy k (refuseEnq Cause.qUninit.code)
  else if canPush s crew q prod then serveQueues (enqueueNow s k crew core q prod h) crew core
  else if p.pended || 16 ≤ pendOn s core then s
  else (s.modQue crew q (fun v => { v with pushW := addWaiter v.pushW (64 + k, prod) })).modCopy k (fun p => { p with pended := true })

/-- CPE_ENQUEUE (R351): copy k, whose payload has landed. -/
def execCpeEnqueue (st : State) : Host.Outcome State Fault Refusal :=
  let k := st.op 0
  event (match smFind st.eng.copies k with
    | none => st
    | some p =>
      match p.enq with
      | none => st
      | some (h, crew, q, prod) =>
        if !p.c.lines.isEmpty || p.enqDone then st
        else match p.c.fail with
        | some e => st.modCopy k (refuseEnq e.cause.code)
        | none =>
          match st.crew crew with
          | none => st.modCopy k (refuseEnq Cause.tkDomain.code)
          | some w =>
            match w.place with
            | .ended _ => st.modCopy k (refuseEnq Cause.tkDomain.code)
            | .on core =>
              (match bgRelease st k p.c.gang p.c.core p.c.dom with
               | .done false => enqueueAt st k p h crew core q prod
               | .wait t _ => t
               | .done true => st.modCopy k (refuseEnq Cause.homeFenced.code))
            | _ => st)

end Sys2Proof.Machine
end

