-- ==== Sys2Proof/Machine/Sync.lean ====
section
/-! DEFINITION. The fence and the maintenance instructions of chapter 8: FENCE, CFLUSH, CINV, SCBWAIT. -/

namespace Sys2Proof.Machine
open Sys2Proof

/-! ### FENCE (R253) -/

/-- The set of a word that may wait: the one that it read at its issue, whatever SCOPEW has done since (R241). -/
def heldSet (st : State) (x : Cx) (sc : Nat) : Option (BitVec 192) :=
  match x.held with
  | m :: _ => some (BitVec.ofNat 192 m)
  | [] => x.scopeSet st sc

/-- The wait of a fence, then its acquire side. `knd` bit 0 is the acquire side, bit 1 the release side; 7 is .seq. -/
def fenceBody (knd sc : Nat) (st : State) (x : Cx) : Res :=
  match heldSet st x sc with
  | none => .trap st (scopeTrap x sc)
  | some m =>
    let wide := wideSet m x.core
    if !noOuts x.gang x.cur.grp then .block (keepArgs st x [m.toNat])
    else
      let acq := fun (st : State) => Res.done (if knd.testBit 0 then acquire st x.core wide else st)
      if knd.testBit 1 then
        (match release st x.cur.gang x.core x.dom x.cur.grp (wide || decide (knd = 7)) with
         | .ok => acq st
         | .wait s => .block (keepArgs s x [m.toNat])
         | .bad d => .trap st { cause := .homeFenced, lanes := x.all, detail := BitVec.ofNat 32 d })
      else acq st

def execFence (c : Bool) (k : Fin 16) (s : Fin 32) (st : State) : Host.Outcome State Fault Refusal :=
  issue (.fence c k s) st (fenceBody k.val s.val)

/-! ### The range of CFLUSH and CINV (R254) -/

/-- The range lies wholly inside a segment. -/
def inSeg (g : Seg) (va len : Nat) : Bool := decide (g.base.toNat ≤ va) && decide (va + len ≤ g.base.toNat + g.limit.toNat)

/-- CheckAddr for a read but for XL_POLICY, at a virtual address: its package address. -/
def checkNoPol (s : State) (core dom : Nat) (va : Nat) : Except CkFail Nat :=
  if 2 ^ 57 ≤ va then .error { rank := 4, cause := .segLimit }
  else match xlate s core dom va with
    | .error f => .error f
    | .ok e => if !pteR e.leaf then .error { rank := 9, cause := .xlPermR }
      else .ok (physAddr (s.domain dom).map e.leaf (va - e.va))

/-- The 4 KiB pieces of a range: first virtual address and length of each. -/
def pieces (va len : Nat) : List (Nat × Nat) :=
  if len = 0 then []
  else (List.range ((va + len - 1) / 4096 - va / 4096 + 1)).map (fun k =>
    let a := max va ((va / 4096 + k) * 4096)
    (a, min (va + len) ((va / 4096 + k + 1) * 4096) - a))

/-- The package ranges of a checked range, or the earliest failing piece. -/
def rangePas (s : State) (core dom va len : Nat) : Except (Nat × CkFail) (List (Nat × Nat)) :=
  (pieces va len).foldr (fun p acc =>
    match checkNoPol s core dom p.1, acc with
    | .error f, _ => .error (p.1, f)
    | .ok _, .error e => .error e
    | .ok a, .ok l => .ok ((a, p.2) :: l)) (.ok [])

/-- A line holds a byte of the ranges; of everything where there is no list. -/
def lineIn (r : Option (List (Nat × Nat))) (l : Nat) : Bool :=
  match r with
  | none => true
  | some ps => ps.any (fun p => decide (lineOf p.1 ≤ l) && decide (l ≤ lineOf (p.1 + p.2 - 1)))

/-- The checks of CFLUSH and CINV in order: the trap, or the set and the ranges. -/
def rangeCheck (st : State) (x : Cx) (sc a b : Nat) (allMem : Bool) :
    Except TrapReq (BitVec 192 × Option (List (Nat × Nat))) :=
  match x.scopeSet st sc with
  | none => .error (scopeTrap x sc)
  | some m =>
    if allMem then .ok (m, none)
    else
      let va := (x.s2 a).toNat
      let len := (x.s b).toNat
      if 0x01000000 < len || len ≠ 0 && !(inSeg (x.src.r.rdSeg 0) va len || inSeg (x.src.r.rdSeg 6) va len) then
        .error { cause := .segLimit, lanes := x.all, addr := x.s2 a }
      else match rangePas st x.core x.dom va len with
        | .error (v, f) => .error { cause := f.cause, lanes := x.all, addr := BitVec.ofNat 64 v, detail := f.detail }
        | .ok ps => .ok (m, some ps)

/-! ### What each L1 does (R255) -/

/-- CFLUSH in the L1 of core `c`: untracked dirty words pushed, owned words returned. -/
def flushL1 (r : Option (List (Nat × Nat))) (g dom : Nat) (s : State) (c : Nat) : State :=
  ((s.l1Lines c).filter (fun p => lineIn r p.1)).foldl (fun s p =>
    writebackLine (if fenced s p.1 then s else pushLine s c g dom p.1 0xFFFF) c dom p.1 0xFFFF) s

/-- CINV in the L1 of core `c`: V and S sectors become I. -/
def invL1 (r : Option (List (Nat × Nat))) (s : State) (c : Nat) : State :=
  dropFills (s.mapL1 c (fun l e => if lineIn r l then e.dropVS else e)) c

/-- A push or writeback of the set's L1s in the range is still on its way. -/
def flushBusy (s : State) (m : BitVec 192) (r : Option (List (Nat × Nat))) : Bool :=
  let mine := fun (q : Req) => (decide (q.kind = .push) || decide (q.kind = .writeback)) && m.getLsbD q.core && lineIn r q.line
  s.coh.reqs.any (fun q => mine q.r) || s.coh.replies.any (fun p => mine p.r)

/-- The fenced die that keeps the instruction from completing whole: a core of the set that does not answer, or a home
that takes no push. DEDUCED: notes/assumptions/45. -/
def flushBad (s : State) (m : BitVec 192) (r : Option (List (Nat × Nat))) (push : Bool) : Option Nat :=
  match (coresOf m).find? (fun c => coreFenced s c) with
  | some c => some (coreDie c)
  | none =>
    if !push then none
    else ((coresOf m).findSome? (fun c =>
      (((s.l1Lines c).filter (fun p => lineIn r p.1 && decide (p.2.looseWords ≠ 0) && fenced s p.1)).head?).map (fun p => lineDie p.1)))

/-- A set and ranges as a waiting word keeps them, and back. -/
def packRange (m : BitVec 192) (r : Option (List (Nat × Nat))) : List Nat :=
  m.toNat :: (match r with
    | none => [0]
    | some ps => 1 :: ps.flatMap (fun p => [p.1, p.2]))
def pairUp : List Nat → List (Nat × Nat)
  | a :: b :: l => (a, b) :: pairUp l
  | _ => []
def unpackRange (l : List Nat) : BitVec 192 × Option (List (Nat × Nat)) :=
  (BitVec.ofNat 192 (l.headD 0), if l.getD 1 0 = 0 then none else some (pairUp (l.drop 2)))

/-- The whole of CFLUSH (`push`) or CINV: its operands, set and translations are read and the L1s of the set act when it
issues, and it completes when what they sent is complete. -/
def maintBody (push : Bool) (sc a b : Nat) (allMem : Bool) (st : State) (x : Cx) : Res :=
  match (if x.held.isEmpty then rangeCheck st x sc a b allMem else .ok (unpackRange x.held)) with
  | .error t => .trap st t
  | .ok (m, r) =>
    let cs := (coresOf m).filter (fun c => !coreFenced st c)
    let st := if !x.held.isEmpty then st
      else if push then cs.foldl (flushL1 r x.cur.gang x.dom) st else cs.foldl (invL1 r) st
    if push && flushBusy st m r then .block (keepArgs st x (packRange m r))
    else match flushBad st m r push with
      | some d => .trap st { cause := .homeFenced, lanes := x.all, detail := BitVec.ofNat 32 d }
      | none => .done st

def execCflush (c : Bool) (s : Fin 32) (a b : Fin 64) (l : Fin 2) (st : State) : Host.Outcome State Fault Refusal :=
  issue (.cflush c s a b l) st (maintBody true s.val a.val b.val (decide (l.val = 1)))

def execCinv (c : Bool) (s : Fin 32) (a b : Fin 64) (l : Fin 2) (st : State) : Host.Outcome State Fault Refusal :=
  issue (.cinv c s a b l) st (maintBody false s.val a.val b.val (decide (l.val = 1)))

/-! ### SCBWAIT (R256) -/

/-- An entry of the core's scoreboard, but for those of the copies `but`, meets the bytes `lo` to `hi - 1` of its Pound. -/
def scoreMeets (s : State) (core lo hi : Nat) (but : List Nat) : Bool :=
  s.eng.copies.any (fun p => !but.contains p.1 && p.2.ranges.any (fun r => decide (r.1 = core) && decide (r.2.1 < hi) && decide (lo ≤ r.2.2)))

/-- The Pound bytes that SCBWAIT waits for, from its first to past its last, as it read them at its issue. -/
def scbBytes (x : Cx) (a b : Nat) (allMem : Bool) : Nat × Nat :=
  match x.held with
  | lo :: hi :: _ => (lo, hi)
  | _ =>
    if allMem then (x.crew.pbase, x.crew.pbase + poundBytes x.crew.kw x.crew.rw)
    else
      let lo := (x.src.r.rdSeg 1).base.toNat + (x.s a).toNat
      (lo, lo + (x.s b).toNat)

/-- SCBWAIT: a copy of its own chain is not waited for (R29). -/
def scbBody (a b : Nat) (allMem : Bool) (st : State) (x : Cx) : Res :=
  let r := scbBytes x a b allMem
  if x.held.isEmpty && !allMem && decide ((x.src.r.rdSeg 1).limit.toNat < (x.s a).toNat + (x.s b).toNat) then
    .trap st { cause := .segLimit, lanes := x.all, detail := 1, addr := (x.s a).zeroExtend 64 }
  else
    let but := if x.held.isEmpty then chainCopies st x else x.held.drop 2
    if r.1 < r.2 && scoreMeets st x.core r.1 r.2 but then .block (keepArgs st x (r.1 :: r.2 :: but)) else .done st

def execScbwait (c : Bool) (a b : Fin 64) (l : Fin 2) (st : State) : Host.Outcome State Fault Refusal :=
  issue (.scbwait c a b l) st (scbBody a.val b.val (decide (l.val = 1)))

end Sys2Proof.Machine
end

