-- ==== Sys2Proof/Machine/Matrix.lean ====
section
/-! DEFINITION. The matrix engine (chapter 6): the matrix instructions, the arithmetic of a pass, drains and loads, the
reservation table and its grants. -/

namespace Sys2Proof.Machine
open Sys2Proof

/-! ### Format descriptors (Table 6-2) and pass shapes (Table 6-1) -/

def fdAf (f : DWord) : Nat := fld f.toNat 0 5
def fdBf (f : DWord) : Nat := fld f.toNat 5 5
def fdSa (f : DWord) : Bool := f.getLsbD 17
def fdSb (f : DWord) : Bool := f.getLsbD 18
def fdAcc (f : DWord) : Nat := fld f.toNat 19 2
def fdCb (f : DWord) : Nat := fld f.toNat 21 4
def fdCbe (f : DWord) : Bool := f.getLsbD 25
def fdDf (f : DWord) : Nat := fld f.toNat 32 5
def fdRm (f : DWord) : Nat := fld f.toNat 40 3
def fdMxs (f : DWord) : Bool := f.getLsbD 43
def fdAos (f : DWord) : Bool := f.getLsbD 44
def fdAmx (f : DWord) : Bool := f.getLsbD 45

/-- A pass shape: K, A row bytes, B record bytes used, blocks per row. -/
structure Shape where
  k : Nat
  row : Nat
  col : Nat
  nb : Nat

/-- The shape of a format pair (Table 6-1). -/
def passShape (af bf : Nat) : Option Shape :=
  let h := fun (t : Nat) => t = 1 ∨ t = 2
  let q := fun (t : Nat) => t = 3 ∨ t = 4 ∨ t = 5 ∨ t = 6
  if h af ∧ h bf then some { k := 64, row := 128, col := 128, nb := 0 }
  else if q af ∧ q bf then some { k := 128, row := 128, col := 128, nb := 4 }
  else if af = 8 ∧ bf = 8 then some { k := 128, row := 128, col := 128, nb := 0 }
  else if af = 7 ∧ bf = 7 then some { k := 256, row := 128, col := 128, nb := 8 }
  else if af = 9 ∧ bf = 9 then some { k := 256, row := 128, col := 128, nb := 0 }
  else if (af = 3 ∨ af = 4) ∧ bf = 10 then some { k := 256, row := 256, col := 64, nb := 8 }
  else if af = 7 ∧ bf = 10 then some { k := 256, row := 128, col := 64, nb := 8 }
  else if af = 17 ∧ bf = 17 then some { k := 2, row := 16, col := 16, nb := 0 }
  else none

/-- ACC fits the format pair; the reserved value 3 fits none, nor a descriptor without a pair (R169).
DESIGN CHOICE: notes/assumptions/143. -/
def accFits (af bf acc : Nat) : Bool :=
  if af = 0 && bf = 0 then decide (acc ≠ 3)
  else if (af = 8 && bf = 8) || (af = 9 && bf = 9) then decide (acc = 2)
  else if af = 17 then decide (acc = 0)
  else decide (acc ≤ 1)

/-- Formats in memory that hold a whole element's exact value: 1, 2, 16 to 19. -/
def dfWide (d : Nat) : Bool := decide (d = 1) || decide (d = 2) || (decide (16 ≤ d) && decide (d ≤ 19))

/-- What MFMT accepts (R169). -/
def fdOk (f : DWord) : Bool :=
  let af := fdAf f
  let bf := fdBf f
  let df := fdDf f
  decide (fld f.toNat 46 18 = 0) && decide (fld f.toNat 37 3 = 0) && decide (fld f.toNat 26 6 = 0) &&
  decide (fld f.toNat 10 7 = 0) &&
  ((decide (af = 0) && decide (bf = 0)) || (passShape af bf).isSome) && accFits af bf (fdAcc f) &&
  (!fdSa f || (decide (3 ≤ af) && decide (af ≤ 7))) && (!fdSb f || (decide (3 ≤ bf) && decide (bf ≤ 7)) || decide (bf = 10)) &&
  (decide (bf ≠ 10) || fdSb f) &&
  (decide (df ≤ 9) || (decide (16 ≤ df) && decide (df ≤ 19))) && decide (fdRm f ≤ 3) &&
  (!fdMxs f || (decide (3 ≤ df) && decide (df ≤ 9))) && (!fdAos f || (dfWide df && !fdMxs f))

/-! ### Elements (R163, R167) -/

/-- Val of a pattern in a format code of a descriptor. -/
def mxVal (t x : Nat) : FV :=
  if t = 17 then val .f64 x
  else if t = 18 then FV.ofInt (BitVec.ofNat 32 x).toInt
  else if t = 19 then FV.ofInt (BitVec.ofNat 64 x).toInt
  else val (Fmt.ofCode t) x

/-- Bits of an element in memory: a byte for E2M3 and E3M2. -/
def dfBits (t : Nat) : Nat :=
  if t = 17 || t = 19 then 64 else if t = 16 || t = 18 then 32 else if t = 1 || t = 2 then 16
  else if t = 7 || t = 9 then 4 else 8

/-- Bytes of a row of 64 elements. -/
def dfRow (t : Nat) : Nat := 8 * dfBits t

/-- `n` bytes from `o`, little-endian. -/
def leBytes (b : Nat → Nat) (o n : Nat) : Nat := (List.range n).foldr (fun i acc => acc * 256 + b (o + i)) 0

/-- The pattern of packed element `k` of format `t`. -/
def packed (t : Nat) (b : Nat → Nat) (k : Nat) : Nat :=
  if dfBits t = 4 then b (k / 2) / 2 ^ (4 * (k % 2)) % 16 else leBytes b (dfBits t / 8 * k) (dfBits t / 8)

/-- ValA and ValB: element `k`, VQ2 by its index and coordinate (R174). -/
def elemVal (t : Nat) (b : Nat → Nat) (k : Nat) : FV :=
  if t = 10 then vqCoord (leBytes b (2 * (k / 8)) 2) (k % 8) else mxVal t (packed t b k)

/-- A value rounded and encoded for memory format `t` (R182, R137, R151). -/
def mxEnc (t mode : Nat) (v : FV) : Nat :=
  if t = 17 then enc .f64 (round .f64 mode v)
  else if t = 18 then (BitVec.ofInt 32 ((roundToInt mode v).satInt (-2147483648) 2147483647)).toNat
  else if t = 19 then (BitVec.ofInt 64 ((roundToInt mode v).satInt (-9223372036854775808) 9223372036854775807)).toNat
  else enc (Fmt.ofCode t) (round (Fmt.ofCode t) mode v)

/-- A tile element's value in an accumulator mode (R163). -/
def accVal (acc : Nat) (e : DWord) : FV :=
  if acc = 0 then val .f64 e.toNat else if acc = 1 then val .f32 (fld e.toNat 0 32) else FV.ofInt e.toInt

/-! ### The arithmetic of a pass (R174, R175) -/

/-- One level of a summation tree. -/
def treeLevel : List FV → List FV
  | a :: b :: l => round .f64 0 (sumV 0 [a, b]) :: treeLevel l
  | l => l

/-- Tree(x, n) over `2^n` values. -/
def tree : Nat → List FV → FV
  | 0, l => l.headD (.fin false 0 0)
  | n + 1, l => tree n (treeLevel l)

/-- PassSum of one element: the products, and for each block of 32 the two scales. -/
def passSum (af : Nat) (scaled : Bool) (ps : List FV) (ea eb : Nat → Nat) : FV :=
  if af = 8 || af = 9 then sumV 0 ps
  else if !scaled then tree 10 ps
  else
    let us := (List.range (ps.length / 32)).map (fun j =>
      let t := tree 5 ((ps.drop (32 * j)).take 32)
      if ea j = 255 || eb j = 255 then FV.nan else t.scale (((ea j + eb j : Nat) : Int) - 254))
    tree 3 us

/-- The new element (R175). -/
def passAdd (acc : Nat) (e : DWord) (sum : FV) : DWord :=
  if acc = 0 then BitVec.ofNat 64 (enc .f64 (round .f64 0 (sumV 0 [val .f64 e.toNat, sum])))
  else if acc = 1 then BitVec.ofNat 64 (enc .f32 (round .f32 0 (sumV 0 [val .f32 (fld e.toNat 0 32), sum])))
  else e + BitVec.ofInt 64 (sum.satInt (-9223372036854775808) 9223372036854775807)

/-- Key of element (m, n) of tile k. -/
def accKey (k m n : Nat) : Nat := 4096 * k + 64 * m + n

/-- Every element of a tile written. -/
def setTile (e : CrewEng) (k : Nat) (f : Nat → Nat → DWord) : CrewEng :=
  { e with acc := (List.range 64).foldl (fun a m =>
      (List.range 64).foldl (fun a n => smPut 0 a (accKey k m n) (f m n)) a) e.acc }

/-- P of a tile set. -/
def setP (e : CrewEng) (k : Nat) (b : Bool) : CrewEng :=
  { e with tileP := if b then e.tileP ||| ((1 : BitVec 8) <<< k) else e.tileP &&& ~~~((1 : BitVec 8) <<< k) }

/-! ### Where a request stands -/

/-- The crew of a request, its core. -/
def MxReq.crew (q : MxReq) : Nat := q.gang / 16
def mxCore (s : State) (q : MxReq) : Option Nat := (s.crew q.crew).bind Crew.holds?

/-- The quadrant of a request's gang. -/
def mxQuad (s : State) (q : MxReq) : Nat := ((s.gang q.gang).map (fun g => g.slot / 4)).getD 0

/-- The requests of a core in a given state. -/
def mxIn (s : State) (core : Nat) (p : MxReqX → Bool) : List (Nat × MxReqX) :=
  s.eng.mx.filter (fun e => decide (mxCore s e.2.q = some core) && p e.2)

/-- In the reservation table, granted or not. -/
def MxReqX.inTable (p : MxReqX) : Bool := decide (p.q.st = .table) || decide (p.q.st = .running)

/-- Entries of a gang in the table. -/
def mxOfGang (s : State) (g : Nat) : Nat := (s.eng.mx.filter (fun e => decide (e.2.q.gang = g) && e.2.inTable)).length

/-- Pound offset of a crew's byte, and the allocation's size. -/
def crewPk (s : State) (c : Nat) : Nat := 1024 * ((s.crew c).map (fun w => rwPk w.rw)).getD 0
def crewPb (s : State) (c : Nat) : Nat := ((s.crew c).map (fun w => w.pbase)).getD 0

/-- The Basin allocation of a crew on a die: base and size. -/
def crewBasin (s : State) (c die : Nat) : Nat × Nat :=
  match s.crew c with
  | none => (0, 0)
  | some w =>
    match smFind s.work.tasks w.task with
    | none => (0, 0)
    | some t => ((t.basin.find? (fun b => decide (b.1 = die))).map (fun b => b.2)).getD (0, 0)

/-! ### The failure record (R188) -/

/-- The request kind in bits 9:8 of a matrix cause's detail (R188, Table 15-3), which give it no codes.
DESIGN CHOICE: notes/assumptions/166. -/
def MxKind.code : MxKind → Nat
  | .mma => 0
  | .mmz => 1
  | .mdr => 2
  | .mld => 3

/-- What the record of a matrix cause holds (Table 15-3): tile, request kind. -/
def mxErr (q : MxReq) (c : Cause) : AErr := { cause := c, info := BitVec.ofNat 32 (q.tile + q.kind.code * 256) }

/-- MX_DRAIN_SEG with the cause of the check that failed, and HOME_FENCED with its die. -/
def mxSeg (q : MxReq) (e : Err) : AErr :=
  match e.cause with
  | .homeFenced => { cause := .homeFenced, info := e.detail, addr := e.addr }
  | .cohLost => { cause := .cohLost, addr := e.addr }
  | .incarnation => { cause := .incarnation, info := e.detail, addr := e.addr }
  | .fabUncorr => { cause := .fabUncorr, info := e.detail, addr := e.addr }
  | c => { cause := .mxDrainSeg, info := BitVec.ofNat 32 (q.tile + c.code * 256) }

/-- A gang's MXERR pending is raised in place of an MTX word's effect, and cleared (R188). -/
def mtx (st : State) (x : Cx) (body : Res) : Res :=
  match x.gang.mxerr with
  | some e =>
    .trap (st.modGang x.cur.gang (fun g => { g with mxerr := none }))
      { cause := e.cause, lanes := x.all, addr := e.addr, detail := e.info, kind := .async }
  | none => body

/-! ### The checks at issue (R187) -/

/-- The tile, the slot, and the trap of a failed check. -/
def mxTrap (x : Cx) (c : Cause) (tile slot : Nat) : TrapReq :=
  { cause := c, lanes := x.all, detail := BitVec.ofNat 32 (tile + 16 * slot) }

/-- Check 2 of R187. -/
def slotBad (w : Crew) (kind : MxKind) (v : Option DWord) : Bool :=
  match v with
  | none => true
  | some f =>
    (fdCbe f && decide (kwNb w.kw ≤ fdCb f)) ||
    (match kind with
     | .mma => decide (fdAf f = 0)
     | .mmz => false
     | .mdr => decide (fdDf f = 0) || decide (fdDf f = 10)
     | .mld => !dfWide (fdDf f))

/-- MX_SHAPE (R170, R187). -/
def shapeBad (pk : Nat) (f : DWord) (a : List Word) : Bool :=
  match passShape (fdAf f) (fdBf f) with
  | none => true
  | some sh =>
    let off := (a.getD 0 0).toNat
    let str := fld (a.getD 1 0).toNat 0 16
    decide (fld (a.getD 1 0).toNat 16 16 ≠ 0) || decide (a.getD 3 0 ≠ 0) || decide (off % 16 ≠ 0) || decide (str % 16 ≠ 0) ||
      decide (str < sh.row) || decide (pk < off + 63 * str + sh.row) ||
      (fdSa f && decide (pk < (a.getD 2 0).toNat + 64 * sh.nb))

/-- MX_BSTORE (R172). -/
def bstoreBad (t : Nat) (f : DWord) (b : List Word) : Bool :=
  match passShape (fdAf f) (fdBf f) with
  | none => true
  | some sh =>
    let o := (b.getD 0 0).toNat
    let c := (b.getD 1 0).toNat
    decide (o % 16 ≠ 0) || decide (128 < o % 8192 + sh.col) || decide (262144 * t < (o / 8192 + 1) * 8192) ||
      (fdSb f && (decide (128 < c % 8192 + sh.nb) || decide (262144 * t < (c / 8192 + 1) * 8192)))

/-- The fields of a memory descriptor (Table 6-5). -/
def mdAddr (a : List Word) : Nat := (a.getD 1 0 ++ a.getD 0 0).toNat
def mdSp (a : List Word) : Nat := fld (a.getD 2 0).toNat 16 3
def mdStr (a : List Word) : Nat := fld (a.getD 2 0).toNat 0 16
def mdScl (a : List Word) : Int := (a.getD 3 0).toInt

/-- MX_DRAIN_SEG at issue (R187, R173). `lim` is the size of the Pound or Basin allocation. -/
def segBad (kind : MxKind) (f : DWord) (a b : List Word) (lim : Nat) : Bool :=
  let al := if mdSp a = 0 then 64 else 16
  decide (fld (a.getD 2 0).toNat 19 13 ≠ 0) || !(decide (mdSp a = 0) || decide (mdSp a = 1) || decide (mdSp a = 3)) ||
  decide (mdAddr a % al ≠ 0) || decide (mdStr a % al ≠ 0) || decide (mdStr a < dfRow (fdDf f)) ||
  (decide (mdSp a ≠ 0) && (decide (lim < mdAddr a + 63 * mdStr a + dfRow (fdDf f)) ||
    (decide (kind = .mdr) && fdMxs f && (decide ((mdAddr a : Int) + mdScl a < 0) || decide ((lim : Int) < mdAddr a + mdScl a + 128))))) ||
  (decide (kind = .mdr) && fdAmx f && decide ((b.getD 0 0).toNat % 4 ≠ 0))

/-- The limit of a memory descriptor's space. -/
def mdLim (s : State) (crew core : Nat) (a : List Word) : Nat :=
  if mdSp a = 1 then crewPk s crew else (crewBasin s crew (coreDie core)).2

/-- The checks of R187 in order, for the kinds that post a request. -/
def mxChecks (st : State) (x : Cx) (kind : MxKind) (tile slot : Nat) (a b : List Word) : Option TrapReq :=
  let v := smFind (st.ceng x.crewNo).fds slot
  let f := v.getD 0
  if rwNt x.crew.rw ≤ tile then some (mxTrap x .mxTile tile slot)
  else if slotBad x.crew kind v then some (mxTrap x .mxFmt tile slot)
  else match kind with
  | .mma =>
    if shapeBad (1024 * rwPk x.crew.rw) f a then some (mxTrap x .mxShape tile slot)
    else if bstoreBad (rwNt x.crew.rw) f b then some (mxTrap x .mxBstore tile slot) else none
  | .mmz => none
  | _ =>
    if segBad kind f a b (mdLim st x.crewNo x.core a) then
      some { cause := .mxDrainSeg, lanes := x.all, detail := BitVec.ofNat 32 tile }
    else none

/-! ### Posting a request (R176, R353, R354) -/

/-- Captured follow-ons of a core. -/
def followCount (s : State) (core : Nat) : Nat := (mxIn s core (fun p => decide (p.q.st = .follow))).length

/-- Requests in a quadrant's post buffer. -/
def postCount (s : State) (core quad : Nat) : Nat :=
  (mxIn s core (fun p => decide (p.q.st = .post) && decide (mxQuad s p.q = quad))).length

/-- The latch after a capture: disarmed, but where a CPX of the request's own chain has armed it again (R29, R353). -/
def Cx.latchLeft (x : Cx) : Latch :=
  let new := x.gang.latch.copies.filter x.newer
  { armed := !new.isEmpty, copies := new }

/-- A request that passed its checks: captured where the gang's latch was armed before its chain, else posted. -/
def postReq (st : State) (x : Cx) (q : MxReq) (la : Nat) : Res :=
  let id := st.work.next
  if x.src.latch.armed then
    (if 16 ≤ followCount st x.core then .hold st
     else
       let q := { q with st := .follow, copies := x.gang.latch.copies.filter (fun k => !x.newer k), dropped := x.gang.latch.failed }
       .done { st.modGang x.cur.gang (fun g => { g with latch := x.latchLeft }) with
               work.next := id + 1, eng.mx := smSet st.eng.mx id { q := q } })
  else if 4 ≤ postCount st x.core (x.gang.slot / 4) then .hold st
  else
    let st := { st with work.next := id + 1 }
    let q := { q with out := id + 1 }
    let o : Out := { kind := .matrix, gang := x.cur.gang, grp := x.cur.grp, pc := x.cur.pc, npc := x.cur.last + 1, left := 1 }
    .done (openOut { st with eng.mx := smSet st.eng.mx id { q := q, order := id } } x o la)

/-- MMA, MMZ, MDR and MLD at issue. -/
def postBody (kind : MxKind) (tile slot : Nat) (z : Bool) (a b : List Word) (la : Nat) (st : State) (x : Cx) : Res :=
  mtx st x (match mxChecks st x kind tile slot a b with
    | some t => .trap st t
    | none =>
      postReq st x { kind := kind, gang := x.cur.gang, tile := tile, a := a, b := b, z := z,
                     fd := (smFind (st.ceng x.crewNo).fds slot).getD 0 } la)

/-- A group of four scalar registers. -/
def Cx.s4 (x : Cx) (r : Nat) : List Word := [x.s r, x.s (r + 1), x.s (r + 2), x.s (r + 3)]

/-- MMA (R190). -/
def execMma (c : Bool) (t : Fin 8) (a b : Fin 64) (f l : Fin 16) (z : Fin 2) (st : State) : Host.Outcome State Fault Refusal :=
  issue (.mma c t a b f l z) st (fun st x =>
    postBody .mma t.val f.val (decide (z.val = 1)) (x.s4 a.val) [x.s b.val, x.s (b.val + 1)] l.val st x)

/-- MMZ (R191). -/
def execMmz (c : Bool) (t : Fin 8) (f l : Fin 16) (st : State) : Host.Outcome State Fault Refusal :=
  issue (.mmz c t f l) st (postBody .mmz t.val f.val false [] [] l.val)

/-- MDR (R192). -/
def execMdr (c : Bool) (t : Fin 8) (a b : Fin 64) (f l : Fin 16) (z : Fin 2) (st : State) : Host.Outcome State Fault Refusal :=
  issue (.mdr c t a b f l z) st (fun st x =>
    postBody .mdr t.val f.val (decide (z.val = 1)) (x.s4 a.val) [x.s b.val, x.s (b.val + 1)] l.val st x)

/-- MLD (R193). -/
def execMld (c : Bool) (t : Fin 8) (a : Fin 64) (f l : Fin 16) (st : State) : Host.Outcome State Fault Refusal :=
  issue (.mld c t a f l) st (fun st x => postBody .mld t.val f.val false (x.s4 a.val) [] l.val st x)

/-- MFMT (R194). -/
def execMfmt (c : Bool) (a : Fin 64) (f l : Fin 16) (st : State) : Host.Outcome State Fault Refusal :=
  issue (.mfmt c a f l) st (fun st x =>
    mtx st x (
      let v := x.s2 a.val
      if fdOk v then .done (st.modCeng x.crewNo (fun e => { e with fds := smSet e.fds f.val v }))
      else .trap st (mxTrap x .mxFmt 0 f.val)))

/-- MRQ (R195): the requests posted before it on the tile, of the gang or of the crew. -/
def execMrq (c : Bool) (t : Fin 8) (a : Fin 64) (l : Fin 16) (z : Fin 2) (st : State) : Host.Outcome State Fault Refusal :=
  issue (.mrq c t a l z) st (fun st x =>
    mtx st x (
      if rwNt x.crew.rw ≤ t.val then .trap st (mxTrap x .mxTile t.val 0)
      else
        let mine := fun (q : MxReq) => decide (q.tile = t.val) &&
          (if z.val = 1 then decide (q.crew = x.crewNo) else decide (q.gang = x.cur.gang))
        let n := (st.eng.mx.filter (fun e => mine e.2.q)).length
        if n = 0 then .done (st.putS x a.val 0)
        else
          let id := st.work.next
          let o : Out := { kind := .mrq, gang := x.cur.gang, grp := x.cur.grp, pc := x.cur.pc, npc := x.cur.last + 1, left := n,
                           wrS := [(a.val, BitVec.ofNat 32 n)], dstS := [a.val] }
          let mx := st.eng.mx.map (fun e => if mine e.2.q then (e.1, { e.2 with mrq := e.2.mrq ++ [id] }) else e)
          .done (openOut { st with eng.mx := mx } x o l.val)))

/-- MQRY (R196). -/
def execMqry (c : Bool) (a : Fin 64) (l : Fin 16) (st : State) : Host.Outcome State Fault Refusal :=
  issue (.mqry c a l) st (fun st x =>
    mtx st x (
      let t := rwNt x.crew.rw
      let p := fld (st.ceng x.crewNo).tileP.toNat 0 t
      let used := (mxIn st x.core MxReqX.inTable).length
      .done (st.putS x a.val (BitVec.ofNat 32 (t * 2 ^ 24 + p * 2 ^ 16 + mxOfGang st x.cur.gang * 2 ^ 12 +
        min 4 (postCount st x.core (x.gang.slot / 4)) * 2 ^ 9 + (16 - used))))))

/-! ### The reservation table (R176, R177, R354) -/

/-- A request accepted into the table: it completes for R73. -/
def acceptReq (s : State) (k : Nat) (p : MxReqX) : State :=
  let p := { p with q := { p.q with st := .table, out := 0 }, order := s.work.next, since := s.time }
  { s with work.next := s.work.next + 1, eng.mx := smSet s.eng.mx k p }

/-- A captured follow-on that can be posted now goes ahead of the post buffers. -/
def followReady (s : State) (core : Nat) : Bool :=
  !(mxIn s core (fun p => decide (p.q.st = .follow) && p.q.copies.isEmpty && !p.q.dropped &&
    decide (mxOfGang s p.q.gang < 8))).isEmpty

/-- The request at the head of a quadrant's post buffer: the one posted first. -/
def postHead (s : State) (core quad : Nat) : Option (Nat × MxReqX) :=
  let es := mxIn s core (fun p => decide (p.q.st = .post) && decide (mxQuad s p.q = quad))
  es.find? (fun e => es.all (fun f => decide (e.2.order ≤ f.2.order)))

/-- RESERVATION_ACCEPT (R176): the quadrants in turn, each in order. -/
def execReservationAccept (st : State) : Host.Outcome State Fault Refusal :=
  let core := st.op 0
  let last := smGet 3 st.eng.mxLast core
  event (if 16 ≤ (mxIn st core MxReqX.inTable).length || followReady st core then st
    else match ([1, 2, 3, 4].map (fun d => (last + d) % 4)).findSome? (fun q =>
        match postHead st core q with
        | some e => if mxOfGang st e.2.q.gang < 8 then some (q, e) else none
        | none => none) with
    | none => st
    | some (q, (k, p)) =>
      let s := closeOut { st with eng.mxLast := smSet st.eng.mxLast core q } p.q.out
      acceptReq s k { p with q := { p.q with out := 0 } })

/-- The bytes of the Pound that a pass reads: offset and length in the core's Pound. -/
def passReads (s : State) (q : MxReq) : List (Nat × Nat) :=
  match passShape (fdAf q.fd) (fdBf q.fd) with
  | none => []
  | some sh =>
    let pb := crewPb s q.crew
    let off := pb + (q.a.getD 0 0).toNat
    let str := fld (q.a.getD 1 0).toNat 0 16
    (List.range 64).map (fun m => (off + m * str, sh.row)) ++
      (if fdSa q.fd then [(pb + (q.a.getD 2 0).toNat, 64 * sh.nb)] else [])

/-- Request `k` may be granted (R177, R354). -/
def eligible (s : State) (core k : Nat) (p : MxReqX) : Bool :=
  decide (p.q.st = .table) &&
  !s.eng.mx.any (fun e => decide (e.1 < k) && decide (e.2.q.gang = p.q.gang) && decide (e.2.q.tile = p.q.tile) &&
    decide (e.2.q.st ≠ .running)) &&
  !s.eng.mx.any (fun e => decide (e.2.q.crew = p.q.crew) && decide (e.2.q.tile = p.q.tile) && decide (e.2.q.st = .running)) &&
  (decide (p.q.kind ≠ .mma) || !(passReads s p.q).any (fun r => decide (r.2 ≠ 0) && scoreMeets s core r.1 (r.1 + r.2) []))

/-- `a` goes before `b` at a grant: raised entries first, by age; then priority; then acceptance. -/
def grantBefore (s : State) (a b : MxReqX) : Bool :=
  let pri := fun (p : MxReqX) => ((s.crew p.q.crew).map (fun w => kwPri w.kw)).getD 0
  if a.boost && b.boost then decide (a.order < b.order)
  else if a.boost != b.boost then a.boost
  else decide (pri b < pri a) || (decide (pri a = pri b) && decide (a.order < b.order))

/-- The entry a path grants. -/
def grantPick (s : State) (core : Nat) (kinds : MxKind → Bool) : Option (Nat × MxReqX) :=
  let es := mxIn s core (fun p => kinds p.q.kind)
  let es := es.filter (fun e => eligible s core e.1 e.2)
  es.find? (fun e => es.all (fun f => decide (f.1 = e.1) || !grantBefore s f.2 e.2))

/-- How long each entry has been eligible (R177). -/
def tickMatrix (s : State) : State :=
  let since := fun (e : Nat × MxReqX) =>
    match mxCore s e.2.q with
    | some core => if eligible s core e.1 e.2 then some (e.2.elig.getD s.time) else none
    | none => none
  { s with eng.mx := s.eng.mx.map (fun e => (e.1, { e.2 with elig := since e })) }

/-- MATRIX_AGE_BOOST (R177). -/
def execMatrixAgeBoost (st : State) : Host.Outcome State Fault Refusal :=
  event { st with eng.mx := smModify st.eng.mx (st.op 0) (fun p =>
    match p.elig with
    | some t => if 4096 ≤ clocksSince st t then { p with boost := true } else p
    | none => p) }

/-- MX_RSV (R181): in the table, ungranted, for longer than the domain's matrix timeout, the time out not counted. -/
def execMxRsv (st : State) : Host.Outcome State Fault Refusal :=
  event (match smFind st.eng.mx (st.op 0) with
    | none => st
    | some p =>
      match st.crew p.q.crew with
      | none => st
      | some w =>
        if p.q.st = .table && w.core?.isSome && p.fail.isNone && decide ((st.domain w.dom).set_.mxTimeout < p.waited + (st.time - p.since)) then
          { st with eng.mx := smSet st.eng.mx (st.op 0) { p with q := { p.q with st := .running }, fail := some (mxErr p.q .mxRsv) } }
        else st)

/-! ### Passes (R174, R175, R190) -/

/-- The engine's view of one pass: bytes of A row m, of B record n, the scales. -/
def rowA (s : State) (core pb : Nat) (q : MxReq) (m i : Nat) : Nat :=
  (getByte s.mem (poundAddr core (pb + (q.a.getD 0 0).toNat + m * fld (q.a.getD 1 0).toNat 0 16 + i))).toNat
def colB (e : CrewEng) (q : MxReq) (n i : Nat) : Nat := (smGet 0 e.bst ((q.b.getD 0 0).toNat + 128 * n + i)).toNat
def sclA (s : State) (core pb nb : Nat) (q : MxReq) (m j : Nat) : Nat :=
  if fdSa q.fd then (getByte s.mem (poundAddr core (pb + (q.a.getD 2 0).toNat + nb * m + j))).toNat else 0x7F
def sclB (e : CrewEng) (q : MxReq) (n j : Nat) : Nat :=
  if fdSb q.fd then (smGet 0 e.bst ((q.b.getD 1 0).toNat + 128 * n + j)).toNat else 0x7F

/-- A byte range of a Pound holds a poisoned word. -/
def poundPoison (s : State) (core lo n : Nat) : Bool :=
  (List.range (n / 4 + 1)).any (fun k => decide (lo / 4 * 4 + 4 * k < lo + n) && isPoison s.poison (poundAddr core (lo / 4 * 4 + 4 * k)))
def bstPoison (e : CrewEng) (lo n : Nat) : Bool :=
  (List.range (n / 4 + 1)).any (fun k => decide (lo / 4 * 4 + 4 * k < lo + n) && smGet false e.bstP (lo / 4 + k))

/-- A pass reads a poisoned byte (Table 6-6). DEDUCED: notes/assumptions/67. -/
def passPoison (s : State) (core : Nat) (q : MxReq) (sh : Shape) : Bool :=
  let e := s.ceng q.crew
  (passReads s q).any (fun r => poundPoison s core r.1 r.2) ||
  (List.range 64).any (fun n => bstPoison e ((q.b.getD 0 0).toNat + 128 * n) sh.col ||
    (fdSb q.fd && bstPoison e ((q.b.getD 1 0).toNat + 128 * n) sh.nb))

/-- PassSum(m, n) for a request. -/
def passElem (s : State) (core : Nat) (q : MxReq) (sh : Shape) (m n : Nat) : FV :=
  let e := s.ceng q.crew
  let pb := crewPb s q.crew
  passSum (fdAf q.fd) (fdSa q.fd || fdSb q.fd)
    ((List.range sh.k).map (fun k => (elemVal (fdAf q.fd) (rowA s core pb q m) k).mul (elemVal (fdBf q.fd) (colB e q n) k)))
    (sclA s core pb sh.nb q m) (sclB e q n)

/-- A pass applied to its tile. -/
def applyPass (s : State) (core : Nat) (q : MxReq) (sh : Shape) : State :=
  s.modCeng q.crew (fun e => setTile e q.tile (fun m n =>
    passAdd (fdAcc q.fd) (if q.z then 0 else smGet 0 e.acc (accKey q.tile m n)) (passElem s core q sh m n)))

/-- Request `k` granted: it runs from now on. -/
def granted (s : State) (k : Nat) (p : MxReqX) (f : Option AErr) : State :=
  { s with eng.mx := smSet s.eng.mx k { p with q := { p.q with st := .running }, fail := f } }

/-- A pass granted: one that zeroes its tile first also clears P (R188). `parity` is the failure of a column's VQ2 decode
table (MX_CODEBOOK); beside poison, MX_POISON is recorded. DEDUCED: notes/assumptions/67.
DESIGN CHOICE: notes/assumptions/144. -/
def grantPass (s : State) (core k : Nat) (p : MxReqX) (parity : Bool) : State :=
  if (s.ceng p.q.crew).tileP.getLsbD p.q.tile && !p.q.z then granted s k p (some (mxErr p.q .accPoison))
  else match passShape (fdAf p.q.fd) (fdBf p.q.fd) with
  | none => granted s k p none
  | some sh =>
    let bad := passPoison s core p.q sh
    let book := parity && decide (fdBf p.q.fd = 10)
    let s' := applyPass s core p.q sh
    let s' := if bad || book || p.q.z then s'.modCeng p.q.crew (fun e => setP e p.q.tile (bad || book)) else s'
    granted s' k p (if bad then some (mxErr p.q .mxPoison) else if book then some (mxErr p.q .mxCodebook) else none)

/-- PASS_GRANT (R177). Operand 1, where the environment gives one other than 0, is a parity failure of the decode table. -/
def execPassGrant (st : State) : Host.Outcome State Fault Refusal :=
  event (match grantPick st (st.op 0) (fun k => decide (k = .mma)) with
    | none => st
    | some (k, p) => grantPass st (st.op 0) k p (decide (st.op 1 ≠ 0)))

/-! ### Drains and loads (R182 to R186) -/

/-- The package address of a byte of a memory descriptor's space, by access; the global space is translated. -/
def mdPlace (s : State) (core k : Nat) (q : MxReq) (sp a : Nat) (kind : AccKind) : Except Err Nat :=
  if sp = 0 then
    blockXl s k { core := core, dom := ((s.crew q.crew).map (fun w => w.dom)).getD 0 } 0 (a / 64) kind |>.map (fun pa => pa + a % 64)
  else if sp = 1 then .ok (poundAddr core (crewPb s q.crew + a))
  else .ok (basinAddr (coreDie core) ((crewBasin s q.crew (coreDie core)).1 + a))

/-- The tile's element as the drain reads it. -/
def drainVal (e : CrewEng) (q : MxReq) (m n : Nat) : FV := accVal (fdAcc q.fd) (smGet 0 e.acc (accKey q.tile m n))

/-- The greater magnitude, NaN and infinity kept. -/
def magMax (vs : List FV) : FV :=
  vs.foldl (fun a v => if a.isNan || v.isNan then .nan else if a.lt v.abs then v.abs else a) (.fin false 0 0)

/-- The scale byte of block j of row m (R133). -/
def drainScale (e : CrewEng) (q : MxReq) (m j : Nat) : Nat :=
  let vs := (List.range 32).map (fun i => drainVal e q m (32 * j + i))
  blockScale (magMax vs) (Fmt.ofCode (fdDf q.fd))

/-- The pattern drained for element (m, n): `old` is the destination's pattern before. DEDUCED: notes/assumptions/68. -/
def drainElem (e : CrewEng) (q : MxReq) (m n old : Nat) : Nat :=
  let df := fdDf q.fd
  let v := drainVal e q m n
  if fdMxs q.fd then
    (let sc := drainScale e q m (n / 32)
     mxEnc df (fdRm q.fd) (if sc = 255 then .nan else v.scale (127 - (sc : Int))))
  else mxEnc df (fdRm q.fd) (if fdAos q.fd then sumV (fdRm q.fd) [mxVal df old, v] else v)

/-- The address of a drain's first scale byte: in global a 64-bit address (R173). -/
def mdScale (q : MxReq) : Nat :=
  if mdSp q.a = 0 then (((mdAddr q.a : Int) + mdScl q.a) % 2 ^ 64).toNat else ((mdAddr q.a : Int) + mdScl q.a).toNat

/-- One write of a drain: the byte's address, the bits written and their value. -/
def elemWrites (df base n pat : Nat) : List (Nat × BitVec 8 × BitVec 8) :=
  if dfBits df = 4 then
    [(base + n / 2, 0xF <<< (4 * (n % 2)), BitVec.ofNat 8 (pat % 16) <<< (4 * (n % 2)))]
  else (List.range (dfBits df / 8)).map (fun i => (base + dfBits df / 8 * n + i, 0xFF, BitVec.ofNat 8 (pat / 2 ^ (8 * i))))

/-- Writes laid over one another in their order: each byte's address and last value, ascending. -/
def overlay (m : List (Nat × BitVec 8)) (ws : List (Nat × BitVec 8 × BitVec 8)) : List (Nat × BitVec 8) :=
  ws.foldl (fun m w => smSet m w.1 ((smGet 0 m w.1 &&& ~~~w.2.1) ||| (w.2.2 &&& w.2.1))) m

/-- The bytes of row m as they go out: address in the space and value, ascending. `rd` reads the destination. A scale
follows the first element of its block, so that later elements lie over it (R182). -/
def drainRow (e : CrewEng) (q : MxReq) (m : Nat) (rd : Nat → Nat) : List (Nat × BitVec 8) :=
  let df := fdDf q.fd
  let base := mdAddr q.a + m * mdStr q.a
  overlay [] ((List.range 64).flatMap (fun n =>
    elemWrites df base n (drainElem e q m n (packed df (fun i => rd (base + i)) n)) ++
    (if fdMxs q.fd && decide (n % 32 = 0) then
      [(mdScale q + 2 * m + n / 32, 0xFF, BitVec.ofNat 8 (drainScale e q m (n / 32)))] else [])))

/-- Bytes of a row gathered by 64-byte block, ascending. -/
def byBlock (bs : List (Nat × BitVec 8)) : List (Nat × List (Nat × BitVec 8)) :=
  bs.foldl (fun m p => smSet m (p.1 / 64) (smGet [] m (p.1 / 64) ++ [p])) []

/-- The bytes of one row in one line of the global space, written at the line's home as one step: the core's untracked
dirty words go first (R249), then an adding drain reads the line, and the bytes are written (R183). -/
def writeBlock (s : State) (core k : Nat) (q : MxReq) (e : CrewEng) (m b : Nat) : Except AErr State :=
  match mdPlace s core k q 0 (64 * b) .write with
  | .error f => .error (mxSeg q f)
  | .ok pa =>
    match (if fdAos q.fd then mdPlace s core k q 0 (64 * b) .read else .ok pa) with
    | .error f => .error (mxSeg q f)
    | .ok _ =>
      let s := enginePush (fillTlb s core (((s.crew q.crew).map (fun w => w.dom)).getD 0) (64 * b)) core (pa / 64)
      let bs := (drainRow e q m (fun a => (readByte s (pa / 64 * 64 + a % 64)).toNat)).filter (fun p => decide (p.1 / 64 = b))
      if fdAos q.fd && bs.any (fun p => (readWord s (pa / 64 * 64 + p.1 % 64 / 4 * 4)).2) then .error (mxErr q .mxPoison)
      else
        let wm := bs.foldl (fun (m : BitVec 64) (p : Nat × BitVec 8) => m ||| ((1 : BitVec 64) <<< (p.1 % 64))) 0
        let wd := bs.foldl (fun (d : BitVec 512) (p : Nat × BitVec 8) => d ||| ((p.2.zeroExtend 512) <<< (8 * (p.1 % 64)))) 0
        .ok (engineWrite s core (pa / 64) wm wd (threadPo s k (pa / 64) &&& touched wm))

/-- One row drained to the global space: its lines in ascending order until one fails; the lines before it stand
(Table 6-6). -/
def drainOne (s : State) (core k : Nat) (q : MxReq) (e : CrewEng) (m : Nat) : State × Option AErr :=
  (byBlock (drainRow e q m (fun _ => 0))).foldl (fun r b =>
    match r.2 with
    | some _ => r
    | none => match writeBlock r.1 core k q e m b.1 with
      | .error f => (r.1, some f)
      | .ok s => (s, none)) (s, none)

/-- Bytes by package address written as one step, word by word: a word wholly among them loses its poison. -/
def drainWords (s : State) (core : Nat) (bs : List (Nat × BitVec 8)) : State :=
  (bs.foldl (fun (m : List (Nat × BitVec 4 × Word)) p =>
    let w := smGet (0, 0) m (p.1 / 4)
    smSet m (p.1 / 4) (w.1 ||| ((1 : BitVec 4) <<< (p.1 % 4)), w.2 ||| ((BitVec.zeroExtend 32 p.2) <<< (8 * (p.1 % 4)) : Word))) []).foldl
    (fun s w => engineWord s core (4 * w.1) w.2.2 w.2.1 false) s

/-- A whole drain to the Pound or the Basin, one step (R183): row after row over the bytes as the rows before left them. -/
def drainHere (s : State) (core k : Nat) (q : MxReq) (e : CrewEng) : State :=
  let place := fun (a : Nat) => mdPlace s core k q (mdSp q.a) a .write
  let out := (List.range 64).foldl (fun (out : List (Nat × BitVec 8)) m =>
    (drainRow e q m (fun a =>
      match smFind out a with
      | some b => b.toNat
      | none => match place a with
        | .error _ => 0
        | .ok pa => (readByte s pa).toNat)).foldl (fun o p => smSet o p.1 p.2) out) []
  drainWords s core (out.filterMap (fun p =>
    match place p.1 with
    | .error _ => none
    | .ok pa => some (pa, p.2)))

/-- A Pound or Basin destination that an adding drain reads is poisoned. DEDUCED: notes/assumptions/69. -/
def aosPoison (s : State) (core k : Nat) (q : MxReq) : Bool :=
  fdAos q.fd && decide (mdSp q.a ≠ 0) && (List.range 64).any (fun m => (List.range (dfRow (fdDf q.fd) / 4)).any (fun n =>
    match mdPlace s core k q (mdSp q.a) (mdAddr q.a + m * mdStr q.a + 4 * n) .read with
    | .error _ => false
    | .ok pa => isPoison s.poison pa))

/-- The amax update (R184): one atomic at the word's home. A poisoned word ends it as a poisoned destination ends an
adding drain. DESIGN CHOICE: notes/assumptions/145. -/
def amaxUpdate (s : State) (core k : Nat) (q : MxReq) (e : CrewEng) : Except AErr State :=
  let a := mdAddr q.b
  let m := enc .f32 (round .f32 2 (magMax ((List.range 64).flatMap (fun m => (List.range 64).map (drainVal e q m)))))
  match mdPlace s core k q 0 a .atomic with
  | .error e => .error (mxSeg q e)
  | .ok pa =>
    let s := enginePush s core (pa / 64)
    let old := readWord s pa
    if old.2 then .error (mxErr q .mxPoison)
    else .ok (engineWord s core pa (BitVec.ofNat 32 (atomFamax .f32 old.1.toNat m)) 0xF
      ((threadPo s k (lineOf pa)).getLsbD (wordIx pa)))

/-- The lines of the global space that a drain or a load names. -/
def mdLines (q : MxReq) : List Nat :=
  if mdSp q.a ≠ 0 then []
  else ((List.range 64).flatMap (fun m => (List.range (dfRow (fdDf q.fd) / 64 + 1)).map (fun k =>
    (mdAddr q.a + m * mdStr q.a) / 64 + k)) ++
    (if q.kind = .mdr ∧ fdMxs q.fd then [0, 64, 127].map (fun k => (mdScale q + k) / 64) else [])).dedup

/-- The package lines of those blocks, of a block `b` where it has a translation. -/
def mdHome (s : State) (core : Nat) (q : MxReq) (b : Nat) : List Nat :=
  blockLine s { core := core, dom := ((s.crew q.crew).map (fun w => w.dom)).getD 0 } 0 b (if q.kind = .mdr then .write else .read)

/-- No line that the request touches is held by a home transaction or awaits the gang's earlier stores (R249). -/
def mdReady (s : State) (core k : Nat) (q : MxReq) : Bool :=
  (mdLines q).all (fun b =>
    match mdPlace s core k q 0 (64 * b) .read with
    | .error _ => true
    | .ok pa => engineReady s k q.gang core (pa / 64))

/-- A drain granted (R182, R183): its lines until one fails. The amax update follows when the drain finishes.
DEDUCED: notes/assumptions/70. -/
def grantDrain (s : State) (core k : Nat) (p : MxReqX) : State :=
  let q := p.q
  let e := s.ceng q.crew
  if e.tileP.getLsbD q.tile then granted s k p (some (mxErr q .accPoison))
  else if aosPoison s core k q then granted s k p (some (mxErr q .mxPoison))
  else if mdSp q.a ≠ 0 then granted (drainHere s core k q e) k p none
  else
    let r := (List.range 64).foldl (fun (r : State × Option AErr) m =>
      match r.2 with
      | some _ => r
      | none => drainOne r.1 core k q e m) (s, none)
    granted r.1 k p r.2

/-- An element as MLD writes it (R186). -/
def loadElem (f : DWord) (x : Nat) : DWord :=
  let v := mxVal (fdDf f) x
  BitVec.ofNat 64 (if fdAcc f = 0 then mxEnc 17 (fdRm f) v else if fdAcc f = 1 then mxEnc 16 (fdRm f) v else mxEnc 19 (fdRm f) v)

/-- A load granted (R186). -/
def grantLoad (s : State) (core k : Nat) (p : MxReqX) : State :=
  let q := p.q
  let s := (mdLines q).foldl (fun s b => match mdPlace s core k q 0 (64 * b) .read with
    | .error _ => s
    | .ok pa => enginePush s core (pa / 64)) s
  let place := fun (m i : Nat) => mdPlace s core k q (mdSp q.a) (mdAddr q.a + m * mdStr q.a + i) .read
  let words := (List.range 64).flatMap (fun m => (List.range (dfRow (fdDf q.fd) / 4)).map (fun w => place m (4 * w)))
  match words.findSome? (fun r => match r with
    | .error e => some e
    | .ok _ => none) with
  | some e => granted s k p (some (mxSeg q e))
  | none =>
    let bad := words.any (fun r => match r with
      | .ok pa => (readWord s pa).2 || (decide (mdSp q.a = 0) && (threadPo s k (lineOf pa)).getLsbD (wordIx pa))
      | .error _ => false)
    let rd := fun (m i : Nat) => match place m i with
      | .ok pa => (readByte s pa).toNat
      | .error _ => 0
    let s := s.modCeng q.crew (fun e => setP (setTile e q.tile (fun m n => loadElem q.fd (packed (fdDf q.fd) (rd m) n))) q.tile bad)
    granted s k p (if bad then some (mxErr q .mxPoison) else none)

/-- A zeroing granted (R191). -/
def grantZero (s : State) (k : Nat) (p : MxReqX) : State :=
  granted (s.modCeng p.q.crew (fun e => setP (setTile e p.q.tile (fun _ _ => 0)) p.q.tile false)) k p none

/-- The tile path is free. -/
def tilePathFree (s : State) (core : Nat) : Bool :=
  (mxIn s core (fun p => decide (p.q.kind ≠ .mma) && decide (p.q.st = .running))).isEmpty

/-- TILE_PATH_GRANT (R177). -/
def execTilePathGrant (st : State) : Host.Outcome State Fault Refusal :=
  let core := st.op 0
  event (if !tilePathFree st core then st
    else match grantPick st core (fun k => decide (k ≠ .mma)) with
    | none => st
    | some (k, p) =>
      match p.q.kind with
      | .mmz => grantZero st k p
      | .mdr => throughFabric st k core ((mdLines p.q).flatMap (mdHome st core p.q)) (mdReady st core k p.q) (fun st => grantDrain st core k p)
      | .mld => throughFabric st k core ((mdLines p.q).flatMap (mdHome st core p.q)) (mdReady st core k p.q) (fun st => grantLoad st core k p)
      | .mma => st)

/-! ### Finishing (R179, R183, R188, R195) -/

/-- An MRQ told that a request it waits for is over. -/
def tellMrq (bad : Bool) (s : State) (id : Nat) : State :=
  match smFind s.work.outs id with
  | none => s
  | some o =>
    let o := { o with left := o.left - 1, wrS := if bad then o.wrS.map (fun w => (w.1, w.2 ||| 0x80000000)) else o.wrS }
    if o.left = 0 then closeOut (writeOut s o) id else { s with work.outs := smSet s.work.outs id o }

/-- MXERR of a gang, where none is pending: a failure made while one is pending leaves no record.
DESIGN CHOICE: notes/assumptions/146. -/
def recordMx (s : State) (g : Nat) (e : AErr) : State :=
  s.modGang g (fun v => if v.mxerr.isSome then v else { v with mxerr := some e })

/-- A request over: its entry freed, its arrival made, its failure recorded, the MRQs that counted it told. -/
def endReq (s : State) (k : Nat) (p : MxReqX) : State :=
  let q := p.q
  let s := endPkts { s with eng.mx := smErase s.eng.mx k } k
  let s := if q.kind = .mdr && q.z && p.fail.isNone then
      s.modCeng q.crew (fun e => setP (setTile e q.tile (fun _ _ => 0)) q.tile false) else s
  let s := match p.fail with
    | none => s
    | some e => recordMx s q.gang e
  let s := if fdCbe q.fd then engineArrives s q.crew (fdCb q.fd) else s
  p.mrq.foldl (tellMrq p.fail.isSome) s

/-- A drain whose data writes have been applied makes its amax update: a release at package scope first, for which it
waits (R184, R217), then the atomic; a push that meets a fenced home fails it (R503). -/
def amaxStep (s : State) (k : Nat) (p : MxReqX) (core dom : Nat) : State :=
  match bgRelease s k p.q.gang core dom with
  | .wait s _ => s
  | .done true =>
    let die := (((looseLines s core).find? (fenced s)).map lineDie).getD 0
    endReq s k { p with fail := some { cause := .homeFenced, info := BitVec.ofNat 32 die } }
  | .done false =>
    let ready := match mdPlace s core k p.q 0 (mdAddr p.q.b) .atomic with
      | .error _ => true
      | .ok pa => engineReady s k p.q.gang core (pa / 64)
    throughFabric s k core (mdHome s core p.q (mdAddr p.q.b / 64)) ready (fun s =>
      match amaxUpdate s core k p.q (s.ceng p.q.crew) with
      | .error f => endReq s k { p with fail := some f }
      | .ok s => endReq s k p)

/-- A drain that still owes its amax update. -/
def owesAmax (p : MxReqX) : Bool := decide (p.q.kind = .mdr) && fdAmx p.q.fd && p.fail.isNone

/-- REQUEST_FINISH (R179), once the gang's earlier accesses are complete (R249, R250). -/
def execRequestFinish (st : State) : Host.Outcome State Fault Refusal :=
  event (match smFind st.eng.mx (st.op 0) with
    | none => st
    | some p =>
      if p.q.st ≠ .running then st
      else match st.crew p.q.crew with
        | none => endReq st (st.op 0) p
        | some w =>
          match w.holds? with
          | none => if owesAmax p then st else endReq st (st.op 0) p
          | some core =>
            if forkPending st (st.op 0) p.q.gang core then st
            else if !owesAmax p then endReq st (st.op 0) p
            else amaxStep st (st.op 0) p core w.dom)

/-- FOLLOW_ON_POST (R354, R355): captured follow-on k, all of whose copies have completed. -/
def execFollowOnPost (st : State) : Host.Outcome State Fault Refusal :=
  let k := st.op 0
  event (match smFind st.eng.mx k with
    | none => st
    | some p =>
      if p.q.st ≠ .follow || !p.q.copies.isEmpty then st
      else if p.q.dropped then
        endReq st k { p with fail := some { cause := .cpFollow, info := BitVec.ofNat 32 p.q.tile } }
      else match mxCore st p.q with
      | none => st
      | some core =>
        if 16 ≤ (mxIn st core MxReqX.inTable).length || 8 ≤ mxOfGang st p.q.gang then st else acceptReq st k p)

end Sys2Proof.Machine
end

