-- ==== Sys2Proof/Machine/Traps.lean ====
section
/-! DEFINITION. The SYS instructions but for the context transfers (15.8, 15.9), the entry to the handler, and the
imposed causes that stop a crew for service (chapter 15). -/

namespace Sys2Proof.Machine
open Sys2Proof

/-! ### TRAP, BKPT, ERET (R479, R480) -/

/-- TRAP and BKPT: each slice advances, and the trap resumes past the word. -/
def softTrap (c : Cause) (imm : Nat) (st : State) (x : Cx) : Res :=
  .trap (st.modSl x (fun _ sl => sl.advance x.cur.pc))
    { cause := c, lanes := x.all, detail := BitVec.ofNat 32 imm, after := true }

def execTrap (i : Fin 65536) (st : State) : Host.Outcome State Fault Refusal :=
  issue (.trap i) st (softTrap .swTrap i.val)

def execBkpt (i : Fin 65536) (st : State) : Host.Outcome State Fault Refusal :=
  issue (.bkpt i) st (softTrap .bkpt i.val)

def execEret (st : State) : Host.Outcome State Fault Refusal :=
  issue .eret st (fun st x =>
    if !noOuts x.gang x.cur.grp then .block st
    else .ctl (leaveHandler (st.modSl x (fun _ sl => { sl with block := none })) x.cur.gang))

/-! ### SOFTI (R481) -/

/-- The target word breaks R481: KND 2 or 3, a zero bit set, or a queue that is not enabled. -/
def softiBad (s : State) (dom : Nat) (w : Word) : Bool :=
  let n := w.toNat
  let knd := fld n 30 2
  decide (2 ≤ knd) || decide (fld n 24 6 ≠ 0) || decide (fld n 6 2 ≠ 0) ||
    (if knd = 0 then !(smGet {} (s.domain dom).queues (fld n 0 6)).enabled else decide (fld n 2 4 ≠ 0))

def execSofti (c : Bool) (a : Fin 64) (st : State) : Host.Outcome State Fault Refusal :=
  issue (.softi c a) st (fun st x =>
    if softiBad st x.dom (x.s a.val) then .trap st { cause := .softiTgt, lanes := x.all, detail := x.s a.val }
    else .done { st with sched.softis := st.sched.softis ++
      [{ gang := x.cur.gang, core := x.core, dom := x.dom, word := x.s a.val, mark := st.work.next }] })

/-! ### MFSR and MTSR (R478, R482) -/

/-- The gang's current record, or zeros (R478). -/
def Gang.current (g : Gang) : TrapRec := if g.cur then g.recs.headD {} else {}

/-- The lowest active lane, 32 where there is none. -/
def Cx.laneId (x : Cx) : Nat := x.lanes.headD 32

/-- The value of special register `r` (Table 15-6). -/
def srRead (x : Cx) (r : Nat) : Word :=
  let n := fun k => BitVec.ofNat 32 k
  let e := x.gang.current
  if r = 0 then n x.laneId
  else if r = 1 then n x.gang.ix
  else if r = 2 then x.crew.crewid
  else if r = 3 then n x.core
  else if r = 4 then n (coreDie x.core)
  else if r = 5 then n x.dom
  else if r = 6 then n x.crew.que
  else if r = 7 then n (kwPri x.crew.kw)
  else if r = 8 then n x.gang.nsl
  else if r = 16 then x.src.r.rnd
  else if r = 17 then n (bitN x.src.ss + 2 * bitN x.src.sa)
  else if r = 18 then n (bitN x.prv + 2 * bitN x.hnd)
  else if 32 ≤ r ∧ r ≤ 42 then e.words.getD (r - 32) 0
  else 0

def execMfsr (c : Bool) (d : Fin 64) (r : Fin 1024) (st : State) : Host.Outcome State Fault Refusal :=
  issue (.mfsr c d r) st (fun st x => .done (st.putS x d.val (srRead x r.val)))

/-- The current record changed, where there is one. -/
def Gang.modCurrent (g : Gang) (f : TrapRec → TrapRec) : Gang :=
  if g.cur then { g with recs := match g.recs with | r :: rs => f r :: rs | [] => [] } else g

/-- A record with REPV cleared (Table 15-6, ERPC). -/
def TrapRec.noRep (r : TrapRec) : TrapRec := { r with w0 := r.w0 &&& ~~~((1 : Word) <<< 22) }

/-- Special register `r` of a gang written (Table 15-6); RNDSEED reseeds the generators (R139). -/
def srWrite (g : Gang) (r : Nat) (v : Word) : Gang :=
  if r = 16 then { g with r := { g.r with rnd := v, gen := genSeeds v g.ix } }
  else if r = 17 then { g with ss := v.getLsbD 0, sa := v.getLsbD 1 }
  else if r = 34 then g.modCurrent (fun e => { e.noRep with erpc := v })
  else if r = 39 then g.modCurrent (fun e => { e with ex := v })
  else g

def execMtsr (c : Bool) (d : Fin 64) (r : Fin 1024) (st : State) : Host.Outcome State Fault Refusal :=
  issue (.mtsr c d r) st (fun st x => .done (st.modGang x.cur.gang (fun g => srWrite g r.val (x.s d.val))))

/-! ### SEGLD, SEGRD (R483, R484) -/

/-- A range lies rangeIn another: base and size each. -/
def rangeIn (base size lo n : Nat) : Bool := decide (lo ≤ base) && decide (base + size ≤ lo + n)

/-- The reach mask of a crew on core `k` (R373): the cores of its cluster that hold crews of its launch that have not
ended; its own core where it has no team. -/
def teamMask (s : State) (w : Crew) (k : Nat) : Nat :=
  match smFind s.work.tasks w.task with
  | none => 2 ^ (k % 4)
  | some t =>
    if !t.launch then 2 ^ (k % 4)
    else
      let die := w.crewid.toNat / 48
      let cl := w.crewid.toNat % 48 / 4
      ((List.range 4).map (fun c =>
        if t.cmk.getLsbD (4 * cl + c) && !t.ended.contains (48 * die + 4 * cl + c) then 2 ^ c else 0)).sum

/-- SEG_DESC's conditions: segment, new BASE and LIMIT (R483). DEDUCED: notes/assumptions/44. -/
def segldBad (s : State) (x : Cx) (g : Nat) (base limit : Nat) : Bool :=
  let w := x.crew
  let pk := 1024 * rwPk w.rw
  if g = 5 then true
  else if g = 0 ∨ g = 6 ∨ g = 7 then decide (2 ^ 57 < base + limit)
  else if g = 1 then !rangeIn base limit w.pbase pk
  else if g = 4 then !rangeIn base (kwLanes w.kw * limit) (w.pbase + pk) (poundBytes w.kw w.rw - pk)
  else if g = 2 then decide (pk < limit) || decide (16 ≤ base) || decide (base &&& teamMask s w x.core ≠ base)
  else
    let b := (((smFind s.work.tasks w.task).bind (fun t => t.basin.find? (fun p => decide (p.1 = coreDie x.core)))).map
      (fun p => p.2)).getD (0, 0)
    !rangeIn base limit b.1 b.2

def execSegld (c : Bool) (g : Fin 8) (a : Fin 64) (st : State) : Host.Outcome State Fault Refusal :=
  issue (.segld c g a) st (fun st x =>
    let as := x.heldOr [(x.s2 a.val).toNat, (x.s2 (a.val + 2)).toNat]
    if !x.gang.slices.all (fun sl => sl.wins.isEmpty) then .block (keepArgs st x as)
    else
      let v : Seg := { base := BitVec.ofNat 64 (as.getD 0 0), limit := BitVec.ofNat 64 (as.getD 1 0) }
      if segldBad st x g.val v.base.toNat v.limit.toNat then
        .trap st { cause := .segDesc, lanes := x.all, detail := BitVec.ofNat 32 g.val }
      else .done (st.modRegs x (fun r => r.wrSeg g.val v)))

def execSegrd (c : Bool) (d : Fin 64) (g : Fin 8) (st : State) : Host.Outcome State Fault Refusal :=
  issue (.segrd c d g) st (fun st x =>
    let v := segOf st x.dom x.hnd x.src.r g.val
    let v : Seg := if g.val = 5 then { base := 0, limit := if (st.ceng x.crewNo).bkt.cur.isSome then 64 else v.limit } else v
    .done ((st.putS2 x d.val v.base).putS2 x (d.val + 2) v.limit))

/-! ### SCOPEW, TIME, ICINV (R485 to R487) -/

/-- The 192 mask bits of a scope entry from six scalar registers. -/
def scopeMask (x : Cx) (d : Nat) : BitVec 192 :=
  (List.range 6).foldl (fun m k => m ||| (((x.s (d + k)).zeroExtend 192) <<< (32 * k))) 0

def execScopew (c : Bool) (d : Fin 64) (i : Fin 32) (st : State) : Host.Outcome State Fault Refusal :=
  issue (.scopew c d i) st (fun st x =>
    if i.val < 4 || scopeMask x d.val = 0 then
      .trap st { cause := .scopeDesc, lanes := x.all, detail := BitVec.ofNat 32 i.val }
    else .done (st.modDomain x.dom (fun m =>
      { m with map := { m.map with scopes := smSet m.map.scopes i.val (scopeMask x d.val) } })))

def execTime (c : Bool) (d : Fin 64) (st : State) : Host.Outcome State Fault Refusal :=
  issue (.time c d) st (fun st x => .done (st.putS2 x d.val (BitVec.ofNat 64 st.time)))

def execIcinv (c : Bool) (st : State) : Host.Outcome State Fault Refusal :=
  issue (.icinv c) st (fun st x => .done (icInv st x.core x.dom))

/-! ### Delivery to the handler (R462, R463) -/

/-- The gang's crew runs on a core and is not leaving it. -/
def crewStays (s : State) (g : Gang) : Bool :=
  match s.crew g.crew with
  | some w => w.core?.isSome && w.leaving.isNone
  | none => false

def execHandlerEntry (st : State) : Host.Outcome State Fault Refusal :=
  event (match st.gang (st.op 0) with
    | none => st
    | some g =>
      match g.recs with
      | r :: _ => if !g.cur && decide (r.disp = 0) && crewStays st g && !frozenNow st (st.op 0) g r.grp then enterHandler st (st.op 0) else st
      | [] => st)

/-! ### Imposed causes for service (R461) -/

/-- Some slice of the crew lives. -/
def crewLives (s : State) (c : Nat) : Bool := (s.gangsOf c).any (fun p => !p.2.liveSlices.isEmpty)

/-- An imposed cause for every group of a crew that is not stopped or frozen (R461, R471). -/
def imposeCrew (s : State) (c : Nat) (k : Cause) (detail : Word) : State :=
  (s.gangsOf c).foldl (fun s p =>
    (liveGroups p.2).foldl (fun s m =>
      let sl := p.2.slice (firstSlice m)
      if sl.stopped || frozenNow s p.1 p.2 m then s else imposeTrap s p.1 m k detail) s) s

/-- The instructions that a slice would issue next: those of its next chain, or the next repetition. -/
def Slice.nextInstrs (s : State) (core dom : Nat) (g : Gang) (sl : Slice) : List Instr :=
  let seg := segOf s dom sl.hnd g.r 7
  match sl.rep with
  | none => (chainInstrs (fetchChain s core dom seg 3 sl.pc).1).map (fun p => p.2.2)
  | some r => match fetchWord s core dom seg sl.pc with
    | .error _ => []
    | .ok tw => (chainInstrs [(sl.pc, BitVec.ofNat 32 (stepWord r.word.toNat tw.toNat r.j).1)]).map (fun p => p.2.2)

/-- The outstanding instruction `o` of a slice keeps it from issuing `is`: its window is used up, a register of `is` is its
destination, or `is` holds a ninth (R47, R72). -/
def Slice.heldBy (sl : Slice) (la : Nat) (o : Out) (is : List Instr) : Bool :=
  decide (la = 0) || is.any (fun i => (decide (8 ≤ sl.wins.length) && tracked i) || (Instr.uses i).any (fun u =>
    decide (u.file = .s) && (useRegs u).any (fun r => o.dstS.contains r)))

/-- A slice is blocked: it waits at a word of class W, in a join, or for an outstanding MRQ or BKNEXT (R376, R401). -/
def Slice.blocked (s : State) (core dom : Nat) (g : Gang) (sl : Slice) : Bool :=
  sl.block.any (fun b => b.wait) || sl.join.isSome || (sl.block.isNone && sl.wins.any (fun w =>
    match smFind s.work.outs w.1 with
    | none => false
    | some o => (decide (o.kind = .mrq) || decide (o.kind = .graphics)) && sl.heldBy w.2 o (sl.nextInstrs s core dom g)))

/-- Every live slice of a resident crew is blocked. -/
def crewBlocked (s : State) (c : Nat) : Bool :=
  match s.crew c with
  | none => false
  | some w => crewLives s c && w.core?.any (fun core =>
      (s.gangsOf c).all (fun p => p.2.liveSlices.all (fun k => (p.2.slice k).blocked s core w.dom p.2)))

/-- The crew is resident and holds no record for service yet. DEDUCED: notes/assumptions/98. -/
def imposable (s : State) (c : Nat) : Bool :=
  match s.crew c with
  | some w => w.core?.isSome && w.leaving.isNone && crewLives s c
  | none => false

def execWatchdog (st : State) : Host.Outcome State Fault Refusal :=
  event (
    let c := st.op 0
    match st.crew c with
    | none => st
    | some w =>
      let lim := (st.domain w.dom).set_.blocked
      match w.blockedAt with
      | none => st
      | some t =>
        if imposable st c && crewBlocked st c && decide (lim ≠ 0) && decide (lim < st.time - t) then
          imposeCrew st c .watchdog 0
        else st)

def execTimeLimit (st : State) : Host.Outcome State Fault Refusal :=
  event (
    let c := st.op 0
    match st.crew c with
    | none => st
    | some w =>
      let lim := (st.domain w.dom).set_.run
      if imposable st c && decide (lim ≠ 0) && decide (lim < w.ran + (st.time - w.since)) then imposeCrew st c .timeLimit 0
      else st)

def execDbgHalt (st : State) : Host.Outcome State Fault Refusal :=
  event (if imposable st (st.op 0) then imposeCrew st (st.op 0) .dbgHalt (BitVec.ofNat 32 (st.op 1)) else st)

/-- The time since which a crew has been blocked throughout, kept as time passes (R461). -/
def tickBlocked (s : State) : State :=
  { s with work.crews := s.work.crews.map (fun p =>
      (p.1, { p.2 with blockedAt :=
        if p.2.core?.isSome && crewBlocked s p.1 then some (p.2.blockedAt.getD s.time) else none })) }

end Sys2Proof.Machine
end

