-- ==== Sys2Proof/Machine/Records.lean ====
section
/-! DEFINITION. Task records, host queues, deques and placement (12.1 to 12.3), the task instructions TSPAWN and TSUCC,
and the spawn engine threads (12.8). -/

namespace Sys2Proof.Machine
open Sys2Proof

/-! ### The record (R361, R362) -/

/-- A record from its sixteen words (Table 12-1). -/
def recOf (ws : List Word) : TaskRec :=
  let w := fun k => ws.getD k 0
  { entry := w 1 ++ w 0, arg := w 3 ++ w 2, coord := w 5 ++ w 4, succ := w 7 ++ w 6, kw := w 8, rw := w 9,
    inl := [w 10, w 11, w 12, w 13, w 14, w 15] }

/-- A frame record (R393). -/
def TaskRec.isFrame (r : TaskRec) : Bool := decide (kwKind r.kw = 3) && decide (r.coord = BitVec.allOnes 64)

/-- CMK and DMK of a LAUNCH (Table 12-4). -/
def TaskRec.cmk (r : TaskRec) : BitVec 48 := r.coord.extractLsb' 0 48
def TaskRec.dmk (r : TaskRec) : Nat := fld r.coord.toNat 48 4

/-- ENTRY lies inside a domain's code window. -/
def entryIn (w : Option Range) (e : DWord) : Bool :=
  match w with
  | none => false
  | some c => decide (e.toNat % 4 = 0) && decide (c.base ≤ e.toNat) && decide (e.toNat < c.base + c.size)

/-- The record is valid (R362), but for its domain. -/
def recValid (s : State) (dom : Nat) (r : TaskRec) : Bool :=
  let k := kwKind r.kw
  decide (1 ≤ k) && decide (k ≤ 4) && decide (fld r.kw.toNat 23 4 = 0) && decide (fld r.rw.toNat 30 2 = 0) &&
  (decide (k ≠ 3) || (r.isFrame && decide (r.inl.getD 3 0 = 0) && decide (r.inl.getD 4 0 = 0))) &&
  entryIn (s.domain dom).map.code r.entry &&
  decide (rwPk r.rw ≤ 320) && decide (rwLb r.rw ≤ 64) && decide (rwNt r.rw ≤ 8) && decide (kwNb r.kw ≤ 16) &&
  decide (kwNq r.kw ≤ 16) && decide (poundBytes r.kw r.rw ≤ 327680) &&
  (if k = 1 then decide (fld r.coord.toNat 52 12 = 0) && decide (r.dmk ≠ 0) && decide (r.cmk ≠ 0)
   else decide (kwBsn r.kw = 0))

/-- What refuses a record at a queue of domain `dom`: the domain first (R362). DEDUCED: notes/assumptions/78. -/
def recBad (s : State) (dom : Nat) (r : TaskRec) : Option Cause :=
  if kwDom r.kw ≠ dom then some .tkDomain else if recValid s dom r then none else some .tkRecord

/-! ### Engine reads under a domain's translation, at the point of coherence -/

/-- CheckAddr of a virtual address for the control plane, which holds no TLB of a core. -/
def engXl (s : State) (dom : Nat) (va : DWord) (kind : AccKind) : Except CkFail Nat :=
  if fld va.toNat 57 7 ≠ 0 then .error { rank := 4, cause := .segLimit }
  else match walk s dom va.toNat with
    | .error f => .error f
    | .ok e =>
      match leafCheck e.leaf kind false 1 with
      | some f => .error f
      | none => .ok (physAddr (s.domain dom).map e.leaf (va.toNat - e.va))

/-- A record's words read at a package address: what fails the read, or the words. -/
def readRec (s : State) (pa : Nat) : Except Cause (List Word) :=
  match homeFail s (lineOf pa) with
  | some c => .error c
  | none => if anyPoison s pa 16 then .error .poisonRd else .ok (readWords s pa 16)

/-- The virtual address of the first poisoned word of a record at `pa`, whose own address is `va`. -/
def poisonAt (s : State) (pa : Nat) (va : DWord) : DWord :=
  va + BitVec.ofNat 64 (4 * (((List.range 16).find? (fun k => (readWord s (pa + 4 * k)).2)).getD 0))

/-! ### Queues (R364 to R366) -/

/-- A queue of a domain. -/
def State.queue (s : State) (d q : Nat) : HostQueue := smGet {} (s.domain d).queues q
def State.modQueue (s : State) (d q : Nat) (f : HostQueue → HostQueue) : State :=
  s.modDomain d (fun m => { m with queues := smSet m.queues q (f (smGet {} m.queues q)) })

/-- The queue stops with a cause; the stop is noticed to the host (R366, R510). A stopped queue keeps its cause. DEDUCED: notes/assumptions/80. -/
def stopQueue (s : State) (d q : Nat) (c : Cause) : State :=
  if (s.queue d q).stop then s
  else postNotice (s.modQueue d q (fun v => { v with stop := true, cause := BitVec.ofNat 7 c.code })) d 4 (BitVec.ofNat 32 q) 0

/-- The doorbell: a host write of TAIL (R366). -/
def ringDoorbell (s : State) (d q : Nat) (tail : Word) : State :=
  let v := s.queue d q
  if !v.enabled then s
  else if 2 ^ v.k < (tail - v.head).toNat || (tail - v.head).toNat < (v.tail - v.head).toNat then stopQueue s d q .tkQueueFull
  else s.modQueue d q (fun v => { v with tail := tail })

def execDoorbell (st : State) : Host.Outcome State Fault Refusal :=
  event (ringDoorbell st (st.op 0) (st.op 1) (BitVec.ofNat 32 (st.op 2)))

/-! ### Deques and placement (R367, R368) -/

/-- Number of the deque of a die, domain and queue. -/
def dqKey (die dom q : Nat) : Nat := (die * 8 + dom) * 64 + q
def State.deque (s : State) (k : Nat) : List DqEnt := smGet [] s.sched.deques k
def State.putDeque (s : State) (k : Nat) (l : List DqEnt) : State := { s with sched.deques := smPut [] s.sched.deques k l }

/-- A deque has no room for `n` more entries: it holds 4,096 (R367). -/
def dqFull (s : State) (n k : Nat) : Bool := decide (4096 < (s.deque k).length + n)

/-- The die a record goes to: that of the line at ARG, or `dflt` where ARG is not mapped to device memory (R368). -/
def placeDie (s : State) (dom : Nat) (arg : DWord) (dflt : Nat) : Nat :=
  if fld arg.toNat 57 7 ≠ 0 then dflt
  else match walk s dom arg.toNat with
    | .error _ => dflt
    | .ok e => if pteHm e.leaf then dflt else dieOf (physAddr (s.domain dom).map e.leaf (arg.toNat - e.va))

/-- The cores a LAUNCH names, by package number. -/
def launchCores (r : TaskRec) : List Nat :=
  (List.range 192).filter (fun c => r.dmk.testBit (c / 48) && r.cmk.getLsbD (c % 48))

/-- The deques a record is placed in, each with the entries it makes there. -/
def recDeques (s : State) (dom q : Nat) (r : TaskRec) (dflt : Nat) : List (Nat × Nat) :=
  if kwKind r.kw = 1 then
    (((launchCores r).map (fun c => c / 48)).dedup).map (fun d =>
      (dqKey d dom q, ((launchCores r).filter (fun c => decide (c / 48 = d))).length))
  else [(dqKey (placeDie s dom r.arg dflt) dom q, 1)]

/-- A record that goes into deques finds one of them without room. -/
def recFull (s : State) (dom q : Nat) (r : TaskRec) (dflt : Nat) : Bool :=
  !r.isFrame && (recDeques s dom q r dflt).any (fun p => dqFull s p.2 p.1)

/-- A new task or launch of `n` crews. -/
def newTask (s : State) (dom q n : Nat) (r : TaskRec) (parent : Option Nat) : State :=
  { s with work.next := s.work.next + 1,
           work.tasks := smSet s.work.tasks s.work.next
             { dom := dom, que := q, succ := r.succ, left := n, launch := decide (kwKind r.kw = 1), cmk := r.cmk, parent := parent } }

/-- An entry placed at the tail end of a deque. -/
def dqPush (s : State) (k : Nat) (e : DqEnt) : State := s.putDeque k (s.deque k ++ [e])

/-- A frame record handed to the binner (R393). -/
def handFrame (s : State) (dom q : Nat) (r : TaskRec) : State :=
  let t := s.work.next
  let s := newTask s dom q 1 r none
  { s with gfx.frames := s.gfx.frames ++
      [{ dom := dom, que := q, task := t, record := r, fdAddr := r.inl.getD 1 0 ++ r.inl.getD 0 0 }] }

/-- A checked record placed: it is ready (R368). -/
def placeRec (s : State) (dom q : Nat) (r : TaskRec) (trec : DWord) (dflt : Nat) : State :=
  if r.isFrame then handFrame s dom q r
  else
    let t := s.work.next
    let e : DqEnt := { record := r, trec := trec, dom := dom, que := q, ready := s.time, task := t }
    if kwKind r.kw = 1 then
      (launchCores r).foldl (fun s c => dqPush s (dqKey (c / 48) dom q) { e with core := some c })
        (newTask s dom q (launchCores r).length r none)
    else
      let d := placeDie s dom r.arg dflt
      dqPush (newTask s dom q 1 r none) (dqKey d dom q) e

/-! ### Frame descriptors (R392, R393, R411) -/

/-- A frame descriptor from its sixteen words. -/
def descOf (ws : List Word) : FrameDesc :=
  let w := fun k => ws.getD k 0
  { sbuf := (w 1 ++ w 0).toNat, pat := (w 3 ++ w 2).toNat, fw := fld (w 4).toNat 0 16, fh := fld (w 4).toNat 16 16,
    nsl := fld (w 5).toNat 0 8, ftag := fld (w 5).toNat 8 8, quo := fld (w 5).toNat 16 16, clr := w 7 ++ w 6, clz := w 8 }

/-- A descriptor that breaks Table 13-1. -/
def descBad (ws : List Word) : Bool :=
  let d := descOf ws
  decide (d.sbuf % 64 ≠ 0) || decide (d.pat % 64 ≠ 0) || decide (d.fw = 0) || decide (16384 < d.fw) || decide (d.fh = 0) ||
  decide (16384 < d.fh) || decide (6 < d.nsl) || decide (d.quo = 0) || decide (32767 < d.quo) ||
  !((ws.drop 9).all (fun w => decide (w = 0)))

/-- A frame descriptor read at virtual address `va` and checked: its words, or the cause. -/
def readDesc (s : State) (dom : Nat) (va : DWord) : Except Cause (List Word) :=
  if va.toNat % 64 ≠ 0 then .error .gxSampleCfg
  else match engXl s dom va .read with
    | .error f => .error f.cause
    | .ok pa =>
      match readRec s pa with
      | .error c => .error c
      | .ok ws => if descBad ws then .error .gxSampleCfg else .ok ws

/-- What refuses a frame record at the front end beside R362. -/
def frameBad (s : State) (dom : Nat) (r : TaskRec) : Option Cause :=
  if !r.isFrame then none
  else match readDesc s dom (r.inl.getD 1 0 ++ r.inl.getD 0 0) with
    | .error c => some c
    | .ok _ => none

/-- The ray slots of a gang that has ended: those that are DONE are made FREE, their results discarded (R432). -/
def dropRays (s : State) (gk : Nat) : State :=
  if (s.gang gk).any (fun g => g.liveSlices.isEmpty) then
    { s with gfx.rays := s.gfx.rays.filter (fun p => decide (p.1 / 32 ≠ gk) || p.2.done.isNone) }
  else s

/-! ### The front end (R366) -/

/-- The virtual address of ring slot `i` of a queue. -/
def slotVa (v : HostQueue) (i : Word) : DWord := v.ring + BitVec.ofNat 64 (64 * (i.toNat % 2 ^ v.k))

/-- The binner holds the frame record that HEAD stands on. -/
def binning (s : State) (d q : Nat) : Bool :=
  s.gfx.frames.any (fun f => f.atHead && decide (f.dom = d) && decide (f.que = q))

/-- A frame record of a host queue handed to the binner: HEAD stays on it until its patches are binned, so that a stop
of the queue leaves HEAD on the record (R366, R393). -/
def takeFrame (s : State) (d q : Nat) (r : TaskRec) : State :=
  let s := handFrame s d q r
  { s with gfx.frames := s.gfx.frames.zipIdx.map (fun p =>
             if p.2 + 1 = s.gfx.frames.length then { p.1 with atHead := true } else p.1) }

/-- The front end takes the record at HEAD: it is placed, or refused, or waits for room in its deque. -/
def frontEndTake (s : State) (d q : Nat) : State :=
  let v := s.queue d q
  if !v.enabled || v.stop || v.head = v.tail || binning s d q then s
  else
    let va := slotVa v v.head
    match engXl s d va .read with
    | .error f => stopQueue s d q f.cause
    | .ok pa =>
      if lineBusy s (lineOf pa) then s
      else match readRec s pa with
        | .error c => stopQueue s d q c
        | .ok ws =>
          let r := recOf ws
          match recBad s d r with
          | some c => stopQueue s d q c
          | none =>
            match frameBad s d r with
            | some c => stopQueue s d q c
            | none =>
              if r.isFrame then takeFrame s d q r
              else if recFull s d q r 0 then s
              else (placeRec s d q r va 0).modQueue d q (fun v => { v with head := v.head + 1 })

def execFrontEndTake (st : State) : Host.Outcome State Fault Refusal := event (frontEndTake st (st.op 0) (st.op 1))

/-! ### Spawns (R386) -/

/-- The failure of a spawn of queue `q`. -/
def tkErr (c : Cause) (q : Nat) (va : DWord) : AErr :=
  if c = .poisonRd ∨ c = .cohLost then { cause := c, addr := va }
  else { cause := c, info := BitVec.ofNat 32 q }

/-- TKERR recorded; a record that is pending stays. -/
def recordTk (s : State) (g : Nat) (e : AErr) : State :=
  match s.gang g with
  | none => s
  | some v =>
    if v.tkerr.isSome then s
    else
      saveWords (s.modGang g (fun v => { v with tkerr := some e })) (g / 16) (0x1000 + 0xC00 * (g % 16) + 4 * 502) (encErr1 (some e))

/-- A spawn ends, with its failure. -/
def failSpawn (s : State) (k : Nat) (p : Spawn) (e : AErr) : State :=
  recordTk { s with sched.spawns := dropAt s.sched.spawns k } p.gang e

/-- The thread reads its record, its core's own words pushed before. -/
def spawnRead (s : State) (k : Nat) (p : Spawn) : State :=
  let l := lineOf p.addr
  throughFabric s p.num p.core [l] (engineReady s p.num p.gang p.core l) (fun s =>
    match threadFail s p.num l with
    | some c =>
      failSpawn s k p (if c = .cohLost then tkErr c p.que p.va else { cause := c, info := threadInfo s p.num l c, addr := p.va })
    | none =>
      let po := threadPo s p.num l
      let s := enginePush s p.core l
      let ws := readWords s p.addr 16
      match recBad s p.dom (recOf ws) with
      | some c => failSpawn s k p (tkErr c p.que p.va)
      | none =>
        if recFull s p.dom p.que (recOf ws) (coreDie p.core) then failSpawn s k p (tkErr .tkQueueFull p.que p.va)
        else if anyPoison s p.addr 16 || decide (po ≠ 0) then failSpawn s k p (tkErr .poisonRd p.que (poisonAt s p.addr p.va))
        else { s with sched.spawns := putAt s.sched.spawns k { p with words := some ws } })

/-- The record that has been read is placed once the release on the spawner's behalf is performed. -/
def spawnPlace (s : State) (k : Nat) (p : Spawn) (ws : List Word) : State :=
  match bgRelease s p.num p.gang p.core p.dom with
  | .wait s b => { s with sched.spawns := putAt s.sched.spawns k { p with bad := p.bad || b } }
  | .done b =>
    let d := (((looseLines s p.core).find? (fenced s)).map lineDie).getD (coreDie p.core)
    if p.bad || b then
      failSpawn s k p { cause := .homeFenced, addr := p.va, info := BitVec.ofNat 32 d }
    else
      if recFull s p.dom p.que (recOf ws) (coreDie p.core) then failSpawn s k p (tkErr .tkQueueFull p.que p.va)
      else placeRec { s with sched.spawns := dropAt s.sched.spawns k } p.dom p.que (recOf ws) p.va (coreDie p.core)

/-- Spawn engine thread `k` goes on (SPAWN). -/
def spawnStep (s : State) (k : Nat) : State :=
  match s.sched.spawns[k]? with
  | none => s
  | some p =>
    match p.words with
    | none => spawnRead s k p
    | some ws => spawnPlace s k p ws

def execSpawn (st : State) : Host.Outcome State Fault Refusal := event (spawnStep st (st.op 0))

/-- The TKERR record of the issuing gang, delivered in place of a task word's effect (R385). -/
def tkFirst (st : State) (x : Cx) (body : Res) : Res :=
  match x.gang.tkerr with
  | none => body
  | some e =>
    .trap (st.modGang x.cur.gang (fun g => { g with tkerr := none }))
      { cause := e.cause, lanes := x.all, addr := e.addr, detail := e.info, kind := .async }

def execTspawn (c : Bool) (a b : Fin 64) (st : State) : Host.Outcome State Fault Refusal :=
  issue (.tspawn c a b) st (fun st x =>
    tkFirst st x (
      let va := x.s2 a.val
      let q := fld (x.s b.val).toNat 0 6
      let base := (segOf st x.dom x.hnd x.src.r 0).base
      if va.toNat % 64 ≠ 0 then .trap st { cause := .atomAlign, lanes := x.all, addr := va }
      else match checkAddr st x 0 0 va 64 .read 1 with
        | .error f => .trap st (onceFail x base va f)
        | .ok pa =>
          if !(st.queue x.dom q).enabled then
            .trap st { cause := .tkDomain, lanes := x.all, detail := BitVec.ofNat 32 q }
          else
            let st := fillTlb st x.core x.dom (base + va).toNat
            let va' := base + va
            let p : Spawn := { num := st.work.next, gang := x.cur.gang, dom := x.dom, que := q, addr := pa, va := va', core := x.core }
            .done { st with work.next := st.work.next + 1, sched.spawns := st.sched.spawns ++ [p] }))

/-! ### TSUCC (R383, R387, R388) -/

/-- The successor object's step at its home: the failure that changes nothing, or the count before it, QSEL and RADR
and the state after it. DEDUCED: notes/assumptions/79. -/
def succStep (s : State) (core pa : Nat) : Except Cause (Nat × Word × DWord × State) :=
  match homeFail s (lineOf pa) with
  | some c => .error c
  | none =>
    let c := readWord s pa
    if c.2 || (decide (c.1 = 1) && anyPoison s pa 4) then .error .poisonRd
    else if c.1 = 0 then .error .tkSucc
    else .ok (c.1.toNat, (readWord s (pa + 4)).1, (readWord s (pa + 12)).1 ++ (readWord s (pa + 8)).1,
      engineWord s core pa (c.1 - 1) 0xF false)

/-- The spawn of a ready successor's record at package address `pa`: its failure, or the state with it placed. The checks
are TSPAWN's, a full deque before poison (R386). -/
def succPlace (s : State) (dom q pa : Nat) (va : DWord) (dflt : Nat) : Except Cause State :=
  let r := recOf (readWords s pa 16)
  let fails := fun (poison : Bool) =>
    (recBad s dom r).or (if recFull s dom q r dflt then some .tkQueueFull else if poison then some .poisonRd else none)
  match readRec s pa with
  | .error c => .error (if c = .poisonRd then (fails true).getD c else c)
  | .ok _ =>
    match fails false with
    | some c => .error c
    | none => .ok (placeRec s dom q r va dflt)

/-- The trap of a failed spawn of TSUCC: the decrement stands, and the group resumes past the word (R388, R457). -/
def succTrap (st : State) (x : Cx) (t : TrapReq) : Res :=
  .trap (st.modSl x (fun _ sl => { sl.advance x.cur.pc with block := none })) { t with after := true }

/-- The spawn part of TSUCC: record address `va` as an offset of the global segment, queue `q`. -/
def succSpawn (st : State) (x : Cx) (q : Nat) (va : DWord) : Res :=
  let base := (segOf st x.dom x.hnd x.src.r 0).base
  if va.toNat % 64 ≠ 0 then succTrap st x { cause := .atomAlign, lanes := x.all, addr := va }
  else match checkAddr st x 0 0 va 64 .read 1 with
    | .error f => succTrap st x (onceFail x base va f)
    | .ok pa =>
      if !(st.queue x.dom q).enabled then succTrap st x { cause := .tkDomain, lanes := x.all, detail := BitVec.ofNat 32 q }
      else match succPlace (enginePush st x.core (lineOf pa)) x.dom q pa (base + va) (coreDie x.core) with
        | .ok st => .done st
        | .error c =>
          let e := if c = .homeFenced then { tkErr c q (base + va) with info := BitVec.ofNat 32 (lineDie (lineOf pa)), addr := base + va }
            else tkErr c q (if c = .poisonRd then poisonAt st pa (base + va) else base + va)
          succTrap st x { cause := c, lanes := x.all, detail := e.info, addr := e.addr }

/-- TSUCC once its release is performed. -/
def tsuccHome (st : State) (x : Cx) (a pa : Nat) : Res :=
  if !engineReady st st.work.next x.cur.gang x.core (lineOf pa) then .hold st
  else match succStep (enginePush st x.core (lineOf pa)) x.core pa with
    | .error c =>
      let va := (segOf st x.dom x.hnd x.src.r 0).base + x.s2 a
      if c = .poisonRd then .trap st { cause := c, lanes := x.all, addr := va }
      else if c = .tkSucc then .trap st { cause := c, lanes := x.all }
      else .done (addLate st x.cur.gang x.cur.pc
        { cause := c, lanes := x.all, addr := va,
          detail := if c = .homeFenced then BitVec.ofNat 32 (lineDie (lineOf pa)) else 0 })
    | .ok (n, qs, ra, t) => if n = 1 then succSpawn t x (fld qs.toNat 0 6) ra else .done t

def execTsucc (c : Bool) (a : Fin 64) (st : State) : Host.Outcome State Fault Refusal :=
  issue (.tsucc c a) st (fun st x =>
    tkFirst st x (
      let va := x.s2 a.val
      let base := (segOf st x.dom x.hnd x.src.r 0).base
      if va.toNat % 32 ≠ 0 then .trap st { cause := .atomAlign, lanes := x.all, addr := va }
      else match checkAddr st x 0 0 va 32 .atomic 1 with
        | .error f => .trap st (onceFail x base va f)
        | .ok pa =>
          let st := fillTlb st x.core x.dom (base + va).toNat
          afterRelease st x true (tsuccHome st x a.val pa)))

end Sys2Proof.Machine
end

