-- ==== Sys2Proof/Machine/Crews.lean ====
section
/-! DEFINITION. Dispatch and the life of a crew: slot tables and resources (R370, R371), the candidates and the start of
a crew (R372, R373), stealing (R369), EXIT and TDONE (R94, R389), the end of a crew and of a task (R374, R384). -/

namespace Sys2Proof.Machine
open Sys2Proof

/-! ### Slots and resources of a core (R370, R371) -/

/-- The crews that hold resources of a core. -/
def crewsOn (s : State) (core : Nat) : List (Nat × Crew) := s.work.crews.filter (fun p => decide (p.2.holds? = some core))

/-- A gang still holds its slot: a slice lives or an L or A instruction is outstanding (R374). -/
def gangHolds (s : State) (gk : Nat) (g : Gang) : Bool :=
  !g.liveSlices.isEmpty || s.work.outs.any (fun p => decide (p.2.gang = gk))

/-- Slot `k` of a core is taken by a gang: the gang's crew. -/
def slotCrew (s : State) (core k : Nat) : Option (Nat × Crew) :=
  (crewsOn s core).find? (fun p => (s.gangsOf p.1).any (fun g => decide (g.2.slot = k) && gangHolds s g.1 g.2))

/-- A slot table entry (Table 12-6). -/
def State.slotWord (s : State) (core k : Nat) : Word := smGet 0 s.sched.slots (16 * core + k)

/-- An entry qualifies for a queue's crew at a priority, as a reserved slot or as an open one (R371). -/
def slotQual (w : Word) (rsv : Bool) (dom que pri : Nat) : Bool :=
  w.getLsbD 31 && decide (fld w.toNat 27 3 = dom) && (w.getLsbD 30 == rsv) &&
    (if rsv then decide (fld w.toNat 21 6 = que) else decide (fld w.toNat 18 3 ≤ pri))

/-- The free slots of a core that qualify. -/
def freeSlots (s : State) (core : Nat) (rsv : Bool) (dom que pri : Nat) : List Nat :=
  (List.range 16).filter (fun k => (slotCrew s core k).isNone && slotQual (s.slotWord core k) rsv dom que pri)

/-- Registers a crew takes. -/
def crewRegs (kw rw : Word) : Nat := (rwNg rw + 1) * kwLanes kw * (rwNr rw + 1)

/-- A sum over the crews of a core. -/
def coreSum (s : State) (core : Nat) (f : Crew → Nat) : Nat := ((crewsOn s core).map (fun p => f p.2)).sum

/-- The lowest base at which `n` bytes fit between intervals (base, size) below `cap`. DEDUCED: notes/assumptions/74. -/
def firstFit (cap n : Nat) (l : List (Nat × Nat)) : Option Nat :=
  let bases := 0 :: l.map (fun p => p.1 + p.2)
  let ok := fun b => decide (b + n ≤ cap) && l.all (fun p => decide (b + n ≤ p.1) || decide (p.1 + p.2 ≤ b))
  (bases.filter ok).foldl (fun a b => match a with | none => some b | some c => some (min b c)) none

/-- Where `n` Pound bytes fit on a core. -/
def poundFit (s : State) (core n : Nat) : Option Nat :=
  firstFit 327680 n ((crewsOn s core).map (fun p => (p.2.pbase, poundBytes p.2.kw p.2.rw)))

/-- A place for a crew on a core: its slots, its Pound base, whether the slots are reserved ones. -/
structure Fit where
  slots : List Nat
  pbase : Nat
  rsv : Bool
  deriving DecidableEq, Repr

/-- The registers, Pound and tiles of a core hold a request, and `r` times the reserve word's amounts beside it. DEDUCED: notes/assumptions/75. -/
def resFit (s : State) (core r : Nat) (kw rw : Word) : Bool :=
  let v := smGet 0 s.sched.reserve core
  decide (coreSum s core (fun w => crewRegs w.kw w.rw) + crewRegs kw rw + r * fld v.toNat 0 16 ≤ 32768) &&
  decide (coreSum s core (fun w => poundBytes w.kw w.rw) + poundBytes kw rw + r * (1024 * fld v.toNat 16 9) ≤ 327680) &&
  decide (coreSum s core (fun w => rwNt w.rw) + rwNt rw + r * fld v.toNat 25 4 ≤ 8)

/-- The place that dispatch gives a crew on a core: RSV slots of its queue, else open slots that leave the reserve
word's amounts free (R371). -/
def fit (s : State) (core dom que : Nat) (kw rw : Word) : Option Fit :=
  let n := rwNg rw + 1
  let rs := freeSlots s core true dom que (kwPri kw)
  let os := freeSlots s core false dom que (kwPri kw)
  match poundFit s core (poundBytes kw rw) with
  | none => none
  | some b =>
    if n ≤ rs.length && resFit s core 0 kw rw then some { slots := rs.take n, pbase := b, rsv := true }
    else if n ≤ os.length && resFit s core 1 kw rw then some { slots := os.take n, pbase := b, rsv := false }
    else none

/-! ### Dies that take work -/

/-- A fence of the die is being prepared (R501). -/
def preparing (s : State) (d : Nat) : Bool := s.fab.fences.any (fun f => decide (f.die = d))

/-- Dispatch works on the die. -/
def dieWorks (s : State) (d : Nat) : Bool := decide ((s.die d).st = .admitted) && !preparing s d && !s.mgmt.stopped

/-! ### The Basin (R374) -/

/-- The Basin intervals of a die. -/
def basinUsed (s : State) (d : Nat) : List (Nat × Nat) :=
  s.work.tasks.flatMap (fun t => (t.2.basin.filter (fun b => decide (b.1 = d))).map (fun b => b.2))

/-- The Basin allocation of a launch on a die: the one it has, or a new one that fits; an empty one where BSN is 0. -/
def basinFit (s : State) (task d bsn : Nat) : Option (Nat × Nat) :=
  if bsn = 0 then some (0, 0)
  else match ((smFind s.work.tasks task).bind (fun t => t.basin.find? (fun b => decide (b.1 = d)))) with
    | some b => some b.2
    | none => (firstFit (32 * 2 ^ 20) (bsn * 2 ^ 20) (basinUsed s d)).map (fun b => (b, bsn * 2 ^ 20))

/-! ### Candidates (R372) -/

/-- A candidate of dispatch: its priority, its ready time, and its deque and place in it, or its crew. -/
structure Cand where
  pri : Nat := 0
  ready : Nat := 0
  dq : Nat := 0
  ix : Nat := 0
  crew : Option Nat := none
  deriving DecidableEq, Repr

/-- An entry can start on a core: a place, a Basin allocation, and for a bucket its bucket set up there (R396); one that
has split there meanwhile starts too, and finds the bucket drained (R402). -/
def entFits (s : State) (core : Nat) (e : DqEnt) : Bool :=
  (fit s core e.dom e.que e.record.kw e.record.rw).isSome &&
  (basinFit s e.task (coreDie core) (kwBsn e.record.kw)).isSome &&
  (match e.bucket with
   | none => true
   | some b => (smFind s.gfx.buckets b).any (fun v =>
       (decide (v.st = .resident) || v.cnt.split) && decide (v.die = coreDie core)))

/-- The crews of a crew's team that are out with it (R379). -/
def outTeam (s : State) (c : Nat) : List Nat :=
  match s.crew c with
  | none => []
  | some w =>
    if kwKind w.kw ≠ 1 then [c]
    else (s.work.crews.filter (fun p => decide (p.2.task = w.task) && decide (p.2.crewid.toNat / 4 = w.crewid.toNat / 4) &&
      (match p.2.place with | .waiting _ => true | .serviced _ => true | _ => false))).map (fun p => p.1)

/-- The core a team member takes when its team resumes in the cluster of `core`. -/
def teamCore (w : Crew) (core : Nat) : Nat := if kwKind w.kw = 1 then core / 4 * 4 + w.crewid.toNat % 4 else core

/-- One crew can resume on `core`: it is ready, the die is one it may use, a place fits. -/
def memberFits (s : State) (core c : Nat) : Bool :=
  match s.crew c with
  | none => false
  | some w =>
    let k := teamCore w core
    (match w.place with | .waiting _ => true | _ => false) &&
    (fit s k w.dom w.que w.kw w.rw).isSome &&
    (decide (kwBsn w.kw = 0) || decide (coreDie k = w.crewid.toNat / 48)) &&
    (match (s.ceng c).bkt.cur with
     | none => true
     | some b => (smFind s.gfx.buckets b).any (fun v =>
       v.cnt.split || (decide (v.die = coreDie k) && decide (v.st ≠ .parked))))

/-- The members of a team that are on cores all stay there, in the cluster of `core`: none is still on its way out (R379). -/
def teamHere (s : State) (w : Crew) (core : Nat) : Bool :=
  decide (kwKind w.kw ≠ 1) || s.work.crews.all (fun p => !(decide (p.2.task = w.task) &&
    decide (p.2.crewid.toNat / 4 = w.crewid.toNat / 4)) || p.2.core?.all (fun k => p.2.leaving.isNone && decide (k / 4 = core / 4)))

/-- A crew that is out can resume on `core` with its team (R379). -/
def crewFits (s : State) (core c : Nat) : Bool :=
  match s.crew c with
  | none => false
  | some w => decide (teamCore w core = core) && teamHere s w core && (outTeam s c).all (memberFits s core)

/-- The deque entries that are candidates of a core: those fixed to it, and the heads of its die's deques. DEDUCED: notes/assumptions/76. -/
def entCands (s : State) (core : Nat) : List Cand :=
  (s.sched.deques.filter (fun p => decide (p.1 / 512 = coreDie core))).flatMap (fun p =>
    let es := p.2.zipIdx
    let own := es.filter (fun e => decide (e.1.core = some core))
    let head := (es.filter (fun e => e.1.core.isNone)).take 1
    ((own ++ head).filter (fun e => entFits s core e.1)).map (fun e =>
      { pri := kwPri e.1.record.kw, ready := e.1.ready, dq := p.1, ix := e.2 }))

/-- The crews that wait on a die and can resume on a core. -/
def crewCands (s : State) (core : Nat) : List Cand :=
  (s.work.crews.filter (fun p => decide (p.2.place = .waiting (coreDie core)) && crewFits s core p.1)).map (fun p =>
    { pri := kwPri p.2.kw, ready := p.2.ready, crew := some p.1 })

/-- Highest priority first, then the earliest ready (R372). -/
def candBefore (a b : Cand) : Bool := decide (b.pri < a.pri) || (decide (a.pri = b.pri) && decide (a.ready < b.ready))

/-- The candidate that dispatch starts next on a core. Which of two of equal priority and equal ready time goes first is not
stated: here the deque entries by deque and place, then the waiting crews by number. DESIGN CHOICE: notes/assumptions/158. -/
def bestCand (s : State) (core : Nat) : Option Cand :=
  if !dieWorks s (coreDie core) then none
  else (entCands s core ++ crewCands s core).foldl (fun a b =>
    match a with
    | none => some b
    | some c => if candBefore b c then some b else some c) none

/-! ### The start of a crew (R373) -/

/-- The segment registers of gang `ix` (R197, R373). -/
def startSegs (s : State) (w : Crew) (core ix : Nat) (basin : Nat × Nat) : Regs → Regs := fun r =>
  let n := fun k => BitVec.ofNat 64 k
  let pk := 1024 * rwPk w.rw
  let code := ((s.domain w.dom).map.code).getD {}
  let r := r.wrSeg 0 { base := 0, limit := n (2 ^ 57) }
  let r := r.wrSeg 1 { base := n w.pbase, limit := n pk }
  let r := r.wrSeg 2 { base := n (teamMask s w core), limit := n pk }
  let r := r.wrSeg 3 { base := n basin.1, limit := n basin.2 }
  let r := r.wrSeg 4 { base := n (w.pbase + pk + ix * kwLanes w.kw * rwLane w.rw), limit := n (rwLane w.rw) }
  let r := r.wrSeg 6 { base := 0, limit := n (2 ^ 57) }
  r.wrSeg 7 { base := n code.base, limit := n code.size }

/-- The scalar registers at gang start: ARG, the inline words, COORD, SUCC. -/
def startScalars (r : TaskRec) : List (Nat × Word) :=
  let i := fun k => r.inl.getD k 0
  smPuts 0 [] [(0, loW r.arg), (1, hiW r.arg), (2, i 0), (3, i 1), (4, i 2), (5, i 3), (6, i 4), (7, i 5),
    (8, loW r.coord), (9, hiW r.coord), (10, loW r.succ), (11, hiW r.succ)]

/-- Gang `ix` of a crew at its start. -/
def startGang (s : State) (c : Nat) (w : Crew) (core : Nat) (r : TaskRec) (basin : Nat × Nat) (f : Fit) (ix : Nat) : Gang :=
  let n := kwSlc r.kw + 1
  let code := ((s.domain w.dom).map.code).getD {}
  let pc := pcOf { base := BitVec.ofNat 64 code.base, limit := BitVec.ofNat 64 code.size } r.entry
  let sl : Slice := { live := true, pc := pc, x := 0xF, grp := sliceMask (List.range n) }
  let regs : Regs := { s := startScalars r, gen := genSeeds 0 ix }
  { crew := c, ix := ix, slot := f.slots.getD ix 0, nsl := n, slices := List.replicate n sl,
    prv := (s.queue w.dom w.que).priv, r := startSegs s w core ix basin regs }

/-- `n` bytes of storage from `a` as no one has written them: a new holder reads none of what another left (R3).
DESIGN CHOICE: notes/assumptions/73. -/
def wipe (s : State) (a n : Nat) : State :=
  { s with mem := s.mem.filter (fun c => !(decide (a ≤ c.1) && decide (c.1 < a + n))),
           poison := s.poison.filter (fun c => !(decide (a ≤ c.1) && decide (c.1 < a + n))) }

/-- The storage of a crew as it starts: its Pound allocation and lane segments, and a Basin allocation that its launch takes
with it (R3). -/
def wipeStart (s : State) (w : Crew) (core : Nat) (b : Nat × Nat) : State :=
  let s := wipe s (poundAddr core w.pbase) (poundBytes w.kw w.rw)
  if kwBsn w.kw = 0 || (smFind s.work.tasks w.task).any (fun t => t.basin.any (fun p => decide (p.1 = coreDie core))) then s
  else wipe s (basinAddr (coreDie core) b.1) b.2

/-- Start as an acquire at package scope on the core, with its code cache dropped (R373, R487). -/
def startAcquire (s : State) (core dom : Nat) : State := icInv (acquireWide s core) core dom

/-- A task's crew started on a core: its Basin allocation, its core. -/
def taskStart (s : State) (t c core bsn : Nat) (b : Nat × Nat) : State :=
  { s with work.tasks := smModify s.work.tasks t (fun v =>
      { v with crews := v.crews ++ [c], cores := (core :: v.cores).dedup,
               basin := if bsn = 0 ∨ v.basin.any (fun p => decide (p.1 = coreDie core)) then v.basin
                 else v.basin ++ [(coreDie core, b)] }) }

/-- An entry's crew started on a core in a place. DESIGN CHOICE: notes/assumptions/72. DESIGN CHOICE: notes/assumptions/73. -/
def startCrew (s : State) (core : Nat) (e : DqEnt) (f : Fit) (b : Nat × Nat) : State :=
  let c := s.work.next
  let id : Word := if kwKind e.record.kw = 1 then BitVec.ofNat 32 core else 0
  let w : Crew := { place := .on core, dom := e.dom, que := e.que, kw := e.record.kw, rw := e.record.rw, trec := e.trec,
                    crewid := id, task := e.task, pbase := f.pbase, rsv := f.rsv, since := s.time, ready := e.ready }
  let s := wipeStart s w core b
  let s := taskStart { s with work.next := c + 1, work.crews := smSet s.work.crews c w } e.task c core (kwBsn e.record.kw) b
  let gs := (List.range (rwNg e.record.rw + 1)).map (fun ix => (16 * c + ix, startGang s c w core e.record b f ix))
  let s := { s with work.gangs := gs.foldl (fun m p => smSet m p.1 p.2) s.work.gangs }
  let s := match e.bucket with
    | none => s
    | some k =>
      let s := s.modCeng c (fun v => { v with bkt := { v.bkt with cur := some k } })
      { s with gfx.buckets := smModify s.gfx.buckets k (fun v => { v with crew := c }) }
  startAcquire s core e.dom

/-- A bucket's failure at setup waits in its crew's BKERR record (R397, R421). -/
def takeBktErr (s : State) (c : Nat) (b : Option Nat) : State :=
  match b.bind (fun k => smFind s.gfx.buckets k) with
  | none => s
  | some v => s.modCeng c (fun e => { e with bkt := { e.bkt with err := v.early } })

/-- Dispatch on a core: the best candidate starts where it is an entry of a deque (DISPATCH). -/
def dispatch (s : State) (core : Nat) : State :=
  match bestCand s core with
  | none => s
  | some c =>
    if c.crew.isSome then s
    else match (s.deque c.dq)[c.ix]? with
      | none => s
      | some e =>
        match fit s core e.dom e.que e.record.kw e.record.rw, basinFit s e.task (coreDie core) (kwBsn e.record.kw) with
        | some f, some b =>
          takeBktErr (startCrew (s.putDeque c.dq (dropAt (s.deque c.dq) c.ix)) core e f b) s.work.next e.bucket
        | _, _ => s

def execDispatch (st : State) : Host.Outcome State Fault Refusal := event (dispatch st (st.op 0))

/-! ### Stealing (R369) -/

/-- An entry that may be stolen: not fixed to a core, not stolen before (R369), its bucket not set up. -/
def stealable (s : State) (e : DqEnt) : Bool :=
  e.core.isNone && !e.stolen && (match e.bucket with
    | none => true
    | some b => (smFind s.gfx.buckets b).any (fun v => decide (v.st = .waiting)))

/-- The deque entries of a queue on a die that are not fixed. -/
def looseEnts (s : State) (die dom q : Nat) : List DqEnt := (s.deque (dqKey die dom q)).filter (fun e => e.core.isNone)

/-- The entries of a queue on a die that no thief has taken. -/
def ownEnts (s : State) (die dom q : Nat) : List DqEnt := (looseEnts s die dom q).filter (fun e => !e.stolen)

/-- The die with the longest deque of a queue among the others, the lowest number among equals. -/
def longestOther (s : State) (die dom q : Nat) : Nat :=
  ((List.range 4).filter (fun d => decide (d ≠ die) && !preparing s d && decide ((s.die d).st = .admitted))).foldl (fun a d =>
    if (ownEnts s a dom q).length < (ownEnts s d dom q).length then d else a)
    (((List.range 4).find? (fun d => decide (d ≠ die) && !preparing s d && decide ((s.die d).st = .admitted))).getD die)

/-- The newest stealable entry of a deque, and its place. -/
def newestEnt (s : State) (k : Nat) : Option (DqEnt × Nat) := (s.deque k).zipIdx.reverse.find? (fun p => stealable s p.1)

/-- A place on some core of a die for an entry. -/
def dieFits (s : State) (die : Nat) (e : DqEnt) : Bool :=
  (List.range 48).any (fun k => (fit s (48 * die + k) e.dom e.que e.record.kw e.record.rw).isSome)

/-- A die steals the newest entry of the longest deque of a queue on another die (STEAL). -/
def steal (s : State) (die dom q : Nat) : State :=
  let v := longestOther s die dom q
  if !dieWorks s die || v = die || !(looseEnts s die dom q).isEmpty || dqFull s 1 (dqKey die dom q) then s
  else match newestEnt s (dqKey v dom q) with
    | none => s
    | some (e, ix) =>
      if !dieFits s die e then s
      else dqPush (s.putDeque (dqKey v dom q) (dropAt (s.deque (dqKey v dom q)) ix)) (dqKey die dom q) { e with stolen := true }

def execSteal (st : State) : Host.Outcome State Fault Refusal := event (steal st (st.op 0) (st.op 1) (st.op 2))

/-! ### The end of slices, gangs and crews (R94, R374, R389) -/

/-- A slice that has ended. -/
def Slice.dead (sl : Slice) : Slice := { grp := sl.grp }

/-- No gang of the crew has a live slice. -/
def crewOver (s : State) (c : Nat) : Bool := (s.gangsOf c).all (fun p => p.2.liveSlices.isEmpty)

/-- The bit of an ended crew cleared in the reach masks of its team (R199). -/
def clearMember (s : State) (c : Nat) (w : Crew) : State :=
  let bit : DWord := (1 : DWord) <<< (w.crewid.toNat % 4)
  { s with work.gangs := s.work.gangs.map (fun p =>
      match s.crew p.2.crew with
      | none => p
      | some v =>
        if kwKind w.kw = 1 ∧ p.2.crew ≠ c ∧ v.task = w.task ∧ v.crewid.toNat / 4 = w.crewid.toNat / 4 then
          let g := p.2.r.rdSeg 2
          (p.1, { p.2 with r := p.2.r.wrSeg 2 { g with base := g.base &&& ~~~bit } })
        else p) }

/-- The crew has ended: its team no longer counts it as a member (R199); its resources stay held until its engine threads
have completed. -/
def endPlace (s : State) (c : Nat) : State :=
  match s.crew c with
  | none => s
  | some w =>
    let s := clearMember (s.modCrew c (fun w => { w with place := .ended w.core?, leaving := none })) c w
    { s with work.tasks := smModify s.work.tasks w.task (fun t =>
        { t with ended := if t.launch then t.ended ++ [w.crewid.toNat] else t.ended }) }

/-- Slices of a group end: their sluice holds are killed holders (R321), and the others of the group form it from now on;
the last gang's end ends the crew. -/
def exitSlices (s : State) (x : Cx) (m : BitVec 8) : State :=
  let s := (grpSlices m).foldl (fun s k => killSlice s x.dom x.cur.gang k) s
  let s := s.modSl x (fun k sl => if m.getLsbD k then sl.dead else { sl with grp := x.cur.grp &&& ~~~m })
  let s := dropRays s x.cur.gang
  if crewOver s x.crewNo then endPlace s x.crewNo else s

/-- Every slice of the group ends. -/
def exitGroup (s : State) (x : Cx) : State := exitSlices s x x.cur.grp

/-- The slices of the group that have no outstanding L or A instruction (R94). -/
def quietSlices (x : Cx) : BitVec 8 := sliceMask ((grpSlices x.cur.grp).filter (fun k => (x.gang.slice k).wins.isEmpty))

/-- A pending record delivered at the issuing word, and its clearing. -/
def asyncTrap (st : State) (x : Cx) (e : AErr) : Res :=
  .trap st { cause := e.cause, lanes := x.all, addr := e.addr, detail := e.info, kind := .async }

/-- The crew's BKERR delivered in place of a word's effect (R421, R458). -/
def bkFirst (st : State) (x : Cx) (body : Res) : Res :=
  match (st.ceng x.crewNo).bkt.err with
  | none => body
  | some e => asyncTrap (st.modCeng x.crewNo (fun v => { v with bkt := { v.bkt with err := none } })) x e

/-- A deferred fault found while EXIT or TDONE waited for the group's outstanding instructions comes first: the group
stops there, and the word issues again on resume (R94, R228). -/
def lateFirst (st : State) (x : Cx) (body : Res) : Res :=
  match lateOf st x.cur.gang x.cur.grp with
  | none => body
  | some e => .hold (deferTrap (st.modSl x (fun _ sl => { sl with pc := x.cur.pc, block := none })) x.cur.gang x.cur.grp e)

/-- The EXIT of a group: each slice ends once its own outstanding instructions have completed, and the others wait; records
that are pending come first where it would end the gang or the crew (R94, R458). -/
def exitBody (st : State) (x : Cx) : Res :=
  let last := x.gang.liveSlices.all (fun k => x.cur.grp.getLsbD k)
  let crewLast := last && (st.gangsOf x.crewNo).all (fun p => decide (p.1 = x.cur.gang) || p.2.liveSlices.isEmpty)
  if !noOuts x.gang x.cur.grp then
    (if quietSlices x = 0 then .block st else lateFirst st x (.ctl (exitSlices (blockGroup st x) x (quietSlices x))))
  else lateFirst st x (
  if last && x.gang.mxerr.isSome then
    asyncTrap (st.modGang x.cur.gang (fun g => { g with mxerr := none })) x (x.gang.mxerr.getD {})
  else if last && x.gang.tkerr.isSome then tkFirst st x (.ctl st)
  else if crewLast then bkFirst st x (.ctl (exitGroup st x))
  else .ctl (exitGroup st x))

def execExit (st : State) : Host.Outcome State Fault Refusal := issue .exit st exitBody

/-- A crew's waits for its queues withdrawn: the enqueues of copies stay. -/
def quitQues (s : State) (c : Nat) : State :=
  s.modCeng c (fun e => { e with qs := e.qs.map (fun p =>
    (p.1, { p.2 with pushW := p.2.pushW.filter (fun v => decide (64 ≤ v.1)), popW := [] })) })

/-- A crew's slices all end: waits are withdrawn, its sluice holders and waiters are killed, its records go (R389). -/
def endCrew (s : State) (c : Nat) : State :=
  match s.crew c with
  | none => s
  | some w =>
    let s := (s.gangsOf c).foldl (fun s p => killGangSl s w.dom p.1) s
    let die := fun (p : Nat × Gang) =>
      if p.2.crew = c then (p.1, { p.2 with slices := p.2.slices.map Slice.dead, recs := [], cur := false }) else p
    let s := { s with work.gangs := s.work.gangs.map die, coh.waits := s.coh.waits.filter (fun v => decide (v.gang / 16 ≠ c)),
                      coh.late := s.coh.late.filter (fun v => decide (v.gang / 16 ≠ c)) }
    endPlace ((s.gangsOf c).foldl (fun s p => dropRays s p.1) (quitQues s c)) c

def execTdone (st : State) : Host.Outcome State Fault Refusal :=
  issue .tdone st (fun st x =>
    if !noOuts x.gang x.cur.grp then .block st
    else lateFirst st x (tkFirst st x (bkFirst st x (.ctl (endCrew st x.crewNo)))))

/-- Engine work of a crew, and what still writes into its Pound: its resources wait for it (R374, R345). -/
def crewBusy (s : State) (c : Nat) (w : Crew) : Bool :=
  s.work.outs.any (fun p => decide (p.2.gang / 16 = c)) ||
  s.eng.copies.any (fun p => decide (p.2.c.gang / 16 = c) || p.2.ranges.any (fun r =>
    decide (w.holds? = some r.1) && decide (w.pbase ≤ r.2.2) && decide (r.2.1 < w.pbase + 1024 * rwPk w.rw))) ||
  s.eng.mx.any (fun p => decide (p.2.q.gang / 16 = c)) ||
  s.sched.spawns.any (fun p => decide (p.gang / 16 = c)) ||
  s.gfx.rays.any (fun p => decide (p.1 / 512 = c) && p.2.done.isNone) ||
  s.gfx.dicers.any (fun j => decide (j.crew = c))

/-- Causes left in a crew's barriers, as service notices that no crew waits on (R458). -/
def leftCauses (s : State) (c : Nat) (w : Crew) : State :=
  (s.ceng c).bars.foldl (fun s p =>
    if p.2.ce = 0 then s
    else addNotice s { dom := w.dom, kind := 0, rcd :=
      { w0 := recWord0 0 false false 0 0 2 1 p.2.ce.toNat, eaddr := p.2.addr, edetail := p.2.info,
        who := recWho 0 (w.holds?.getD 0) w.dom, tstop := BitVec.ofNat 64 s.time } }) s

/-- A crew counted off its task. -/
def leaveTask (s : State) (w : Crew) : State :=
  let s := { s with work.tasks := smModify s.work.tasks w.task (fun t =>
    { t with left := t.left - 1 }) }
  if (smFind s.work.tasks w.task).any (fun t => decide (t.left = 0)) && !s.sched.ending.contains w.task then
    { s with sched.ending := s.sched.ending ++ [w.task] }
  else s

/-- A crew is gone: its gangs, its engine state, its ray slots, its context slot. -/
def removeCrew (s : State) (c : Nat) (w : Crew) : State :=
  let s := { s with work.gangs := s.work.gangs.filter (fun p => decide (p.2.crew ≠ c)),
                    work.crews := smErase s.work.crews c, work.engs := smErase s.work.engs c,
                    gfx.rays := s.gfx.rays.filter (fun p => decide (p.1 / 512 ≠ c)) }
  s.modDomain w.dom (fun d => { d with set_ := { d.set_ with ctxUse := d.set_.ctxUse.filter (fun p => decide (p.2 ≠ c)) } })

/-- EVP goes where a slot has become free (R376). -/
def clearEvp (s : State) (core : Nat) : State :=
  { s with sched.slots := s.sched.slots.map (fun p =>
      if p.1 / 16 = core ∧ (slotCrew s core (p.1 % 16)).isNone then (p.1, p.2 &&& ~~~((1 : Word) <<< 17)) else p) }

/-- The end of a crew (CREW_END): once its engine threads have completed its resources are freed. -/
def crewEnd (s : State) (c : Nat) : State :=
  match s.crew c with
  | none => s
  | some w =>
    match w.place with
    | .ended k =>
      if crewBusy s c w then s
      else
        let s := leaveTask (removeCrew (leftCauses s c w) c w) w
        (match k with | some core => clearEvp s core | none => s)
    | _ => s

def execCrewEnd (st : State) : Host.Outcome State Fault Refusal := event (crewEnd st (st.op 0))

/-! ### Task completion (R374, R384) -/

/-- A store of a task's gangs is not complete. -/
def taskStores (s : State) (t : Task) : Bool :=
  s.coh.reqs.any (fun q => q.isStore && t.crews.contains (q.r.gang / 16)) ||
  s.coh.replies.any (fun p => t.crews.contains (p.r.gang / 16) &&
    (decide (p.r.wm ≠ 0) || decide (p.r.kind = .atomic) || decide (p.r.kind = .barrier)))

/-- The package-scope release of a task's completion, on each core its crews have run on. -/
def taskRelease (s : State) (t : Task) : List Nat → BgRel
  | [] => .done false
  | c :: cs =>
    match bgRelease s s.work.next (16 * t.crews.headD 0) c t.dom with
    | .wait s b => .wait s b
    | .done b =>
      match taskRelease s t cs with
      | .wait s e => .wait s (b || e)
      | .done e => .done (b || e)

/-- The effect of TSUCC on a completed task's successor object: its failure, a wait, or the state after it. A record that it
spawns, whose ARG is not mapped, goes to the die of the first core of the task's list. DESIGN CHOICE: notes/assumptions/175. -/
def taskSucc (s : State) (t : Task) : Option (Except Cause State) :=
  let core := t.cores.headD 0
  if t.succ.toNat % 32 ≠ 0 then some (.error .atomAlign)
  else match engXl s t.dom t.succ .atomic with
    | .error f => some (.error f.cause)
    | .ok pa =>
      if lineBusy s (lineOf pa) then none
      else match succStep s core pa with
        | .error c => some (.error c)
        | .ok (n, qs, ra, s') =>
          let q := fld qs.toNat 0 6
          if n ≠ 1 then some (.ok s')
          else if ra.toNat % 64 ≠ 0 then some (.ok (stopQueue s' t.dom t.que .atomAlign))
          else match engXl s' t.dom ra .read with
            | .error f => some (.ok (stopQueue s' t.dom t.que f.cause))
            | .ok rp =>
              if !(s'.queue t.dom q).enabled then some (.ok (stopQueue s' t.dom t.que .tkDomain))
              else match succPlace s' t.dom q rp ra (coreDie core) with
                | .ok s'' => some (.ok s'')
                | .error c => some (.ok (stopQueue s' t.dom t.que c))

/-- A task's record is done with; a bucket's end counts for its frame record (R393). -/
def closeTask (s : State) (k : Nat) (t : Task) : State :=
  let s := { s with work.tasks := smErase s.work.tasks k, sched.ending := s.sched.ending.erase k }
  match t.parent with
  | none => s
  | some f =>
    let s := { s with work.tasks := smModify s.work.tasks f (fun v => { v with left := v.left - 1, cores := (t.cores ++ v.cores).dedup }) }
    if (smFind s.work.tasks f).any (fun v => decide (v.left = 0)) && !s.sched.ending.contains f then
      { s with sched.ending := s.sched.ending ++ [f],
               gfx.frames := s.gfx.frames.filter (fun v => decide (v.task ≠ f)),
               gfx.buckets := s.gfx.buckets.filter (fun p => decide (p.2.id.task ≠ f)) }
    else s

/-- Completion `k` is performed: the stores are complete, the release is made, TSUCC acts on SUCC (TASK_COMPLETION). -/
def taskDone (s : State) (k : Nat) : State :=
  match smFind s.work.tasks k with
  | none => s
  | some t =>
    if !s.sched.ending.contains k || taskStores s t then s
    else match taskRelease s t t.cores with
      | .wait s _ => s
      | .done bad =>
        if t.succ = 0 then closeTask s k t
        else if bad then closeTask (stopQueue s t.dom t.que .homeFenced) k t
        else match taskSucc s t with
          | none => s
          | some (.ok s') => closeTask s' k t
          | some (.error c) => closeTask (stopQueue s t.dom t.que c) k t

def execTaskCompletion (st : State) : Host.Outcome State Fault Refusal := event (taskDone st (st.op 0))

end Sys2Proof.Machine
end

