-- ==== Sys2Proof/Machine/Rays.lean ====
section
/-! DEFINITION. The ray units (chapter 14): boxes, the leaf test and its exact fallback, the query step by step, and
RAY, RAYW and RAYS. -/

namespace Sys2Proof.Machine
open Sys2Proof

/-! ### Arithmetic of the queries -/

/-- A binary32 word's value, and a value's binary32 word. -/
def fv (w : Word) : FV := val .f32 w.toNat
def fw (v : FV) : Word := BitVec.ofNat 32 (enc .f32 v)

/-- The quotient of two finite numbers with a sticky bit below 64 significant bits: its rounding to binary32 is that of
the exact quotient. -/
def quotSticky (neg : Bool) (m : Nat) (e : Int) (m' : Nat) (e' : Int) : FV :=
  let k := 66 + Nat.log2 m'
  let q := m * 2 ^ k / m'
  .fin neg (2 * q + (if m * 2 ^ k % m' = 0 then 0 else 1)) (e - e' - k - 1)

/-- x / y, to be rounded once. -/
def FV.quot (x y : FV) : FV :=
  match x, y with
  | .nan, _ => .nan
  | _, .nan => .nan
  | .inf _, .inf _ => .nan
  | .inf n, y => .inf (n != y.isNeg)
  | .fin n _ _, .inf n' => .fin (n != n') 0 0
  | .fin n m e, .fin n' m' e' =>
    if m' = 0 then (if m = 0 then .nan else .inf (n != n')) else quotSticky (n != n') m e m' e'

/-- The lesser and the greater of two values; a NaN makes it a NaN. -/
def FV.lesser (a b : FV) : FV := if a.isNan || b.isNan then .nan else if b.lt a then b else a
def FV.greater (a b : FV) : FV := if a.isNan || b.isNan then .nan else if a.lt b then b else a

/-- a at or above b, a at or below b: false with a NaN. -/
def FV.ge (a b : FV) : Bool := b.lt a || a.eqv b
def FV.le (a b : FV) : Bool := a.lt b || a.eqv b

def fzero : FV := .fin false 0 0
def fone : FV := .fin false 1 0

/-- The sum of values rounded to binary32 by mode (0 nearest-even, 2 up, 3 down). -/
def sum32 (mode : Nat) (l : List FV) : FV := round .f32 mode (sumV mode l)

/-- FFMA(x, y, z) (R443). -/
def ffma (x y z : FV) : FV := sum32 0 [x.mul y, z]

/-- binary64 operations, each rounded to nearest-even (R444). -/
def add64 (a b : FV) : FV := round .f64 0 (sumV 0 [a, b])
def sub64 (a b : FV) : FV := add64 a b.neg
def mul64 (a b : FV) : FV := round .f64 0 (a.mul b)

/-! ### The ray (R439, Table 14-6) -/

/-- Word `k` of the ray state, and its value; -0 is read as 0 (R439). -/
def RaySlot.w (r : RaySlot) (k : Nat) : Word := r.ray.getD k 0
def RaySlot.v (r : RaySlot) (k : Nat) : FV := if (fv (r.w k)).isZero then .fin false 0 0 else fv (r.w k)
def RaySlot.o (r : RaySlot) (k : Nat) : FV := r.v k
def RaySlot.d (r : RaySlot) (k : Nat) : FV := r.v (3 + k)
def RaySlot.tmin (r : RaySlot) : FV := r.v 6
def RaySlot.bud (r : RaySlot) : Nat := if fld (r.w 10).toNat 16 16 = 0 then 4096 else fld (r.w 10).toNat 16 16

/-- A descriptor field. -/
def RaySlot.ds (r : RaySlot) (k : Nat) : Word := r.desc.getD k 0

/-- An invalid ray. -/
def RaySlot.invalid (r : RaySlot) : Bool :=
  (List.range 10).any (fun k => (r.v k).isNan) || (List.range 3).all (fun k => (r.d k).isZero) ||
    (r.v 7).lt (r.v 6) || (r.v 6).lt fzero || (r.v 8).lt fzero || (r.v 9).lt fzero

/-- The cone width W0 + WS t, exact, and rounded down. -/
def RaySlot.width (r : RaySlot) (t : FV) : FV := sumV 3 [r.v 8, (r.v 9).mul t]
def RaySlot.wdn (r : RaySlot) (t : FV) : FV := round .f32 3 (r.width t)

/-! ### Boxes (R436, R440) -/

/-- Byte `k` of a record's words. -/
def recByte (ws : List Word) (k : Nat) : Nat := fld (ws.getD (k / 4) 0).toNat (8 * (k % 4)) 8

/-- Child `c`'s bounds on axis `k`; none where QLO exceeds QHI. -/
def childAxis (ws : List Word) (c k : Nat) : Option (FV × FV) :=
  let lo := recByte ws (16 + 6 * c + k)
  let hi := recByte ws (19 + 6 * c + k)
  let e : Int := (recByte ws (12 + k) : Int) - 127
  let o := fv (ws.getD k 0)
  if hi < lo then none
  else some (sum32 3 [o, .fin false lo e], sum32 2 [o, .fin false (hi + 1) e])

/-- One axis of BoxHit: the interval narrowed, or a miss. -/
def boxAxis (r : RaySlot) (k : Nat) (b : FV × FV) (t : FV × FV) : Option (FV × FV) :=
  if (r.d k).isZero then (if (r.o k).lt b.1 || b.2.lt (r.o k) then none else some t)
  else
    let q := fun (mode : Nat) (x : FV) => round .f32 mode ((sumV 0 [x, (r.o k).neg]).quot (r.d k))
    some (t.1.greater ((q 3 b.1).lesser (q 3 b.2)), t.2.lesser ((q 2 b.1).greater (q 2 b.2)))

/-- BoxHit of child `c` of a node. DEDUCED: notes/assumptions/94. -/
def boxHit (r : RaySlot) (ws : List Word) (c : Nat) (t1 : FV) : Option FV :=
  let r3 := (List.range 3).foldl (fun (acc : Option (FV × FV)) k =>
    match acc, childAxis ws c k with
    | some t, some b => boxAxis r k b t
    | _, _ => none) (some (r.tmin, t1))
  match r3 with
  | some (a, b) => if a.le b then some a else none
  | none => none

/-! ### The leaf test (R443, R444) -/

/-- A point's three values. -/
abbrev Vec := FV × FV × FV

/-- EdgeF(p, q) (R444). -/
def edgeF (r : RaySlot) (p q : Vec) : FV :=
  let a : Vec := (sub64 p.1 (r.o 0), sub64 p.2.1 (r.o 1), sub64 p.2.2 (r.o 2))
  let b : Vec := (sub64 q.1 (r.o 0), sub64 q.2.1 (r.o 1), sub64 q.2.2 (r.o 2))
  let cx := sub64 (mul64 a.2.1 b.2.2) (mul64 a.2.2 b.2.1)
  let cy := sub64 (mul64 a.2.2 b.1) (mul64 a.1 b.2.2)
  let cz := sub64 (mul64 a.1 b.2.1) (mul64 a.2.1 b.1)
  add64 (add64 (mul64 (r.d 0) cx) (mul64 (r.d 1) cy)) (mul64 (r.d 2) cz)

/-- A corner: its vertex index and its three words. -/
structure Corner where
  ix : Nat
  x : Word
  y : Word
  z : Word

def Corner.key (c : Corner) : Nat := c.x.toNat * 2 ^ 64 + c.y.toNat * 2 ^ 32 + c.z.toNat
def Corner.vec (c : Corner) : Vec := (fv c.x, fv c.y, fv c.z)

/-- The sign of an edge: true for + (R444). -/
def edgeSign (r : RaySlot) (p q : Corner) : Bool :=
  if p.key < q.key ∨ (p.key = q.key ∧ p.ix < q.ix) then (edgeF r p.vec q.vec).ge fzero
  else fzero.lt (edgeF r q.vec p.vec).neg

/-- Exact: coverage from the corners alone. -/
def exactCovers (r : RaySlot) (a b c : Corner) : Bool :=
  (edgeSign r a b == edgeSign r b c) && (edgeSign r b c == edgeSign r c a)

/-- Sat(x, 0, hi). -/
def satF (x hi : FV) : FV := if x.lt fzero || x.isZero then fzero else if hi.lt x then hi else x

/-- What the fast test comes to: a miss; a hit that the fast test decides; one that the fallback must decide. -/
inductive Fast where
  | miss
  | hit (t b1 b2 : FV) (back : Bool)
  | edge (t b1 b2 : FV) (back : Bool)

/-- The fast affine test of a triangle record, against tcur and whether a hit has been found (R443). -/
def fastTest (r : RaySlot) (m : List Word) : Fast :=
  let mm := fun (i j : Nat) => fv (m.getD (4 * i + j) 0)
  let pt := fun i => ffma (mm i 2) (r.o 2) (ffma (mm i 1) (r.o 1) (ffma (mm i 0) (r.o 0) (mm i 3)))
  let dr := fun i => ffma (mm i 2) (r.d 2) (ffma (mm i 1) (r.d 1) (round .f32 0 ((mm i 0).mul (r.d 0))))
  if (dr 2).isZero || (List.range 3).any (fun i => (pt i).isNan || (dr i).isNan) then .miss
  else
    let t := round .f32 0 ((pt 2).neg.quot (dr 2))
    let tc := fv r.tcur
    if t.lt r.tmin || (if r.best.isSome then t.ge tc else tc.lt t) then .miss
    else
      let back := fzero.lt (dr 2)
      if (r.w 10).getLsbD 2 && back then .miss
      else
        let b1 := ffma t (dr 0) (pt 0)
        let b2 := ffma t (dr 1) (pt 1)
        let b0 := sum32 0 [sum32 0 [fone, b1.neg], b2.neg]
        let s1 := satF b1 fone
        let s2 := satF b2 (sum32 0 [fone, s1.neg])
        if ((b0.abs.lesser b1.abs).lesser b2.abs).le (.fin false 1 (-20)) then .edge t s1 s2 back
        else if fzero.lt b0 && fzero.lt b1 && fzero.lt b2 then .hit t s1 s2 back
        else .miss

/-! ### Reads of a query (R434, R447) -/

/-- What a read comes to: the words, all read before; the word at an address, read now (own words pushed, translations
filled), with which the thread goes on another time; not possible yet, its request sent; a failure. -/
inductive RdRes where
  | ok (s : State) (ws : List Word)
  | more (s : State) (va : DWord) (w : Word)
  | wait (s : State)
  | bad (e : AErr)

/-- One word at a virtual address, for a thread of gang `g` on core `c` that has read `got`: each word is read at its point
of coherence by itself, so that writes may come between two of them (R447). -/
def rayWord (s : State) (c dom g num : Nat) (got : List (DWord × Word)) (va : DWord) : RdRes :=
  match got.find? (fun p => decide (p.1 = va)) with
  | some p => .ok s [p.2]
  | none =>
  match checkVa s c dom va 0 .read 1 with
  | .error f => .bad { cause := f.cause, info := f.detail, addr := va }
  | .ok pa =>
    let l := lineOf pa
    match threadFail s num l with
    | some k => .bad { cause := k, info := threadInfo s num l k, addr := va }
    | none =>
      if !(unsent s num c [l]).isEmpty then .wait (sendPkts s num c [l])
      else if !engineReady s num g c l || (pktOf s num l).any (fun p => p.lost) then .wait s
      else
        let po := (threadPo s num l).getLsbD (wordIx pa)
        let s := enginePush (fillTlb (dropPkts s num [l]) c dom va.toNat) c l
        if (readWord s pa).2 || po then .bad { cause := .poisonRd, addr := va } else .more s va (readWord s pa).1

/-- Words at rising virtual addresses. -/
def rayWords (s : State) (c dom g num : Nat) (got : List (DWord × Word)) : List DWord → RdRes
  | [] => .ok s []
  | a :: as =>
    match rayWord s c dom g num got a with
    | .ok s ws =>
      (match rayWords s c dom g num got as with
       | .ok s vs => .ok s (ws ++ vs)
       | r => r)
    | r => r

/-- `n` words from a virtual address. -/
def raySpan (s : State) (c dom g num : Nat) (got : List (DWord × Word)) (va : DWord) (n : Nat) : RdRes :=
  rayWords s c dom g num got ((List.range n).map (fun k => va + BitVec.ofNat 64 (4 * k)))

/-! ### Steps of a query (R438, R440, R441) -/

/-- A reference's type and index. -/
def refTy (w : Word) : Nat := fld w.toNat 30 2
def refIx (w : Word) : Nat := fld w.toNat 0 30

/-- What makes a reference fail (R438). -/
def refBad (r : RaySlot) (w : Word) : Option Cause :=
  if refTy w = 3 then some .ryNode
  else if refTy w = 1 ∧ (r.ds 2).toNat ≤ refIx w then some .ryNode
  else if refTy w = 2 ∧ (r.ds 6).toNat ≤ refIx w then some .ryCluster
  else none

/-- EPMAX of child `c`, widened. -/
def epMax (ws : List Word) (c : Nat) : FV := val .f16 (fld (ws.getD (14 + c / 2) 0).toNat (16 * (c % 2)) 16)

/-- CREF of child `c`. -/
def cref (ws : List Word) (c : Nat) : Word := ws.getD (10 + c) 0

/-- What makes a node fail. DEDUCED: notes/assumptions/95. -/
def nodeBad (r : RaySlot) (ws : List Word) : Option Cause :=
  if (List.range 3).any (fun k => decide (recByte ws (12 + k) = 255)) || decide (recByte ws 15 ≠ 0) ||
      (List.range 4).any (fun c => (epMax ws c).isNan) then some .ryNode
  else (List.range 4).findSome? (fun c => refBad r (cref ws c))

/-- A child listed into those nearer first; among equals the lower child first. -/
def listChild (x : Word × FV) : List (Word × FV) → List (Word × FV)
  | [] => [x]
  | y :: ys => if x.2.lt y.2 then x :: y :: ys else y :: listChild x ys

/-- The children of a node that are hit and not culled, nearest first. -/
def nodeChildren (r : RaySlot) (ws : List Word) : List (Word × FV) :=
  (List.range 4).foldl (fun l c =>
    if refTy (cref ws c) = 0 then l
    else match boxHit r ws c (fv r.tcur) with
      | none => l
      | some th => if (r.wdn th).ge (epMax ws c) then l else listChild (cref ws c, th) l) []

/-- A visit to an inner node. -/
def visitNode (r : RaySlot) (slot : Nat) (ws : List Word) : RaySlot :=
  let bad := fun c => { r with done := some (.fail { cause := c, info := BitVec.ofNat 32 slot }) }
  match nodeBad r ws with
  | some c => bad c
  | none =>
    let l := (nodeChildren r ws).map (fun p => (p.1, fw p.2))
    if 32 < (l ++ r.stack).length then bad .ryNode else { r with stack := l ++ r.stack }

/-- Offsets of a cluster header. -/
def hdrToff (ws : List Word) : Nat := (ws.getD 5 0 ++ ws.getD 4 0).toNat
def hdrVoff (ws : List Word) : Nat := (ws.getD 7 0 ++ ws.getD 6 0).toNat

/-- What makes a cluster header fail. -/
def clusterBad (r : RaySlot) (ws : List Word) : Option Cause :=
  let nt := recByte ws 4
  let nv := recByte ws 5
  let trb := (r.ds 11 ++ r.ds 10).toNat
  let el := fv (ws.getD 2 0)
  let ep := fv (ws.getD 3 0)
  if trb < hdrToff ws + 64 * nt || trb < hdrVoff ws + 12 * nv then some .ryCluster
  else if nt = 0 || 128 < nt || nv < 3 || recByte ws 7 ≠ 0 || !((ws.drop 8).all (fun w => decide (w = 0))) ||
      hdrToff ws % 64 ≠ 0 || hdrVoff ws % 4 ≠ 0 || el.isNan || ep.isNan || el.lt fzero || ep.lt el then some .ryLeafBad
  else none

/-- An accepted hit kept: its distance becomes tcur (R441). -/
def keepHit (r : RaySlot) (h : List Word) (k : Nat) (t b1 b2 : FV) (back : Bool) : RaySlot :=
  if (fv (h.getD 2 0)).le (r.width t) && (r.width t).lt (fv (h.getD 3 0)) then
    { r with tcur := fw t,
             best := some { t := fw t, b1 := fw b1, b2 := fw b2, back := back, tri := k, lvl := recByte h 6, cid := h.getD 0 0 } }
  else r

/-- What a leaf test over the triangles has come to. -/
inductive LeafRes where
  | ok (s : State) (r : RaySlot)
  | more (s : State) (va : DWord) (w : Word)
  | wait (s : State)
  | bad (e : AErr)

/-- The vertex address of index `n` of a cluster. -/
def vertVa (r : RaySlot) (h : List Word) (n : Nat) : DWord := (r.ds 9 ++ r.ds 8) + BitVec.ofNat 64 (hdrVoff h + 12 * n)

/-- One triangle: read, checked, tested; its corners are read only where the fallback decides. -/
def leafOne (s : State) (r : RaySlot) (c dom g slot : Nat) (h : List Word) (k : Nat) : LeafRes :=
  match raySpan s c dom g r.num r.got ((r.ds 9 ++ r.ds 8) + BitVec.ofNat 64 (hdrToff h + 64 * k)) 16 with
  | .wait s => .wait s
  | .more s va w => .more s va w
  | .bad e => .bad e
  | .ok s m =>
    let v := fun j => recByte m (48 + j)
    if (List.range 3).any (fun j => decide (recByte h 5 ≤ v j)) || !((List.range 13).all (fun j => decide (recByte m (51 + j) = 0))) then
      .bad { cause := .ryLeafBad, info := BitVec.ofNat 32 slot }
    else match fastTest r m with
      | .miss => .ok s r
      | .hit t b1 b2 back => .ok s (keepHit r h k t b1 b2 back)
      | .edge t b1 b2 back =>
        match rayWords s c dom g r.num r.got ((List.range 9).map (fun i => vertVa r h (v (i / 3)) + BitVec.ofNat 64 (4 * (i % 3)))) with
        | .wait s => .wait s
        | .more s va w => .more s va w
        | .bad e => .bad e
        | .ok s q =>
          let cn := fun j => ({ ix := v j, x := q.getD (3 * j) 0, y := q.getD (3 * j + 1) 0, z := q.getD (3 * j + 2) 0 } : Corner)
          .ok s (if exactCovers r (cn 0) (cn 1) (cn 2) then keepHit r h k t b1 b2 back else r)

/-- The triangles of a cluster from `k`, `n` of them. -/
def leafAll (s : State) (r : RaySlot) (c dom g slot : Nat) (h : List Word) : Nat → Nat → LeafRes
  | _, 0 => .ok s r
  | k, n + 1 =>
    match leafOne s r c dom g slot h k with
    | .ok s r => leafAll s r c dom g slot h (k + 1) n
    | e => e

/-- The slot written back. -/
def putRay (s : State) (key : Nat) (r : RaySlot) : State := { s with gfx.rays := smSet s.gfx.rays key r }

/-- A query fails. -/
def failRay (s : State) (key : Nat) (r : RaySlot) (e : AErr) : State := putRay s key { r with got := [], done := some (.fail e) }

/-- A word read by the visit under way. -/
def readRay (s : State) (key : Nat) (r : RaySlot) (va : DWord) (w : Word) : State := putRay s key { r with got := (va, w) :: r.got }

/-- The visit of reference `ref`: one more of its words is read; once it has all it needs, the step of the query is made. -/
def rayVisit (s : State) (key : Nat) (r : RaySlot) (core dom : Nat) (ref : Word) : State :=
  let g := key / 32
  let slot := key % 32
  let base := if refTy ref = 1 then r.ds 1 ++ r.ds 0 else r.ds 5 ++ r.ds 4
  match raySpan s core dom g r.num r.got (base + BitVec.ofNat 64 (64 * refIx ref)) 16 with
  | .wait s => s
  | .more s va w => readRay s key r va w
  | .bad e => failRay s key r e
  | .ok s' ws =>
    let r0 := r
    let r := { r with stack := r.stack.drop 1, steps := r.steps + 1 }
    if refTy ref = 1 then putRay s' key { visitNode r slot ws with got := [] }
    else match clusterBad r ws with
      | some c => failRay s' key r { cause := c, info := BitVec.ofNat 32 slot }
      | none =>
        match leafAll s' r core dom g slot ws 0 (recByte ws 4) with
        | .wait s => s
        | .more s va w => readRay s key r0 va w
        | .bad e => failRay s' key r e
        | .ok s'' r =>
          putRay s'' key (if r.best.isSome && (r.w 10).getLsbD 1 then { r with got := [], done := some (.fin 1) } else { r with got := [] })

/-- The start of a query: an invalid ray misses; a root reference is checked and pushed. -/
def rayBegin (r : RaySlot) (slot : Nat) : RaySlot :=
  if r.invalid then { r with begun := true, done := some (.fin 0) }
  else match refBad r (r.ds 3) with
    | some c => { r with begun := true, done := some (.fail { cause := c, info := BitVec.ofNat 32 slot }) }
    | none => { r with begun := true, tcur := fw (r.v 7), stack := [(r.ds 3, fw r.tmin)] }

/-- Query `key` goes on by one turn of its loop (R440). -/
def rayTurn (s : State) (key : Nat) (r : RaySlot) (core dom : Nat) : State :=
  if !r.begun then putRay s key (rayBegin r (key % 32))
  else match r.stack with
    | [] => putRay s key { r with done := some (.fin (if r.best.isSome then 1 else 0)) }
    | (ref, tn) :: rest =>
      if (if r.best.isSome then (fv tn).ge (fv r.tcur) else (fv r.tcur).lt (fv tn)) then putRay s key { r with stack := rest }
      else if r.steps = r.bud then
        (if (r.w 10).getLsbD 0 then failRay s key r { cause := .ryBudget, info := BitVec.ofNat 32 (key % 32) }
         else putRay s key { r with done := some (.fin 2) })
      else rayVisit s key r core dom ref

/-- The core on which a gang's ray unit serves it: that of its resident or ended crew, and whether the crew is leaving. -/
def gangCore (s : State) (g : Nat) : Option (Nat × Nat × Bool) :=
  match (s.gang g).bind (fun v => s.crew v.crew) with
  | none => none
  | some w =>
    match w.place with
    | .on k => some (k, w.dom, w.leaving.isSome)
    | .ended k => k.map (fun k => (k, w.dom, false))
    | _ => none

/-- QUERY (R440): the query of a crew that leaves its core stops between two steps (R448); that of a gang that has ended frees
its slot when it is done (R432). -/
def execQuery (st : State) : Host.Outcome State Fault Refusal :=
  event (match smFind st.gfx.rays (st.op 0), gangCore st (st.op 0 / 32) with
    | some r, some (core, dom, leaving) =>
      if r.done.isSome || (leaving && r.got.isEmpty) then st
      else dropRays (rayTurn st (st.op 0) r core dom) (st.op 0 / 32)
    | _, _ => st)

/-! ### RAY, RAYW, RAYS (R449 to R452) -/

/-- The slot of lane `i` under a slot base, as a key. -/
def rayKey (x : Cx) (base : Word) (i : Nat) : Nat := 32 * x.cur.gang + (base.toNat + i) % 32

/-- RY_SLOT for lanes. -/
def rySlot (x : Cx) (lanes : Word) (base : Word) : TrapReq :=
  { cause := .rySlot, lanes := lanes,
    detail := if lanes = x.all then base else BitVec.ofNat 32 ((base.toNat + ((List.range 32).find? (fun i => lanes.getLsbD i)).getD 0) % 32) }

def execRay (c : Bool) (a b : Fin 64) (st : State) : Host.Outcome State Fault Refusal :=
  issue (.ray c a b) st (fun st x =>
    let base := x.s b.val
    match x.gang.struct with
    | none => .trap st { cause := .rySlot, lanes := x.all, detail := base }
    | some ds =>
      if 32 ≤ base.toNat then .trap st { cause := .rySlot, lanes := x.all, detail := base }
      else
        let busy := x.lanes.filter (fun i => (smFind st.gfx.rays (rayKey x base i)).isSome)
        if !busy.isEmpty then .trap st (rySlot x (lanesOf busy) base)
        else
          let put := fun (m : List (Nat × RaySlot)) i =>
            let ws := (List.range 11).map (fun k => x.v (a.val + k) i)
            smSet m (rayKey x base i) { num := st.work.next, ray := ws, desc := ds }
          .done { st with work.next := st.work.next + 1, gfx.rays := x.lanes.foldl put st.gfx.rays })

/-- The six result words of a finished query (R446). -/
def rayResult (r : RaySlot) (stc : Nat) : List Word :=
  let n := fun k => BitVec.ofNat 32 k
  match r.best with
  | some h =>
    [n (r.steps * 2 ^ 16 + 32 + (if h.back then 16 else 0) + stc), h.t, h.b1, h.b2, n (h.lvl * 256 + h.tri), h.cid]
  | none => [n (r.steps * 2 ^ 16 + stc), 0x7F800000, 0, 0, 0, 0xFFFFFFFF]

/-- The lanes of RAYW whose query failed, with the failure. DEDUCED: notes/assumptions/96. -/
def rayFails (st : State) (x : Cx) (base : Word) : List (Nat × AErr) :=
  x.lanes.filterMap (fun i =>
    match (smFind st.gfx.rays (rayKey x base i)).bind (fun r => r.done) with
    | some (.fail e) => some (i, e)
    | _ => none)

/-- The register writes of RAYW for the lanes that finished with a result. -/
def rayWrites (st : State) (x : Cx) (d : Nat) (base : Word) : List (Nat × Word) :=
  x.lanes.flatMap (fun i =>
    match smFind st.gfx.rays (rayKey x base i) with
    | none => []
    | some r =>
      match r.done with
      | some (.fin k) => (rayResult r k).zipIdx.map (fun p => (vkey (d + p.2) i, p.1))
      | _ => [])

/-- The slots of lanes made FREE. -/
def freeRays (st : State) (x : Cx) (base : Word) (ls : List Nat) : State :=
  { st with gfx.rays := ls.foldl (fun m i => smErase m (rayKey x base i)) st.gfx.rays }

/-- RAYW once every slot is DONE (R452). -/
def raywCollect (st : State) (x : Cx) (d : Nat) (base : Word) : Res :=
  let fs := rayFails st x base
  let good := x.lanes.filter (fun i => !fs.any (fun p => decide (p.1 = i)))
  let st' := (freeRays st x base good).modRegs x (fun r => r.putV (rayWrites st x d base))
  match fs with
  | [] => .done st'
  | (_, e) :: _ =>
    let mine := (fs.filter (fun p => decide (p.2.cause = e.cause))).map (fun p => p.1)
    .trap (freeRays st' x base mine) { cause := e.cause, lanes := lanesOf mine, addr := e.addr, detail := e.info, kind := .async }

def execRayw (c : Bool) (d a : Fin 64) (l : Fin 16) (st : State) : Host.Outcome State Fault Refusal :=
  issue (.rayw c d a l) st (fun st x =>
    let base := x.s a.val
    if 32 ≤ base.toNat then .trap st { cause := .rySlot, lanes := x.all, detail := base }
    else
      let free := x.lanes.filter (fun i => (smFind st.gfx.rays (rayKey x base i)).isNone)
      if !free.isEmpty then .trap st (rySlot x (lanesOf free) base)
      else if x.lanes.any (fun i => (smFind st.gfx.rays (rayKey x base i)).any (fun r => r.done.isNone)) then .hold st
      else raywCollect st x d.val base)

/-- RAYS whose words were all served at once. -/
def raysNow (st : State) (x : Cx) (d : Nat) (vs : List (Nat × Word)) (e : Option Err) : Res :=
  match e with
  | some e => .done (addLate st x.cur.gang x.cur.pc { e with lanes := x.all })
  | none =>
    if structOk (structWords vs) then .done (putStruct st x.cur.gang x.hnd d (structWords vs))
    else .done (addLate st x.cur.gang x.cur.pc { cause := .ryNode, lanes := x.all })

def execRays (c : Bool) (d a : Fin 64) (l : Fin 16) (st : State) : Host.Outcome State Fault Refusal :=
  issue (.rays c d a l) st (fun st x =>
    let va := x.s2 a.val
    let base := (segOf st x.dom x.hnd x.src.r 0).base
    if va.toNat % 64 ≠ 0 then .trap st { cause := .atomAlign, lanes := x.all, addr := va }
    else match checkAddr st x 0 0 va 64 .read 1 with
      | .error f => .trap st (onceFail x base va f)
      | .ok pa =>
        let st := fillTlb st x.core x.dom (base + va).toNat
        let as := (List.range 16).map (fun k => ({ pa := pa + 4 * k, va := base + va, dst := 64 + k } : Acc))
        loadLines st x 1 l.val .ray [d.val] as (raysNow st x d.val))

end Sys2Proof.Machine
end

