-- ==== Sys2Proof/Machine/Context.lean ====
section
/-! DEFINITION. The context image of a crew (Tables 15-4, 15-5, 15-7, 15-8): its words, written from the crew's state,
and the crew's state loaded from them (R473, R474). Where a table names a field without its bits, the bits here are the
model's own choice. -/

namespace Sys2Proof.Machine
open Sys2Proof

/-- A word of an image: its value and whether it is marked poisoned. -/
abbrev ImgWord := Word × Bool

/-- A value from words, lowest first. -/
def natOfWords (ws : List Word) : Nat := ws.foldr (fun w a => w.toNat + 2 ^ 32 * a) 0

/-- `n` words of a list from `k`. -/
def cut (ws : List Word) (k n : Nat) : List Word := (List.range n).map (fun i => ws.getD (k + i) 0)

/-- Field `lo`, `n` bits, of word `k`. -/
def wfld (ws : List Word) (k lo n : Nat) : Nat := fld (ws.getD k 0).toNat lo n
def wbit (ws : List Word) (k b : Nat) : Bool := (ws.getD k 0).getLsbD b

/-- A value kept where the image holds what it is written as; else the value the image decodes to. -/
def keepIf {α : Type} (enc : α → List Word) (img : List Word) (cur : α) (dec : α) : α := if enc cur = img then cur else dec

/-! ### Trap records and slices -/

/-- A trap record from its sixteen words. -/
def recOfWords (ws : List Word) : TrapRec :=
  let w := fun k => ws.getD k 0
  { w0 := w 0 &&& 0xFFFFFC7F, epc := w 1, erpc := w 2, emask := w 3, eaddr := w 5 ++ w 4, edetail := w 6, ex := w 7, who := w 8 &&& 0x000FFF07,
    tstop := w 10 ++ w 9 }

/-- Four loop entries from the bottom of a stack whose top comes first. -/
def encLoops (l : List LoopEntry) : List Word :=
  padTo 12 (l.reverse.flatMap (fun e => [e.start, e.stop, e.count]))

/-- A loop stack of depth `n`, top first. -/
def decLoops (ws : List Word) (n : Nat) : List LoopEntry :=
  ((List.range (min n 4)).map (fun k => { start := ws.getD (3 * k) 0, stop := ws.getD (3 * k + 1) 0, count := ws.getD (3 * k + 2) 0 })).reverse

/-- A slice entry's 32 words (Table 15-7). A slice that has ended has an empty group mask. -/
def encSlice (sl : Slice) : List Word :=
  let grp := if sl.live then sl.grp.toNat else 0
  let rep := (sl.rep.map (fun r => r.word)).getD ((sl.asideRep.map (fun r => r.word)).getD 0)
  let w1 := sl.x.toNat + grp * 2 ^ 8 + min sl.age 32767 * 2 ^ 16 + bitN sl.boost * 2 ^ 31
  let w2 := match sl.join with | some j => j.toNat + 2 ^ 16 | none => 0
  let w3 := sl.loops.length + ((sl.rep.map (fun r => 128 + r.j % 64)).getD 0) * 2 ^ 8 +
    (bitN sl.stopped + 2 * bitN sl.frozen + 4 * bitN sl.hnd) * 2 ^ 16
  [sl.nextPc, nw w1, nw w2, nw w3, rep] ++ encLoops sl.loops ++ encLoops sl.asideLoops ++ padTo 3 [nw sl.asideLoops.length]

/-- A slice from its entry. The words of a chain that a waiting slice has in effect stay with it. -/
def decSlice (ws : List Word) (cur : Slice) : Slice :=
  let grp := wfld ws 1 8 8
  let pc := ws.getD 0 0
  let hnd := wbit ws 3 18
  let rep := if wbit ws 3 15 then some ({ j := wfld ws 3 8 6, word := ws.getD 4 0 } : Rep) else none
  let dec : Slice :=
    { live := decide (grp ≠ 0), pc := pc, x := BitVec.ofNat 4 (wfld ws 1 0 4), grp := BitVec.ofNat 8 grp, age := wfld ws 1 16 15,
      boost := wbit ws 1 31, join := if wbit ws 2 16 then some (BitVec.ofNat 16 (wfld ws 2 0 16)) else none,
      loops := decLoops (cut ws 5 12) (wfld ws 3 0 8), rep := rep, stopped := wbit ws 3 16, frozen := wbit ws 3 17, hnd := hnd,
      asideLoops := decLoops (cut ws 17 12) (wfld ws 29 0 8),
      asideRep := if hnd && rep.isNone && decide (ws.getD 4 0 ≠ 0) then some { j := 0, word := ws.getD 4 0 } else none,
      hold := cur.hold, block := if wbit ws 2 16 then some { pc := pc, first := pc, last := pc, wait := true } else none }
  keepIf encSlice ws cur dec

/-- A hold stack: two levels of four keys and a mask, the first level first. -/
def encHold (l : List Hold) : List Word := padTo 10 (l.flatMap (fun h => padTo 4 h.keys ++ [nw h.lanes.toNat]))
def decHold (ws : List Word) : List Hold :=
  ((List.range 2).map (fun k => ({ keys := cut ws (5 * k) 4, lanes := BitVec.ofNat 4 (wfld ws (5 * k + 4) 0 4) } : Hold))).filter
    (fun h => decide (h.lanes ≠ 0))

/-- A pending failure from its two words, or from one. -/
def decErr2 (ws : List Word) : Option AErr :=
  if wbit ws 0 31 then (causeOf (wfld ws 0 0 7)).map (fun c => { cause := c, info := ws.getD 1 0 }) else none
def decErr1 (ws : List Word) : Option AErr :=
  if wbit ws 0 31 then (causeOf (wfld ws 0 0 7)).map (fun c => { cause := c, info := nw (wfld ws 0 8 16) }) else none

/-- The follow-on latch: armed, failed. Its copies have completed before a save (R360). -/
def encLatch (l : Latch) : List Word := [nw (bitN l.armed + 2 * bitN l.failed)]
def decLatch (ws : List Word) : Latch := { armed := wbit ws 0 0, failed := wbit ws 0 1 }

/-! ### The gang record (Table 15-7) -/

/-- The mask byte of lane `i`: bit k for mk, bit 0 written as 1. -/
def maskByte (r : Regs) (i : Nat) : Nat :=
  1 + ((List.range 8).map (fun k => if k ≠ 0 ∧ (r.rdM k).getLsbD i then 2 ^ k else 0)).sum

/-- A mask register from the lanes' mask bytes. -/
def maskOfBytes (ws : List Word) (k : Nat) : Word :=
  lanesOf ((List.range 32).filter (fun i => decide (k ≠ 0) && wbit ws (i / 4) (8 * (i % 4) + k)))

/-- Some slice of the gang is in handler mode. -/
def Gang.inHandler (g : Gang) : Bool := g.slices.any (fun sl => sl.hnd)

/-- The 768 words of a gang record. DESIGN CHOICE: notes/assumptions/105. -/
def encGang (g : Gang) : List Word :=
  let r := g.r
  let n := List.range
  (n 64).map (fun k => smGet 0 r.s k) ++ (n 8).map (fun k => smGet 0 r.bank (56 + k)) ++
  (n 8).flatMap (fun k => wordsOfNat (r.rdSeg k).base.toNat 2 ++ wordsOfNat (r.rdSeg k).limit.toNat 2) ++
  (n 8).flatMap (fun k => padTo 32 (if k < g.slices.length then encSlice (g.slice k) else [])) ++
  (n 8).map (fun j => nw ((n 4).foldl (fun a b => a + maskByte r (4 * j + b) * 2 ^ (8 * b)) 0)) ++
  (n 32).map (fun i => smGet 0 r.gen i) ++
  (n 8).flatMap (fun k => encHold (g.slice k).hold) ++ padTo 16 (g.struct.getD []) ++
  padTo 16 ([nw (bitN g.prv + 2 * bitN g.inHandler), nw (bitN g.ss + 2 * bitN g.sa), r.rnd, nw (bitN g.struct.isSome)] ++
    encErr2 g.mxerr ++ encErr1 g.tkerr) ++
  padTo 128 ((g.recs.take 8).flatMap TrapRec.words) ++ padTo 64 (encLatch g.latch) ++ padTo 64 []

/-- A gang loaded from its record. -/
def decGang (ws : List Word) (g : Gang) : Gang :=
  let n := List.range
  let sc := (n 64).map (fun k => (k, ws.getD k 0))
  let bank := (n 8).map (fun k => (56 + k, ws.getD (64 + k) 0))
  let seg := fun k => ({ base := BitVec.ofNat 64 (natOfWords (cut ws (72 + 4 * k) 2)),
                         limit := BitVec.ofNat 64 (natOfWords (cut ws (74 + 4 * k) 2)) } : Seg)
  let st := cut ws 496 16
  let sls := (n g.slices.length).map (fun k =>
    { decSlice (cut ws (104 + 32 * k) 32) (g.slice k) with hold := decHold (cut ws (400 + 10 * k) 10) })
  let recs := ((n 8).map (fun k => recOfWords (cut ws (512 + 16 * k) 16))).filter (fun r => decide (r.grp ≠ 0))
  let regs : Regs :=
    { v := g.r.v, s := smPuts 0 [] sc, bank := smPuts 0 [] bank,
      m := smPuts 0 [] ((n 8).map (fun k => (k, maskOfBytes (cut ws 360 8) k))),
      gen := smPuts 0 [] ((n 32).map (fun i => (i, ws.getD (368 + i) 0))),
      seg := (n 8).foldl (fun m k => smPut {} m k (seg k)) [], rnd := st.getD 2 0 }
  { g with r := regs, slices := sls, prv := wbit st 0 0, ss := wbit st 1 0, sa := wbit st 1 1, recs := recs,
           cur := sls.any (fun sl => sl.hnd) && !recs.isEmpty, struct := if wbit st 3 0 then some (cut ws 480 16) else none,
           mxerr := keepIf encErr2 (cut st 4 2) g.mxerr (decErr2 (cut st 4 2)),
           tkerr := keepIf encErr1 (cut st 6 1) g.tkerr (decErr1 (cut st 6 1)),
           latch := keepIf encLatch (cut ws 640 1) g.latch (decLatch (cut ws 640 1)) }

/-! ### The crew record (Table 15-8) -/

/-- A barrier register from its words. -/
def decBar (ws : List Word) (cur : Barrier) : Barrier :=
  let v := natOfWords (cut ws 0 3)
  let bit := fun k => decide (fld v k 1 = 1)
  keepIf encBar ws cur
    { i := bit 95, p := bit 94, t := bit 93, bc := bit 92, xa := bit 91, td := bit 90, txb := fld v 66 24, dp := fld v 54 12,
      ce := BitVec.ofNat 7 (fld v 47 7), arr := fld v 20 12, exp := fld v 8 12, ph := BitVec.ofNat 8 (fld v 0 8) }

/-- A queue's 128 words: state (Table 10-1), allowances, lent list, which entries a CPE made. -/
def encQue (q : PQueue) : List Word :=
  wordsOfNat (q.lent.length * 2 ^ 62 + q.cnt * 2 ^ 69 + q.hd * 2 ^ 82 + q.cap * 2 ^ 94 + q.rb * 2 ^ 106 + q.own * 2 ^ 123 +
    bitN q.i * 2 ^ 127) 4 ++
  (List.range 64).map (fun p => nw (q.allowance p)) ++
  (List.range 16).map (fun k => nw ((List.range 4).foldl (fun a b => a + q.lent.getD (4 * k + b) 0 * 2 ^ (8 * b)) 0)) ++
  (List.range 44).map (fun k => nw ((List.range 32).foldl (fun a b => a + bitN (q.byCpe.getD (32 * k + b) false) * 2 ^ b) 0))

/-- A queue from its words, which have room for the makers of 1,408 entries: of later ones the controller keeps what it has.
DESIGN CHOICE: notes/assumptions/105. -/
def decQue (ws : List Word) (cur : PQueue) : PQueue :=
  let v := natOfWords (cut ws 0 4)
  let cnt := fld v 69 13
  keepIf encQue ws cur
    { cur with i := decide (fld v 127 1 = 1), own := fld v 123 4, rb := fld v 106 17, cap := fld v 94 12, hd := fld v 82 12,
               cnt := cnt, lent := (List.range (fld v 62 7)).map (fun k => wfld ws (68 + k / 4) (8 * (k % 4)) 8),
               allow := smPuts 0 [] ((List.range 64).map (fun p => (p, wfld ws (4 + p) 0 12))),
               byCpe := (List.range cnt).map (fun k => if k < 1408 then wbit ws (84 + k / 32) (k % 32) else cur.byCpe.getD k true) }

/-- The spare pool: PB, SPN and the free map. -/
def encPool (e : CrewEng) : List Word :=
  [nw e.pb, nw e.spn] ++ padTo 14 ((List.range 8).map (fun k =>
    nw ((List.range 32).foldl (fun a b =>
      if 32 * k + b < e.spn ∧ !e.lentPool.contains (32 * k + b) then a + 2 ^ b else a) 0)))

/-- The lent pool slots from a free map. -/
def decPool (ws : List Word) : List Nat :=
  (List.range (min (ws.getD 1 0).toNat 256)).filter (fun j => !wbit ws (2 + j / 32) (j % 32))

/-- The format slots and their V bits. -/
def encFmt (e : CrewEng) : List Word :=
  (List.range 16).flatMap (fun k => wordsOfNat ((smFind e.fds k).getD 0).toNat 2) ++
  [nw ((List.range 16).foldl (fun a k => if (smFind e.fds k).isSome then a + 2 ^ k else a) 0), 0, 0, 0]

def decFmt (ws : List Word) : List (Nat × DWord) :=
  ((List.range 16).filter (fun k => wbit ws 32 k)).map (fun k => (k, BitVec.ofNat 64 (natOfWords (cut ws (2 * k) 2))))

/-- A kind from its number. -/
def mxKindOf (n : Nat) : MxKind := if n = 0 then .mma else if n = 1 then .mmz else if n = 2 then .mdr else .mld

/-- A saved matrix request: nine words. -/
def encMx (q : MxReq) : List Word :=
  [nw (2 ^ 31 + q.kind.code + q.tile * 4 + q.gang % 16 * 32 + bitN q.z * 512)] ++ wordsOfNat q.fd.toNat 2 ++
    padTo 4 q.a ++ padTo 2 q.b

def decMx (c : Nat) (ws : List Word) : MxReq :=
  { kind := mxKindOf (wfld ws 0 0 2), tile := wfld ws 0 2 3, gang := 16 * c + wfld ws 0 5 4, z := wbit ws 0 9,
    fd := BitVec.ofNat 64 (natOfWords (cut ws 1 2)), a := cut ws 3 4, b := cut ws 7 2, st := .post }

/-- A request placed before the first of a later order. -/
def insertMx (p : Nat × MxReqX) : List (Nat × MxReqX) → List (Nat × MxReqX)
  | [] => [p]
  | q :: l => if p.2.order < q.2.order then p :: q :: l else q :: insertMx p l

/-- The crew's requests in their order. -/
def crewMx (s : State) (c : Nat) : List (Nat × MxReqX) :=
  (s.eng.mx.filter (fun p => decide (p.2.q.gang / 16 = c))).foldl (fun l p => insertMx p l) []

/-- The saved requests: at most 35. DEDUCED: notes/assumptions/71. -/
def encMreq (s : State) (c : Nat) : List Word := padTo 320 (((crewMx s c).take 35).flatMap (fun p => encMx p.2.q))

/-- The bucket words read back. -/
def decBkt (ws : List Word) : CrewBkt :=
  { cur := if wbit ws 0 31 then some (wfld ws 0 0 31) else none, err := decErr2 (cut ws 1 2) }

/-- The pending enqueues into a crew, each queue's in the order in which they wait: the copy and its four words, the handle, the
queue, the producer, and that there is one. -/
def pendList (s : State) (c : Nat) : List (Nat × List Word) :=
  (List.range 16).flatMap (fun q => ((((s.ceng c).que q).pushW).filter (fun v => decide (64 ≤ v.1))).map (fun v =>
    (v.1 - 64, [((smFind s.eng.copies (v.1 - 64)).bind (fun p => p.enq)).elim 0 (fun e => e.1), nw q, nw v.2, 1])))

def encPend (s : State) (c : Nat) : List Word := padTo 64 ((pendList s c).flatMap (fun p => p.2))

/-- The 3,072 words of a crew record. -/
def encCrewRec (s : State) (c : Nat) (nt : Nat) : List Word :=
  let e := s.ceng c
  let n := List.range
  (n 16).flatMap (fun b => encBar (e.bar b)) ++ padTo 16 (encPool e) ++ (n 16).flatMap (fun q => padTo 128 (encQue (e.que q))) ++
  encPend s c ++ encFmt e ++ padTo 28 [nw (nt + e.tileP.toNat * 256)] ++ encMreq s c ++ padTo 512 (encBkt e.bkt)

/-- A crew's requests out of the table, to be posted again: how long each was in it is kept (R181, R189). -/
def unpostMx (s : State) (c : Nat) : State :=
  { s with eng.mx := s.eng.mx.map (fun p =>
      if decide (p.2.q.gang / 16 = c) && decide (p.2.q.st = .table) then
        (p.1, { p.2 with q := { p.2.q with st := .post }, waited := p.2.waited + (s.time - p.2.since), elig := none, boost := false })
      else p) }

/-- A crew's requests posted again, in their order, behind what its core's post buffers hold (R189). -/
def repostMx (s : State) (c : Nat) : State :=
  (crewMx s c).foldl (fun s p =>
    { s with work.next := s.work.next + 1, eng.mx := smModify s.eng.mx p.1 (fun q => { q with order := s.work.next }) }) s

/-- The crew's requests replaced by those of an image, and posted again. -/
def loadMreq (s : State) (c : Nat) (ws : List Word) : State :=
  let s := unpostMx s c
  if encMreq s c = ws then repostMx s c
  else
    let s := { s with eng.mx := s.eng.mx.filter (fun p => decide (p.2.q.gang / 16 ≠ c)) }
    ((List.range 35).filter (fun k => wbit ws (9 * k) 31)).foldl (fun s k =>
      { s with work.next := s.work.next + 1,
               eng.mx := smSet s.eng.mx s.work.next { q := decMx c (cut ws (9 * k) 9), order := s.work.next } }) s

/-- What is left of a copy whose enqueue an image brings back: it names no crew, so its issuer hears nothing of it. -/
def bareEnqueue (s : State) (c k : Nat) (ws : List Word) : CopyX :=
  { c := { gang := 16 * k, flg := 3, dom := ((s.crew c).map (fun w => w.dom)).getD 0 }, pended := true, bound := some 0,
    enq := some (ws.getD 0 0, c, wfld ws 1 0 4, wfld ws 2 0 6) }

/-- The pending enqueues `es` of an image, each with the copy of `old` that waits with it, or a new one. -/
def pairPend (c : Nat) : State → List (Nat × List Word) → List (List Word) → State × List (Nat × List Word)
  | s, _, [] => (s, [])
  | s, old, e :: es =>
    match old.find? (fun p => decide (p.2 = e)) with
    | some p =>
      let r := pairPend c s (old.filter (fun v => decide (v.1 ≠ p.1))) es
      (r.1, p :: r.2)
    | none =>
      let k := s.work.next
      let r := pairPend c { s with work.next := k + 1, eng.copies := smSet s.eng.copies k (bareEnqueue s c k e) } old es
      (r.1, (k, e) :: r.2)

/-- The pending enqueues of a crew replaced by those of an image, in its order: one that the image lacks is gone, and its
copy completes without it. DESIGN CHOICE: notes/assumptions/105. -/
def loadPend (s : State) (c : Nat) (ws : List Word) : State :=
  if encPend s c = ws then s
  else
    let old := pendList s c
    let es := ((List.range 16).filter (fun k => wbit ws (4 * k + 3) 0)).map (fun k =>
      [ws.getD (4 * k) 0, nw (wfld ws (4 * k + 1) 0 4), nw (wfld ws (4 * k + 2) 0 6), 1])
    let r := pairPend c s old es
    let kept := r.2.map (fun p => p.1)
    let s := { r.1 with eng.copies := r.1.eng.copies.map (fun p =>
      if (old.any (fun v => decide (v.1 = p.1))) && !kept.contains p.1 then (p.1, { p.2 with enqDone := true, pended := false }) else p) }
    (List.range 16).foldl (fun s q => s.modQue c q (fun v =>
      { v with pushW := v.pushW.filter (fun w => decide (w.1 < 64)) ++
          (r.2.filter (fun p => decide (wfld p.2 1 0 4 = q))).map (fun p => (64 + p.1, wfld p.2 2 0 6)) })) s

/-- The engines' state of a crew loaded from its record; a barrier whose counts a restore leaves at zero completes its phase
(R268, R270). -/
def loadCrewRec (s : State) (c : Nat) (ws : List Word) : State :=
  let n := List.range
  let e := s.ceng c
  let e1 := (n 16).foldl (fun v b => v.setBar b (decBar (cut ws (3 * b) 3) (e.bar b)).tryComplete) e
  let qs := (n 16).map (fun q => (q, decQue (cut ws (64 + 128 * q) 128) (e.que q)))
  let pool := cut ws 48 16
  let e2 := { e1 with qs := smPuts {} [] qs, pb := (pool.getD 0 0).toNat, spn := (pool.getD 1 0).toNat, lentPool := decPool pool,
                      fds := decFmt (cut ws 2176 36), tileP := BitVec.ofNat 8 (wfld ws 2212 8 8),
                      bkt := keepIf encBkt (cut ws 2560 4) e.bkt (decBkt (cut ws 2560 4)) }
  loadPend (loadMreq (s.setCeng c e2) c (cut ws 2240 320)) c (cut ws 2112 64)

/-! ### Ray slot records (R448) -/

/-- How a slot stands: 1 BUSY, 2 DONE with a result, 3 DONE with a failure; 0 FREE. -/
def encRay (r : Option RaySlot) : List Word :=
  match r with
  | none => padTo 128 []
  | some r =>
    let h := r.best.getD {}
    let d : Nat × AErr := match r.done with
      | none => (1, {})
      | some (.fin _) => (2, {})
      | some (.fail e) => (3, e)
    let k := match r.done with
      | some (.fin k) => k
      | _ => d.2.cause.code
    padTo 128 ([nw (d.1 + bitN r.begun * 256 + bitN r.best.isSome * 512 + bitN h.back * 1024)] ++ padTo 11 r.ray ++
      padTo 16 r.desc ++ [r.tcur, nw r.steps, nw r.stack.length] ++ padTo 64 (r.stack.flatMap (fun p => [p.1, p.2])) ++
      [h.t, h.b1, h.b2, nw h.tri, nw h.lvl, h.cid, nw k, d.2.info, loW d.2.addr, hiW d.2.addr, nw r.num])

def decRay (ws : List Word) : Option RaySlot :=
  let st := wfld ws 0 0 8
  if st = 0 then none
  else
    let hit : RayHit := { t := ws.getD 95 0, b1 := ws.getD 96 0, b2 := ws.getD 97 0, back := wbit ws 0 10,
                          tri := (ws.getD 98 0).toNat, lvl := (ws.getD 99 0).toNat, cid := ws.getD 100 0 }
    let k := (ws.getD 101 0).toNat
    let err : AErr := { cause := (causeOf k).getD .ryNode, info := ws.getD 102 0, addr := ws.getD 104 0 ++ ws.getD 103 0 }
    some { num := (ws.getD 105 0).toNat, ray := cut ws 1 11, desc := cut ws 12 16, tcur := ws.getD 28 0,
           steps := (ws.getD 29 0).toNat, begun := wbit ws 0 8, best := if wbit ws 0 9 then some hit else none,
           stack := (List.range (min (ws.getD 30 0).toNat 32)).map (fun i => (ws.getD (31 + 2 * i) 0, ws.getD (32 + 2 * i) 0)),
           done := if st = 2 then some (.fin k) else if st = 3 then some (.fail err) else none }

/-! ### The image (Table 15-4) -/

/-- Words at a byte offset of the image. -/
structure ImgRegion where
  off : Nat
  words : List ImgWord

def plainWords (ws : List Word) : List ImgWord := ws.map (fun w => (w, false))

/-- What the header says of the save: PREEMPT or the service cause, whether a service notice is pending, the core. -/
structure SaveInfo where
  cause : Nat := 0
  pre : Bool := false
  svc : Bool := false
  core : Nat := 0

/-- The header's 1,024 words (Table 15-5). -/
def encHeader (s : State) (c : Nat) (w : Crew) (i : SaveInfo) : List Word :=
  padTo 1024 ([0x00010001, w.kw, w.rw, nw (w.dom + w.que % 64 * 256)] ++ wordsOfNat w.trec.toNat 2 ++ [w.crewid] ++
    [nw (1 + bitN (kwKind w.kw = 1) * 2 + bitN (s.ceng c).bkt.cur.isSome * 4 + bitN i.pre * 8 + bitN i.svc * 16), nw i.cause,
     nw (i.core + coreDie i.core * 256)] ++ wordsOfNat s.time 2)

/-- The gangs of a crew in order. -/
def crewGangs (w : Crew) : List Nat := List.range (rwNg w.rw + 1)

/-- Byte offset of vector register `r` of lane `i` of gang `g`. -/
def vOff (g r i : Nat) : Nat := 0x10000 + 4 * (2048 * g + 32 * r + i)

/-- The crew's vector registers as (offset, word). -/
def vRegion (s : State) (c : Nat) (w : Crew) : List ImgRegion :=
  (crewGangs w).flatMap (fun g => (List.range (rwNr w.rw + 1)).map (fun r =>
    { off := vOff g r 0, words := plainWords ((List.range (kwLanes w.kw)).map (fun i => (((s.gang (16 * c + g)).getD {}).r.rdV r i))) }))

/-- Words of the crew's Pound allocation and lane segments on a core. -/
def poundRegion (s : State) (w : Crew) (core : Nat) : ImgRegion :=
  { off := 0x30000, words := (List.range (poundBytes w.kw w.rw / 4)).map (fun k =>
      let a := poundAddr core (w.pbase + 4 * k)
      (getWord s.mem a, isPoison s.poison a)) }

/-- The accumulator tiles and the B-store window. -/
def tileRegion (e : CrewEng) (nt : Nat) : ImgRegion :=
  { off := 0x80000, words := plainWords ((List.range (nt * 8192)).map (fun k => accWord e (4 * k))) }
def bstWord (e : CrewEng) (o : Nat) : Word :=
  smGet 0 e.bst (o + 3) ++ smGet 0 e.bst (o + 2) ++ smGet 0 e.bst (o + 1) ++ smGet 0 e.bst o
def bstRegion (e : CrewEng) (nt : Nat) : ImgRegion :=
  { off := 0x100000, words := (List.range (nt * 65536)).map (fun k => (bstWord e (4 * k), smGet false e.bstP k)) }

/-- The ray slot records of a crew's gangs. -/
def rayRegion (s : State) (c : Nat) (w : Crew) : ImgRegion :=
  { off := 0xC0000, words := plainWords ((List.range (32 * (rwNg w.rw + 1))).flatMap (fun k => encRay (smFind s.gfx.rays (512 * c + k)))) }

/-- The regions of a crew's image. -/
def image (s : State) (c : Nat) (w : Crew) (core : Nat) (i : SaveInfo) : List ImgRegion :=
  let nt := rwNt w.rw
  [{ off := 0, words := plainWords (encHeader s c w i) }] ++
  (crewGangs w).map (fun g => { off := 0x1000 + 0xC00 * g, words := plainWords (encGang (((s.gang (16 * c + g)).getD {}).withFreeze s (16 * c + g))) }) ++
  [{ off := 0xD000, words := plainWords (encCrewRec s c nt) }] ++ vRegion s c w ++
  [poundRegion s w core, tileRegion (s.ceng c) nt, rayRegion s c w, bstRegion (s.ceng c) nt]

/-- The offsets of an image's words, for a crew's allocation. -/
def imageOffs (w : Crew) : List Nat :=
  let span := fun (o n : Nat) => (List.range n).map (fun k => o + 4 * k)
  let nt := rwNt w.rw
  span 0 1024 ++ (crewGangs w).flatMap (fun g => span (0x1000 + 0xC00 * g) 768) ++ span 0xD000 3072 ++
  (crewGangs w).flatMap (fun g => (List.range (rwNr w.rw + 1)).flatMap (fun r => span (vOff g r 0) (kwLanes w.kw))) ++
  span 0x30000 (poundBytes w.kw w.rw / 4) ++ span 0x80000 (nt * 8192) ++ span 0xC0000 (32 * (rwNg w.rw + 1) * 128) ++
  span 0x100000 (nt * 65536)

/-- `n` words of an image from offset `o`. -/
def imgCut (rd : Nat → ImgWord) (o n : Nat) : List Word := (List.range n).map (fun k => (rd (o + 4 * k)).1)

/-- A gang's vector registers from an image. -/
def loadV (rd : Nat → ImgWord) (w : Crew) (ix : Nat) : List (Nat × Word) :=
  smPuts 0 [] ((List.range (rwNr w.rw + 1)).flatMap (fun r =>
    (List.range (kwLanes w.kw)).map (fun i => (vkey r i, (rd (vOff ix r i)).1))))

/-- The crew's gangs from an image. -/
def loadGangs (rd : Nat → ImgWord) (s : State) (c : Nat) (w : Crew) : State :=
  (crewGangs w).foldl (fun s ix => s.modGang (16 * c + ix) (fun g =>
    let g := decGang (imgCut rd (0x1000 + 0xC00 * ix) 768) g
    { g with r := { g.r with v := loadV rd w ix } })) s

/-- The crew's Pound bytes from an image, at its allocation on a core. -/
def loadPound (rd : Nat → ImgWord) (s : State) (w : Crew) (core : Nat) : State :=
  (List.range (poundBytes w.kw w.rw / 4)).foldl (fun s k =>
    s.putWord (poundAddr core (w.pbase + 4 * k)) (rd (0x30000 + 4 * k)).1 0xF (rd (0x30000 + 4 * k)).2) s

/-- The tiles and the B-store window from an image. -/
def loadTiles (rd : Nat → ImgWord) (w : Crew) (e : CrewEng) : CrewEng :=
  let nt := rwNt w.rw
  let e := (List.range (nt * 8192)).foldl (fun e k => setAccWord e (4 * k) (rd (0x80000 + 4 * k)).1) e
  (List.range (nt * 65536)).foldl (fun e k => setBstWord e (4 * k) (rd (0x100000 + 4 * k)).1 (rd (0x100000 + 4 * k)).2) e

/-- The ray slots from an image. -/
def loadRays (rd : Nat → ImgWord) (s : State) (c : Nat) (w : Crew) : State :=
  (List.range (32 * (rwNg w.rw + 1))).foldl (fun s k =>
    { s with gfx.rays := match decRay (imgCut rd (0xC0000 + 512 * k) 128) with
        | some r => smSet s.gfx.rays (512 * c + k) r
        | none => smErase s.gfx.rays (512 * c + k) }) s

/-- A crew's whole state replaced by an image (R474, R488). -/
def loadImage (rd : Nat → ImgWord) (s : State) (c : Nat) (w : Crew) (core : Nat) : State :=
  let s := loadGangs rd s c w
  let s := loadCrewRec s c (imgCut rd 0xD000 3072)
  let s := loadPound rd s w core
  loadRays rd (s.modCeng c (loadTiles rd w)) c w

/-! ### The drain (R377 steps 2 to 7, R83, R189, R276, R304, R360) -/

/-- A copy that the save waits for: one that writes into or reads from the crew's Pound, or names its barriers; one that
enqueues into the crew, until it has enqueued or waits in the pending list, where it counts as landed (R304, R360). -/
def copyHolds (c : Nat) (w : Crew) (core : Nat) (p : CopyX) : Bool :=
  (decide (p.c.gang / 16 = c) && !p.pended) || (p.enq.any (fun e => decide (e.2.1 = c)) && !p.pended && !p.enqDone) ||
  (decide (p.c.sps = 2) && p.c.lines.any (fun l => l.any (fun q => decide (poundCore q.src = core) &&
    decide (w.pbase ≤ poundOff q.src) && decide (poundOff q.src < w.pbase + poundBytes w.kw w.rw)))) ||
  p.ranges.any (fun r => decide (r.1 = core) && decide (w.pbase ≤ r.2.2) && decide (r.2.1 < w.pbase + poundBytes w.kw w.rw))

/-- A store or request of the crew's gangs is under way, or a push or another crew's store of its core, which the release
of R377 step 4 takes in (`storesIncomplete`). -/
def crewStores (s : State) (c core : Nat) : Bool :=
  s.coh.reqs.any (fun q => (decide (q.r.gang / 16 = c) && (q.isStore || decide (q.r.out ≠ 0))) ||
    (decide (q.r.core = core) && (decide (q.r.kind = .push) || q.isStore))) ||
  s.coh.replies.any (fun p => decide (p.r.gang / 16 = c) ||
    (decide (p.r.core = core) && (decide (p.r.kind = .push) || p.isStore)))

/-- Nothing of the crew is under way any more but the pushes its core still owes and the matrix requests that the image
takes, those without a completion barrier (R189, R276); its queries stand between two steps (R448); a BKNEXT that waits for an item
waits on. -/
def crewQuiet (s : State) (c : Nat) (w : Crew) (core : Nat) : Bool :=
  !s.work.outs.any (fun p => decide (p.2.gang / 16 = c) && decide (p.2.kind ≠ .graphics)) && !crewStores s c core &&
  !s.eng.copies.any (fun p => copyHolds c w core p.2) && s.gfx.rays.all (fun p => decide (p.1 / 512 ≠ c) || p.2.got.isEmpty) &&
  !s.eng.mx.any (fun p => decide (p.2.q.gang / 16 = c) && (decide (p.2.q.st ≠ .table) || fdCbe p.2.q.fd))

/-- The step of a drain: pushes still to be made, or nothing left but words of fenced homes (R503). -/
def drainPushes (s : State) (core : Nat) : Bool := (looseLines s core).any (fun l => !fenced s l)

/-- The deferred faults of a crew become records of their groups before the save (R228, R467). -/
def settleLate (s : State) (c : Nat) : State :=
  (s.gangsOf c).foldl (fun s p =>
    (liveGroups p.2).foldl (fun s m =>
      if (p.2.slice (firstSlice m)).stopped || (p.2.slice (firstSlice m)).block.isSome then s
      else match lateOf s p.1 m with
        | some e => deferTrap s p.1 m e
        | none => s) s) s

end Sys2Proof.Machine
end

