-- ==== Sys2Proof/Machine/Dicing.lean ====
section
/-! DEFINITION. Patches, their bounds, the split-or-dice decision and dicing (R394, R403 to R406), the places of buckets
in frame order (R400), the fen and the quota (R399, R402). -/

namespace Sys2Proof.Machine
open Sys2Proof

/-! ### Exact lengths: pixels in units of 2^-149 -/

/-- A finite binary32 value as a count of 2^-149. -/
def fixOf : FV → Int
  | .fin n m e => if n then -((m : Int) * 2 ^ (e + 149).toNat) else (m : Int) * 2 ^ (e + 149).toNat
  | _ => 0

/-- Whole pixels, and 256ths of a pixel. -/
def fixPx (n : Nat) : Int := (n : Int) * 2 ^ 149
def fix256 (n : Int) : Int := n * 2 ^ 141

/-- RoundNE(x, k) (Table 13-9). -/
def roundNE (x : Int) (k : Nat) : Int :=
  let q := x / (2 ^ k : Int)
  let r := x % (2 ^ k : Int)
  if 2 * r < 2 ^ k then q else if 2 ^ k < 2 * r then q + 1 else if q % 2 = 0 then q else q + 1

/-- A closed box. -/
structure Box where
  x0 : Int
  x1 : Int
  y0 : Int
  y1 : Int

/-- The box of points, widened. -/
def boxOf (ps : List (Int × Int)) (wid : Int) : Box :=
  match ps with
  | [] => { x0 := 0, x1 := -1, y0 := 0, y1 := -1 }
  | p :: ps =>
    let b := ps.foldl (fun (b : Box) q =>
      { x0 := min b.x0 q.1, x1 := max b.x1 q.1, y0 := min b.y0 q.2, y1 := max b.y1 q.2 }) ⟨p.1, p.1, p.2, p.2⟩
    { x0 := b.x0 - wid, x1 := b.x1 + wid, y0 := b.y0 - wid, y1 := b.y1 + wid }

/-- The closed interval and the half-open pixels from `b`, `n` of them, cut at `lim`, share a point (R394). -/
def spanMeets (lo hi : Int) (b n lim : Nat) : Bool :=
  decide (b < lim) && decide (lo < fixPx (min (b + n) lim)) && decide (fixPx b ≤ hi) && decide (lo ≤ hi)

/-- The bound overlaps the part inside the frame of the square of width `n` at (bx, byy). -/
def Box.meets (b : Box) (bx byy n fw fh : Nat) : Bool := spanMeets b.x0 b.x1 bx n fw && spanMeets b.y0 b.y1 byy n fh

/-! ### Patch records (R403) -/

def Patch.word (p : Patch) (k : Nat) : Word := p.w.getD k 0
def Patch.pk (p : Patch) : Nat := fld (p.word 0).toNat 0 2
def Patch.blnd (p : Patch) : Bool := (p.word 0).getLsbD 2
def Patch.sr (p : Patch) : Nat := fld (p.word 1).toNat 0 16
def Patch.cmax (p : Patch) : Nat := fld (p.word 1).toNat 16 16
def Patch.db (p : Patch) : Nat := fld (p.word 2).toNat 0 16
def Patch.pid (p : Patch) : Nat := fld (p.word 3).toNat 0 16

/-- Control points along one parameter, and in all. -/
def Patch.side (p : Patch) : Nat := if p.pk = 1 then 2 else 4
def Patch.q (p : Patch) : Nat := p.side * p.side

/-- Coordinate `c` of control point `k` at time `t`. -/
def Patch.co (p : Patch) (t k c : Nat) : FV := fv (p.word (8 + 3 * (p.q * t + k) + c))

/-- Words of a record with this first word. -/
def patchLen (w0 : Word) : Nat := if fld w0.toNat 0 2 = 1 then 32 else 104

def FV.finite : FV → Bool
  | .fin _ _ _ => true
  | _ => false

/-- A valid patch (R403). -/
def Patch.ok (p : Patch) : Bool :=
  (decide (p.pk = 1) || decide (p.pk = 2)) && decide (fld (p.word 0).toNat 3 29 = 0) && decide (fld (p.word 2).toNat 16 16 = 0) &&
  decide (p.word 6 = 0) && decide (p.word 7 = 0) && decide (p.sr ≠ 0) &&
  (List.range (6 * p.q)).all (fun k => (fv (p.word (8 + k))).finite)

/-- The control points of both times in x and y. -/
def Patch.points (p : Patch) : List (Int × Int) :=
  (List.range 2).flatMap (fun t => (List.range p.q).map (fun k => (fixOf (p.co t k 0), fixOf (p.co t k 1))))

/-- The expanded bound (R394). -/
def Patch.bound (p : Patch) : Box := boxOf p.points (fix256 (p.db + p.cmax + 1))

/-! ### Split or dice (R404) -/

/-- Seg of two control points at time `t`. -/
def Patch.seg (p : Patch) (t i j : Nat) : Int :=
  max (fixOf (p.co t j 0) - fixOf (p.co t i 0)).natAbs (fixOf (p.co t j 1) - fixOf (p.co t i 1)).natAbs

/-- The greatest length over the rows (`rows`) or the columns, and over both times. -/
def Patch.len (p : Patch) (rows : Bool) : Int :=
  let n := p.side
  let ix := fun (a b : Nat) => if rows then n * a + b else n * b + a
  ((List.range 2).flatMap (fun t => (List.range n).map (fun a =>
    ((List.range (n - 1)).map (fun b => p.seg t (ix a b) (ix a (b + 1)))).sum))).foldl max 0

/-- The count for a length: max(1, ceil(RoundNE(256 L, 0) / SR)). -/
def countOf (l : Int) (sr : Nat) : Nat := max 1 (((roundNE (256 * l) 149).toNat + sr - 1) / sr)

def Patch.counts (p : Patch) : Nat × Nat := (countOf (p.len true) p.sr, countOf (p.len false) p.sr)

/-! ### de Casteljau (R405, R406) -/

/-- Lerp(a, b, t). -/
def lerp (a b t : FV) : FV := add64 (mul64 (sub64 fone t) a) (mul64 t b)

/-- One step over a row of values. -/
def lerps (t : FV) : List FV → List FV
  | a :: b :: l => lerp a b t :: lerps t (b :: l)
  | _ => []

/-- The value at `t`. -/
def evalRow (t : FV) : Nat → List FV → FV
  | 0, l => l.headD fzero
  | n + 1, l => if l.length ≤ 1 then l.headD fzero else evalRow t n (lerps t l)

/-- The two halves of a row cut at `t`: first values of each step, and last values in reverse. -/
def cutRow (t : FV) : Nat → List FV → List FV × List FV
  | 0, _ => ([], [])
  | n + 1, l =>
    let r := cutRow t n (lerps t l)
    (l.headD fzero :: r.1, r.2 ++ [(l.getLast?).getD fzero])

/-- 1/2. -/
def fhalf : FV := .fin false 1 (-1)

/-- One half of a split along s (`alongS`) or v: the words of its control points. -/
def Patch.half (p : Patch) (alongS second : Bool) : Patch :=
  let n := p.side
  let row := fun (t a c : Nat) =>
    let l := (List.range n).map (fun b => p.co t (if alongS then n * a + b else n * b + a) c)
    let r := cutRow fhalf n l
    if second then r.2 else r.1
  let pts := (List.range 2).flatMap (fun t => (List.range (n * n)).flatMap (fun k => (List.range 3).map (fun c =>
    let a := if alongS then k / n else k % n
    let b := if alongS then k % n else k / n
    fw (round .f32 0 ((row t a c).getD b fzero)))))
  { w := p.w.take 8 ++ pts, depth := p.depth + 1 }

/-- i / n rounded to binary64. -/
def ratio64 (i n : Nat) : FV := round .f64 0 ((FV.fin false i 0).quot (.fin false n 0))

/-- Coordinate `c` of the surface at (s, v) and time `t`. -/
def Patch.at_ (p : Patch) (t c : Nat) (s v : FV) : Word :=
  let n := p.side
  let col := (List.range n).map (fun a => evalRow s n ((List.range n).map (fun b => p.co t (n * a + b) c)))
  fw (round .f32 0 (evalRow v n col))

/-- The six position words of each vertex, in index order (R406). -/
def Patch.vertices (p : Patch) (n m : Nat) : List Word :=
  (List.range (m + 1)).flatMap (fun j => (List.range (n + 1)).flatMap (fun i =>
    [(0, 0), (0, 1), (0, 2), (1, 0), (1, 1), (1, 2)].map (fun q => p.at_ q.1 q.2 (ratio64 i n) (ratio64 j m))))

/-- The grid of a dice. -/
def Patch.dice (p : Patch) (n m : Nat) : Grid := { n := n, m := m, patch := p, vin := p.vertices n m }

/-- Vertices of a grid, and its bytes in the bucket store (R399). -/
def Grid.verts (g : Grid) : Nat := (g.n + 1) * (g.m + 1)
def Grid.bytes (g : Grid) : Nat := 64 + 80 * g.verts

/-- A signed field of a word. -/
def sfld (w : Word) (lo n : Nat) : Int := (BitVec.ofNat n (fld w.toNat lo n)).toInt

/-- The bound of a shaded grid (R410): X0, X1, Y0, Y1 widened by the greatest |C0|, |C1| and one step. -/
def Grid.outBound (g : Grid) : Box :=
  let o := fun (p : Nat × List Word) (k : Nat) => p.2.getD k 0
  let pts := g.vout.flatMap (fun p =>
    [(fix256 (o p 0).toInt, fix256 (o p 1).toInt), (fix256 (o p 2).toInt, fix256 (o p 3).toInt)])
  let c := (g.vout.flatMap (fun p => [(sfld (o p 6) 0 16).natAbs, (sfld (o p 6) 16 16).natAbs])).foldl max 0
  boxOf pts (fix256 (c + 1))

/-- The bound of a grid by its vertices: an unshaded one by its positions, widened as its patch is. DEDUCED: notes/assumptions/93. -/
def Grid.bound (g : Grid) : Box :=
  if g.received then g.outBound
  else
    let c := fun k => fixOf (fv (g.vin.getD k 0))
    boxOf ((List.range g.verts).flatMap (fun k => [(c (6 * k), c (6 * k + 1)), (c (6 * k + 3), c (6 * k + 4))]))
      (fix256 (g.patch.db + g.patch.cmax + 1))

/-! ### Buckets in frame order (R400) -/

def State.bkt (s : State) (b : Nat) : Option Bucket := smFind s.gfx.buckets b
def State.modBkt (s : State) (b : Nat) (f : Bucket → Bucket) : State := { s with gfx.buckets := smModify s.gfx.buckets b f }

/-- Frame order. -/
def ordLt : List Nat → List Nat → Bool
  | _, [] => false
  | [], _ :: _ => true
  | a :: as, b :: bs => decide (a < b) || (decide (a = b) && ordLt as bs)

/-- The buckets of a frame that have not been replaced by a split. -/
def leaves (s : State) (task : Nat) : List (Nat × Bucket) :=
  s.gfx.buckets.filter (fun p => decide (p.2.id.task = task) && !p.2.cnt.split)

/-- The bucket overlaps a bound inside its frame. -/
def Bucket.meets (v : Bucket) (b : Box) : Bool := b.meets v.id.bx v.id.byy v.id.bw v.desc.fw v.desc.fh

/-- The first bucket in frame order, not before `o`, that a bound overlaps. -/
def firstLeaf (s : State) (task : Nat) (b : Box) (o : List Nat) : Option (Nat × Bucket) :=
  ((leaves s task).filter (fun p => !ordLt p.2.id.order o && p.2.meets b)).foldl (fun a p =>
    match a with
    | none => some p
    | some q => if ordLt p.2.id.order q.2.id.order then some p else some q) none

/-- A dicer job of the bucket is in flight. -/
def dicing (s : State) (b : Nat) : Bool := s.gfx.dicers.any (fun j => decide (j.bucket = b))

/-- The bucket has finished forwarding (R400). -/
def forwarded (s : State) (b : Nat) (v : Bucket) : Bool :=
  v.cnt.done && v.slots.isEmpty && v.grids.isEmpty && v.inP.isEmpty && v.inG.isEmpty && !dicing s b && decide (v.st ≠ .waiting)

/-- Every bucket before it in frame order has finished forwarding. -/
def earlierDone (s : State) (v : Bucket) : Bool :=
  (leaves s v.id.task).all (fun p => !ordLt p.2.id.order v.id.order || forwarded s p.1 p.2)

/-! ### Sizes, the fen and the quota (R394, R399) -/

/-- Samples of a pixel. -/
def FrameDesc.n (d : FrameDesc) : Nat := 2 ^ d.nsl

/-- Pixels of a bucket inside the frame. -/
def Bucket.pixels (v : Bucket) : Nat := (min (v.id.bx + v.id.bw) v.desc.fw - v.id.bx) * (min (v.id.byy + v.id.bw) v.desc.fh - v.id.byy)

/-- Header, pattern and sample records. -/
def Bucket.baseBytes (v : Bucket) : Nat := 64 + 128 * v.desc.n + 16 * v.desc.n * v.pixels
def Bucket.quota (v : Bucket) : Nat := 1024 * v.desc.quo

/-- Bytes of a patch in the fen. DESIGN CHOICE: notes/assumptions/85. -/
def Patch.bytes (p : Patch) : Nat := 4 * patchLen (p.word 0)

/-- What a bucket keeps in the fen. -/
def Bucket.fenBytes (v : Bucket) : Nat :=
  (v.inP.map Patch.bytes).sum + (v.inG.map Grid.bytes).sum +
  ((v.slots.filter (fun p => p.2.inFen)).map (fun _ => 512)).sum + ((v.grids.filter (fun p => p.2.inFen)).map (fun p => p.2.bytes)).sum +
  (if v.st = .parked then v.baseBytes else 0)

/-- Fen bytes of a domain in use, and room for `n` more. -/
def fenUsed (s : State) (dom : Nat) : Nat :=
  ((s.gfx.frames.filter (fun f => decide (f.dom = dom))).map (fun f => (f.lists.map (fun p => (p.2.map Patch.bytes).sum)).sum)).sum +
  ((s.gfx.buckets.filter (fun p => decide (p.2.id.dom = dom))).map (fun p => p.2.fenBytes)).sum
def fenRoom (s : State) (dom n : Nat) : Bool := decide (fenUsed s dom + n ≤ (s.domain dom).set_.fen * 2 ^ 20)

/-- {BY, BX}. -/
def Bucket.name (v : Bucket) : Word := BitVec.ofNat 32 (v.id.byy * 65536 + v.id.bx)

/-- A cause recorded for the bucket's crew, or kept for it until it starts; a second one is dropped (R421). -/
def bktFail (s : State) (b : Nat) (e : AErr) : State :=
  match s.bkt b with
  | none => s
  | some v =>
    if v.crew = 0 then s.modBkt b (fun v => if v.early.isSome then v else { v with early := some e })
    else if (s.crew v.crew).isNone then s
    else if (s.ceng v.crew).bkt.err.isSome then s
    else
      let s := s.modCeng v.crew (fun c => { c with bkt := { c.bkt with err := some e } })
      saveWords s v.crew 0xF804 (encErr2 (some e))

/-- GX_SPILL_FULL of a bucket. -/
def spillFull (s : State) (b : Nat) : State :=
  match s.bkt b with
  | none => s
  | some v => bktFail s b { cause := .gxSpillFull, info := v.name }

/-- The least number that is not a key of a table. -/
def freeKey {α : Type} (m : List (Nat × α)) : Nat := (leastBelow (fun k => (smFind m k).isNone) (m.length + 1)).getD 0

/-! ### Splits (R402) -/

/-- The children of a bucket that lie in the frame: child number, origin. -/
def Bucket.children (v : Bucket) : List (Nat × Nat × Nat) :=
  let h := v.id.bw / 2
  ((List.range 4).map (fun c => (c, v.id.bx + h * (c % 2), v.id.byy + h * (c / 2)))).filter
    (fun p => decide (p.2.1 < v.desc.fw) && decide (p.2.2 < v.desc.fh))

/-- The first child that a bound overlaps. -/
def Bucket.childOf (v : Bucket) (b : Box) : Option Nat :=
  (v.children.find? (fun p => b.meets p.2.1 p.2.2 (v.id.bw / 2) v.desc.fw v.desc.fh)).map (fun p => p.1)

/-- A bucket record: the frame record's fields with the bucket's COORD and list (R395). DESIGN CHOICE: notes/assumptions/92. -/
def bucketRec (s : State) (r : TaskRec) (bx byy w : Nat) : TaskRec :=
  { entry := r.entry, arg := Config.freeWord (s.frees + 1) ++ Config.freeWord s.frees,
    coord := BitVec.ofNat 64 (bx + byy * 2 ^ 16 + w * 2 ^ 32 + w * 2 ^ 48), succ := 0, kw := r.kw, rw := r.rw,
    inl := [r.inl.getD 0 0, r.inl.getD 1 0, 0, 0, 0, r.inl.getD 5 0] }

/-- The deque entry of a bucket record. -/
def bucketEnt (s : State) (b : Nat) (v : Bucket) (task : Nat) : DqEnt :=
  { record := v.id.record, trec := Config.freeWord (s.frees + 1) ++ Config.freeWord s.frees, dom := v.id.dom, que := v.id.que,
    ready := s.time, task := task, bucket := some b }

/-- A grid that leaves a split bucket for a child. -/
def Grid.requeued (g : Grid) : Grid := { g with rank := none, inFen := false }

/-- A child's entry goes behind `ahead` others at the head end of its deque; without room there it waits (R367, R402). -/
def placeKid (s : State) (k : Nat) (e : DqEnt) (ahead : Nat) : State :=
  if dqFull s 1 k || s.gfx.kids.any (fun p => decide (p.1 = k)) then { s with gfx.kids := s.gfx.kids ++ [(k, e)] }
  else s.putDeque k ((s.deque k).take ahead ++ [e] ++ (s.deque k).drop ahead)

/-- The last child that waits for a deque goes to its head end, so that the first comes to stand there.
DESIGN CHOICE: notes/assumptions/159. -/
def kidStep (s : State) : State :=
  match s.gfx.kids.getLast? with
  | none => s
  | some (k, e) => if dqFull s 1 k then s else { s.putDeque k (e :: s.deque k) with gfx.kids := s.gfx.kids.dropLast }

/-- Child `p` of bucket `v` made, its list still empty: the state and its number. It goes to the die of the parent's record. -/
def makeChild (s : State) (v : Bucket) (p : Nat × Nat × Nat) (ahead : Nat) : State × Nat :=
  let b := s.work.next
  let r := bucketRec s v.id.record p.2.1 p.2.2 (v.id.bw / 2)
  let id := { v.id with record := r, bx := p.2.1, byy := p.2.2, bw := v.id.bw / 2, order := v.id.order ++ [p.1] }
  let c : Bucket := { id := id, desc := v.desc }
  let s := { s with work.next := b + 1, frees := s.frees + 2, gfx.buckets := smSet s.gfx.buckets b c,
                    work.tasks := smModify s.work.tasks v.id.task (fun t => { t with left := t.left + 1 }) }
  let t := s.work.next
  let s := newTask s v.id.dom v.id.que 1 r (some v.id.task)
  let e := bucketEnt s b c t
  (placeKid { s with frees := s.frees + 2 } (dqKey v.die v.id.dom v.id.que) e ahead, b)

/-- A patch or a grid appended to a bucket's list in the fen, on behalf of bucket `b`. -/
def appendPatch (s : State) (b t : Nat) (p : Patch) : State :=
  match s.bkt b with
  | none => s
  | some v => if fenRoom s v.id.dom p.bytes then s.modBkt t (fun v => { v with inP := v.inP ++ [p] }) else spillFull s b
def appendGrid (s : State) (b t : Nat) (g : Grid) : State :=
  match s.bkt b with
  | none => s
  | some v => if fenRoom s v.id.dom g.bytes then s.modBkt t (fun v => { v with inG := v.inG ++ [g] }) else spillFull s b

/-- The bucket replaced by its children: its quota and samples released, its patches and grids re-binned into the children's
lists, as far as the fen has room (R399, R402). DEDUCED: notes/assumptions/87. -/
def splitBkt (s : State) (b : Nat) : State :=
  match s.bkt b with
  | none => s
  | some v =>
    let ps := v.slots.map (fun p => p.2.patch) ++ v.inP
    let gs := v.grids.map (fun p => p.2) ++ v.inG
    let s := s.modBkt b (fun v => { v with st := .released, slots := [], grids := [], inP := [], inG := [], samples := [],
                                           cnt := { v.cnt with split := true, occ := 0 } })
    let s := { s with gfx.stus := s.gfx.stus.filter (fun j => decide (j.bucket ≠ b)),
                      gfx.wbs := s.gfx.wbs.filter (fun j => decide (j.bucket ≠ b)) }
    let m := v.children.zipIdx.foldl (fun (a : State × List (Nat × Nat)) p =>
      let k := makeChild a.1 v p.1 p.2
      (k.1, a.2 ++ [(p.1.1, k.2)])) (s, [])
    let kid := fun (o : Box) => (v.childOf o).bind (smFind m.2)
    let s := ps.foldl (fun s q => match kid q.bound with
      | none => s
      | some t => appendPatch s b t q) m.1
    gs.foldl (fun s g => match kid g.bound with
      | none => s
      | some t => appendGrid s b t g.requeued) s

/-! ### New items of a bucket (R399) -/

/-- How a new item of `n` bytes is taken: in the store, by a split, in the fen, or not at all. -/
inductive Take where
  | store | split | fen | drop
  deriving DecidableEq, Repr

def takeOf (s : State) (v : Bucket) (n fenBytes : Nat) : Take :=
  if v.cnt.occ + n ≤ v.quota then .store
  else if 8 < v.id.bw && !v.cnt.handedGrid then .split
  else if fenRoom s v.id.dom fenBytes then .fen else .drop

/-- A patch takes a patch slot of a resident bucket. -/
def placePatch (s : State) (b : Nat) (p : Patch) : State :=
  match s.bkt b with
  | none => s
  | some v =>
    let put := fun (f : Bool) (n : Nat) => s.modBkt b (fun v =>
      { v with slots := smSet v.slots (freeKey v.slots) { patch := p, inFen := f },
               cnt := { v.cnt with occ := v.cnt.occ + n, fen := v.cnt.fen || f } })
    match takeOf s v 512 512 with
    | .store => put false 512
    | .split => splitBkt (put false 0) b
    | .fen => put true 0
    | .drop => spillFull s b

/-- A grid takes a grid slot with its next generation (R407); a received one takes the next rank and is emitted. -/
def gridSlot (s : State) (b : Nat) (g : Grid) (f : Bool) : State :=
  match s.bkt b with
  | none => s
  | some v =>
    let k := freeKey v.grids
    let gen := (smGet 0 v.gens k + 1) % 4096
    let rank := if g.received then some v.cnt.nem else none
    let s := s.modBkt b (fun v =>
      { v with grids := smSet v.grids k { g with gen := gen, inFen := f, rank := rank }, gens := smSet v.gens k gen,
               cnt := { v.cnt with ngr := v.cnt.ngr + 1, nem := v.cnt.nem + (if g.received then 1 else 0),
                                   occ := v.cnt.occ + (if f then 0 else g.bytes), fen := v.cnt.fen || f } })
    if g.received then { s with gfx.stus := s.gfx.stus ++ [{ bucket := b, grid := k }] } else s

/-- A grid placed in a resident bucket under the quota. -/
def placeGrid (s : State) (b : Nat) (g : Grid) : State :=
  match s.bkt b with
  | none => s
  | some v =>
    match takeOf s v g.bytes g.bytes with
    | .store => gridSlot s b g false
    | .split => splitBkt (s.modBkt b (fun v => { v with inG := v.inG ++ [g] })) b
    | .fen => gridSlot s b g true
    | .drop => spillFull s b

/-- A dicer's patch goes to the first bucket, not before its own, that its bound overlaps (R405, R422). -/
def givePatch (s : State) (b : Nat) (p : Patch) : State :=
  match s.bkt b with
  | none => s
  | some v =>
    match firstLeaf s v.id.task p.bound v.id.order with
    | none => s
    | some (t, _) => if t = b then placePatch s b p else appendPatch s b t p

/-- A dicer's grid goes to its bucket; where that has split meanwhile, to the child that takes it. -/
def giveGrid (s : State) (b : Nat) (g : Grid) : State :=
  match s.bkt b with
  | none => s
  | some v =>
    if !v.cnt.split then placeGrid s b g
    else match firstLeaf s v.id.task g.bound v.id.order with
      | none => s
      | some (t, _) => appendGrid s b t g

/-- The oldest item of a resident bucket's list takes its slot (R405, R410). DEDUCED: notes/assumptions/88. -/
def forwardOne (s : State) (b : Nat) : State :=
  match s.bkt b with
  | none => s
  | some v =>
    if v.st ≠ .resident then s
    else match v.inP, v.inG with
      | p :: ps, _ => placePatch (s.modBkt b (fun v => { v with inP := ps })) b p
      | [], g :: gs => placeGrid (s.modBkt b (fun v => { v with inG := gs })) b g
      | [], [] => s

/-- `n` items of a bucket's list. -/
def forwardAll : Nat → State → Nat → State
  | 0, s, _ => s
  | n + 1, s, b => forwardAll n (forwardOne s b) b

end Sys2Proof.Machine
end

