-- ==== Sys2Proof/Machine/Gfx.lean ====
section
/-! DEFINITION. The micropolygon path (chapter 13): binner and distributor, buckets in the bucket store, the dicer,
write-back and sample-test jobs, and the eight bucket instructions. -/

namespace Sys2Proof.Machine
open Sys2Proof

/-! ### Reads of the control plane -/

/-- What a read of words comes to. -/
inductive ERd where
  | ok (ws : List Word)
  | wait
  | bad (c : Cause)

/-- `n` words at a virtual address, each at its point of coherence, under a domain's translation. -/
def engWords (s : State) (dom : Nat) (va : DWord) : Nat → ERd
  | 0 => .ok []
  | n + 1 =>
    match engXl s dom va .read with
    | .error f => .bad f.cause
    | .ok pa =>
      match homeFail s (lineOf pa) with
      | some c => .bad c
      | none =>
        if lineBusy s (lineOf pa) then .wait
        else if (readWord s pa).2 then .bad .poisonRd
        else match engWords s dom (va + 4) n with
          | .ok ws => .ok ((readWord s pa).1 :: ws)
          | r => r

/-! ### The binner (R394) -/

/-- The bucket columns or rows of a frame. -/
def bktCount (n : Nat) : Nat := (n + 31) / 32

/-- The row-major number of the first bucket that a bound overlaps. -/
def firstBucket (d : FrameDesc) (b : Box) : Option Nat :=
  match (List.range (bktCount d.fh)).find? (fun r => spanMeets b.y0 b.y1 (32 * r) 32 d.fh),
    (List.range (bktCount d.fw)).find? (fun c => spanMeets b.x0 b.x1 (32 * c) 32 d.fw) with
  | some r, some c => some (r * bktCount d.fw + c)
  | _, _ => none

/-- Frame `k` replaced. -/
def putFrame (s : State) (k : Nat) (f : Frame) : State := { s with gfx.frames := putAt s.gfx.frames k f }

/-- A frame that fails: its queue stops with the cause and the frame goes. -/
def dropFrame (s : State) (k : Nat) (f : Frame) (c : Cause) : State :=
  let s := stopQueue s f.dom f.que c
  { s with gfx.frames := dropAt s.gfx.frames k, work.tasks := smErase s.work.tasks f.task }

/-- A patch of a frame binned. DEDUCED: notes/assumptions/83. -/
def binPatch (s : State) (k : Nat) (f : Frame) (d : FrameDesc) (p : Patch) : State :=
  let f := { f with next := f.next + 1 }
  match firstBucket d p.bound with
  | none => putFrame s k f
  | some i =>
    if !fenRoom s f.dom p.bytes then dropFrame s k f .gxSpillFull
    else putFrame s k { f with lists := smSet f.lists i (smGet [] f.lists i ++ [p]) }

/-- The binner takes the next patch of frame `k`. DEDUCED: notes/assumptions/82. -/
def binStep (s : State) (k : Nat) : State :=
  match s.gfx.frames[k]? with
  | none => s
  | some f =>
    match f.desc with
    | none =>
      (match readDesc s f.dom f.fdAddr with
       | .ok ws => putFrame s k { f with desc := some (descOf ws) }
       | .error c => dropFrame s k f c)
    | some d =>
      if f.made.isSome || (f.record.inl.getD 2 0).toNat ≤ f.next then s
      else
        let ea := f.record.arg + BitVec.ofNat 64 (8 * f.next)
        if ea.toNat % 8 ≠ 0 then dropFrame s k f .atomAlign
        else match engWords s f.dom ea 2 with
          | .wait => s
          | .bad c => dropFrame s k f c
          | .ok aw =>
            let pa : DWord := aw.getD 1 0 ++ aw.getD 0 0
            if pa.toNat % 32 ≠ 0 then dropFrame s k f .atomAlign
            else match engWords s f.dom pa 1 with
              | .wait => s
              | .bad c => dropFrame s k f c
              | .ok w0 =>
                match engWords s f.dom pa (patchLen (w0.headD 0)) with
                | .wait => s
                | .bad c => dropFrame s k f c
                | .ok ws => if (Patch.mk ws 0).ok then binPatch s k f d { w := ws } else dropFrame s k f .gxPatchBad

def execBinner (st : State) : Host.Outcome State Fault Refusal := event (binStep st (st.op 0))

/-! ### The distributor (R395) -/

/-- Bucket `i` of a frame made, with its list. -/
def makeBucket (s : State) (f : Frame) (d : FrameDesc) (first i : Nat) : State :=
  let bx := 32 * (i % bktCount d.fw)
  let byy := 32 * (i / bktCount d.fw)
  let r := bucketRec s f.record bx byy 32
  let id : BktId := { dom := f.dom, que := f.que, task := f.task, record := r, fdAddr := f.fdAddr, bx := bx, byy := byy, order := [i] }
  { s with frees := s.frees + 2, gfx.buckets := smSet s.gfx.buckets (first + i) { id := id, desc := d, inP := smGet [] f.lists i } }

/-- The buckets of frame `k` made, then the record of each placed on its die. -/
def distribute (s : State) (k : Nat) : State :=
  match s.gfx.frames[k]? with
  | none => s
  | some f =>
    match f.desc with
    | none => s
    | some d =>
      let n := bktCount d.fw * bktCount d.fh
      match f.made with
      | none =>
        if f.next < (f.record.inl.getD 2 0).toNat then s
        else
          let first := s.work.next
          let s := { s with work.next := first + n }
          let s := (List.range n).foldl (fun s i => makeBucket s f d first i) s
          let s := putFrame s k { f with made := some first, lists := [], atHead := false }
          let s := if f.atHead then s.modQueue f.dom f.que (fun v => { v with head := v.head + 1 }) else s
          { s with work.tasks := smModify s.work.tasks f.task (fun t => { t with left := n }) }
      | some first =>
        let b := first + f.placed
        let q := dqKey (f.placed % 4) f.dom f.que
        match s.bkt b with
        | none => s
        | some v =>
          if n ≤ f.placed || dqFull s 1 q then s
          else
            let t := s.work.next
            let s := newTask s f.dom f.que 1 v.id.record (some f.task)
            let s := dqPush s q (bucketEnt s b v t)
            putFrame { s with frees := s.frees + 2 } k { f with placed := f.placed + 1 }

/-- BUCKET_DISTRIBUTOR (R395): frame k goes on; past the last frame, a split's child takes its place in its deque. -/
def execBucketDistributor (st : State) : Host.Outcome State Fault Refusal :=
  event (if st.gfx.frames.length ≤ st.op 0 then kidStep st else distribute st (st.op 0))

/-! ### Buckets in the bucket store (R396, R397, R401) -/

/-- Quotas held in a die's bucket store, and room for one more. -/
def storeUsed (s : State) (die : Nat) : Nat :=
  ((s.gfx.buckets.filter (fun p => decide (p.2.die = die) && (decide (p.2.st = .resident) || decide (p.2.st = .closed)))).map
    (fun p => p.2.quota)).sum
def storeRoom (s : State) (die n : Nat) : Bool := decide (storeUsed s die + n ≤ 32 * 2 ^ 20)

/-- The composite tile keys of a bucket that lie in the frame, ascending (R418). -/
def Bucket.keys (v : Bucket) : List Word :=
  let n := v.id.bw / 4
  (List.range n).flatMap (fun j => ((List.range n).filter (fun i =>
    decide (v.id.bx + 4 * i < v.desc.fw) && decide (v.id.byy + 4 * j < v.desc.fh))).map (fun i =>
      BitVec.ofNat 32 (v.desc.ftag * 2 ^ 24 + (v.id.byy / 4 + j) * 2 ^ 12 + (v.id.bx / 4 + i))))

/-- SLINIT of a composite key: NE 0, the break policy. A key without an entry is in that state. -/
def initKey (s : State) (dom : Nat) (key : Word) : State :=
  let k := slNum dom 1 key
  if (smFind s.eng.keys k).isSome then s.putKey k { used := s.ticks, ovf := (s.slKey k).ovf } else s

/-- Entry `i` of a pattern's words. -/
def patEntry (ws : List Word) (i : Nat) : DWord := ws.getD (2 * i + 1) 0 ++ ws.getD (2 * i) 0

/-- U and V of a pattern entry, and whether they leave the lens. -/
def lensBad (u v : Int) : Bool := decide (2 ^ 28 < u * u + v * v)
def patU (e : DWord) : Int := (e.extractLsb' 32 16).toInt
def patV (e : DWord) : Int := (e.extractLsb' 48 16).toInt

/-- The check of descriptor and pattern (step 2), and what the bucket takes from them: the descriptor, the pattern, or
the cause; none where a read has to wait. DEDUCED: notes/assumptions/90. -/
def setupCheck (s : State) (v : Bucket) : Option (Except Cause (FrameDesc × List DWord)) :=
  match readDesc s v.id.dom v.id.fdAddr with
  | .error c => some (.error c)
  | .ok dw =>
    let d := descOf dw
    match engWords s v.id.dom (BitVec.ofNat 64 d.pat) (32 * d.n) with
    | .wait => none
    | .bad c => some (.error c)
    | .ok ws =>
      let es := (List.range (16 * d.n)).map (patEntry ws)
      if es.any (fun e => lensBad (patU e) (patV e)) || decide (({ v with desc := d } : Bucket).quota < ({ v with desc := d } : Bucket).baseBytes) then
        some (.error .gxSampleCfg)
      else some (.ok (d, es))

/-- BKERR's record of a failed setup. -/
def setupErr (v : Bucket) (c : Cause) : AErr := { cause := c, info := if c = .gxSampleCfg then v.name else 0 }

/-- A bucket set up on a die (R397). -/
def setup (s : State) (b die : Nat) (v : Bucket) (r : Except Cause (FrameDesc × List DWord)) : State :=
  let s := match r with
    | .ok (d, es) => s.modBkt b (fun v =>
        let v := { v with desc := d, pattern := es }
        { v with st := .resident, die := die, cnt := { v.cnt with occ := v.baseBytes } })
    | .error c => bktFail (s.modBkt b (fun v =>
        { v with st := .resident, die := die, cnt := { v.cnt with occ := v.baseBytes, dead := true } })) b (setupErr v c)
  let s := match s.bkt b with
    | some v => v.keys.foldl (fun s k => initKey s v.id.dom k) s
    | none => s
  forwardAll (v.inP.length + v.inG.length) s b

/-- BUCKET_SETUP: the first entry of a deque that is not fixed to a core carries a bucket that can start on the die. -/
def setupStep (s : State) (die dom q : Nat) : State :=
  match (looseEnts s die dom q).head? with
  | none => s
  | some e =>
    match e.bucket.bind (fun b => (s.bkt b).map (fun v => (b, v))) with
    | none => s
    | some (b, v) =>
      if v.st ≠ .waiting || !dieWorks s die || !dieFits s die e || !storeRoom s die v.quota then s
      else match setupCheck s v with
        | none => s
        | some r => setup s b die v r

def execBucketSetup (st : State) : Host.Outcome State Fault Refusal := event (setupStep st (st.op 0) (st.op 1) (st.op 2))

/-- GRID_FORWARD: an item appended to a resident bucket's list. -/
def execGridForward (st : State) : Host.Outcome State Fault Refusal := event (forwardOne st (st.op 0))

/-- BUCKET_CLOSE (R400). -/
def execBucketClose (st : State) : Host.Outcome State Fault Refusal :=
  event (match st.bkt (st.op 0) with
    | none => st
    | some v =>
      if v.st = .resident && forwarded st (st.op 0) v && earlierDone st v then
        st.modBkt (st.op 0) (fun v => { v with st := .closed })
      else st)

/-- A ready bucket record on a die that comes before a bucket in frame order, and for which `p` holds. -/
def earlierReady (s : State) (die : Nat) (v : Bucket) (p : DqEnt → Bucket → Bool) : Bool :=
  (s.sched.deques.filter (fun d => decide (d.1 / 512 = die))).any (fun d => d.2.any (fun e =>
    match e.bucket.bind s.bkt with
    | none => false
    | some u => decide (u.id.task = v.id.task) && ordLt u.id.order v.id.order && p e u))

/-- The bucket has finished its own work: no job, no patch, no grid. -/
def ownDone (s : State) (b : Nat) (v : Bucket) : Bool :=
  v.slots.isEmpty && v.grids.isEmpty && v.inP.isEmpty && v.inG.isEmpty && !dicing s b &&
    !s.gfx.stus.any (fun j => decide (j.bucket = b)) && !s.gfx.wbs.any (fun j => decide (j.bucket = b))

/-- PARK (R401). -/
def execPark (st : State) : Host.Outcome State Fault Refusal :=
  event (match st.bkt (st.op 0) with
    | none => st
    | some v =>
      if v.st = .resident && !v.cnt.split && ownDone st (st.op 0) v && !earlierDone st v && fenRoom st v.id.dom v.baseBytes &&
          earlierReady st v.die v (fun _ u => decide (u.st = .waiting) && !storeRoom st v.die u.quota) then
        st.modBkt (st.op 0) (fun v => { v with st := .parked })
      else st)

/-- BUCKET_RELOAD (R401). -/
def execBucketReload (st : State) : Host.Outcome State Fault Refusal :=
  event (match st.bkt (st.op 0) with
    | none => st
    | some v =>
      if v.st = .parked && earlierDone st v && storeRoom st v.die v.quota && dieWorks st v.die then
        st.modBkt (st.op 0) (fun v => { v with st := .resident })
      else st)

/-- A slice of the crew waits in BKDONE or BKNEXT. -/
def bkWaits (s : State) (c : Nat) : Bool :=
  s.work.outs.any (fun p => decide (p.2.kind = .graphics) && decide (p.2.gang / 16 = c)) ||
    (s.gangsOf c).any (fun p => p.2.slices.any (fun sl => sl.block.any (fun b => b.bk)))

/-- A crew that waits in BKDONE or BKNEXT for earlier buckets, while an earlier bucket's record finds no slot (R401). -/
def bktEvict (s : State) (c : Nat) : Bool :=
  match (s.ceng c).bkt.cur.bind s.bkt, (s.crew c).bind Crew.core? with
  | some v, some core =>
    crewBlocked s c && bkWaits s c && (decide (v.st = .parked) || !earlierDone s v) &&
      earlierReady s (coreDie core) v (fun e _ => !dieFits s (coreDie core) e)
  | _, _ => false

/-! ### Dicer jobs (R404 to R407, R422) -/

/-- The patch of a dicer job: its words, a wait, or the failure of a read. -/
def jobPatch (s : State) (j : DicerJob) (dom : Nat) : RdRes :=
  match j.patch with
  | some p => .ok s p.w
  | none =>
    match raySpan s j.core dom j.gang j.num j.got j.va 1 with
    | .ok s1 w0 => raySpan s1 j.core dom j.gang j.num j.got j.va (patchLen (w0.headD 0))
    | r => r

/-- GX_PATCH_BAD of a job. DEDUCED: notes/assumptions/84. -/
def patchBad (j : DicerJob) : AErr := { cause := .gxPatchBad, info := BitVec.ofNat 32 j.slot }

/-- A half of a split placed (R405). -/
def placeHalf (s : State) (j : DicerJob) (p : Patch) : State :=
  if 32 ≤ p.depth then bktFail s j.bucket (patchBad j) else givePatch s j.bucket p

/-- A patch diced or split. -/
def dicePatch (s : State) (j : DicerJob) (p : Patch) : State :=
  if j.fn ≠ 0 then giveGrid s j.bucket (p.dice j.fn j.fm)
  else
    let c := p.counts
    if 16 < c.1 ∨ 16 < c.2 then
      let alongS := decide (c.2 ≤ c.1)
      placeHalf (placeHalf s j (p.half alongS false)) j (p.half alongS true)
    else giveGrid s j.bucket (p.dice c.1 c.2)

/-- A patch in global form goes where R394 would bin it; it is diced where that is the job's own bucket (R422). -/
def diceGlobal (s : State) (j : DicerJob) (v : Bucket) (p : Patch) : State :=
  match firstLeaf s v.id.task p.bound v.id.order with
  | none => s
  | some (t, _) => if t = j.bucket then dicePatch s j p else appendPatch s j.bucket t p

/-- Dicer job `k` runs (DICER_JOB). -/
def dicerStep (s : State) (k : Nat) : State :=
  match s.gfx.dicers[k]? with
  | none => s
  | some j =>
    match s.bkt j.bucket with
    | none => endPkts { s with gfx.dicers := dropAt s.gfx.dicers k } j.num
    | some v =>
      match jobPatch s j v.id.dom with
      | .wait s => s
      | .more s va w => { s with gfx.dicers := putAt s.gfx.dicers k { j with got := (va, w) :: j.got } }
      | .bad e => bktFail (endPkts { s with gfx.dicers := dropAt s.gfx.dicers k } j.num) j.bucket e
      | .ok s ws =>
        let s := { s with gfx.dicers := dropAt s.gfx.dicers k }
        let p : Patch := { w := ws, depth := (j.patch.map (fun p => p.depth)).getD 0 }
        if !p.ok then bktFail s j.bucket (patchBad j)
        else if j.patch.isSome then dicePatch s j p else diceGlobal s j v p

def execDicerJob (st : State) : Host.Outcome State Fault Refusal := event (dicerStep st (st.op 0))

/-! ### Write-back and sampling (R409, R410, R413 to R418) -/

/-- Write-back job `k` (WRITE_BACK_JOB). -/
def execWriteBackJob (st : State) : Host.Outcome State Fault Refusal :=
  event (match st.gfx.wbs[st.op 0]? with
    | none => st
    | some j =>
      { st.modBkt j.bucket (fun v => { v with grids := smModify v.grids j.grid (fun g =>
          { g with vout := j.recs.foldl (fun m p => smSet m p.1 p.2) g.vout }) }) with
        gfx.wbs := dropAt st.gfx.wbs (st.op 0) })

/-- A sample: its screen position, time and lens point. -/
structure Smp where
  xs : Int
  ys : Int
  t : Int
  u : Int
  v : Int

/-- A vertex placed at a sample (VertAt, R413), from its seven position words: X0, Y0, X1, Y1, Z0, Z1, {C1, C0}. -/
def vertAt (w : List Word) (p : Smp) : Int × Int × Int :=
  let g := fun k => (w.getD k 0).toInt
  let z := fun k => ((w.getD k 0).toNat : Int)
  let c0 := sfld (w.getD 6 0) 0 16
  let c1 := sfld (w.getD 6 0) 16 16
  let ct := c0 + roundNE (p.t * (c1 - c0)) 16
  (g 0 + roundNE (p.t * (g 2 - g 0)) 16 + roundNE (p.u * ct) 14, g 1 + roundNE (p.t * (g 3 - g 1)) 16 + roundNE (p.v * ct) 14,
   z 4 + roundNE (p.t * (z 5 - z 4)) 16)

/-- TopLeft (Table 13-9). -/
def topLeft (a b : Int × Int × Int) : Bool := (decide (b.2.1 = a.2.1) && decide (a.1 < b.1)) || decide (b.2.1 < a.2.1)

/-- One edge keeps the sample. -/
def edgeIn (p : Smp) (a b : Int × Int × Int) : Bool :=
  let e := (b.1 - a.1) * (p.ys - a.2.1) - (b.2.1 - a.2.1) * (p.xs - a.1)
  decide (0 < e) || (decide (e = 0) && topLeft a b)

/-- Covers (R414). -/
def covers (q0 q1 q2 : Int × Int × Int) (p : Smp) : Bool :=
  let a := (q1.1 - q0.1) * (q2.2.1 - q0.2.1) - (q1.2.1 - q0.2.1) * (q2.1 - q0.1)
  if a = 0 then false
  else
    let r1 := if a < 0 then q2 else q1
    let r2 := if a < 0 then q1 else q2
    edgeIn p q0 r1 && edgeIn p r1 r2 && edgeIn p r2 q0

/-- The least depth of a triangle's vertices. -/
def leastZ (q0 q1 q2 : Int × Int × Int) : Int := min q0.2.2 (min q1.2.2 q2.2.2)

/-- A fragment: its depth and its four channels (R416). -/
structure Frag where
  z : Int
  ch : List FV

/-- Channel `c` of an output record: R, G, B, A. -/
def outCh (w : List Word) (c : Nat) : FV := val .f16 (fld (w.getD (7 + c / 2) 0).toNat (16 * (c % 2)) 16)

/-- The channels of a micropolygon from its corners. -/
def fragCh (v00 v10 v01 v11 : List Word) : List FV :=
  (List.range 4).map (fun c =>
    round .f32 0 ((FV.fin false 1 (-2)).mul (sum32 0 [sum32 0 [outCh v00 c, outCh v10 c], sum32 0 [outCh v01 c, outCh v11 c]])))

/-- The fragments of micropolygon (i, j) at a sample: T0, then T1. -/
def fragsAt (g : Grid) (p : Smp) (i j : Nat) : List Frag :=
  let o := fun (i j : Nat) => smGet [] g.vout (j * (g.n + 1) + i)
  let q := fun (i j : Nat) => vertAt (o i j) p
  let ch := fragCh (o i j) (o (i + 1) j) (o i (j + 1)) (o (i + 1) (j + 1))
  let t0 := if covers (q i j) (q (i + 1) j) (q (i + 1) (j + 1)) p then
    [{ z := leastZ (q i j) (q (i + 1) j) (q (i + 1) (j + 1)), ch := ch }] else []
  let t1 := if covers (q i j) (q (i + 1) (j + 1)) (q i (j + 1)) p then
    [{ z := leastZ (q i j) (q (i + 1) (j + 1)) (q i (j + 1)), ch := ch }] else []
  t0 ++ t1

/-- A fragment applied to a sample record (R417). -/
def applyFrag (blnd : Bool) (r : DWord × Word) (f : Frag) : DWord × Word :=
  if (r.2.toNat : Int) ≤ f.z then r
  else
    let a := f.ch.getD 3 fzero
    let old := fun c => val .f16 (fld r.1.toNat (16 * c) 16)
    let new := fun c =>
      let x := f.ch.getD c fzero
      enc .f16 (round .f16 0 (if blnd then sumV 0 [x, (sumV 0 [fone, a.neg]).mul (old c)] else x))
    (BitVec.ofNat 64 (new 0 + new 1 * 2 ^ 16 + new 2 * 2 ^ 32 + new 3 * 2 ^ 48), if blnd then r.2 else BitVec.ofInt 32 f.z)

/-- Sample `k` of pixel (px, py) of a bucket. -/
def Bucket.smp (v : Bucket) (px py k : Nat) : Smp :=
  let e := v.pattern.getD ((py % 4 * 4 + px % 4) * v.desc.n + k) 0
  { xs := 256 * px + fld e.toNat 0 8, ys := 256 * py + fld e.toNat 8 8, t := fld e.toNat 16 16, u := patU e, v := patV e }

/-- The key of a sample's record. -/
def smpKey (px py k : Nat) : Nat := (py * 16384 + px) * 64 + k

/-- The samples of a bucket's tile that lie in the frame. -/
def Bucket.tileSmps (v : Bucket) (key : Word) : List (Nat × Nat × Nat) :=
  let tx := fld key.toNat 0 12
  let ty := fld key.toNat 12 12
  (List.range 4).flatMap (fun b => (List.range 4).flatMap (fun a =>
    if 4 * tx + a < v.desc.fw ∧ 4 * ty + b < v.desc.fh then
      (List.range v.desc.n).map (fun k => (4 * tx + a, 4 * ty + b, k)) else []))

/-- A grid's fragments applied to a tile of its bucket. -/
def sampleTile (v : Bucket) (g : Grid) (key : Word) : Bucket :=
  (v.tileSmps key).foldl (fun v p =>
    let sp := v.smp p.1 p.2.1 p.2.2
    let k := smpKey p.1 p.2.1 p.2.2
    let fs := (List.range g.m).flatMap (fun j => (List.range g.n).flatMap (fun i => fragsAt g sp i j))
    let r := fs.foldl (applyFrag g.patch.blnd) (smGet (v.desc.clr, v.desc.clz) v.samples k)
    { v with samples := smPut (v.desc.clr, v.desc.clz) v.samples k r }) v

/-- A sampled grid forwarded to every later bucket that it overlaps, and gone from its slot (R410, R399). -/
def finishGrid (s : State) (k : Nat) (j : StuJob) (v : Bucket) (g : Grid) : State :=
  let dest := (leaves s v.id.task).filter (fun p =>
    ordLt v.id.order p.2.id.order && g.scope.isPrefixOf p.2.id.order && p.2.meets g.outBound)
  let s := dest.foldl (fun s p =>
    appendGrid s j.bucket p.1 { g with received := true, rank := none, inFen := false, scope := p.2.id.order }) s
  let s := s.modBkt j.bucket (fun v =>
    { v with grids := smErase v.grids j.grid, cnt := { v.cnt with occ := v.cnt.occ - (if g.inFen then 0 else g.bytes) } })
  { s with gfx.stus := dropAt s.gfx.stus k }

/-- A job passes a tile: in rank order, through its key; a job that has failed, or of a bucket that takes no samples,
applies nothing (R418). DEDUCED: notes/assumptions/89. -/
def passTile (s : State) (k : Nat) (j : StuJob) (v : Bucket) (g : Grid) (rank : Nat) (key : Word) : State :=
  let n := slNum v.id.dom 1 key
  let next := { j with tiles := j.tiles + 1 }
  let failed := fun (e : AErr) =>
    bktFail { s with gfx.stus := putAt s.gfx.stus k { next with failed := true } } j.bucket e
  if keyFenced s v.id.dom 1 key then failed { cause := .homeFenced, info := BitVec.ofNat 32 (keyDie v.id.dom 1 key) }
  else match ensureKey s n with
    | none => s
    | some s1 =>
      let e := s1.slKey n
      if e.brk then failed { cause := .slBroken, info := key }
      else if e.hld || e.ne ≠ BitVec.ofNat 32 rank then s
      else
        let s1 := s1.putKey n { e with ne := e.ne + 1, used := s.ticks }
        let s1 := if j.failed || v.cnt.dead then s1 else s1.modBkt j.bucket (fun v => sampleTile v g key)
        { s1 with gfx.stus := putAt s1.gfx.stus k next }

/-- STU job `k` goes on (STU_JOB), once every vertex and every write-back of its grid has been written (R410, R419). -/
def stuStep (s : State) (k : Nat) : State :=
  match s.gfx.stus[k]? with
  | none => s
  | some j =>
    match s.bkt j.bucket with
    | none => s
    | some v =>
      match smFind v.grids j.grid with
      | none => s
      | some g =>
        if g.vout.length < g.verts || s.gfx.wbs.any (fun w => decide (w.bucket = j.bucket) && decide (w.grid = j.grid)) then s
        else match v.keys[j.tiles]?, g.rank with
          | some key, some r => passTile s k j v g r key
          | _, _ => finishGrid s k j v g

def execStuJob (st : State) : Host.Outcome State Fault Refusal := event (stuStep st (st.op 0))

/-! ### Checks of the instructions (R407, R420, R421) -/

/-- GX_NOBUCKET. -/
def noBucket (x : Cx) (slot : Nat) : TrapReq := { cause := .gxNobucket, lanes := x.all, detail := BitVec.ofNat 32 slot }

/-- A word of this chapter that waits, with the operand `w` that it read; a BKNEXT or BKDONE (`bk`) issues again on a
resume. -/
def bkWait (st : State) (x : Cx) (bk : Bool) (w : Word) : Res :=
  .block (st.modSl x (fun _ sl => { sl with block := some { sl.block.getD {} with args := [w.toNat], bk := bk } }))

/-- A crew's current bucket. -/
def curBkt (s : State) (c : Nat) : Option (Nat × Bucket) :=
  (s.ceng c).bkt.cur.bind (fun b => (s.bkt b).map (fun v => (b, v)))

/-- A word of this chapter: a pending BKERR where the word issues, then the current bucket; `gone` is what a word that
has waited comes to where its bucket has gone meanwhile. -/
def bktWaits (st : State) (x : Cx) (slot : Nat) (gone : Res) (body : Nat → Bucket → Res) : Res :=
  if x.held.isEmpty then
    bkFirst st x (match curBkt st x.crewNo with
      | none => .trap st (noBucket x slot)
      | some (b, v) => body b v)
  else match curBkt st x.crewNo with
    | none => gone
    | some (b, v) => body b v

/-- A word of this chapter that does not wait. -/
def bktBody (st : State) (x : Cx) (slot : Nat) (body : Nat → Bucket → Res) : Res :=
  bktWaits st x slot (.trap st (noBucket x slot)) body

/-- The live grid that a handle names (R407). -/
def liveGrid (v : Bucket) (h : Word) : Option (Nat × Grid) :=
  let k := fld h.toNat 0 16
  match smFind v.grids k with
  | none => none
  | some g => if g.gen = fld h.toNat 16 12 ∧ fld h.toNat 28 4 = 0 ∧ g.rank = none ∧ !g.received then some (k, g) else none

/-- A word that names a live grid. -/
def gridBody (st : State) (x : Cx) (h : Word) (body : Nat → Bucket → Nat → Grid → Res) : Res :=
  bktBody st x (fld h.toNat 0 16) (fun b v => match liveGrid v h with
    | none => .trap st (noBucket x (fld h.toNat 0 16))
    | some (k, g) => body b v k g)

/-! ### DICE (R422) -/

/-- A patch reference that breaks R422 in bucket `v`. -/
def refBroken (v : Bucket) (r : DWord) : Bool :=
  let f := fld r.toNat 62 2
  decide (2 ≤ f) ||
  (if f = 1 then decide (fld r.toNat 16 46 ≠ 0) || (smFind v.slots (fld r.toNat 0 16)).isNone else decide (fld r.toNat 57 5 ≠ 0))

/-- The slot that a reference names, for a record. -/
def refSlot (r : DWord) : Nat := if fld r.toNat 62 2 = 0 then 0 else fld r.toNat 0 16

/-- A dicer job forked. -/
def forkDicer (st : State) (x : Cx) (b : Nat) (j : DicerJob) : State :=
  { st with work.next := st.work.next + 1, gfx.dicers := st.gfx.dicers ++
      [{ j with bucket := b, num := st.work.next, gang := x.cur.gang, crew := x.crewNo, core := x.core }] }

/-- A patch slot freed: its bytes leave OCC. -/
def freeSlot (v : Bucket) (k : Nat) (p : PatchSlot) : Bucket :=
  { v with slots := smErase v.slots k, cnt := { v.cnt with occ := v.cnt.occ - (if p.inFen then 0 else 512) } }

def execDice (c : Bool) (a b : Fin 64) (st : State) : Host.Outcome State Fault Refusal :=
  issue (.dice c a b) st (fun st x =>
    let r := x.s2 a.val
    let fn := fld (x.s b.val).toNat 0 5
    let fm := fld (x.s b.val).toNat 8 5
    let t := fun (k : Cause) => ({ cause := k, lanes := x.all, detail := BitVec.ofNat 32 (refSlot r) } : TrapReq)
    bktBody st x (refSlot r) (fun b v =>
      if refBroken v r then .trap st (t .gxPatchBad)
      else if (fn = 0) ≠ (fm = 0) ∨ 16 < fn ∨ 16 < fm then .trap st (t .gxGridSize)
      else if fld r.toNat 62 2 = 1 then
        match smFind v.slots (refSlot r) with
        | none => .trap st (t .gxPatchBad)
        | some p =>
          .done (forkDicer (st.modBkt b (fun v => freeSlot v (refSlot r) p)) x b
            { slot := refSlot r, patch := some p.patch, fn := fn, fm := fm })
      else
        let base := (segOf st x.dom x.hnd x.src.r 0).base
        if r.toNat % 32 ≠ 0 then .trap st { cause := .atomAlign, lanes := x.all, addr := r }
        else match checkAddr st x 0 0 r 32 .read 1 with
          | .error f => .trap st (onceFail x base r f)
          | .ok _ =>
            .done (forkDicer (fillTlb st x.core x.dom (base + r).toNat) x b { va := base + r, fn := fn, fm := fm })))

/-! ### GSH, GWB, GEMIT (R408, R409, R423 to R425) -/

/-- The eight words of vertex `k` of a grid, or the empty record (Table 13-4). -/
def vertexRec (g : Grid) (k : Nat) : List Word :=
  if k < g.verts then
    let h := fun (i n : Nat) => enc .f16 (round .f16 0 ((FV.fin false i 0).quot (.fin false n 0)))
    (List.range 6).map (fun c => g.vin.getD (6 * k + c) 0) ++
      [BitVec.ofNat 32 (h (k / (g.n + 1)) g.m * 2 ^ 16 + h (k % (g.n + 1)) g.n), BitVec.ofNat 32 (g.patch.pid * 2 ^ 16 + k)]
  else [0, 0, 0, 0, 0, 0, 0, 0x8000]

def execGsh (c : Bool) (d a : Fin 64) (l : Fin 16) (st : State) : Host.Outcome State Fault Refusal :=
  issue (.gsh c d a l) st (fun st x =>
    gridBody st x (x.s a.val) (fun b _ k g =>
      let ws := x.lanes.zipIdx.flatMap (fun p =>
        (vertexRec g (g.cursor + p.2)).zipIdx.map (fun q => (vkey (d.val + q.2) p.1, q.1)))
      let st := st.modBkt b (fun v => { v with grids := smModify v.grids k (fun g =>
        { g with cursor := min g.verts (g.cursor + x.lanes.length) }) })
      .done (st.modRegs x (fun r => r.putV ws))))

/-- The output record of a lane. -/
def outRec (x : Cx) (a i : Nat) : List Word := (List.range 10).map (fun k => x.v (a + k) i)

/-- The control-point box of a patch widened by DB (R424). -/
def Patch.dbBox (p : Patch) : Box := boxOf p.points (fix256 p.db)

/-- An output record that leaves its patch's bounds. -/
def outBad (p : Patch) (w : List Word) : Bool :=
  let b := p.dbBox
  let g := fun k => fix256 (w.getD k 0).toInt
  let out := fun (lo hi : Int) (k : Nat) => decide (g k < lo) || decide (hi < g k)
  out b.x0 b.x1 0 || out b.y0 b.y1 1 || out b.x0 b.x1 2 || out b.y0 b.y1 3 ||
    decide (p.cmax < (sfld (w.getD 6 0) 0 16).natAbs) || decide (p.cmax < (sfld (w.getD 6 0) 16 16).natAbs)

def execGwb (c : Bool) (a b : Fin 64) (st : State) : Host.Outcome State Fault Refusal :=
  issue (.gwb c a b) st (fun st x =>
    gridBody st x (x.s b.val) (fun bk _ k g =>
      let ls := x.lanes.filter (fun i => !(x.v (a.val + 9) i).getLsbD 15)
      let ix := fun i => fld (x.v (a.val + 9) i).toNat 0 9
      let far := ls.filter (fun i => decide (g.verts ≤ ix i))
      let bad := ls.filter (fun i => outBad g.patch (outRec x a.val i))
      let t := fun (q : Cause) (l : List Nat) => ({ cause := q, lanes := lanesOf l, detail := BitVec.ofNat 32 k } : TrapReq)
      if !far.isEmpty then .trap st (t .gxGridSize far)
      else if !bad.isEmpty then .trap st (t .gxPatchBad bad)
      else .done { st with gfx.wbs := st.gfx.wbs ++
        [{ bucket := bk, grid := k, recs := ls.map (fun i => (ix i, (outRec x a.val i).take 9)) }] }))

def execGemit (c : Bool) (a : Fin 64) (st : State) : Host.Outcome State Fault Refusal :=
  issue (.gemit c a) st (fun st x =>
    gridBody st x (x.s a.val) (fun b v k _ =>
      let st := st.modBkt b (fun u => { u with grids := smModify u.grids k (fun g => { g with rank := some v.cnt.nem }),
                                               cnt := { u.cnt with nem := u.cnt.nem + 1 } })
      .done { st with gfx.stus := st.gfx.stus ++ [{ bucket := b, grid := k }] }))

/-! ### STQ (R426) -/

/-- A lane's sample. -/
def laneSmp (x : Cx) (a i : Nat) : Smp :=
  { xs := (x.v a i).toInt, ys := (x.v (a + 1) i).toInt, t := fld (x.v (a + 3) i).toNat 0 16,
    u := sfld (x.v (a + 2) i) 0 16, v := sfld (x.v (a + 2) i) 16 16 }

/-- STQ's two results for a sample, from the 28 words of a micropolygon record. -/
def stqLane (ws : List Word) (p : Smp) : Word × Word :=
  let q := fun k => vertAt ((ws.drop (7 * k)).take 7) p
  let q00 := q 0
  let q10 := q 1
  let q01 := q 2
  let q11 := q 3
  let c0 := covers q00 q10 q11 p
  let c1 := covers q00 q11 q01 p
  (BitVec.ofNat 32 (bitN c0 + 2 * bitN c1),
   if c0 then BitVec.ofInt 32 (leastZ q00 q10 q11) else if c1 then BitVec.ofInt 32 (leastZ q00 q11 q01) else 0xFFFFFFFF)

/-- STQ's arguments that fail: every lane of the group for the record's address, the lanes for their samples. -/
def stqBad (st : State) (x : Cx) (a : Nat) (w : Word) : Word :=
  let g := segOf st x.dom x.hnd x.src.r 1
  if fld w.toNat 20 12 ≠ 0 ∨ w.toNat % 16 ≠ 0 ∨ g.limit.toNat < w.toNat + 112 then x.all
  else lanesOf (x.lanes.filter (fun i => decide (fld (x.v (a + 3) i).toNat 16 16 ≠ 0) ||
    lensBad (sfld (x.v (a + 2) i) 0 16) (sfld (x.v (a + 2) i) 16 16)))

def execStq (c : Bool) (d a b : Fin 64) (l : Fin 16) (st : State) : Host.Outcome State Fault Refusal :=
  issue (.stq c d a b l) st (fun st x =>
    let w := x.s b.val
    if stqBad st x a.val w ≠ 0 then .trap st { cause := .gxStqArg, lanes := stqBad st x a.val w }
    else
      let pa := poundAddr x.core ((segOf st x.dom x.hnd x.src.r 1).base.toNat + w.toNat)
      if scoreHit st pa 112 then .hold st
      else match (List.range 28).find? (fun k => isPoison st.poison (pa + 4 * k)) with
        | some k => .done (addLate st x.cur.gang x.cur.pc
            { cause := .eccPound, lanes := x.all, addr := BitVec.ofNat 64 (w.toNat + 4 * k) })
        | none =>
          let ws := getWords st.mem pa 28
          .done (st.modRegs x (fun r => r.putV (x.lanes.flatMap (fun i =>
            let q := stqLane ws (laneSmp x a.val i)
            [(vkey d.val i, q.1), (vkey (d.val + 1) i, q.2)])))))

/-! ### BKNEXT (R407, R427) -/

/-- Nothing is left of a bucket and nothing can still arrive. -/
def drained (s : State) (b : Nat) (v : Bucket) : Bool :=
  v.cnt.split || (v.slots.isEmpty && v.inP.isEmpty && !dicing s b && earlierDone s v &&
    !v.grids.any (fun p => !p.2.handed && !p.2.received))

/-- A handle (R407). -/
def handleOf (k : Nat) (g : Grid) : Nat := k + g.gen * 2 ^ 16

/-- The drained item (Table 13-5). -/
def drainedItem : DWord := BitVec.ofNat 64 (3 * 2 ^ 62)

/-- The next item of a bucket, and the bucket with it handed out. DEDUCED: notes/assumptions/86. -/
def nextItem (s : State) (b : Nat) (v : Bucket) : Option (DWord × Bucket) :=
  match v.slots.find? (fun p => !p.2.handed) with
  | some p => some (BitVec.ofNat 64 (2 ^ 62 + p.1), { v with slots := smModify v.slots p.1 (fun q => { q with handed := true }) })
  | none =>
    match v.grids.find? (fun p => !p.2.handed && !p.2.received) with
    | some p =>
      some (BitVec.ofNat 64 (2 ^ 63 + handleOf p.1 p.2),
        { v with grids := smModify v.grids p.1 (fun g => { g with handed := true }), cnt := { v.cnt with handedGrid := true } })
    | none => if drained s b v then some (drainedItem, v) else none

/-- BKNEXT (R407): an item that is there at once; with none, LA = 0 waits at the word and LA above 0 is outstanding.
DEDUCED: notes/assumptions/91. -/
def execBknext (c : Bool) (d : Fin 64) (l : Fin 16) (st : State) : Host.Outcome State Fault Refusal :=
  issue (.bknext c d l) st (fun st x =>
    bktWaits st x 0 (.done (st.putS2 x d.val drainedItem)) (fun b v =>
      match nextItem st b v with
      | some (w, v) => .done ((st.modBkt b (fun _ => v)).putS2 x d.val w)
      | none =>
        if l.val = 0 then bkWait st x true 0
        else .done (openOut st x { kind := .graphics, gang := x.cur.gang, grp := x.cur.grp, pc := x.cur.pc, npc := x.cur.last + 1,
                                   dstS := [d.val, d.val + 1] } l.val)))

/-- An outstanding BKNEXT takes an item that has become ready; one whose bucket is gone finds it drained. -/
def takeNext (s : State) (id : Nat) (o : Out) : State :=
  let give := fun (s : State) (w : DWord) =>
    let o := { o with wrS := [(o.dstS.headD 0, loW w), (o.dstS.headD 0 + 1, hiW w)] }
    closeOut (writeOut s o) id
  match curBkt s (o.gang / 16) with
  | none => give s drainedItem
  | some (b, v) =>
    match nextItem s b v with
    | none => s
    | some (w, v) => give (s.modBkt b (fun _ => v)) w

/-- Every outstanding BKNEXT of a resident crew looks for its item (R427: the wait is woken by its cause). -/
def tickNext (s : State) : State :=
  (s.work.outs.filter (fun p => decide (p.2.kind = .graphics) && gangResident s p.2.gang)).foldl (fun s p => takeNext s p.1 p.2) s

/-! ### BKDONE, BKSPL (R428, R429) -/

/-- The words of a bucket's sample records with their addresses (R412). -/
def sampleWords (v : Bucket) : List (DWord × Word) :=
  let n := v.desc.n
  (List.range (min v.id.bw (v.desc.fh - v.id.byy))).flatMap (fun j =>
    (List.range (min v.id.bw (v.desc.fw - v.id.bx))).flatMap (fun i =>
      (List.range n).flatMap (fun k =>
        let px := v.id.bx + i
        let py := v.id.byy + j
        let r := smGet (v.desc.clr, v.desc.clz) v.samples (smpKey px py k)
        let a := v.desc.sbuf + 16 * ((py * v.desc.fw + px) * n + k)
        [loW r.1, hiW r.1, r.2, (0 : Word)].zipIdx.map (fun q => (BitVec.ofNat 64 (a + 4 * q.2), q.1)))))

/-- What a word written for BKDONE meets: its place, or the failure. -/
def sampleXl (s : State) (core dom : Nat) (va : DWord) : Except AErr Nat :=
  match checkVa s core dom va 0 .write 1 with
  | .error f => .error { cause := f.cause, info := f.detail, addr := va }
  | .ok pa =>
    match homeFail s (lineOf pa) with
    | some .homeFenced => .error { cause := .homeFenced, info := BitVec.ofNat 32 (lineDie (lineOf pa)), addr := va }
    | some c => .error { cause := c, addr := va }
    | none => .ok pa

/-- One word of a sample record written. -/
def writeSample (b core dom : Nat) (s : State) (p : DWord × Word) : State :=
  match sampleXl s core dom p.1 with
  | .error e => bktFail s b e
  | .ok pa => engineWord (enginePush (fillTlb s core dom p.1.toNat) core (lineOf pa)) core pa p.2 0xF false

/-- SLCLOSE of a composite key at NEM: a key that has reached it retires. -/
def closeKey (s : State) (dom nem : Nat) (key : Word) : State :=
  let k := slNum dom 1 key
  if keyFenced s dom 1 key || (smFind s.eng.keys k).isNone then s
  else settleKey (s.putKey k { s.slKey k with clp := true, fin := BitVec.ofNat 32 nem }) k

/-- The current bucket of a crew cleared. -/
def clearBucket (s : State) (c : Nat) : State := s.modCeng c (fun e => { e with bkt := { e.bkt with cur := none } })

/-- A closed bucket's records written, its keys closed, its quota released. -/
def finishBucket (s : State) (b : Nat) (v : Bucket) (core : Nat) : State :=
  let s := if v.cnt.dead then s else (sampleWords v).foldl (writeSample b core v.id.dom) s
  let s := v.keys.foldl (fun s k => closeKey s v.id.dom v.cnt.nem k) s
  s.modBkt b (fun v => { v with st := .released, samples := [], cnt := { v.cnt with occ := 0 } })

/-- A line of the sample buffer that a home transaction holds. -/
def samplesBusy (s : State) (v : Bucket) (core g num : Nat) : Bool :=
  (sampleWords v).any (fun p => match sampleXl s core v.id.dom p.1 with
    | .ok pa => !engineReady s num g core (lineOf pa)
    | .error _ => false)

/-- A word that names the current bucket as {BY, BX}; one that waits keeps the name it read, and has nothing left to do
where its bucket has gone. DEDUCED: notes/assumptions/165. -/
def namedBody (st : State) (x : Cx) (w : Word) (body : Word → Nat → Bucket → Res) : Res :=
  let w := nw ((x.heldOr [w.toNat]).headD 0)
  bktWaits st x 0 (.done st) (fun b v => if w ≠ v.name then .trap st (noBucket x 0) else body w b v)

def execBkdone (c : Bool) (a : Fin 64) (st : State) : Host.Outcome State Fault Refusal :=
  issue (.bkdone c a) st (fun st x =>
    namedBody st x (x.s a.val) (fun w b v =>
      let st := st.modBkt b (fun v => { v with cnt := { v.cnt with done := true } })
      if v.cnt.split then .done (clearBucket st x.crewNo)
      else if v.st ≠ .closed || (!v.cnt.dead && samplesBusy st v x.core x.cur.gang st.work.next) then bkWait st x true w
      else .done (clearBucket (finishBucket st b v x.core) x.crewNo)))

/-- BKSPL (R429). A bucket that has split already stands; the checks are made again while the word waits. DESIGN CHOICE: notes/assumptions/164. -/
def execBkspl (c : Bool) (a : Fin 64) (st : State) : Host.Outcome State Fault Refusal :=
  issue (.bkspl c a) st (fun st x =>
    namedBody st x (x.s a.val) (fun w b v =>
      if v.cnt.split then .done st
      else if v.id.bw = 8 || v.cnt.handedGrid then .trap st { cause := .gxBucketQuota, lanes := x.all }
      else if dicing st b then bkWait st x false w
      else .done (splitBkt st b)))

end Sys2Proof.Machine
end

