-- ==== Sys2Proof/Machine/Evict.lean ====
section
/-! DEFINITION. Eviction, swap-out and resume (12.5), service delivery and the resume that answers it (R465), and the
context transfers CTXSV and CTXLD (R488). -/

namespace Sys2Proof.Machine
open Sys2Proof

/-! ### Leaving a core (R376, R377 step 1) -/

/-- The resident crews of a crew's team, itself among them (R379). -/
def residentTeam (s : State) (c : Nat) : List Nat :=
  match s.crew c with
  | none => []
  | some w =>
    if kwKind w.kw ≠ 1 then [c]
    else (s.work.crews.filter (fun p => p.2.core?.isSome && decide (p.2.task = w.task) &&
      decide (p.2.crewid.toNat / 4 = w.crewid.toNat / 4))).map (fun p => p.1)

/-- The crew and its resident team stop at chain boundaries: the crew for `k`, the others for PREEMPT. -/
def beginLeave (s : State) (c : Nat) (k : Cause) : State :=
  (residentTeam s c).foldl (fun s d => s.modCrew d (fun w =>
    if w.leaving.isSome then w else { w with leaving := some (if d = c then k else .preempt) })) s

/-- A slot of the crew has EVP set, and its time of grace after a resume is over (R376). -/
def evpDue (s : State) (c : Nat) (w : Crew) (core : Nat) : Bool :=
  (!w.resumed || decide (10000 ≤ s.time - w.since)) &&
  (List.range 16).any (fun k => (s.slotWord core k).getLsbD 17 && (slotCrew s core k).any (fun p => decide (p.1 = c)))

/-- `a` is evicted before `b` (R376): blocked crews, then ascending priority, then the youngest. -/
def evictBefore (s : State) (a b : Nat × Crew) : Bool :=
  let ba := crewBlocked s a.1
  let bb := crewBlocked s b.1
  if ba != bb then ba
  else decide (kwPri a.2.kw < kwPri b.2.kw) || (decide (kwPri a.2.kw = kwPri b.2.kw) && decide (b.2.since < a.2.since))

/-- The crew is the one its core evicts next: none is leaving, none that is due goes before it. DEDUCED: notes/assumptions/99. -/
def evictNext (s : State) (c : Nat) (w : Crew) (core : Nat) : Bool :=
  let on := (crewsOn s core).filter (fun p => p.2.core?.isSome)
  !on.any (fun p => p.2.leaving.isSome) && evpDue s c w core &&
  on.all (fun p => decide (p.1 = c) || !evpDue s p.1 p.2 core || !evictBefore s p (c, w))

/-- A reason to evict the crew: EVP, an orderly fence of its die (R501), earlier buckets that need its slots (R401). -/
def evictWhy (s : State) (c : Nat) (w : Crew) (core : Nat) : Bool :=
  evictNext s c w core ||
  (preparing s (coreDie core) && (s.ceng c).bkt.cur.isNone && decide (kwBsn w.kw = 0)) || bktEvict s c

/-! ### The save (R377 steps 2 to 8, R380) -/

/-- The BKNEXT words of the crew whose items have not come leave their windows, to issue again on resume (R83, R431). A group
that has parted since issues it once, with its lowest slice. DEDUCED: notes/assumptions/91. -/
def withdrawNext (s : State) (c : Nat) : State :=
  (s.work.outs.filter (fun p => decide (p.2.kind = .graphics) && decide (p.2.gang / 16 = c))).foldl (fun s p =>
    closeOut (s.modGang p.2.gang (fun g =>
      match g.liveSlices.find? (fun k => p.2.grp.getLsbD k) with
      | none => g
      | some k => g.modSlices (g.slice k).grp (fun sl => { sl with again := sl.again ++ [(p.2.pc, p.2.hnd)] }))) p.1) s

/-- A slice whose crew resumes: a BKNEXT or BKDONE that it waits at issues again (R431). -/
def Slice.resumed (sl : Slice) : Slice :=
  { sl with block := sl.block.map (fun b => if b.bk then { b with args := [] } else b) }

/-- The context slot that a save takes: a free one on the crew's die; on another die where a fence of the crew's die is
being prepared (R501). DEDUCED: notes/assumptions/100. -/
def freeCtx (s : State) (dom die : Nat) : Option (Nat × (Nat × Nat)) :=
  let d := (s.domain dom).set_
  let ok := fun (k : Nat) => decide ((s.die k).st = .admitted) &&
    (if preparing s die then decide (k ≠ die) && !preparing s k else decide (k = die))
  (d.ctx.zipIdx.find? (fun p => ok p.1.1 && !d.ctxUse.any (fun u => decide (u.1 = p.2)))).map (fun p => (p.2, p.1))

/-- Regions of an image written, word by word. `place` gives a word's package address. -/
def writeImage (s : State) (core : Nat) (place : Nat → Nat) (rs : List ImgRegion) : State :=
  rs.foldl (fun s r => r.words.zipIdx.foldl (fun s p => engineWord s core (place (r.off + 4 * p.2)) p.1.1 0xF p.1.2) s) s

/-- How far the drain of a crew has come: it waits, or steps 2 to 7 are over. -/
inductive Drain where
  | wait (s : State)
  | over (s : State)

/-- The drain goes on (R377 steps 2 to 7): the L1's release, and the wait for what is under way. -/
def drain (s : State) (c : Nat) (w : Crew) (core : Nat) : Drain :=
  if drainPushes s core then .wait (pushAll s core (16 * c) w.dom)
  else if crewQuiet s c w core then .over (settleLate s c) else .wait s

/-- The images of a die that are ready to be written and have a context slot to go to, in the order in which they became
ready (R378). -/
def readySaves (s : State) (die : Nat) : List Nat :=
  s.sched.saves.filter (fun c => (s.crew c).any (fun w => w.leaving.isSome && w.core?.any (fun k => decide (coreDie k = die)) &&
    (freeCtx s w.dom die).isSome))

/-- A crew's image becomes ready, behind those of its die that are. -/
def readySave (s : State) (c : Nat) : State :=
  if s.sched.saves.contains c then s else { s with sched.saves := s.sched.saves ++ [c] }

/-- The crew is out: its resources are free, its own queue and barrier waits withdrawn (R304, R281). -/
def goOut (s : State) (c core : Nat) (p : Place) : State :=
  let s := s.modCrew c (fun w =>
    { w with place := p, ready := s.time, ran := w.ran + (s.time - w.since), leaving := none, blockedAt := none })
  let s := unpostMx { s with sched.saves := s.sched.saves.erase c } c
  let s := quitQues { s with coh.waits := s.coh.waits.filter (fun v => decide (v.gang / 16 ≠ c)) } c
  clearEvp s core

/-- A leaving crew saved: its image written to a context slot (step 8), the crew out at the place that `p` makes of the
slot's die. Without a free slot, before the drain is over, or behind another transfer of its die (R378), it waits. -/
def saveCrew (s : State) (c : Nat) (w : Crew) (core : Nat) (i : SaveInfo) (p : Nat → Place) : Bool × State :=
  match drain s c w core with
  | .wait s => (false, s)
  | .over s =>
    let s := readySave s c
    match freeCtx s w.dom (coreDie core) with
    | none => (false, s)
    | some (k, (die, base)) =>
      if (readySaves s (coreDie core)).head? ≠ some c then (false, s)
      else
      let s := withdrawNext s c
      let s := writeImage s noCore (fun o => devAddr die (base + o)) (image s c w core i)
      let s := s.modDomain w.dom (fun d => { d with set_ := { d.set_ with ctxUse := d.set_.ctxUse ++ [(k, c)] } })
      (true, goOut s c core (p die))

/-- EVICTION of crew `c`: it begins where there is a reason, and goes on until the context is written. -/
def evict (s : State) (c : Nat) : State :=
  match s.crew c with
  | none => s
  | some w =>
    match w.core? with
    | none => s
    | some core =>
      match w.leaving with
      | none => if evictWhy s c w core then beginLeave s c .preempt else s
      | some .preempt => (saveCrew s c w core { cause := Cause.preempt.code, pre := true, core := core } .waiting).2
      | some _ => s

def execEviction (st : State) : Host.Outcome State Fault Refusal := event (evict st (st.op 0))

/-- RESIDENT_10US_ELAPSED (R376): a resumed crew's time of grace is over; a rebinding that it no longer qualifies for
evicts it. Operand: the crew. -/
def execResident10usElapsed (st : State) : Host.Outcome State Fault Refusal :=
  event (match st.crew (st.op 0) with
    | none => st
    | some w =>
      if !w.resumed || w.core?.isNone || decide (st.time - w.since < 10000) then st
      else evict (st.modCrew (st.op 0) (fun w => { w with resumed := false })) (st.op 0))

/-! ### Slot table entries (R376) -/

/-- An occupant qualifies for an entry, as a reserved slot of its queue or as an open one (R371). -/
def occupantOk (v : Word) (w : Crew) : Bool :=
  slotQual v true w.dom w.que (kwPri w.kw) || slotQual v false w.dom w.que (kwPri w.kw)

/-- A slot table entry rewritten: its reserved field reads 0 (R5), and EVP is set where the slot's occupant no longer qualifies. DEDUCED: notes/assumptions/106. -/
def slotWrite (s : State) (core k : Nat) (v : Word) : State :=
  let v := v &&& 0xFFFC0000
  let v := match slotCrew s core k with
    | some (_, w) => if w.core?.isSome && !occupantOk v w then v ||| ((1 : Word) <<< 17) else v
    | none => v
  { s with sched.slots := smPut 0 s.sched.slots (16 * core + k) v }

/-- SLOT_TABLE_WRITE (R376). Operands: core, slot, word; slot 16 is the core's reserve word (R370). -/
def execSlotTableWrite (st : State) : Host.Outcome State Fault Refusal :=
  event (let v := BitVec.ofNat 32 (st.op 2)
    if 192 ≤ st.op 0 then st
    else if st.op 1 < 16 then slotWrite st (st.op 0) (st.op 1) v
    else { st with sched.reserve := smPut 0 st.sched.reserve (st.op 0) (v &&& 0x1FFFFFFF) })

/-! ### Service delivery (R462, R465 to R467) -/

/-- A record of an imposed cause, which overrides the delivery of others (R467). -/
def TrapRec.imposed (r : TrapRec) : Bool := decide (fld r.w0.toNat 12 2 = 3)

/-- The record of a gang that goes to service next: where none is being handled, the head of its queue, or an imposed one
wherever it stands; while one is, a record that stopped the handler itself (R462, R467). DEDUCED: notes/assumptions/101. -/
def serviceRec (g : Gang) : Option TrapRec :=
  if !g.cur then
    (g.recs.head?.filter (fun r => decide (r.disp = 1))).or (g.recs.find? (fun r => decide (r.disp = 1) && r.imposed))
  else (g.recs.drop 1).find? (fun r => decide (r.disp = 1) && (r.w0.getLsbD 23 || r.imposed))

/-- SERVICE_DELIVERY: the crew of gang `gk` leaves its core for the cause of the gang's record. -/
def serviceBegin (s : State) (gk : Nat) : State :=
  match s.gang gk with
  | none => s
  | some g =>
    match serviceRec g with
    | none => s
    | some r => if crewStays s g then beginLeave s g.crew ((causeOf r.cause).getD .watchdog) else s

def execServiceDelivery (st : State) : Host.Outcome State Fault Refusal := event (serviceBegin st (st.op 0))

/-- The die that a record of HOME_FENCED or INCARNATION names. -/
def TrapRec.die (r : TrapRec) : Nat := fld r.edetail.toNat 0 3

/-- A word of the code that a record's group ran: its saved code segment, or the handler window (R505). Firmware reads it
while its home is fenced too; a lost or poisoned word it cannot read. -/
def recWordAt (s : State) (dom : Nat) (g : Gang) (r : TrapRec) (pc : Word) : Option Word :=
  let seg := segOf s dom (r.w0.getLsbD 23) g.r 7
  match engXl s dom (seg.base + BitVec.ofNat 64 (4 * pc.toNat)) .execute with
  | .error _ => none
  | .ok pa => if isLost s (lineOf pa) || (readWord s pa).2 then none else some (readWord s pa).1

/-- A chain goes on from the word at `pc`, if it can be read. -/
def chainsOn (w : Option Word) (pc : Word) : Bool := w.any (fun v => chainBit v.toNat && decide (pc.toNat % 3 ≠ 2))

/-- An LD or LDU with LA 0. -/
def plainLoad (w : Option Word) : Bool :=
  match w with
  | none => false
  | some v =>
    match decode v with
    | .ok (.ld _ _ _ _ _ _ l _) => decide (l.val = 0)
    | .ok (.ldu _ _ _ _ _ _ l _) => decide (l.val = 0)
    | _ => false

/-- The retry of a record is exact (R505): a precise cause; or a deferred one of a load that stands alone in its chain
with LA 0. DEDUCED: notes/assumptions/102. -/
def exactRetry (s : State) (dom : Nat) (g : Gang) (r : TrapRec) : Bool :=
  let at_ := recWordAt s dom g r r.epc
  let prev := if r.epc = 0 then none else recWordAt s dom g r (r.epc - 1)
  let kind := fld r.w0.toNat 12 2
  if kind = 0 then true
  else decide (kind = 1) && plainLoad at_ && !chainsOn at_ r.epc &&
    !(decide (r.epc.toNat % 3 ≠ 0) && chainsOn prev (r.epc - 1))

/-- Firmware answers the record itself (R465, R505). -/
def firmRec (s : State) (dom : Nat) (g : Gang) (r : TrapRec) : Bool :=
  (decide (r.cause = Cause.homeFenced.code) || decide (r.cause = Cause.incarnation.code)) && exactRetry s dom g r

/-! ### The answer of resume (R465) -/

/-- The words of a saved image. -/
def imgAt (s : State) (a o : Nat) : ImgWord := readWord s (a + o)

/-- One slice of a group that resumes under record `r` (slice number `k`). -/
def Slice.answered (sl : Slice) (r : TrapRec) (k : Nat) : Slice :=
  { sl with stopped := false, pc := r.erpc, x := r.ex.extractLsb' (4 * k) 4, join := none,
            rep := if r.repv then sl.rep.map (fun p => { p with j := r.j }) else none,
            block := if sl.block.any (fun b => decide (b.pc = r.erpc)) then sl.block else none }

/-- A gang whose record number `ix` is answered with resume: its group goes on where the record says. -/
def Gang.answered (g : Gang) (ix : Nat) (r : TrapRec) : Gang :=
  { g with slices := g.slices.zipIdx.map (fun p => if r.grp.getLsbD p.2 then p.1.answered r p.2 else p.1),
           recs := dropAt g.recs ix }

/-- The same record but for what an answer may have changed. -/
def TrapRec.same (a b : TrapRec) : Bool := decide (a.w0 = b.w0) && decide (a.epc = b.epc) && decide (a.tstop = b.tstop)

/-- A record whose ERPC is set, to which REPV gives way (Table 15-6). -/
def TrapRec.resumeAt (r : TrapRec) (pc : Option Word) : TrapRec :=
  match pc with
  | none => r
  | some p => { r.noRep with erpc := p }

/-- A service answered with resume: the record, as the saved context now holds it, is applied and retired there, and the
crew waits for dispatch. -/
def answerResume (s : State) (v : Service) (pc : Option Word) : State :=
  match s.crew v.crew, savedAt s v.crew with
  | some w, some a =>
    let s := loadGangs (imgAt s a) s v.crew w
    let s := s.modGang v.gang (fun g =>
      match g.recs.zipIdx.find? (fun p => p.1.same v.rcd) with
      | some (r, ix) => g.answered ix (r.resumeAt pc)
      | none => g)
    let s := saveWords s v.crew (0x1000 + 0xC00 * (v.gang % 16)) (encGang ((s.gang v.gang).getD {}))
    let s := saveWords s v.crew 28 [(imgAt s a 28).1 &&& ~~~(0x10 : Word)]
    s.modCrew v.crew (fun w => { w with place := .waiting (dieOf a) })
  | _, _ => s

/-- Firmware's own answer to a record: a deferred one resumes at its load. -/
def answerFirm (s : State) (v : Service) : State :=
  answerResume { s with host.services := s.host.services.erase v } v
    (if fld v.rcd.w0.toNat 12 2 = 1 then some v.rcd.epc else none)

/-- Firmware answers at once a record whose die is admitted. -/
def answerNow (s : State) (v : Service) : State :=
  if decide ((s.die v.rcd.die).st = .admitted) then answerFirm s v else s

/-- The service record of a crew that is out for it: noted, and noticed to the host or kept by firmware (R465). -/
def postService (s : State) (c gk : Nat) (g : Gang) (r : TrapRec) (w : Crew) : State :=
  let v : Service := { seq := (s.ring w.dom).seq, dom := w.dom, crew := c, gang := gk, rcd := r, firm := firmRec s w.dom g r }
  let s := { s with host.services := s.host.services ++ [v] }
  if v.firm then answerNow s v else addNotice s { dom := w.dom, rcd := r, kind := 0 }

/-- The first gang of a crew with a record for service. -/
def serviceGang (s : State) (c : Nat) : Option (Nat × Gang × TrapRec) :=
  (s.gangsOf c).findSome? (fun p => (serviceRec p.2).map (fun r => (p.1, p.2, r)))

/-- SWAP_OUT of crew `c`, which leaves for service (R379, R465). -/
def swapOut (s : State) (c : Nat) : State :=
  match s.crew c with
  | none => s
  | some w =>
    match w.core?, w.leaving, serviceGang s c with
    | some core, some k, some (gk, g, r) =>
      if k = .preempt then s
      else
        let i : SaveInfo := { cause := r.cause, svc := !firmRec s w.dom g r, core := core }
        let t := saveCrew s c w core i .serviced
        if t.1 then postService t.2 c gk ((t.2.gang gk).getD g) r w else t.2
    | _, _, _ => s

def execSwapOut (st : State) : Host.Outcome State Fault Refusal := event (swapOut st (st.op 0))

/-! ### Resume (R379, R474) -/

/-- A crew waiting on die `d` may be resumed by `core`: it is that core's next candidate; or it is stolen from another
die, where the core has no candidate of its own (R369, R379); the restore waits for the images that are ready on the core's die
(R378). DEDUCED: notes/assumptions/77. -/
def resumable (s : State) (core c d : Nat) : Bool :=
  if !(readySaves s (coreDie core)).isEmpty then false
  else if d = coreDie core then (bestCand s core).any (fun k => decide (k.crew = some c))
  else dieWorks s (coreDie core) && (bestCand s core).isNone && decide ((s.die d).st = .admitted) && !preparing s d &&
    crewFits s core c

/-- The segments of a gang moved with its crew's Pound allocation; the reach mask is that of a start there (R373). DEDUCED: notes/assumptions/103. -/
def moveSegs (r : Regs) (old new mask : Nat) : Regs :=
  let shift := fun (r : Regs) (k : Nat) =>
    r.wrSeg k { r.rdSeg k with base := (r.rdSeg k).base + BitVec.ofNat 64 new - BitVec.ofNat 64 old }
  let r := shift (shift r 1) 4
  r.wrSeg 2 { r.rdSeg 2 with base := BitVec.ofNat 64 mask }

/-- One crew restored on a core: its place, its image, its segments; its start is an acquire (R373, R474). -/
def resumeOne (s : State) (core c : Nat) : State :=
  match s.crew c, savedAt s c with
  | some w, some a =>
    let k := teamCore w core
    match fit s k w.dom w.que w.kw w.rw with
    | none => s
    | some f =>
      let v : Crew := { w with place := .on k, pbase := f.pbase, rsv := f.rsv, since := s.time, resumed := true,
                               leaving := none, blockedAt := none }
      let rd := imgAt s a
      let s := loadImage rd (s.setCrew c v) c v k
      let s := (crewGangs w).foldl (fun s ix => s.modGang (16 * c + ix) (fun g =>
        { g with slot := f.slots.getD ix 0, slices := g.slices.map Slice.resumed, r := moveSegs g.r w.pbase f.pbase (teamMask s v k) })) s
      let s := s.modDomain w.dom (fun d =>
        { d with set_ := { d.set_ with ctxUse := d.set_.ctxUse.filter (fun p => decide (p.2 ≠ c)) } })
      let s := { s with work.tasks := smModify s.work.tasks w.task (fun t => { t with cores := (k :: t.cores).dedup }) }
      startAcquire s k w.dom
  | _, _ => s

/-- RESUME of crew `c` with its team on `core`. -/
def resume (s : State) (c core : Nat) : State :=
  match s.crew c with
  | none => s
  | some w =>
    match w.place with
    | .waiting d => if decide (core < 192) && resumable s core c d then (outTeam s c).foldl (fun s m => resumeOne s core m) s else s
    | _ => s

def execResume (st : State) : Host.Outcome State Fault Refusal := event (resume st (st.op 0) (st.op 1))

/-! ### CTXSV and CTXLD (R488) -/

/-- Bytes of an image. -/
def imgBytes : Nat := 3 * 2 ^ 20

/-- The first failing check of the range of an image at address `va`. -/
def ctxCheck (st : State) (x : Cx) (va : DWord) (kind : AccKind) : Option CkFail :=
  match checkOff (segOf st x.dom x.hnd x.src.r 0) 0 va imgBytes kind false with
  | some f => if f.cause = .segLimit then some f else none
  | none => none

/-- The first 4 KiB piece of the range whose translation fails, and how. -/
def ctxWalk (st : State) (x : Cx) (va : DWord) (kind : AccKind) : Option (DWord × CkFail) :=
  (List.range 768).findSome? (fun k =>
    match checkAddr st x 0 0 (va + BitVec.ofNat 64 (4096 * k)) 4096 kind 1 with
    | .error f => some (va + BitVec.ofNat 64 (4096 * k), f)
    | .ok _ => none)

/-- The package address of byte `o` of an image at `va`. -/
def ctxPlace (st : State) (x : Cx) (va : DWord) (kind : AccKind) (o : Nat) : Nat :=
  match checkAddr st x 0 0 (va + BitVec.ofNat 64 (o / 4096 * 4096)) 4096 kind 1 with
  | .error _ => 0
  | .ok pa => pa + o % 4096

/-- Every group of the crew but the issuing one, frozen or released. -/
def freezeOthers (st : State) (x : Cx) (b : Bool) : State :=
  { st with work.gangs := st.work.gangs.map (fun p =>
      if p.2.crew = x.crewNo then
        (p.1, p.2.modSlices (if p.1 = x.cur.gang then ~~~x.cur.grp else 0xFF) (fun sl => if sl.live then { sl with frozen := b } else sl))
      else p) }

/-- A handler of the crew holds the other groups frozen (R471). -/
def saHolds (st : State) (c : Nat) : Bool := (st.gangsOf c).any (fun p => p.2.sa && p.2.cur)

/-- The frozen groups released, but for those that a handler under SA holds. -/
def releaseOthers (st : State) (x : Cx) : State := if saHolds st x.crewNo then st else freezeOthers st x false

/-- The image address of a context transfer: what the word read when it issued (R71). -/
def Cx.imageVa (x : Cx) (a : Nat) : DWord := BitVec.ofNat 64 ((x.heldOr [(x.s2 a).toNat]).headD 0)

/-- A context transfer at address `va`: its checks; the freeze and the drain, for which the word waits; then `body`. DEDUCED: notes/assumptions/104. -/
def ctxMove (st : State) (x : Cx) (va : DWord) (kind : AccKind) (body : State → Res) : Res :=
  let wait := fun (s : State) => Res.block (keepArgs s x [va.toNat])
  let free := if x.cur.retry then releaseOthers st x else st
  let base := (segOf st x.dom x.hnd x.src.r 0).base
  if va.toNat % 4096 ≠ 0 then .trap free { cause := .atomAlign, lanes := x.all, addr := va }
  else match ctxCheck st x va kind with
  | some f => .trap free (onceFail x base va f)
  | none =>
    match ctxWalk st x va kind with
    | some (p, f) => .trap free (onceFail x base p f)
    | none =>
      let st := if saHolds st x.crewNo then st else freezeOthers st x true
      match drain st x.crewNo x.crew x.core with
      | .wait s => wait s
      | .over s =>
        let lines := ((List.range 768).flatMap (fun k => (List.range 64).map (fun j =>
          lineOf (ctxPlace s x va kind (4096 * k + 64 * j)))))
        if s.work.outs.any (fun p => decide (p.2.gang / 16 = x.crewNo)) || lines.any (lineBusy s) then wait s else body s

/-- The first word of an image that its home fails, at the offsets `os`. -/
def ctxFail (st : State) (x : Cx) (va : DWord) (kind : AccKind) (po : Nat → Bool) (os : List Nat) : Option Err :=
  let base := (segOf st x.dom x.hnd x.src.r 0).base
  os.findSome? (fun o =>
    let pa := ctxPlace st x va kind o
    let e := fun (c : Cause) => ({ cause := c, lanes := x.all, addr := base + va + BitVec.ofNat 64 o,
                                   detail := if c = .homeFenced then BitVec.ofNat 32 (lineDie (lineOf pa)) else 0 } : Err)
    match homeFail st (lineOf pa) with
    | some c => some (e c)
    | none => if po o && (readWord st pa).2 then some (e .poisonRd) else none)

/-- Failures of the transfer after issue are deferred (R228). -/
def ctxLate (st : State) (x : Cx) (e : Option Err) : State :=
  match e with
  | none => st
  | some e => addLate st x.cur.gang x.cur.pc e

/-- CTXSV once the drain is over: the image of the crew with the issuing group past the word; words whose home refuses
them are not written. -/
def ctxSave (st : State) (x : Cx) (va : DWord) : Res :=
  let past := st.modSl x (fun _ sl => { sl.advance (if x.cur.retry then x.cur.last else x.cur.pc) with block := none })
  let rs := image past x.crewNo x.crew x.core { core := x.core }
  let place := ctxPlace st x va .write
  let ok := fun (r : ImgRegion) => r.words.zipIdx.filter (fun p => (homeFail st (lineOf (place (r.off + 4 * p.2)))).isNone)
  let st' := rs.foldl (fun s r => (ok r).foldl (fun s p => engineWord s x.core (place (r.off + 4 * p.2)) p.1.1 0xF p.1.2) s) st
  let e := ctxFail st x va .write (fun _ => false) (rs.flatMap (fun r => (List.range r.words.length).map (fun k => r.off + 4 * k)))
  .done (releaseOthers (ctxLate st' x e) x)

def execCtxsv (c : Bool) (a : Fin 64) (st : State) : Host.Outcome State Fault Refusal :=
  issue (.ctxsv c a) st (fun st x => ctxMove st x (x.imageVa a.val) .write (fun s => ctxSave s x (x.imageVa a.val)))

/-- The header differs from the crew's own in what CTXLD compares. -/
def headerBad (w : Crew) (h : List Word) : Bool :=
  decide (h.getD 0 0 ≠ 0x00010001) || decide (wfld h 1 10 13 ≠ fld w.kw.toNat 10 13) || decide (h.getD 2 0 ≠ w.rw) ||
    decide (wfld h 3 0 8 ≠ w.dom)

/-- The Pound, lane and reach segments of a loaded gang, kept inside what the crew now holds: a range that lies outside
it becomes that of a crew's start. -/
def ownSegs (s : State) (w : Crew) (core : Nat) (g : Gang) : Gang :=
  let pk := 1024 * rwPk w.rw
  let n := fun k => BitVec.ofNat 64 k
  let r := g.r
  let p := r.rdSeg 1
  let l := r.rdSeg 4
  let m := r.rdSeg 2
  let r := if rangeIn p.base.toNat p.limit.toNat w.pbase pk then r else r.wrSeg 1 { base := n w.pbase, limit := n pk }
  let r := if rangeIn l.base.toNat (kwLanes w.kw * l.limit.toNat) (w.pbase + pk) (poundBytes w.kw w.rw - pk) then r
    else r.wrSeg 4 { base := n (w.pbase + pk + g.ix * kwLanes w.kw * rwLane w.rw), limit := n (rwLane w.rw) }
  { g with r := r.wrSeg 2 { base := m.base &&& n (teamMask s w core), limit := if pk < m.limit.toNat then n pk else m.limit } }

/-- An image word that holds no Pound byte and no B-store byte: a register or a record, which has no poison mark. -/
def plainOff (o : Nat) : Bool := !(decide (0x30000 ≤ o) && decide (o < 0x80000)) && decide (o < 0x100000)

/-- What a crew's slices waited for goes: their places at queues and barriers, and their sluice requests, a batch granted
meanwhile being let go (R488). -/
def quitWaits (s : State) (c : Nat) : State :=
  let mine := fun (r : SlReq) => decide (r.gang / 16 = c) && !r.mark
  let got := s.eng.slreqs.filter (fun r => mine r && r.granted && decide (r.kind = .enter))
  let s := { s with coh.waits := s.coh.waits.filter (fun v => decide (v.gang / 16 ≠ c)),
                    eng.slreqs := s.eng.slreqs.filter (fun r => !mine r) }
  quitQues (got.foldl (fun s r => killHolder s r.num r.n) s) c

/-- CTXLD once the drain is over. -/
def ctxLoad (st : State) (x : Cx) (va : DWord) : Res :=
  let c := x.crewNo
  let rd := fun (o : Nat) => readWord st (ctxPlace st x va .read o)
  let free := releaseOthers st x
  match ctxFail st x va .read plainOff (imageOffs x.crew) with
  | some e => .done (ctxLate free x (some e))
  | none =>
    if headerBad x.crew (imgCut rd 0 12) then .trap free { cause := .segDesc, lanes := x.all }
    else
      let s := loadImage rd (quitWaits { st with coh.late := st.coh.late.filter (fun e => decide (e.gang / 16 ≠ c)) } c)
        c x.crew x.core
      let s := (crewGangs x.crew).foldl (fun s ix => s.modGang (16 * c + ix) (ownSegs s x.crew x.core)) s
      let s := if saHolds s c then s
        else { s with work.gangs := s.work.gangs.map (fun p =>
          if p.2.crew = c then (p.1, p.2.modSlices 0xFF (fun sl => { sl with frozen := false })) else p) }
      .ctl s

def execCtxld (c : Bool) (a : Fin 64) (st : State) : Host.Outcome State Fault Refusal :=
  issue (.ctxld c a) st (fun st x => ctxMove st x (x.imageVa a.val) .read (fun s => ctxLoad s x (x.imageVa a.val)))

end Sys2Proof.Machine
end

