-- ==== Sys2Proof/Machine/Fatal.lean ====
section
/-! DEFINITION. The fatal path of a domain and the state dump (15.7), the die error blocks (16.5), and the uncorrectable
error of a crew's own state (R461). -/

namespace Sys2Proof.Machine
open Sys2Proof

/-! ### The die error block (Table 16-4) -/

/-- ST's number. -/
def DieSt.code : DieSt → Nat
  | .admitted => 0
  | .fenced => 1
  | .inReset => 2
  | .retraining => 3

/-- A link word. -/
def LinkWord.word (l : LinkWord) : Word := nw (bitN l.up * 2 ^ 31 + min l.unc 127 * 2 ^ 24 + min l.rpl (2 ^ 24 - 1))

/-- The sixteen words of a die's error block; the lockhouse die's uses words 0 to 5. -/
def errBlock (s : State) (d : Nat) : List Word :=
  let v := s.die d
  let link := fun k => (v.links.getD k {}).word
  let five := if d = 4 then link 3 else nw (min v.lost.length 8191 + bitN v.full * 2 ^ 31)
  padTo 16 ([nw (v.inc.toNat * 2 ^ 16 + bitN v.ff * 2 ^ 8 + v.st.code), v.fcnt, link 0, link 1, link 2, five] ++
    (if d = 4 then [] else [v.err.cl2, v.err.cdr, v.err.udr, v.err.psn, v.err.lcause.zeroExtend 32, loW v.err.laddr, hiW v.err.laddr]))

/-! ### The records of the stopped groups (R475 step 2, R477) -/

/-- The package core of a crew: the one it is on, or the one its saved context names. -/
def lastCore (s : State) (c : Nat) (w : Crew) : Nat :=
  match w.holds?, savedAt s c with
  | some k, _ => k
  | none, some a => fld (imgAt s a 36).1.toNat 0 8
  | none, none => 0

/-- The record of a fatal cause for one running group (R461). -/
def fatalRec (s : State) (g : Gang) (w : Crew) (core : Nat) (k : Cause) (detail : Word) (m : BitVec 8) : TrapRec :=
  let sl := g.slice (firstSlice m)
  makeRec s g w core m { cause := k, lanes := grpLanes m, detail := detail, kind := .imposed } sl.nextPc sl.nextPc sl.nextPc
    (sl.rep.map (fun r => r.j))

/-- The records of a gang's stopped groups: those it holds, but for one that a handler was handling, and those that the
fatal cause makes. DEDUCED: notes/assumptions/108. -/
def gangRecs (s : State) (gk : Nat) (g : Gang) (w : Crew) (core : Nat) (k : Cause) (detail : Word) : List TrapRec :=
  g.recs.drop (bitN g.cur) ++
    ((liveGroups g).filter (fun m => !(g.slice (firstSlice m)).stopped && !frozenNow s gk g m)).map
      (fatalRec s g w core k detail)

/-- An entry placed before the first greater key. -/
def insertKey (k : Nat) (r : TrapRec) : List (Nat × TrapRec) → List (Nat × TrapRec)
  | [] => [(k, r)]
  | p :: l => if k < p.1 then (k, r) :: p :: l else p :: insertKey k r l

/-- The records of every stopped group of a domain, by core and gang. -/
def domRecs (s : State) (dom : Nat) (k : Cause) (detail : Word) : List TrapRec :=
  let all := (s.work.crews.filter (fun p => decide (p.2.dom = dom))).flatMap (fun p =>
    let core := lastCore s p.1 p.2
    (s.gangsOf p.1).flatMap (fun q => (gangRecs s q.1 q.2 p.2 core k detail).map (fun r => (16 * core + q.2.ix, r))))
  (all.foldl (fun l p => insertKey p.1 p.2 l) []).map (fun p => p.2)

/-! ### The work of a domain discarded (R475 steps 1 to 5) -/

/-- Every queue of a domain stops with the cause. -/
def stopAll (s : State) (dom : Nat) (k : Cause) : State :=
  s.modDomain dom (fun d => { d with queues := d.queues.map (fun p =>
    (p.1, { p.2 with stop := true, cause := BitVec.ofNat 7 k.code })) })

/-- The crews of a domain. -/
def domCrews (s : State) (dom : Nat) : List (Nat × Crew) := s.work.crews.filter (fun p => decide (p.2.dom = dom))

/-- The engine threads of a domain abandoned, and its keys, merges, deque entries, tasks, frames and buckets discarded.
Requests that have left their core are applied at their homes as they arrive. DEDUCED: notes/assumptions/107. -/
def dropEngines (s : State) (dom : Nat) : State :=
  let cs := (domCrews s dom).map (fun p => p.1)
  let mine := fun (g : Nat) => cs.contains (g / 16)
  let bk := (s.gfx.buckets.filter (fun p => decide (p.2.id.dom = dom))).map (fun p => p.1)
  let eng : Eng :=
    { s.eng with copies := s.eng.copies.filter (fun p => decide (p.2.c.dom ≠ dom)),
                 merges := s.eng.merges.filter (fun m => decide (m.dom ≠ dom)),
                 mx := s.eng.mx.filter (fun p => !mine p.2.q.gang),
                 keys := s.eng.keys.filter (fun p => decide (p.1 / 2 ^ 33 ≠ dom)),
                 slreqs := s.eng.slreqs.filter (fun r => decide (r.dom ≠ dom)),
                 slrels := s.eng.slrels.filter (fun r => decide (r.dom ≠ dom)) }
  let tasks := s.work.tasks.filter (fun p => decide (p.2.dom ≠ dom))
  let sched : Sched :=
    { s.sched with deques := s.sched.deques.filter (fun p => decide (p.1 / 64 % 8 ≠ dom)),
                   spawns := s.sched.spawns.filter (fun p => decide (p.dom ≠ dom)),
                   softis := s.sched.softis.filter (fun p => decide (p.dom ≠ dom)),
                   ending := s.sched.ending.filter (fun k => (smFind tasks k).isSome) }
  let gfx : Gfx :=
    { frames := s.gfx.frames.filter (fun f => decide (f.dom ≠ dom)),
      buckets := s.gfx.buckets.filter (fun p => decide (p.2.id.dom ≠ dom)),
      dicers := s.gfx.dicers.filter (fun j => !cs.contains j.crew), wbs := s.gfx.wbs.filter (fun j => !bk.contains j.bucket),
      stus := s.gfx.stus.filter (fun j => !bk.contains j.bucket), rays := s.gfx.rays.filter (fun p => !cs.contains (p.1 / 512)),
      kids := s.gfx.kids.filter (fun p => decide (p.2.dom ≠ dom)) }
  { s with eng := eng, sched := sched, gfx := gfx, work.tasks := tasks, work.outs := s.work.outs.filter (fun p => !mine p.2.gang),
           coh.waits := s.coh.waits.filter (fun v => !mine v.gang), coh.late := s.coh.late.filter (fun v => !mine v.gang),
           host.services := s.host.services.filter (fun v => decide (v.dom ≠ dom)) }

/-- The crews of a domain gone, their slots and resources free. -/
def dropCrews (s : State) (dom : Nat) : State :=
  let cs := domCrews s dom
  let s := cs.foldl (fun s p => removeCrew s p.1 p.2) s
  (cs.filterMap (fun p => p.2.holds?)).foldl clearEvp s

/-! ### The dump (R475 step 6, R477) -/

/-- Records that the dump area holds beside its header and the error blocks of the four compute dies. -/
def dumpRoom : Nat := (2 ^ 20 - 64 - 4 * 64) / 64

/-- The dump's words. -/
def dumpWords (s : State) (k : Cause) (die : Nat) (rs : List TrapRec) : List Word :=
  let n := min rs.length dumpRoom
  padTo 16 ([0x00010001, nw (k.code + die * 2 ^ 8)] ++ wordsOfNat s.time 2 ++ [nw n, nw (rs.length - n)]) ++
    (rs.take n).flatMap TrapRec.words ++ (List.range 4).flatMap (errBlock s)

/-- The dump written where the domain has a dump area on a die that answers, and its notice. -/
def writeDump (s : State) (dom : Nat) (k : Cause) (die : Nat) (rs : List TrapRec) : State :=
  match (s.domain dom).set_.dump with
  | none => s
  | some (d, base) =>
    if (s.die d).st ≠ .admitted then s
    else postNotice (engineWords s noCore (devAddr d base) (dumpWords s k die rs)) dom 2 (nw die) 0

/-- The fatal path of a domain: cause, detail, the die that raised it. -/
def fatalPath (s : State) (dom : Nat) (k : Cause) (detail : Word) (die : Nat) : State :=
  let rs := domRecs s dom k detail
  let s := flushTlb (dropCrews (dropEngines (stopAll s dom k) dom) dom) dom
  writeDump s dom k die rs

/-- FATAL_PATH (R475). Operands: domain, cause code, detail, die. Only a class-F cause takes it. -/
def execFatalPath (st : State) : Host.Outcome State Fault Refusal :=
  event (match causeOf (st.op 1) with
    | none => st
    | some k =>
      if k.cls = .fatal ∧ st.op 0 < 8 ∧ st.op 3 ≤ 4 then fatalPath st (st.op 0) k (nw (st.op 2)) (st.op 3) else st)

/-- ECC_REG (R461): an uncorrectable soft error in the state of a resident crew. Operands: crew, kind, register or
entry, lane. -/
def execEccReg (st : State) : Host.Outcome State Fault Refusal :=
  event (match st.crew (st.op 0) with
    | none => st
    | some w =>
      match w.core? with
      | none => st
      | some core =>
        fatalPath st w.dom .eccReg (nw (st.op 2 % 64 + st.op 1 % 4 * 64 + st.op 3 % 32 * 256)) (coreDie core))

end Sys2Proof.Machine
end

