-- ==== Sys2Proof/Machine/Dies.lean ====
section
/-! DEFINITION. Links, flits and replay (16.2), lost lines and timeouts (R496, R497), fences and re-admission (16.4), and
the errors that the dies correct or count (16.5). -/

namespace Sys2Proof.Machine
open Sys2Proof

/-! ### Links -/

/-- A saturating count. -/
def satAdd (v : Word) (n : Nat) : Word := nw (min (v.toNat + n) (2 ^ 32 - 1))

/-- The link words of both ends of a link changed. -/
def modLink (s : State) (d e : Nat) (f : LinkWord → LinkWord) : State :=
  let one := fun (s : State) (d e : Nat) => s.modDie d (fun v => { v with links := putAt v.links (linkIx d e) (f (v.links.getD (linkIx d e) {})) })
  one (one s d e) e d

/-- A link direction changed. -/
def modDir (s : State) (k : Nat) (f : LinkDir → LinkDir) : State := { s with fab.dirs := smModify s.fab.dirs k f }

/-- A link direction with nothing on its way. -/
def LinkDir.empty (v : LinkDir) : LinkDir :=
  { v with pend := [], wire := [], buffer := [], seqTx := 0, seqRx := 0, fails := 0, replay := false }

/-- Both directions between two dies emptied, and their link words set up or down. -/
def setLink (s : State) (d e : Nat) (up : Bool) : State :=
  let s := { s with fab.dirs := s.fab.dirs.map (fun p =>
    if (p.2.src = d ∧ p.2.dst = e) ∨ (p.2.src = e ∧ p.2.dst = d) then (p.1, p.2.empty) else p) }
  modLink s d e (fun l => { l with up := up })

/-! ### Lost lines (R497) -/

/-- A line marked coherence-lost; a full table costs the domains whose carve-out holds the line. -/
def markLost (s : State) (l : Nat) : State :=
  let d := lineDie l
  let n := l % 2 ^ 42
  let v := s.die d
  if lineHost l || (smFind v.lost n).isSome then s
  else if 4096 ≤ v.lost.length then
    ((List.range 8).filter (fun k => inCarve (s.domain k).map d (64 * n) 64)).foldl (fun s k => fatalPath s k .dieFence (nw d) d) s
  else
    recordErr (s.modDie d (fun v => { v with lost := smSet v.lost n true, full := decide (4096 ≤ v.lost.length + 1) })) d .cohLost (64 * n)

/-- A home's transaction given up: its messages go, its line is lost, its requester hears COH_LOST (R496). DEDUCED: notes/assumptions/113. -/
def giveUpReq (s : State) (q : ReqX) : State :=
  let s := markLost s q.r.line
  let s := { s with coh.snoops := s.coh.snoops.filter (fun m => decide (m.req ≠ q.r.id)),
                    coh.acks := s.coh.acks.filter (fun a => decide (a.req ≠ q.r.id)) }
  if q.r.kind = .evict then s.dropReq q.r.id else refuse s q .cohLost

/-- HOME_TIMEOUT (R496): transaction `k` of a home has waited more than 100 µs for a message. -/
def execHomeTimeout (st : State) : Host.Outcome State Fault Refusal :=
  event (match st.coh.reqs[st.op 0]? with
    | none => st
    | some q => if q.begun && msgsOut st q.r.id && decide (100000 < st.time - q.at_) then giveUpReq st q else st)

/-! ### Fault fences (R500, R504) -/

/-- A domain holds work on a die: a crew, a bucket, a Basin allocation. -/
def bktOn (s : State) (dom d : Nat) : Bool :=
  s.gfx.buckets.any (fun p => decide (p.2.id.dom = dom) && decide (p.2.die = d) &&
    (decide (p.2.st = .resident) || decide (p.2.st = .parked) || decide (p.2.st = .closed)))
def basinOn (s : State) (dom d : Nat) : Bool :=
  s.work.tasks.any (fun t => decide (t.2.dom = dom) && t.2.basin.any (fun b => decide (b.1 = d)))
def crewOn (s : State) (dom d : Nat) : Bool :=
  s.work.crews.any (fun p => decide (p.2.dom = dom) && p.2.holds?.any (fun c => decide (coreDie c = d)))

/-- DIE_FENCE for every domain of a list. -/
def fenceKill (s : State) (d : Nat) (ds : List Nat) : State := ds.foldl (fun s k => fatalPath s k .dieFence (nw d) d) s

/-- A notice of kind 3 to every domain with a carve-out on the die. -/
def noteDie (s : State) (d : Nat) : State :=
  ((List.range 8).filter (fun k => (smFind (s.domain k).map.carve d).isSome)).foldl (fun s k => postNotice s k 3 (nw d) 0) s

/-- An object that the fence of die `d` breaks: initialised, not broken, and its mask holds a core of the die (R280). -/
def breaksAt (d : Nat) (o : BarObj) : Bool :=
  o.i && !o.b && decide (o.mask &&& ((BitVec.ofNat 192 (2 ^ 48 - 1)) <<< (48 * d)) ≠ 0)

/-- A memory barrier object at `pa` at the fence of die `d` (R280): broken, its waiters with it; the waiters of an object homed
there raise HOME_FENCED. -/
def fenceObj (d : Nat) (s : State) (pa : Nat) : State :=
  if dieOf pa = d then failObj s pa .homeFenced
  else
    let o := objOf (readWords s pa 8)
    if breaksAt d o then failObj (engineWord s noCore (pa + 4) (o.hi ||| ((1 : Word) <<< 29)) 0xF false) pa .barBroken else s

/-- The 32-byte blocks homed on other dies whose words read as such an object though no barrier unit has acted on them: those
with bit 63 set in memory or with an owned word. The break of one awaits the unit's next step on it. -/
def storedObjs (s : State) (d : Nat) : List (Nat × List Word) :=
  let blocks := ((s.mem.filter (fun (c : Nat × BitVec 8) => isDev c.1 && decide (c.1 % 32 = 7) && decide (128 ≤ c.2.toNat))).map (fun (c : Nat × BitVec 8) => c.1 / 32 * 32) ++
    (s.coh.dir.filter (fun (p : Nat × DirEnt) => !p.2.owners.isEmpty)).flatMap (fun (p : Nat × DirEnt) => [64 * p.1, 64 * p.1 + 32])).dedup
  (blocks.filter (fun a => decide (dieOf a ≠ d) && !s.coh.objs.contains a && breaksAt d (objOf (readWords s a 8)))).map (fun a =>
    (a, readWords s a 8))

/-- The fence of a die takes effect (Table 16-3, step 1): its homes refuse, S copies of its lines are dropped elsewhere,
memory barrier objects break. -/
def startFence (s : State) (f : Fence) : State :=
  let d := f.die
  let s := s.modDie d (fun v => { v with st := .fenced, ff := f.fault, fcnt := satAdd v.fcnt 1 })
  let drop := fun (p : Nat × L1Line) =>
    if p.1 / 2 ^ 60 / 48 ≠ d ∧ lineDie (p.1 % 2 ^ 60) = d then (p.1, p.2.dropS.norm) else p
  let s := { s with coh.l1 := (s.coh.l1.map drop).filter (fun p => decide (p.2 ≠ ({} : L1Line))) }
  let s := s.coh.objs.foldl (fenceObj d) s
  let s := { s with coh.breaks := (storedObjs s d).foldl (fun m (p : Nat × List Word) => smSet m p.1 p.2) s.coh.breaks }
  let rest := s.fab.fences.filter (fun (g : Fence) => decide (g.die ≠ d))
  noteDie { s with fab.fences := rest ++ [{ f with step := 1, since := s.time, at_ := s.time }] } d

/-- A fault fence of die `d`, at once: an orderly fence that is under way there goes on as one. DEDUCED: notes/assumptions/121. -/
def faultFence (s : State) (d : Nat) : State :=
  if 4 ≤ d then s
  else
    let ds := (List.range 8).filter (fun k => crewOn s k d || bktOn s k d || basinOn s k d)
    match s.fab.fences.find? (fun f => decide (f.die = d)) with
    | some f =>
      if f.fault then s
      else if f.step = 0 then fenceKill (startFence s { f with fault := true }) d ds
      else
        let s := s.modDie d (fun v => { v with ff := true })
        { s with fab.fences := s.fab.fences.map (fun g => if g.die = d then { g with fault := true } else g) }
    | none => fenceKill (startFence s { die := d, fault := true }) d ds

/-- FAULT_FENCE (R500): an uncorrectable error of a die's directory, sluice tables or L2 tags. Operand: the die. -/
def execFaultFence (st : State) : Host.Outcome State Fault Refusal := event (faultFence st (st.op 0))

/-- HEARTBEAT_TIMEOUT (R500): a die has not answered a management heartbeat within 1 ms. Operand: the die. -/
def execHeartbeatTimeout (st : State) : Host.Outcome State Fault Refusal := event (faultFence st (st.op 0))

/-- The link of direction `v` taken down: its flits are dropped, and it isolates a compute die (R496). -/
def takeDown (s : State) (v : LinkDir) : State :=
  faultFence (setLink s v.src v.dst false) (if v.src = 4 then v.dst else v.src)

/-! ### Flits (R493 to R496, R498) -/

/-- One bit of CRC-32C, reflected. -/
def crcBit (c : Word) (b : Bool) : Word := (c >>> 1) ^^^ (if c.getLsbD 0 != b then 0x82F63B78 else 0)

/-- CRC-32C of the first `n` bytes of a flit. -/
def crc32c (f : BitVec 512) (n : Nat) : Word := (List.range (8 * n)).foldl (fun c k => crcBit c (f.getLsbD k)) 0xFFFFFFFF ^^^ 0xFFFFFFFF

/-- A flit (Table 16-2): payload, sequence number, channel, class and K, incarnation, sender die, CRC. -/
def flit (pl seq hd inc sd : Nat) : BitVec 512 :=
  let f := BitVec.ofNat 512 (pl % 2 ^ 448 + (seq % 4096 + hd % 16 * 4096) * 2 ^ 448 + inc % 256 * 2 ^ 464 + sd % 8 * 2 ^ 472)
  f ||| ((crc32c f 60).zeroExtend 512 <<< 480)

def flitSeq (f : BitVec 512) : Nat := (f.extractLsb' 448 12).toNat
def flitData (f : BitVec 512) : Bool := f.getLsbD 463
def flitInc (f : BitVec 512) : BitVec 8 := f.extractLsb' 464 8
def flitSd (f : BitVec 512) : Nat := (f.extractLsb' 472 3).toNat
def flitOk (f : BitVec 512) : Bool := decide (crc32c f 60 = f.extractLsb' 480 32)

/-- The words of a line that data flit `n` of a packet carries: fourteen words a flit. -/
def flitWords (n : Nat) : BitVec 16 := bitsTo16 (fun w => decide (w / 14 = n))

/-! A message that flits carry is named by 4 n + 1 for request n, 4 n + 2 for the reply to request n, 4 n + 3 for the answers to
the messages of request n, and 4 n + 4 for a request of engine thread n; 0 names a packet of another kind. -/

/-- The message `msg` changed: as a request, a reply, a message of a home, a thread's request. -/
def modMsg (s : State) (msg : Nat) (fq : ReqX → ReqX) (fp : Reply → Reply) (fm : Snoop → Snoop) (fk : Pkt → Pkt) : State :=
  let n := (msg - 1) / 4
  if msg = 0 then s
  else if msg % 4 = 1 then s.modReq n fq
  else if msg % 4 = 2 then { s with coh.replies := s.coh.replies.map (fun p => if p.r.id = n then fp p else p) }
  else if msg % 4 = 3 then { s with coh.snoops := s.coh.snoops.map (fun m => if m.req = n then fm m else m) }
  else { s with eng.pkts := s.eng.pkts.map (fun p => if p.who = n then fk p else p) }

/-- The message that a data flit belongs to takes poison in the flit's words (R495). -/
def poisonMsg (s : State) (msg n : Nat) : State :=
  modMsg s msg (fun q => { q with r := { q.r with po := q.r.po ||| (flitWords n &&& touched q.r.wm) } })
    (fun p => { p with po := p.po ||| flitWords n }) (fun m => { m with po := m.po ||| flitWords n })
    (fun p => { p with po := p.po ||| flitWords n })

/-- The packet of a lost control flit is lost (R496). -/
def loseMsg (s : State) (msg : Nat) : State :=
  modMsg s msg (fun q => { q with lost := true }) (fun p => { p with lost := true }) (fun m => { m with lost := true })
    (fun p => { p with lost := true })

/-- A message as packets carry it: its channel in the order of Table 16-1, the die that sends it, its way, and the line of data
that follows its header. -/
structure MsgForm where
  vc : Nat
  src : Nat
  way : List Nat
  data : Option (BitVec 512)

/-- The form of message `msg`. -/
def msgForm (s : State) (msg : Nat) : Option MsgForm :=
  let n := (msg - 1) / 4
  if msg % 4 = 1 then
    ((s.coh.reqs.find? (fun q => decide (q.r.id = n) && !q.staged)).map (fun (q : ReqX) =>
      { vc := if q.r.onDat then 3 else 0, src := coreDie q.r.core, way := q.r.route,
        data := if q.r.wm = 0 then none else some q.r.wd }))
  else if msg % 4 = 2 then
    ((s.coh.replies.find? (fun p => decide (p.r.id = n))).map (fun p =>
      { vc := if p.kind = .data then 3 else 2, src := homeDie p.r.line, way := p.route,
        data := if p.kind = .data then some p.data else none }))
  else if msg % 4 = 3 then
    ((s.coh.snoops.find? (fun m => decide (m.req = n))).map (fun m =>
      { vc := if m.kind = .inv then 2 else 3, src := m.die, way := routeOf s m.die (homeDie m.line),
        data := if m.kind = .inv then none else some (s.l1 m.dest m.line).data }))
  else
    ((s.eng.pkts.find? (fun p => decide (p.who = n))).map (fun p =>
      { vc := 0, src := coreDie p.core, way := p.route, data := some (getLine s.mem p.line) }))

/-- The place of a hop on a way that starts at die `a`. -/
def hopIx (a : Nat) (way : List Nat) (src dst : Nat) : Option Nat := ((a :: way).zip way).findIdx? (fun h => decide (h = (src, dst)))

/-- The data flits of a line: 56 bytes of it in the first, the rest in the second. -/
def dataFlits (d : BitVec 512) : List Nat := [d.toNat % 2 ^ 448, d.toNat / 2 ^ 448]

/-- The packet of a message on a link direction: one control flit with its header, then its data flits (R493); class 0 on the
first hop of its way and class 1 on the second (R491). A packet of another kind has `n` data flits. Headers are not visible:
`pl` is the payload given. -/
def packetFlits (s : State) (v : LinkDir) (msg pl hd sd n : Nat) : List PktFlit :=
  let form := fun (hd sd : Nat) (ds : List Nat) =>
    ({ pl := pl, hd := hd, sd := sd, msg := msg } : PktFlit) ::
      ds.zipIdx.map (fun p => { pl := p.1, hd := hd, data := true, sd := sd, msg := msg, part := p.2 })
  if msg = 0 then form (hd % 8) (if sd < 5 then sd else v.src) ((List.range n).map (fun _ => pl))
  else match msgForm s msg with
    | none => []
    | some m =>
      match hopIx m.src m.way v.src v.dst with
      | none => []
      | some i => form (m.vc + 4 * min i 1) m.src ((m.data.map dataFlits).getD [])

/-- A flit accepted: the sender's replay buffer lets it go. DEDUCED: notes/assumptions/115. -/
def LinkDir.accept (v : LinkDir) (f : BitVec 512) (bad : Bool) : LinkDir :=
  { v with buffer := v.buffer.tail, seqRx := (v.seqRx + 1) % 4096, fails := 0, got := v.got ++ [(f, bad)] }

/-- What the receiver of direction `k` makes of a flit: `f` as it was sent, `r` as it came. -/
def takeFlit (s : State) (k : Nat) (v : LinkDir) (f : SentFlit) (r : BitVec 512) : State :=
  if flitOk r && decide (flitSeq r = v.seqRx) then
    (if (s.die v.dst).table[flitSd r]? = some (flitInc r) then modDir s k (fun v => v.accept r false)
     else modDir s k (fun v => { v with buffer := v.buffer.tail, seqRx := (v.seqRx + 1) % 4096, fails := 0, dropped := v.dropped + 1 }))
  else if v.fails < 3 then modDir s k (fun v => { v with fails := v.fails + 1, replay := true, wire := [] })
  else
    let s := modLink s v.src v.dst (fun l => { l with unc := min (l.unc + 1) 127 })
    if flitData f.f then
      (let s := modDir s k (fun v => v.accept f.f true)
       let s := if v.dst = 4 then s else s.modDie v.dst (fun d => { d with err := { d.err with psn := satAdd d.err.psn 14 } })
       poisonMsg s f.msg f.part)
    else takeDown (loseMsg s f.msg) v

/-- The next flit of a direction sent: of the packet being sent, else the first of the packet given. -/
def sendFlit (s : State) (k : Nat) (v : LinkDir) (ps : List PktFlit) (noise : Nat) : State :=
  match (if v.pend.isEmpty then ps else v.pend) with
  | [] => s
  | p :: ps =>
    if 256 ≤ v.buffer.length then s
    else
      let f : SentFlit := { f := flit p.pl v.seqTx (p.hd % 8 + 8 * bitN p.data) (s.die p.sd).inc.toNat p.sd, msg := p.msg, part := p.part }
      let v := { v with pend := ps, buffer := v.buffer ++ [f], seqTx := (v.seqTx + 1) % 4096 }
      let s := modDir s k (fun _ => v)
      if v.replay then s else takeFlit s k v f (f.f ^^^ BitVec.ofNat 512 noise)

/-- FLIT_RECEIVE (R494): the next flit of a link direction arrives. Where none is on its way the sender first sends the next
flit of its packet. Operand 0: the direction; 1: the bits that the wire has changed; 2: a header; 3 and 4: channel and class,
and the sender die, of a packet of another kind; 5: the message of the packet that is sent next; 6: how many data flits a packet
of another kind has. DESIGN CHOICE: notes/assumptions/114. -/
def flitReceive (s : State) (k noise pl hd sd msg n : Nat) : State :=
  match smFind s.fab.dirs k with
  | none => s
  | some v =>
    if !linkUp s v.src v.dst then s
    else match v.wire with
      | f :: fs => takeFlit (modDir s k (fun v => { v with wire := fs })) k v f (f.f ^^^ BitVec.ofNat 512 noise)
      | [] => sendFlit s k v (packetFlits s v msg pl hd sd n) noise

def execFlitReceive (st : State) : Host.Outcome State Fault Refusal :=
  event (flitReceive st (st.op 0) (st.op 1) (st.op 2) (st.op 3) (st.op 4) (st.op 5) (st.op 6))

/-- REPLAY (R494): the sender retransmits from the flit that the receiver named. Operand: the direction. -/
def execReplay (st : State) : Host.Outcome State Fault Refusal :=
  event (match smFind st.fab.dirs (st.op 0) with
    | none => st
    | some v =>
      if !v.replay || !linkUp st v.src v.dst then st
      else
        modLink (modDir st (st.op 0) (fun v => { v with wire := v.buffer, replay := false })) v.src v.dst
          (fun l => { l with rpl := min (l.rpl + 1) (2 ^ 24 - 1) }))

/-! ### FAB_UNCORR (R496) -/

/-- A request that has had no reply for more than 100 µs fails in its slice, for the link `w` that took the packet with it: a
barrier word meets that as the error of its answer. `home` says that its home has performed it, so that a push is not owed
any more. -/
def lostReply (s : State) (r : Req) (w : Nat × Nat) (home : Bool) : State :=
  let name := Config.linkName w.1 w.2
  let e := { reqErr r .fabUncorr with detail := name }
  if r.kind = .push then (if home then addLate s r.gang r.pc e else redirty s r)
  else if r.kind = .barrier then { s with coh.replies := s.coh.replies ++ [{ kind := .error .fabUncorr, r := r, bad := some e }] }
  else if r.out ≠ 0 then
    (match smFind s.work.outs r.out with
     | none => s
     | some o =>
       let mine := o.accs.filter (fun a => decide (lineOf a.pa = r.line) && r.words.getLsbD (wordIx a.pa))
       let rest := o.accs.filter (fun a => !(decide (lineOf a.pa = r.line) && r.words.getLsbD (wordIx a.pa)))
       let bad := if r.kind = .atomic then some e else (loadErr .fabUncorr mine).map (fun f => { f with detail := name })
       closeIfDone { s with work.outs := smSet s.work.outs r.out { o with accs := rest, left := o.left - 1, err := joinErr o.err bad } } r.out)
  else addLate s r.gang r.pc e

/-- The link that has a packet on its way from die `a` keep from arriving: one of its way that is down, or, where its own flits
were lost or name an earlier incarnation, the first of its way. -/
def lostLink (s : State) (a : Nat) (way : List Nat) (lost : Bool) : Option (Nat × Nat) :=
  match way with
  | [] => none
  | b :: _ => (downLink s a way).or (if lost then some (a, b) else none)

/-- Request `q` fails for want of a reply. -/
def uncorrReq (s : State) (q : ReqX) : State :=
  if q.staged || q.begun || decide (q.r.kind = .evict) || decide (q.r.kind = .writeback) || decide (s.time - q.r.made ≤ 100000) then s
  else match lostLink s (coreDie q.r.core) q.r.route q.lost with
    | none => s
    | some w => lostReply (s.dropReq q.r.id) q.r w false

/-- The request of reply `k` fails, since the reply does not come. -/
def uncorrReply (s : State) (k : Nat) (p : Reply) : State :=
  if s.time - p.r.made ≤ 100000 then s
  else match lostLink s (homeDie p.r.line) p.route (p.lost || !incOk s p.route (homeDie p.r.line) (coreDie p.r.core) p.inc) with
    | none => s
    | some w => lostReply (s.takeReply k) p.r w true

/-- The request of an engine thread fails with it: the thread's next step meets the failure. DEDUCED: notes/assumptions/117. -/
def uncorrPkt (s : State) (p : Pkt) : State :=
  if p.fail.isSome || decide (s.time - p.made ≤ 100000) then s
  else match lostLink s (coreDie p.core) p.route p.lost with
    | none => s
    | some w => { s with eng.pkts := s.eng.pkts.map (fun v =>
        if v = p then { v with fail := some .fabUncorr, info := Config.linkName w.1 w.2 } else v) }

/-- A sluice request that its home has not registered fails in its slice. -/
def uncorrSl (s : State) (k : Nat) (r : SlReq) (a : Nat) : State :=
  if r.registered || r.granted || r.fail.isSome || decide (s.time - r.made ≤ 100000) then s
  else match lostLink s a r.route false with
    | none => s
    | some w => modSlReq s k (fun r => { r with fail := some .fabUncorr, info := Config.linkName w.1 w.2 })

/-- The die of a gang's core. -/
def gangDie (s : State) (g : Nat) : Nat := (((s.crew (g / 16)).bind Crew.holds?).map coreDie).getD 0

/-- FAB_UNCORR (R496): a requester has waited more than 100 µs for the reply to a packet whose way crosses a link that has been
taken down, or whose flits were lost. Operand k counts the requests, then the replies, then the requests of engine threads,
then those of sluices. DESIGN CHOICE: notes/assumptions/116. -/
def execFabUncorr (st : State) : Host.Outcome State Fault Refusal :=
  let n1 := st.coh.reqs.length
  let n2 := n1 + st.coh.replies.length
  let n3 := n2 + st.eng.pkts.length
  event (match st.coh.reqs[st.op 0]?, st.coh.replies[st.op 0 - n1]?, st.eng.pkts[st.op 0 - n2]?, st.eng.slreqs[st.op 0 - n3]? with
    | some q, _, _, _ => uncorrReq st q
    | none, some p, _, _ => uncorrReply st (st.op 0 - n1) p
    | none, none, some p, _ => uncorrPkt st p
    | none, none, none, some r => uncorrSl st (st.op 0 - n3) r (gangDie st r.gang)
    | _, _, _, _ => st)

/-! ### The steps of a fence (Table 16-3) -/

/-- The fence of a die changed. -/
def modFence (s : State) (d : Nat) (f : Fence → Fence) : State :=
  { s with fab.fences := s.fab.fences.map (fun g => if g.die = d then f g else g) }

/-- Transactions that a die's homes still hold. -/
def heldReqs (s : State) (d : Nat) : List ReqX :=
  s.coh.reqs.filter (fun q => q.begun && !lineHost q.r.line && decide (lineDie q.r.line = d))

/-- A way from die `a` uses a link of die `d`. -/
def crosses (d a : Nat) (r : List Nat) : Bool := decide (r ≠ []) && (decide (a = d) || r.contains d)

/-- A reply on a link of die `d`; the answers of the barrier unit wait at their core. -/
def Reply.crosses (d : Nat) (p : Reply) : Bool := Machine.crosses d (homeDie p.r.line) p.route && decide (p.r.kind ≠ .barrier)

/-- A request on a link of die `d`, not taken by its home yet. -/
def ReqX.crosses (d : Nat) (q : ReqX) : Bool :=
  !q.begun && !q.staged && decide (q.r.kind ≠ .evict) && Machine.crosses d (coreDie q.r.core) q.r.route

/-- The thread of a request is still there. -/
def pktLive (s : State) (p : Pkt) : Bool :=
  (smFind s.eng.copies p.who).isSome || (smFind s.eng.mx p.who).isSome || s.sched.spawns.any (fun v => decide (v.num = p.who)) ||
    s.gfx.rays.any (fun v => decide (v.2.num = p.who))

/-- Packets on their way on the links of a die (R502, step 1). -/
def inFlight (s : State) (d : Nat) : Bool :=
  s.coh.reqs.any (ReqX.crosses d) || s.coh.replies.any (Reply.crosses d) ||
    s.coh.snoops.any (fun m => Machine.crosses d (homeDie m.line) m.route) || s.coh.acks.any (fun a => Machine.crosses d a.src a.route) ||
    s.eng.pkts.any (fun p => pktLive s p && p.fail.isNone && Machine.crosses d (coreDie p.core) p.route)

/-- The lines of a die with an owned word. -/
def ownedLines (s : State) (d : Nat) : List Nat :=
  (s.coh.dir.filter (fun p => decide (lineDie p.1 = d) && !p.2.owners.isEmpty)).map (fun p => p.1)

/-- Owned words of a line that are not returned: the line is lost, and its words leave their L1s. -/
def loseOwned (s : State) (l : Nat) : State :=
  let os := (s.dirOf l).owners
  let s := os.foldl (fun s p => s.putL1 p.2 l ((s.l1 p.2 l).giveUp (wordBit p.1))) s
  markLost (s.putDir l { s.dirOf l with owners := [] }) l

/-- The next step of a fence begins. -/
def nextStep (s : State) (d n : Nat) : State := modFence s d (fun f => { f with step := n, at_ := s.time })

/-- Step 2: the `j`-th line with owned words has them recalled; those that have not been returned within 100 µs are lost. -/
def fenceRecall (s : State) (d j : Nat) (lose : Bool) : State :=
  if lose then (ownedLines s d).foldl loseOwned s
  else match (ownedLines s d)[j]? with
    | none => s
    | some l => recallWords s l 0xFFFF

/-- Step 2: the die's sluice entries go to their domains' overflow tables; one that finds no room costs its domain. DEDUCED: notes/assumptions/122. -/
def fenceKeys (s : State) (d : Nat) : State :=
  (s.eng.keys.filter (fun p => !p.2.ovf && decide (numSlice p.1 / 24 = d))).foldl (fun s p =>
    if (smFind s.eng.keys p.1).isNone then s
    else if ovfRoom s (p.1 / 2 ^ 33) then s.putKey p.1 { s.slKey p.1 with ovf := true }
    else fatalPath s (p.1 / 2 ^ 33) .dieFence (nw d) d) s

/-- Step 2: merge entries and waiting sluice requests of the die answered with HOME_FENCED. -/
def fenceWaits (s : State) (d : Nat) : State :=
  let ms := s.eng.merges.filter (fun m => decide (m.die = d))
  let s := ms.foldl (fun s m => m.who.foldl serveBlock s) s
  { s with eng.merges := s.eng.merges.filter (fun m => decide (m.die ≠ d)),
           eng.slreqs := s.eng.slreqs.map (fun r =>
             if r.waits && !r.mark && decide (numSlice r.num / 24 = d) then { r with fail := some .homeFenced } else r) }

/-- The L1 lines of a die that hold untracked dirty or owned words of lines homed elsewhere. -/
def awayLines (s : State) (d : Nat) : List (Nat × L1Line) :=
  s.coh.l1.filter (fun p => decide (p.1 / 2 ^ 60 / 48 = d) && !fenced s (p.1 % 2 ^ 60) && decide (p.2.om ||| p.2.looseWords ≠ 0))

/-- Step 3: one of those lines: untracked dirty words pushed, owned words returned; or both are lost, and the owned ones make
their line coherence-lost. -/
def fenceLine (lose : Bool) (s : State) (p : Nat × L1Line) : State :=
  let c := p.1 / 2 ^ 60
  let l := p.1 % 2 ^ 60
  if lose then
    (let s := s.putL1 c l (p.2.clean p.2.looseWords)
     if p.2.om = 0 then s else loseOwned s l)
  else
    let s := enginePush s c l
    recallWords s l (s.l1 c l).om

/-- Step 3 for the `j`-th such line; those that have not been written back within 100 µs are lost. -/
def fenceWriteBack (s : State) (d j : Nat) (lose : Bool) : State :=
  if lose then (awayLines s d).foldl (fenceLine true) s
  else match (awayLines s d)[j]? with
    | none => s
    | some p => fenceLine false s p

/-- The preparation of an orderly fence goes on (R501): once no crew that can leave is left, a domain that holds a bucket
or a Basin allocation there takes DIE_FENCE, unless WAIT is set; then the fence begins. -/
def prepareFence (s : State) (f : Fence) : State :=
  let d := f.die
  let stays := fun (p : Nat × Crew) => (s.ceng p.1).bkt.cur.isSome || decide (kwBsn p.2.kw ≠ 0)
  let here := s.work.crews.filter (fun p => p.2.holds?.any (fun c => decide (coreDie c = d)))
  if !here.all stays then s
  else
    let s := if f.wait then s else fenceKill s d ((List.range 8).filter (fun k => bktOn s k d || basinOn s k d))
    if (List.range 8).any (fun k => crewOn s k d || bktOn s k d || basinOn s k d) then s else startFence s f

/-- One step of the fence of a die. `lose` says that a fault fence finds no path for what is left of step 2 or 3, which is lost
once 100 µs of the step are over; `j` is the line that is returned next. DEDUCED: notes/assumptions/119. -/
def fenceStep (s : State) (d j : Nat) (lose : Bool) : State :=
  match s.fab.fences.find? (fun f => decide (f.die = d)) with
  | none => s
  | some f =>
    let late := decide (100000 < s.time - f.at_)
    let lose := lose && f.fault && late
    if f.step = 0 then prepareFence s f
    else if f.step = 1 then
      (if (heldReqs s d).isEmpty && !inFlight s d then nextStep s d 2
       else if late then nextStep ((heldReqs s d).foldl giveUpReq s) d 2
       else s)
    else if f.step = 2 then
      (let s := fenceRecall s d j lose
       if (ownedLines s d).isEmpty then nextStep (fenceWaits (fenceKeys s d) d) d 3 else s)
    else if f.step = 3 && inFlight s d && !late then s
    else if f.step = 3 then
      (let s := fenceWriteBack s d j lose
       if (awayLines s d).isEmpty then nextStep s d 5 else s)
    else s

/-- FENCE_QUIESCE (R501, R502 steps 1 to 5). Operands: the die; whether a fault fence finds no path; the line returned next. -/
def execFenceQuiesce (st : State) : Host.Outcome State Fault Refusal :=
  event (fenceStep st (st.op 0) (st.op 2) (decide (st.op 1 ≠ 0)))

/-- SELF_REFRESH_TIMEOUT (R502 step 5): not finished within 1 ms. Operand: the die. -/
def execSelfRefreshTimeout (st : State) : Host.Outcome State Fault Refusal :=
  event (match st.fab.fences.find? (fun f => decide (f.die = st.op 0)) with
    | none => st
    | some f =>
      if f.fault && decide (1 ≤ f.step) && decide (f.step < 5) && decide (1000000 < st.time - f.since) then
        let s := (heldReqs st f.die).foldl giveUpReq st
        let s := fenceWaits (fenceKeys (fenceRecall s f.die 0 true) f.die) f.die
        let s := fenceWriteBack s f.die 0 true
        let s := fenceKill s f.die ((List.range 8).filter (fun k => (smFind (s.domain k).map.carve f.die).isSome))
        modFence s f.die (fun f => { f with step := 5, zero := true })
      else st)

/-- A directory entry without the cores of a die. -/
def DirEnt.without (e : DirEnt) (d : Nat) : DirEnt :=
  { e with sharers := e.sharers &&& ~~~((0xFFF : BitVec 48) <<< (12 * d)), owners := e.owners.filter (fun p => decide (p.2 / 48 ≠ d)) }

/-- The tiles, B-store bytes and ray slots of the cores of a die, and its bucket store, cleared (step 6). -/
def clearStores (s : State) (d : Nat) : State :=
  let here := fun (c : Nat) => (s.crew c).any (fun w => w.holds?.any (fun k => decide (coreDie k = d)))
  let eng := fun (p : Nat × CrewEng) => if here p.1 then (p.1, { p.2 with acc := [], tileP := 0, bst := [], bstP := [] }) else p
  { s with work.engs := s.work.engs.map eng, gfx.rays := s.gfx.rays.filter (fun p => !here (p.1 / 512)),
           gfx.buckets := s.gfx.buckets.map (fun p =>
             if p.2.die = d ∧ (p.2.st = .resident ∨ p.2.st = .closed) then (p.1, { p.2 with samples := [] }) else p) }

/-- The state of a die cleared by its reset (step 6); device memory keeps its contents unless `zero`. DEDUCED: notes/assumptions/120. -/
def clearDie (s : State) (d : Nat) (zero : Bool) : State :=
  let onDie := fun (c : Nat) => decide (c / 48 = d)
  let gone := (s.coh.reqs.filter (fun q => onDie q.r.core && decide (q.r.kind ≠ .evict))).map (fun q => q.r.id)
  let keep := fun (a : Nat) => !(decide (basinAddr d 0 ≤ a) && decide (a < basinAddr d (2 ^ 26))) && !(zero && isDev a && decide (dieOf a = d))
  let coh : Coh :=
    { s.coh with l1 := s.coh.l1.filter (fun p => !onDie (p.1 / 2 ^ 60)),
                 dir := ((s.coh.dir.filter (fun p => decide (lineDie p.1 ≠ d))).map (fun p => (p.1, p.2.without d))).filter
                   (fun p => !(decide (p.2.sharers = 0) && p.2.owners.isEmpty)),
                 tlb1 := s.coh.tlb1.filter (fun p => !onDie (p.1 / 64)), tlb2 := s.coh.tlb2.filter (fun p => decide (p.1 / 8192 ≠ d)),
                 icache := s.coh.icache.filter (fun p => !onDie (p.1 / 2 ^ 60 / 8)),
                 reqs := s.coh.reqs.filter (fun q => !gone.contains q.r.id),
                 snoops := s.coh.snoops.filter (fun m => !gone.contains m.req), acks := s.coh.acks.filter (fun a => !gone.contains a.req),
                 replies := s.coh.replies.filter (fun p => !onDie p.r.core) }
  { s with coh := coh, mem := s.mem.filter (fun p => keep p.1), poison := s.poison.filter (fun p => keep p.1),
           eng.keys := s.eng.keys.filter (fun p => p.2.ovf || decide (numSlice p.1 / 24 ≠ d)) }

/-- The packets that are still on the links of a die when they go down are lost with them: their requesters hear no reply,
and words on their way back to their homes are lost (R496, R498). DEDUCED: notes/assumptions/119. -/
def loseLinks (s : State) (d : Nat) : State :=
  let lost := fun (p : Reply) => p.crosses d && decide (coreDie p.r.core ≠ d)
  let ps := s.coh.replies.filter lost
  let qs := s.coh.reqs.filter (fun q => q.crosses d && decide (q.r.route.dropLast.contains d))
  let gone := qs.map (fun q => q.r.id)
  let s := { s with coh.replies := s.coh.replies.filter (fun p => !lost p),
                    coh.reqs := s.coh.reqs.filter (fun q => !gone.contains q.r.id) }
  let s := ps.foldl (fun s p => lostReply s p.r (homeDie p.r.line, p.route.headD d) true) s
  let s := qs.foldl (fun s q =>
    if q.r.kind = .writeback then loseOwned s q.r.line else lostReply s q.r (coreDie q.r.core, q.r.route.headD d) false) s
  let s := { s with eng.pkts := s.eng.pkts.map (fun (p : Pkt) =>
    if crosses d (coreDie p.core) p.route && decide (homeDie p.line ≠ d) && p.fail.isNone then
      { p with fail := some .fabUncorr, info := Config.linkName (coreDie p.core) (p.route.headD d) } else p) }
  ((s.coh.dir.filter (fun p => decide (lineDie p.1 ≠ d) && p.2.owners.any (fun o => decide (coreDie o.2 = d)))).map (fun p => p.1)).foldl
    loseOwned s

/-- The dies that a compute die has a link to. -/
def neighbours (d : Nat) : List Nat := [(d + 1) % 4, (d + 3) % 4, 4]

/-- RETRAIN (R502 step 6): the die's links go down and its state is cleared; then the links are retrained, which a failure
repeats. Operands: the die; whether the retraining fails. -/
def execRetrain (st : State) : Host.Outcome State Fault Refusal :=
  event (match st.fab.fences.find? (fun f => decide (f.die = st.op 0)) with
    | none => st
    | some f =>
      let d := f.die
      if f.step = 5 then
        let s := (neighbours d).foldl (fun s e => setLink s d e false) (loseLinks st d)
        modFence ((clearDie (clearStores s d) d f.zero).modDie d (fun v => { v with st := .inReset })) d (fun f => { f with step := 6 })
      else if f.step = 6 then
        let s := st.modDie d (fun v => { v with st := .retraining })
        if st.op 1 ≠ 0 then s
        else modFence ((neighbours d).foldl (fun s e => setLink s d e true) s) d (fun f => { f with step := 7 })
      else st)

/-- Sluice entries of a die that return from the overflow tables (R321, R502). -/
def returnKeys (s : State) (d : Nat) : State :=
  (s.eng.keys.filter (fun p => p.2.ovf && decide (numSlice p.1 / 24 = d))).foldl (fun s p =>
    if tableUsed s (numSlice p.1) < 128 then s.putKey p.1 { s.slKey p.1 with ovf := false }
    else s) s

/-- The next incarnation number (R498). -/
def nextInc (n : BitVec 8) : BitVec 8 := if n = 255 then 1 else n + 1

/-- The mailbox command's effect is made, with a result. -/
def mboxFin (s : State) (r : BitVec 8) : State := { s with host.mbox := { s.host.mbox with fin := some r } }

/-- RE_ADMISSION (R502 step 7): the incarnation rises, every table is updated, the die is admitted, the domains are told,
and firmware answers the records that waited for it (R465, R505). Operand: the die. -/
def reAdmit (s : State) (f : Fence) : State :=
  let d := f.die
  let n := nextInc (s.die d).inc
  let s := s.modDie d (fun v => { v with inc := n, st := .admitted })
  let s := (List.range 5).foldl (fun s e => s.modDie e (fun v => { v with table := putAt v.table d n })) s
  let s := returnKeys { s with fab.fences := s.fab.fences.filter (fun g => decide (g.die ≠ d)) } d
  let s := noteDie s d
  let s := (s.host.services.filter (fun v => v.firm && decide (v.rcd.die = d))).foldl answerFirm s
  if f.mailbox then mboxFin s 0 else s

def execReAdmission (st : State) : Host.Outcome State Fault Refusal :=
  event (match st.fab.fences.find? (fun f => decide (f.die = st.op 0)) with
    | none => st
    | some f => if f.step = 7 then reAdmit st f else st)

/-! ### Soft errors (R229, R506) and the lockhouse die -/

/-- A die's error counters changed. -/
def modErr (s : State) (d : Nat) (f : ErrCnt → ErrCnt) : State := s.modDie d (fun v => { v with err := f v.err })

/-- A word of memory that its ECC cannot correct: poisoned, and for device memory counted (Table 16-4, UDR). -/
def loseWord (s : State) (a : Nat) : State :=
  let s' := { s with poison := smPut false s.poison a true }
  if isDev a then
    recordErr (modErr s' (dieOf a) (fun e => { e with udr := satAdd e.udr 1 })) (dieOf a) .poisonRd (a % 2 ^ 48)
  else if isHost a then s else s'

/-- CORRECTED_SOFT_ERROR (R229, R506). Operands: the compute die; 0 for L2, Basin and bucket store, 1 for DRAM, 2 for a
state that is corrected without a count, 3 for a word (operand 2: its package address) that cannot be corrected. DESIGN CHOICE: notes/assumptions/118. -/
def execCorrectedSoftError (st : State) : Host.Outcome State Fault Refusal :=
  event (let d := st.op 0
    if 4 ≤ d then st
    else if st.op 1 = 0 then modErr st d (fun e => { e with cl2 := satAdd e.cl2 1 })
    else if st.op 1 = 1 then modErr st d (fun e => { e with cdr := satAdd e.cdr 1 })
    else if st.op 1 = 3 then loseWord st (st.op 2 / 4 * 4)
    else st)

/-- Every domain killed for a management reason; where none is stated the reason is a free value. DEDUCED: notes/assumptions/123. DESIGN CHOICE: notes/assumptions/137. -/
def killAll (s : State) (k : Cause) (detail : Word) (die : Nat) : State :=
  ((List.range 8).filter (fun d => (smFind s.sched.domains d).isSome)).foldl (fun s d => fatalPath s d k detail die) s

/-- LOCKHOUSE_FAULT (R500): MGMT_KILL in every domain; nothing is dispatched until a cold reset. -/
def execLockhouseFault (st : State) : Host.Outcome State Fault Refusal :=
  event (let s := killAll st.took .mgmtKill st.free 4
    { s with mgmt.stopped := true })

end Sys2Proof.Machine
end

