-- ==== Sys2Proof/Machine/Host.lean ====
section
/-! DEFINITION. The host interface (16.6): BAR0, the aperture BAR2, and the mailbox commands. -/

namespace Sys2Proof.Machine
open Sys2Proof

/-! ### BAR0 (R508, Table 16-6) -/

/-- The low or the high word of a 64-bit value replaced. -/
def putHalf (v : DWord) (hi : Bool) (w : Word) : DWord := if hi then w ++ loW v else hiW v ++ w

/-- A code of Table 16-7. -/
def mboxKnown (c : Word) : Bool := decide (1 ≤ c.toNat) && decide (c.toNat ≤ 10)

/-- A write to CMD (R511): the command starts, unless one is running. A code that names no command is a bad argument; in
the recovery state every command but IMAGE_LOAD is refused (R513). -/
def startCmd (s : State) (c : Word) : State :=
  if s.host.mbox.busy then s
  else
    let fin : Option (BitVec 8) :=
      if !mboxKnown c then some 1 else if s.mgmt.power = .recovery ∧ c ≠ 10 then some 3 else none
    { s with host.mbox := { s.host.mbox with cmd := c, busy := true, fin := fin } }

/-- A write to a notice ring register (R510). -/
def ringWrite (s : State) (d o : Nat) (w : Word) : State :=
  if o = 0 then s.modRing d (fun r => { r with base := putHalf r.base false w })
  else if o = 4 then s.modRing d (fun r => { r with base := putHalf r.base true w })
  else if o = 8 then s.modRing d (fun r => { r with k := w.extractLsb' 0 8 })
  else if o = 12 then s.modRing d (fun r => { r with head := w })
  else s

/-- A 4-byte host write to BAR0 at byte offset `o`. In the recovery state only the mailbox answers (R513). PRESUMED: notes/assumptions/128.
The bits of an aperture entry that R509 gives no meaning are stored and read back. DESIGN CHOICE: notes/assumptions/162. -/
def bar0Write (s : State) (o : Nat) (w : Word) : State :=
  if s.mgmt.power = .d3cold ∨ s.mgmt.power = .d3hot ∨ o % 4 ≠ 0 then s
  else if o = 0x1000 then startCmd s w
  else if 0x1004 ≤ o ∧ o < 0x101C then
    { s with host.mbox := { s.host.mbox with args := putAt s.host.mbox.args ((o - 0x1004) / 4) w } }
  else if s.mgmt.power = .recovery then s
  else if 0x2000 ≤ o ∧ o < 0x2100 then ringWrite s ((o - 0x2000) / 32) (o % 32) w
  else if 0x10000 ≤ o ∧ o < 0x12000 then
    (if o % 16 = 0 then ringDoorbell s ((o - 0x10000) / 1024) (o % 1024 / 16) w else s)
  else if 0x30000 ≤ o ∧ o < 0x30200 then
    (let k := (o - 0x30000) / 8
     { s with host.aper := smPut 0 s.host.aper k (putHalf (smGet 0 s.host.aper k) (decide (o % 8 = 4)) w) })
  else if 0x40000 ≤ o ∧ o < 0x40400 then
    (let k := (o - 0x40000) / 4
     sendPending { s with host.msix := smSet s.host.msix k w } (k / 4))
  else s

/-- AER records an uncorrectable error, by its bit (R507). PRESUMED: notes/assumptions/177. -/
def aerSet (s : State) (n : Nat) : State := { s with host.aer := s.host.aer ||| ((1 : Word) <<< n) }

/-- A configuration write: BAR2's size code, n for 2^n MiB from 256 MiB to 64 GiB; the errors of AER, cleared by ones (R507).
DESIGN CHOICE: notes/assumptions/176. -/
def cfgWrite (s : State) (o : Nat) (w : Word) : State :=
  if s.mgmt.power = .d3cold ∨ s.mgmt.power = .recovery then s
  else if o = 0 then (if 8 ≤ w.toNat ∧ w.toNat ≤ 16 then { s with host.bar2 := 20 + w.toNat } else s)
  else if o = 4 then { s with host.aer := s.host.aer &&& ~~~w }
  else s

/-- REGISTER_WRITE (R508). Operands: byte offset, value; offsets past BAR0's 1 MiB name the configuration registers of
`cfgWrite`. -/
def execRegisterWrite (st : State) : Host.Outcome State Fault Refusal :=
  event (if st.op 0 < 2 ^ 20 then bar0Write st (st.op 0) (nw (st.op 1)) else cfgWrite st (st.op 0 - 2 ^ 20) (nw (st.op 1)))

/-- The word that a host read of BAR0 at byte offset `o` returns (Table 16-6); unassigned offsets read as zero. In the
recovery state the identity block and the mailbox answer (R513). -/
def bar0Read (s : State) (o : Nat) : Word :=
  let b := s.host.mbox
  let q := s.queue ((o - 0x10000) / 1024) (o % 1024 / 16)
  let r := s.ring ((o - 0x2000) / 32)
  if o < 0x18 then [0x0000D01B, if s.mgmt.lim.is4P then 0x50 else 0x4D, nw s.mgmt.gib, 0, nw s.time, nw (s.time / 2 ^ 32)].getD (o / 4) 0
  else if 0x1004 ≤ o ∧ o < 0x101C then b.args.getD ((o - 0x1004) / 4) 0
  else if o = 0x1020 then nw (bitN b.busy * 2 ^ 31 + b.result.toNat)
  else if s.mgmt.power = .recovery then 0
  else if 0x2000 ≤ o ∧ o < 0x2100 then
    [loW r.base, hiW r.base, r.k.zeroExtend 32, r.head, r.tail, r.ovf, 0, 0].getD (o % 32 / 4) 0
  else if 0x3000 ≤ o ∧ o < 0x4000 then smGet 0 s.mgmt.tele ((o - 0x3000) / 4)
  else if 0x10000 ≤ o ∧ o < 0x12000 then [0, q.head, nw (bitN q.stop * 2 ^ 31 + q.cause.toNat), 0].getD (o % 16 / 4) 0
  else if 0x20000 ≤ o ∧ o < 0x20140 then (errBlock s ((o - 0x20000) / 64)).getD (o % 64 / 4) 0
  else if 0x30000 ≤ o ∧ o < 0x30200 then
    (let v := smGet 0 s.host.aper ((o - 0x30000) / 8)
     if o % 8 = 4 then hiW v else loW v)
  else if 0x40000 ≤ o ∧ o < 0x40400 then s.msix ((o - 0x40000) / 4)
  else if o = 0x41000 ∨ o = 0x41004 then s.host.pending.extractLsb' (8 * (o - 0x41000)) 32
  else 0

/-- The word that an I3C read of a board controller returns: of the identity, telemetry and error blocks, by their offsets
in BAR0, once the target has its address; nothing else is reachable (R512). DESIGN CHOICE: notes/assumptions/178. -/
def i3cRead (s : State) (o : Nat) : Option Word :=
  if s.mgmt.i3c.isSome && (decide (o < 0x1000) || (decide (0x3000 ≤ o) && decide (o < 0x4000)) ||
      (decide (0x20000 ≤ o) && decide (o < 0x20140))) then some (bar0Read s o) else none

/-! ### BAR2 (R507, R509) -/

/-- An offset lies in BAR2 as it is sized. -/
def inBar2 (s : State) (o : Nat) : Bool := decide (o < 2 ^ s.host.bar2)

/-- The aperture entry of an offset. -/
def aperOf (s : State) (o : Nat) : DWord := smGet 0 s.host.aper (o / 2 ^ 30)

/-- The package address an entry gives an offset. -/
def aperAddr (e : DWord) (o : Nat) : Nat := devAddr (fld e.toNat 48 3) (fld e.toNat 30 18 * 2 ^ 30 + o % 2 ^ 30 / 4 * 4)

/-- The address exists: a compute die's usable memory. -/
def aperOk (s : State) (e : DWord) (o : Nat) : Bool :=
  decide (fld e.toNat 48 3 < 4) && decide (fld e.toNat 30 18 * 2 ^ 30 + o % 2 ^ 30 / 4 * 4 + 4 ≤ s.usable)

/-- A host write of the bytes `bm` of a word through BAR2. DEDUCED: notes/assumptions/129. -/
def bar2Write (s : State) (o : Nat) (w : Word) (bm : BitVec 4) : State :=
  let a := aperAddr (aperOf s o) o
  match homeFail s (lineOf a) with
  | some c => recordErr s (dieOf a) c (64 * (lineOf a % 2 ^ 42))
  | none => if lineBusy s (lineOf a) then s else engineWord s noCore a w bm false

/-- BAR2_WRITE (R509). Operands: offset, value, byte mask. Dropped through an entry with V = 0. -/
def execBar2Write (st : State) : Host.Outcome State Fault Refusal :=
  let e := aperOf st (st.op 0)
  if st.mgmt.power ≠ .d0 ∨ !e.getLsbD 63 ∨ !inBar2 st (st.op 0) then event st
  else if !aperOk st e (st.op 0) then .fault .absentAddress
  else event (bar2Write st (st.op 0) (nw (st.op 1)) (BitVec.ofNat 4 (st.op 2)))

/-- A host read completed; AER records a Completer Abort and an Unsupported Request. -/
def endRead (s : State) (r : ReadEnd) : State :=
  { (match r with
     | .value _ => s
     | .unsupported => aerSet s 20
     | .abort => aerSet s 15) with host.lastRead := some r }

/-- A host read of a word through BAR2; the value that a poisoned word's completion carries is not stated. -/
def bar2Read (s : State) (o : Nat) : State :=
  let a := aperAddr (aperOf s o) o
  match homeFail s (lineOf a) with
  | some _ => endRead s .abort
  | none =>
    if lineBusy s (lineOf a) then s
    else if (readWord s a).2 then endRead s.took (.value s.free)
    else endRead s (.value (readWord s a).1)

/-- BAR2_READ (R509). Operand: the offset. -/
def execBar2Read (st : State) : Host.Outcome State Fault Refusal :=
  let e := aperOf st (st.op 0)
  if st.mgmt.power ≠ .d0 ∨ !e.getLsbD 63 ∨ !inBar2 st (st.op 0) then event (endRead st .unsupported)
  else if !aperOk st e (st.op 0) then .fault .absentAddress
  else event (bar2Read st (st.op 0))

/-! ### Mailbox commands (R511, Table 16-7) -/

/-- An argument of the running command. -/
def mArg (s : State) (k : Nat) : Nat := (s.host.mbox.args.getD k 0).toNat
/-- The 64-bit argument that begins at `k`, its low word first. DESIGN CHOICE: notes/assumptions/125. -/
def mArg2 (s : State) (k : Nat) : Nat := mArg s k + 2 ^ 32 * mArg s (k + 1)

/-- The running command, whose effect is not made yet, has code `c`. -/
def running (s : State) (c : Nat) : Bool :=
  s.host.mbox.busy && s.host.mbox.fin.isNone && decide (s.host.mbox.cmd.toNat = c) &&
    (decide (s.mgmt.power = .d0) || decide (c = 10))

/-- The step of command `c`: its result, and the state with its effect. -/
def command (s : State) (c : Nat) (f : State → BitVec 8 × State) : Host.Outcome State Fault Refusal :=
  event (if running s c then (let r := f s; mboxFin r.2 r.1) else s)

/-- The domain of ARG0 is none. -/
def noDomain (s : State) : Bool := decide (8 ≤ mArg s 0)

/-- A 64-bit value of a settings block. -/
def setVal (s : State) (k : Nat) : Nat := (getDWord s.mem (hostAddr (mArg2 s 1 + 8 * k))).toNat
def setRange (s : State) (k : Nat) : Range := { base := setVal s k, size := setVal s (k + 1) }

/-- A range that is not empty. -/
def someRange (r : Range) : Option Range := if r.size = 0 then none else some r

/-- One range for each compute die, from value `k` on, empty ones left out. -/
def dieRanges (s : State) (k : Nat) : List (Nat × Range) :=
  ((List.range 4).map (fun d => (d, setRange s (k + 2 * d)))).filter (fun p => decide (p.2.size ≠ 0))

/-- The context slots of the context area: 3 MiB each. -/
def ctxSlots (rs : List (Nat × Range)) : List (Nat × Nat) :=
  rs.flatMap (fun p => (List.range (p.2.size / (3 * 2 ^ 20))).map (fun k => (p.1, p.2.base + 3 * 2 ^ 20 * k)))

/-- A value of an inclusive range. -/
def inRange (lo hi n : Nat) : Bool := decide (lo ≤ n) && decide (n ≤ hi)

/-- The dump area of a settings value: bit 63 set, the die in bits 50:48, the die-local base below. -/
def dumpOf (v : Nat) : Option (Nat × Nat) := if v / 2 ^ 63 % 2 = 1 then some (v / 2 ^ 48 % 8, v % 2 ^ 48) else none

/-- The settings of a block that lie outside the ranges of Tables 12-7 and 15-1, or that give a domain memory that no die
has (R207). DEDUCED: notes/assumptions/150. -/
def settingsBad (s : State) : Bool :=
  (dieRanges s 1 ++ dieRanges s 13).any (fun p => decide (s.usable < p.2.base + p.2.size)) ||
  !inRange 10000 1000000000 (setVal s 23) || !inRange 10000 1000000000 (setVal s 24) || decide (65535 < setVal s 25) ||
  (decide (setVal s 31 ≠ 0) && !inRange 4 12 (setVal s 31)) ||
  (decide (setVal s 33 ≠ 0) && !inRange 10000 1000000000 (setVal s 33)) ||
  (decide (setVal s 34 ≠ 0) && !inRange 1000000 60000000000 (setVal s 34)) ||
  (dumpOf (setVal s 32)).any (fun p => !(dieRanges s 1).any (fun r => decide (r.1 = p.1) && r.2.holds p.2 (2 ^ 20))) ||
  (dumpOf (setVal s 35)).any (fun p =>
    !(dieRanges s 1).any (fun r => decide (r.1 = p.1) && r.2.holds p.2 256) || decide (p.2 % 64 ≠ 0)) ||
  (dumpOf (setVal s 36)).any (fun p =>
    !(dieRanges s 1).any (fun r => decide (r.1 = p.1) && r.2.holds p.2 (32 * setVal s 22)) || decide (p.2 % 32 ≠ 0))

/-- The settings of a block in a domain: Table 12-7 then Table 15-1. DESIGN CHOICE: notes/assumptions/124. -/
def settings (s : State) (d : Domain) : Domain :=
  let m : DomMap :=
    { d.map with root := some (setVal s 0 / 2 ^ 48 % 8, setVal s 0 % 2 ^ 48), carve := dieRanges s 1, host := someRange (setRange s 9),
                 code := someRange (setRange s 11), handler := someRange (setRange s 26) }
  let t : DomSet :=
    { d.set_ with ctx := ctxSlots (dieRanges s 13), fen := setVal s 21, slOvf := setVal s 22, slTimeout := setVal s 23,
                  mxTimeout := setVal s 24, window := setVal s 25,
                  hmask := BitVec.ofNat 96 (setVal s 28 + 2 ^ 64 * setVal s 29), dump := dumpOf (setVal s 32), mailAt := dumpOf (setVal s 35),
                  ovfAt := dumpOf (setVal s 36),
                  blocked := setVal s 33, run := setVal s 34 }
  { d with map := m, set_ := t }

/-- DOMAIN_SET: refused while a context slot of the domain is held. -/
def execDomainSet (st : State) : Host.Outcome State Fault Refusal :=
  command st 1 (fun s =>
    let d := mArg s 0
    if noDomain s || settingsBad s then (1, s)
    else if !(s.domain d).set_.ctxUse.isEmpty then (3, s)
    else
      let s' := s.modDomain d (settings s)
      (0, if setVal s 31 = 0 then s'
        else s'.modRing d (fun r => { r with base := BitVec.ofNat 64 (setVal s 30), k := BitVec.ofNat 8 (setVal s 31) })))

/-- XL_FLUSH (R209): the TLBs are emptied of the domain's entries; the command completes by MAILBOX_COMPLETE when what
was translated with them has been applied. -/
def execXlFlush (st : State) : Host.Outcome State Fault Refusal :=
  command st 2 (fun s => if noDomain s then (1, s)
    else (0, { flushTlb s (mArg s 0) with host.mbox := { s.host.mbox with flush := some (1, s.work.next) } }))

/-- A line lies in a domain's carve-out or host window. -/
def domLine (s : State) (d l : Nat) : Bool :=
  if lineHost l then (s.domain d).map.host.any (fun r => r.holds (64 * l - 2 ^ 52) 64)
  else inCarve (s.domain d).map (lineDie l) (64 * l % 2 ^ 48) 64

/-- An access of the domain made before number `k` is still on its way: not applied at its point of coherence. -/
def oldAccess (s : State) (d k : Nat) : Bool :=
  s.coh.reqs.any (fun q => (decide (q.r.dom = d) || (decide (q.r.kind = .push) && domLine s d q.r.line)) && decide (q.r.id < k) &&
      decide (q.r.kind ≠ .evict) && !q.applied) ||
    s.coh.replies.any (fun p => decide (p.r.dom = d) && decide (p.r.id < k) && decide (p.kind = .data) && decide (p.r.wm ≠ 0))

/-- The untracked dirty words of the domain's lines in every L1 pushed, but for those whose home is fenced. -/
def pushDomain (s : State) (d : Nat) : State :=
  s.coh.l1.foldl (fun t p =>
    let l := p.1 % 2 ^ 60
    if domLine s d l && !fenced s l then pushLine t (p.1 / 2 ^ 60) 0 d l 0xFFFF else t) s

/-- The translation flush that the running command waits for: the accesses made before it, then the pushes of what they
left dirty in the L1s (R209). None where it is over. DEDUCED: notes/assumptions/151. -/
def flushStep (s : State) : Option State :=
  match s.host.mbox.flush with
  | none => none
  | some (ph, k) =>
    if oldAccess s (mArg s 0) k then some s
    else if ph = 1 then
      (let t := pushDomain s (mArg s 0)
       some { t with host.mbox := { t.host.mbox with flush := some (2, t.work.next) } })
    else none

/-- QUEUE_SET (R364): an enabled queue starts with HEAD and TAIL 0. DEDUCED: notes/assumptions/126. -/
def execQueueSet (st : State) : Host.Outcome State Fault Refusal :=
  command st 3 (fun s =>
    let on := decide (mArg s 2 % 2 = 1)
    if noDomain s || decide (64 ≤ mArg s 1) || (on && !inRange 6 16 (mArg s 5)) then (1, s)
    else (0, ({ s with gfx.frames := s.gfx.frames.map (fun f =>
        if f.dom = mArg s 0 ∧ f.que = mArg s 1 then { f with atHead := false } else f) } : State).modQueue (mArg s 0) (mArg s 1) (fun v =>
      if on then { v with enabled := true, priv := decide (mArg s 2 / 2 % 2 = 1), k := mArg s 5,
                          ring := BitVec.ofNat 64 (mArg2 s 3), head := 0, tail := 0, stop := false, cause := 0 }
      else { v with enabled := false })))

/-- QUEUE_RESTART (R366). DEDUCED: notes/assumptions/81. -/
def execQueueRestart (st : State) : Host.Outcome State Fault Refusal :=
  command st 4 (fun s =>
    if noDomain s || decide (64 ≤ mArg s 1) then (1, s)
    else if !(s.queue (mArg s 0) (mArg s 1)).enabled then (3, s)
    else (0, s.modQueue (mArg s 0) (mArg s 1) (fun v => { v with stop := false })))

/-- A sum over the queues of all domains. -/
def queueSum (s : State) (f : HostQueue → Nat) : Nat := (s.sched.domains.map (fun d => (d.2.queues.map (fun q => f q.2)).sum)).sum

/-- An entry reserves its slot for a queue. -/
def slotRsv (w : Word) (dom q : Nat) : Bool :=
  w.getLsbD 31 && w.getLsbD 30 && decide (fld w.toNat 27 3 = dom) && decide (fld w.toNat 21 6 = q)

/-- The slots of a core reserved for a queue, those that firmware may reserve for it besides, unbound ones first, and what
the reserve word takes (R370). -/
def rsvSlots (s : State) (core dom q : Nat) : List Nat := (List.range 16).filter (fun k => slotRsv (s.slotWord core k) dom q)
def openSlots (s : State) (core : Nat) : List Nat :=
  ((List.range 16).filter (fun k => !(s.slotWord core k).getLsbD 31)) ++
    ((List.range 16).filter (fun k => (s.slotWord core k).getLsbD 31 && !(s.slotWord core k).getLsbD 30))

/-- Firmware gives a queue `n` reserved slots of a core: it reserves further slots, or unbinds those that are too many
(R24). DESIGN CHOICE: notes/assumptions/179. -/
def shareSlots (n dom q : Nat) (s : State) (core : Nat) : State :=
  let mine := rsvSlots s core dom q
  let s := (mine.drop n).foldl (fun s k => slotWrite s core k 0) s
  ((openSlots s core).take (n - mine.length)).foldl (fun s k => slotWrite s core k (nw (3 * 2 ^ 30 + dom * 2 ^ 27 + q * 2 ^ 21))) s

/-- The fourth assumption of R391 holds on a core once a queue has `n` reserved slots there. -/
def rsvFits (s : State) (core dom q n : Nat) : Bool :=
  let v := (smGet 0 s.sched.reserve core).toNat
  decide (n ≤ (rsvSlots s core dom q).length + (openSlots s core).length) &&
    decide (fld v 0 16 ≤ 32768) && decide (1024 * fld v 16 9 ≤ 327680) && decide (fld v 25 4 ≤ 8)

/-- The cores that a share names: those of the dies of its mask for the slots asked for, and of the others for none. -/
def shareAt (s : State) (core : Nat) : Nat := if (mArg s 5).testBit (coreDie core) then mArg s 2 else 0

/-- QUEUE_SHARE (R24, R381): firmware sets the floors and reserves the slots; refused where the floors of all queues would
pass 160 (R382), or the reserved slots and reserve word of a core what it has (R391). -/
def execQueueShare (st : State) : Host.Outcome State Fault Refusal :=
  command st 5 (fun s =>
    if noDomain s || decide (64 ≤ mArg s 1) || decide (15 < mArg s 2) || decide (160 < mArg s 3) || decide (160 < mArg s 4) ||
      decide (15 < mArg s 5) then (1, s)
    else
      let t := s.modQueue (mArg s 0) (mArg s 1) (fun v =>
        { v with rsv := mArg s 2, df := mArg s 3, ff := mArg s 4, dmask := BitVec.ofNat 4 (mArg s 5) })
      if 160 < queueSum t (fun q => q.df) ∨ 160 < queueSum t (fun q => q.ff) ∨
        !(List.range 192).all (fun c => rsvFits s c (mArg s 0) (mArg s 1) (shareAt s c)) then (3, s)
      else (0, (List.range 192).foldl (fun t c => shareSlots (shareAt s c) (mArg s 0) (mArg s 1) t c) t))

/-- NOTICE_ANSWER (R465): resume, discard or kill. -/
def execNoticeAnswer (st : State) : Host.Outcome State Fault Refusal :=
  command st 6 (fun s =>
    if noDomain s || decide (2 < mArg s 2) then (1, s)
    else match s.host.services.find? (fun v => decide (v.dom = mArg s 0) && decide (v.seq.toNat = mArg s 1) && !v.firm) with
    | none => (3, s)
    | some v =>
      let t := { s with host.services := s.host.services.erase v }
      if mArg s 2 = 0 then (0, answerResume t v (if mArg s 3 % 2 = 1 then some (nw (mArg s 4)) else none))
      else if mArg s 2 = 1 then (0, endCrew t v.crew)
      else (0, fatalPath t v.dom .domainKill 0 4))

/-- DOMAIN_KILL (R475). -/
def execDomainKill (st : State) : Host.Outcome State Fault Refusal :=
  command st 7 (fun s => if noDomain s then (1, s) else (0, fatalPath s (mArg s 0) .domainKill 0 4))

/-- WARM_RESET (R501): the preparation of an orderly fence begins; the command completes at re-admission. -/
def execWarmReset (st : State) : Host.Outcome State Fault Refusal :=
  event (if !running st 8 || st.fab.fences.any (fun f => f.mailbox) then st
    else if 4 ≤ mArg st 0 then mboxFin st 1
    else if st.fab.fences.any (fun f => !f.fault) then mboxFin st 2
    else if (st.die (mArg st 0)).st ≠ .admitted then mboxFin st 3
    else { st with fab.fences := st.fab.fences ++ [{ die := mArg st 0, wait := decide (mArg st 1 % 2 = 1), since := st.time, mailbox := true }] })

/-- A lost line cleared (R497): it holds its home's values, and its directory entry is empty. -/
def clearLine (s : State) (l : Nat) : State :=
  let d := lineDie l
  let e := s.dirOf l
  let s := e.owners.foldl (fun s p => s.putL1 p.2 l ((s.l1 p.2 l).giveUp (wordBit p.1))) s
  let s := (invalidateSharers s l none).putDir l {}
  s.modDie d (fun v => { v with lost := smErase v.lost (l % 2 ^ 42), full := false })

/-- CLEAR_LOST (R497). -/
def execClearLost (st : State) : Host.Outcome State Fault Refusal :=
  command st 9 (fun s =>
    let d := mArg s 0
    let n := mArg2 s 1 / 64
    if 4 ≤ d ∨ s.usable ≤ mArg2 s 1 then (1, s)
    else if (s.die d).st ≠ .admitted then (3, s)
    else if (smFind (s.die d).lost n).isNone then (0, s)
    else (0, clearLine s (lineOf (devAddr d (64 * n)))))

/-- MAILBOX_COMPLETE (R511): a translation flush ends first (R209). -/
def execMailboxComplete (st : State) : Host.Outcome State Fault Refusal :=
  event (match st.host.mbox.fin with
    | none => st
    | some r =>
      if !st.host.mbox.busy then st
      else match flushStep st with
        | some t => t
        | none => signal { st with host.mbox := { st.host.mbox with busy := false, result := r, fin := none, flush := none } } 63)

/-- HOST_DOWN (R461): the PCIe link is lost. -/
def execHostDown (st : State) : Host.Outcome State Fault Refusal := event (killAll st .hostDown 0 4)

end Sys2Proof.Machine
end

