-- ==== Sys2Proof/Machine/Mgmt.lean ====
section
/-! DEFINITION. Management (16.7): boot and the recovery state, power states, limits, telemetry, kills. Sensor readings,
and whether a firmware image verifies, are operands of their events. -/

namespace Sys2Proof.Machine
open Sys2Proof

/-! ### Boot (R513, R514, R517) -/

/-- What outlasts a loss of power: host memory, the flash and the board, and the model's own counters. DEDUCED: notes/assumptions/132. -/
def powerOff (s : State) (p : PowerSt) : State :=
  let m : Mgmt := { power := p, flash := s.mgmt.flash, boards := s.mgmt.boards, gib := s.mgmt.gib, lim := { is4P := s.mgmt.lim.is4P } }
  { State.reset with mem := s.mem.filter (fun c => isHost c.1), mgmt := m, ticks := s.ticks, frees := s.frees, picks := s.picks,
                     evt := s.evt }

/-- A board block's limits lie in their ranges: the power limit from 300 W to 1,500 W, the board-input limit from it up to
1.1 times it (R517). -/
def boardOk (p : Nat × Nat) : Bool := inRange 300 1500 p.1 && decide (p.1 ≤ p.2) && decide (10 * p.2 ≤ 11 * p.1)

/-- The limits that a board block gives (R517). One whose limits lie outside their ranges counts as none.
DESIGN CHOICE: notes/assumptions/180. -/
def limitsOf (is4P : Bool) (b : Option (Nat × Nat)) : PowerLim :=
  if !is4P then {}
  else
    let v := (b.filter boardOk).getD (600, 660)
    { is4P := true, defLimit := v.1, defBoard := v.2, limit := v.1 }

/-- The Dolup after steps 3 and 4 of the boot, with an accepted image's board block. -/
def booted (s : State) (b : Option (Nat × Nat)) : State :=
  let t := powerOff s .d0
  { t with mgmt.lim := limitsOf s.mgmt.lim.is4P b }

/-- The boot: slot A, then slot B, then the recovery state. -/
def boot (s : State) : State :=
  if s.mgmt.flash.getD 0 false then booted s (s.mgmt.boards.getD 0 none)
  else if s.mgmt.flash.getD 1 false then booted s (s.mgmt.boards.getD 1 none)
  else powerOff s .recovery

/-- COLD_RESET (R513). Operand 0: the usable GiB of each die that firmware finds on a PLD-4P whose fitting has been
changed; 0 where it has not (R2, R514). -/
def execColdReset (st : State) : Host.Outcome State Fault Refusal :=
  event (boot (if st.mgmt.lim.is4P && decide (st.op 0 ≠ 0) then { st with mgmt.gib := st.op 0 } else st))

/-- IMAGE_LOAD (R513). Operand 0: the image verifies; operands 1 to 3: it has a board block, and its two limits. DESIGN CHOICE: notes/assumptions/13. -/
def execImageLoad (st : State) : Host.Outcome State Fault Refusal :=
  event (if !running st 10 then st
    else if st.mgmt.power ≠ .recovery then mboxFin st 3
    else if st.op 0 = 0 then mboxFin st 1
    else
      let s := booted st (if st.op 1 ≠ 0 then some (st.op 2, st.op 3) else none)
      { s with host.mbox := { st.host.mbox with fin := some 0 } })

/-- D3COLD (R516): power is removed. -/
def execD3cold (st : State) : Host.Outcome State Fault Refusal := event (powerOff st .d3cold)

/-- D3HOT (R516): entry with crews resident raises MGMT_KILL in their domains. Operand 0 other than 0 is the return to
D0. The reason code is not stated. DEDUCED: notes/assumptions/133. -/
def execD3hot (st : State) : Host.Outcome State Fault Refusal :=
  event (if st.op 0 ≠ 0 then (if st.mgmt.power = .d3hot then { st with mgmt.power := .d0 } else st)
    else if st.mgmt.power ≠ .d0 then st
    else
      let ds := (List.range 8).filter (fun d => st.work.crews.any (fun p => decide (p.2.dom = d) && p.2.core?.isSome))
      { ds.foldl (fun s d => fatalPath s d .mgmtKill st.free 4) st.took with mgmt.power := .d3hot })

/-! ### The sideband (R512, R517) -/

/-- ENTDAA (R512): the target takes a dynamic address, where it has none. Operand: the address. DEDUCED: notes/assumptions/136. -/
def execEntdaa (st : State) : Host.Outcome State Fault Refusal :=
  event (if st.mgmt.i3c.isNone && decide (st.op 0 < 128) then { st with mgmt.i3c := some (st.op 0) } else st)

/-- POWER_LIMIT (R517). Operand: watts; a value outside the range changes nothing. -/
def execPowerLimit (st : State) : Host.Outcome State Fault Refusal :=
  event (if inRange 300 1500 (st.op 0) then { st with mgmt.lim := { st.mgmt.lim with limit := st.op 0 } } else st)

/-- BOARD_INPUT_POWER (R517), on a PLD-4P. Operand: watts. -/
def execBoardInputPower (st : State) : Host.Outcome State Fault Refusal :=
  event (if st.mgmt.lim.is4P then { st with mgmt.lim := { st.mgmt.lim with boardPower := some (st.op 0, st.time) } } else st)

/-- BOARD_INPUT_ABSENT (R517): no value for 10 ms. -/
def execBoardInputAbsent (st : State) : Host.Outcome State Fault Refusal :=
  event (if st.mgmt.lim.is4P && (match st.mgmt.lim.boardPower with
      | none => true
      | some p => decide (10000000 ≤ st.time - p.2)) then
      { st with mgmt.lim := { st.mgmt.lim with boardPower := none }, mgmt.throttle := st.mgmt.throttle &&& 0b011 }
    else st)

/-- MGMT_KILL (R512): the board controller kills every domain. Operand: the reason code. -/
def execMgmtKill (st : State) : Host.Outcome State Fault Refusal := event (killAll st .mgmtKill (nw (st.op 0)) 4)

/-! ### Power and temperature (R515, R516) -/

/-- Board input is past its limit: the limit moves with the power limit of a PLD-4P in the ratio of its board block. -/
def boardOver (l : PowerLim) (watts : Nat) : Bool :=
  if l.is4P then decide (l.limit * l.defBoard < watts * l.defLimit) else decide (1650 < watts)

/-- The board input that firmware goes by: measured on a PLD-4M, written to it on a PLD-4P in the last 10 ms (R517). -/
def boardInput (s : State) (measured : Nat) : Option Nat :=
  if s.mgmt.lim.is4P then (s.mgmt.lim.boardPower.filter (fun p => decide (s.time - p.2 < 10000000))).map (fun p => p.1) else some measured

/-- POWER_THROTTLE (R516): the compute clock goes down a step of 50 MHz while a limit is passed, and back up a step while
none is. Operands: package power averaged over 10 ms, the hottest junction, the board input of 1 ms. DESIGN CHOICE: notes/assumptions/14. DEDUCED: notes/assumptions/134. -/
def execPowerThrottle (st : State) : Host.Outcome State Fault Refusal :=
  event (
    let p := decide (st.mgmt.lim.limit < st.op 0)
    let t := decide (95 < st.op 1)
    let b := (boardInput st (st.op 2)).any (boardOver st.mgmt.lim)
    let c := st.mgmt.clock
    let m : Mgmt := { st.mgmt with throttle := BitVec.ofNat 3 (bitN p + 2 * bitN t + 4 * bitN b),
                                   clock := if p || t || b then (if 50 < c then c - 50 else c) else min 2300 (c + 50) }
    { st with mgmt := m })

/-- THERMAL_KILL (R516): a junction at 110 degrees. Operands: its temperature, its die. -/
def execThermalKill (st : State) : Host.Outcome State Fault Refusal :=
  event (if st.op 0 < 110 then st
    else
      let s := killAll st.took .mgmtKill st.free (min (st.op 1) 4)
      { s with mgmt.stopped := true })

/-- TELEMETRY_REFRESH (R515). Operands: package power, the power of dies 0 to 4, the junctions of dies 0 to 4, the hottest
GDDR7 device; the clocks of Table 1-3, the compute clock 0 once it has stopped (R516), and the throttle bits follow. DESIGN CHOICE: notes/assumptions/135. -/
def execTelemetryRefresh (st : State) : Host.Outcome State Fault Refusal :=
  event (
    let ws := (List.range 12).map (fun k => nw (st.op k)) ++ [if st.mgmt.stopped then 0 else nw st.mgmt.clock, 2000, 1800, 1200, st.mgmt.throttle.zeroExtend 32]
    { st with mgmt.tele := smPuts 0 st.mgmt.tele (ws.zipIdx.map (fun p => (p.2, p.1))) })

end Sys2Proof.Machine
end

