-- ==== Sys2Proof/Machine/Dispatch.lean ====
section
/-! DEFINITION. One arm per instruction: a direct call of its meaning. -/

namespace Sys2Proof.Machine
open Sys2Proof

/-- What an instruction or an event does. -/
def exec (i : Instr) (s : State) : Host.Outcome State Fault Refusal :=
  match i with
  | .nop c => Sys2Proof.Machine.execNop c s
  | .bra o => Sys2Proof.Machine.execBra o s
  | .br m n k o => Sys2Proof.Machine.execBr m n k o s
  | .brx a => Sys2Proof.Machine.execBrx a s
  | .call o => Sys2Proof.Machine.execCall o s
  | .ret => Sys2Proof.Machine.execRet s
  | .loopS d l => Sys2Proof.Machine.execLoopS d l s
  | .loopi n l => Sys2Proof.Machine.execLoopi n l s
  | .lbrk => Sys2Proof.Machine.execLbrk s
  | .rep n d a b e => Sys2Proof.Machine.execRep n d a b e s
  | .setx c m => Sys2Proof.Machine.execSetx c m s
  | .andx c m => Sys2Proof.Machine.execAndx c m s
  | .orx c m => Sys2Proof.Machine.execOrx c m s
  | .regang c im => Sys2Proof.Machine.execRegang c im s
  | .yield => Sys2Proof.Machine.execYield s
  | .exit => Sys2Proof.Machine.execExit s
  | .waitla c => Sys2Proof.Machine.execWaitla c s
  | .ageBoost => Sys2Proof.Machine.execAgeBoost s
  | .trap im => Sys2Proof.Machine.execTrap im s
  | .softi c a => Sys2Proof.Machine.execSofti c a s
  | .softiNotice => Sys2Proof.Machine.execSoftiNotice s
  | .mfsr c d r => Sys2Proof.Machine.execMfsr c d r s
  | .mtsr c d r => Sys2Proof.Machine.execMtsr c d r s
  | .segld c g a => Sys2Proof.Machine.execSegld c g a s
  | .segrd c d g => Sys2Proof.Machine.execSegrd c d g s
  | .scopew c d im => Sys2Proof.Machine.execScopew c d im s
  | .eret => Sys2Proof.Machine.execEret s
  | .bkpt im => Sys2Proof.Machine.execBkpt im s
  | .time c d => Sys2Proof.Machine.execTime c d s
  | .icinv c => Sys2Proof.Machine.execIcinv c s
  | .ctxsv c a => Sys2Proof.Machine.execCtxsv c a s
  | .ctxld c a => Sys2Proof.Machine.execCtxld c a s
  | .iadd c d a b bs => Sys2Proof.Machine.execIadd c d a b bs s
  | .isub c d a b bs => Sys2Proof.Machine.execIsub c d a b bs s
  | .imul c d a b bs => Sys2Proof.Machine.execImul c d a b bs s
  | .imulhI c d a b bs => Sys2Proof.Machine.execImulhI c d a b bs s
  | .imulhN c d a b bs => Sys2Proof.Machine.execImulhN c d a b bs s
  | .imad c d a b bs => Sys2Proof.Machine.execImad c d a b bs s
  | .iminI c d a b bs => Sys2Proof.Machine.execIminI c d a b bs s
  | .iminN c d a b bs => Sys2Proof.Machine.execIminN c d a b bs s
  | .imaxI c d a b bs => Sys2Proof.Machine.execImaxI c d a b bs s
  | .imaxN c d a b bs => Sys2Proof.Machine.execImaxN c d a b bs s
  | .iabs c d a => Sys2Proof.Machine.execIabs c d a s
  | .andV c d a b bs => Sys2Proof.Machine.execAndV c d a b bs s
  | .orV c d a b bs => Sys2Proof.Machine.execOrV c d a b bs s
  | .xorV c d a b bs => Sys2Proof.Machine.execXorV c d a b bs s
  | .andn c d a b bs => Sys2Proof.Machine.execAndn c d a b bs s
  | .shl c d a b bs => Sys2Proof.Machine.execShl c d a b bs s
  | .shr c d a b bs => Sys2Proof.Machine.execShr c d a b bs s
  | .sar c d a b bs => Sys2Proof.Machine.execSar c d a b bs s
  | .fsl c d a b bs => Sys2Proof.Machine.execFsl c d a b bs s
  | .fsr c d a b bs => Sys2Proof.Machine.execFsr c d a b bs s
  | .popc c d a => Sys2Proof.Machine.execPopc c d a s
  | .clz c d a => Sys2Proof.Machine.execClz c d a s
  | .brev c d a => Sys2Proof.Machine.execBrev c d a s
  | .bfxI c d a b bs => Sys2Proof.Machine.execBfxI c d a b bs s
  | .bfxN c d a b bs => Sys2Proof.Machine.execBfxN c d a b bs s
  | .bfi c d a b bs => Sys2Proof.Machine.execBfi c d a b bs s
  | .prm c d a b bs => Sys2Proof.Machine.execPrm c d a b bs s
  | .icmpEq c m a b bs => Sys2Proof.Machine.execIcmpEq c m a b bs s
  | .icmpNe c m a b bs => Sys2Proof.Machine.execIcmpNe c m a b bs s
  | .icmpLtI c m a b bs => Sys2Proof.Machine.execIcmpLtI c m a b bs s
  | .icmpLtN c m a b bs => Sys2Proof.Machine.execIcmpLtN c m a b bs s
  | .icmpLeI c m a b bs => Sys2Proof.Machine.execIcmpLeI c m a b bs s
  | .icmpLeN c m a b bs => Sys2Proof.Machine.execIcmpLeN c m a b bs s
  | .selM1 c d a b bs => Sys2Proof.Machine.execSelM1 c d a b bs s
  | .selM2 c d a b bs => Sys2Proof.Machine.execSelM2 c d a b bs s
  | .selM3 c d a b bs => Sys2Proof.Machine.execSelM3 c d a b bs s
  | .selM4 c d a b bs => Sys2Proof.Machine.execSelM4 c d a b bs s
  | .selM5 c d a b bs => Sys2Proof.Machine.execSelM5 c d a b bs s
  | .selM6 c d a b bs => Sys2Proof.Machine.execSelM6 c d a b bs s
  | .selM7 c d a b bs => Sys2Proof.Machine.execSelM7 c d a b bs s
  | .shflIdx c d a b bs => Sys2Proof.Machine.execShflIdx c d a b bs s
  | .shflUp c d a b bs => Sys2Proof.Machine.execShflUp c d a b bs s
  | .shflDn c d a b bs => Sys2Proof.Machine.execShflDn c d a b bs s
  | .shflXor c d a b bs => Sys2Proof.Machine.execShflXor c d a b bs s
  | .mtov c d m => Sys2Proof.Machine.execMtov c d m s
  | .vtom c m a => Sys2Proof.Machine.execVtom c m a s
  | .iaddi c d a im => Sys2Proof.Machine.execIaddi c d a im s
  | .andi c d a im => Sys2Proof.Machine.execAndi c d a im s
  | .ori c d a im => Sys2Proof.Machine.execOri c d a im s
  | .xori c d a im => Sys2Proof.Machine.execXori c d a im s
  | .shli c d a n => Sys2Proof.Machine.execShli c d a n s
  | .shri c d a n => Sys2Proof.Machine.execShri c d a n s
  | .sari c d a n => Sys2Proof.Machine.execSari c d a n s
  | .icmpiEq c m a im => Sys2Proof.Machine.execIcmpiEq c m a im s
  | .icmpiLtI c m a im => Sys2Proof.Machine.execIcmpiLtI c m a im s
  | .movi c d im => Sys2Proof.Machine.execMovi c d im s
  | .swz c d a p => Sys2Proof.Machine.execSwz c d a p s
  | .fsli c d a n => Sys2Proof.Machine.execFsli c d a n s
  | .fsri c d a n => Sys2Proof.Machine.execFsri c d a n s
  | .fadd c d a b bs z => Sys2Proof.Machine.execFadd c d a b bs z s
  | .fsub c d a b bs z => Sys2Proof.Machine.execFsub c d a b bs z s
  | .fmul c d a b bs z => Sys2Proof.Machine.execFmul c d a b bs z s
  | .fmin c d a b bs z => Sys2Proof.Machine.execFmin c d a b bs z s
  | .fmax c d a b bs z => Sys2Proof.Machine.execFmax c d a b bs z s
  | .fminn c d a b bs z => Sys2Proof.Machine.execFminn c d a b bs z s
  | .fmaxn c d a b bs z => Sys2Proof.Machine.execFmaxn c d a b bs z s
  | .famax c d a b bs z => Sys2Proof.Machine.execFamax c d a b bs z s
  | .fcmpEq c m a b bs z => Sys2Proof.Machine.execFcmpEq c m a b bs z s
  | .fcmpNe c m a b bs z => Sys2Proof.Machine.execFcmpNe c m a b bs z s
  | .fcmpLt c m a b bs z => Sys2Proof.Machine.execFcmpLt c m a b bs z s
  | .fcmpLe c m a b bs z => Sys2Proof.Machine.execFcmpLe c m a b bs z s
  | .fcmpUn c m a b bs z => Sys2Proof.Machine.execFcmpUn c m a b bs z s
  | .frint c d a r z => Sys2Proof.Machine.execFrint c d a r z s
  | .fscale c d a b bs z => Sys2Proof.Machine.execFscale c d a b bs z s
  | .fclass c d a z => Sys2Proof.Machine.execFclass c d a z s
  | .dadd c d a b bs z => Sys2Proof.Machine.execDadd c d a b bs z s
  | .dmul c d a b bs z => Sys2Proof.Machine.execDmul c d a b bs z s
  | .dmin c d a b bs z => Sys2Proof.Machine.execDmin c d a b bs z s
  | .dmax c d a b bs z => Sys2Proof.Machine.execDmax c d a b bs z s
  | .dcmpLt c m a b bs z => Sys2Proof.Machine.execDcmpLt c m a b bs z s
  | .cvt c d a t r z => Sys2Proof.Machine.execCvt c d a t r z s
  | .qnt c d a t r z => Sys2Proof.Machine.execQnt c d a t r z s
  | .dqnt c d a t r z => Sys2Proof.Machine.execDqnt c d a t r z s
  | .mxscl c d a b bs z => Sys2Proof.Machine.execMxscl c d a b bs z s
  | .pack2 c d a b bs z => Sys2Proof.Machine.execPack2 c d a b bs z s
  | .unpk c d a t k z => Sys2Proof.Machine.execUnpk c d a t k z s
  | .frcp c d a l => Sys2Proof.Machine.execFrcp c d a l s
  | .frsq c d a l => Sys2Proof.Machine.execFrsq c d a l s
  | .fsqrt c d a l => Sys2Proof.Machine.execFsqrt c d a l s
  | .fex2 c d a l => Sys2Proof.Machine.execFex2 c d a l s
  | .flg2 c d a l => Sys2Proof.Machine.execFlg2 c d a l s
  | .fsin c d a l => Sys2Proof.Machine.execFsin c d a l s
  | .fcos c d a l => Sys2Proof.Machine.execFcos c d a l s
  | .fdiv c d a l => Sys2Proof.Machine.execFdiv c d a l s
  | .sfuResult => Sys2Proof.Machine.execSfuResult s
  | .ffma c d a b g => Sys2Proof.Machine.execFfma c d a b g s
  | .ffms c d a b g => Sys2Proof.Machine.execFfms c d a b g s
  | .ffnma c d a b g => Sys2Proof.Machine.execFfnma c d a b g s
  | .ffnms c d a b g => Sys2Proof.Machine.execFfnms c d a b g s
  | .dfma c d a b g => Sys2Proof.Machine.execDfma c d a b g s
  | .hfma2 c d a b g => Sys2Proof.Machine.execHfma2 c d a b g s
  | .bfma2 c d a b g => Sys2Proof.Machine.execBfma2 c d a b g s
  | .hdot2 c d a b g => Sys2Proof.Machine.execHdot2 c d a b g s
  | .bdot2 c d a b g => Sys2Proof.Machine.execBdot2 c d a b g s
  | .sadd c d a b => Sys2Proof.Machine.execSadd c d a b s
  | .ssub c d a b => Sys2Proof.Machine.execSsub c d a b s
  | .smul c d a b => Sys2Proof.Machine.execSmul c d a b s
  | .sand c d a b => Sys2Proof.Machine.execSand c d a b s
  | .sor c d a b => Sys2Proof.Machine.execSor c d a b s
  | .sxor c d a b => Sys2Proof.Machine.execSxor c d a b s
  | .sshl c d a b => Sys2Proof.Machine.execSshl c d a b s
  | .sshr c d a b => Sys2Proof.Machine.execSshr c d a b s
  | .ssar c d a b => Sys2Proof.Machine.execSsar c d a b s
  | .scmpEq c d a b => Sys2Proof.Machine.execScmpEq c d a b s
  | .scmpLtI c d a b => Sys2Proof.Machine.execScmpLtI c d a b s
  | .scmpLtN c d a b => Sys2Proof.Machine.execScmpLtN c d a b s
  | .sminI c d a b => Sys2Proof.Machine.execSminI c d a b s
  | .smaxI c d a b => Sys2Proof.Machine.execSmaxI c d a b s
  | .smov c d a => Sys2Proof.Machine.execSmov c d a s
  | .ssel c d a b => Sys2Proof.Machine.execSsel c d a b s
  | .slil c d im => Sys2Proof.Machine.execSlil c d im s
  | .slih c d im => Sys2Proof.Machine.execSlih c d im s
  | .saddi c d im => Sys2Proof.Machine.execSaddi c d im s
  | .srdl c d a b => Sys2Proof.Machine.execSrdl c d a b s
  | .sbal c d a => Sys2Proof.Machine.execSbal c d a s
  | .swrl c d a b => Sys2Proof.Machine.execSwrl c d a b s
  | .lgt c d a b t => Sys2Proof.Machine.execLgt c d a b t s
  | .ld c w p g d a l im => Sys2Proof.Machine.execLd c w p g d a l im s
  | .ldu c w p g d a l im => Sys2Proof.Machine.execLdu c w p g d a l im s
  | .st c w p g v a im => Sys2Proof.Machine.execSt c w p g v a im s
  | .stu c w p g v a im => Sys2Proof.Machine.execStu c w p g v a im s
  | .stagingQueue => Sys2Proof.Machine.execStagingQueue s
  | .lsuAgeBoost => Sys2Proof.Machine.execLsuAgeBoost s
  | .pageWalk => Sys2Proof.Machine.execPageWalk s
  | .rdThr => Sys2Proof.Machine.execRdThr s
  | .rdSis => Sys2Proof.Machine.execRdSis s
  | .rdWis => Sys2Proof.Machine.execRdWis s
  | .rdOwn => Sys2Proof.Machine.execRdOwn s
  | .wrThr => Sys2Proof.Machine.execWrThr s
  | .wrWis => Sys2Proof.Machine.execWrWis s
  | .pushWr => Sys2Proof.Machine.execPushWr s
  | .writeback => Sys2Proof.Machine.execWriteback s
  | .atomicAtHome => Sys2Proof.Machine.execAtomicAtHome s
  | .recall => Sys2Proof.Machine.execRecall s
  | .fwdRd => Sys2Proof.Machine.execFwdRd s
  | .invalidation => Sys2Proof.Machine.execInvalidation s
  | .invalidationAck => Sys2Proof.Machine.execInvalidationAck s
  | .loadReply => Sys2Proof.Machine.execLoadReply s
  | .storeAck => Sys2Proof.Machine.execStoreAck s
  | .errorReply => Sys2Proof.Machine.execErrorReply s
  | .eccL1 => Sys2Proof.Machine.execEccL1 s
  | .eccReg => Sys2Proof.Machine.execEccReg s
  | .atomAdd c o bs d a g w => Sys2Proof.Machine.execAtomAdd c o bs d a g w s
  | .atomMinI c o bs d a g w => Sys2Proof.Machine.execAtomMinI c o bs d a g w s
  | .atomMinN c o bs d a g w => Sys2Proof.Machine.execAtomMinN c o bs d a g w s
  | .atomMaxI c o bs d a g w => Sys2Proof.Machine.execAtomMaxI c o bs d a g w s
  | .atomMaxN c o bs d a g w => Sys2Proof.Machine.execAtomMaxN c o bs d a g w s
  | .atomAnd c o bs d a g w => Sys2Proof.Machine.execAtomAnd c o bs d a g w s
  | .atomOr c o bs d a g w => Sys2Proof.Machine.execAtomOr c o bs d a g w s
  | .atomXor c o bs d a g w => Sys2Proof.Machine.execAtomXor c o bs d a g w s
  | .atomXchg c o bs d a g w => Sys2Proof.Machine.execAtomXchg c o bs d a g w s
  | .acas c o bs d a g w => Sys2Proof.Machine.execAcas c o bs d a g w s
  | .atomFadd c o bs d a g w => Sys2Proof.Machine.execAtomFadd c o bs d a g w s
  | .atomFamax c o bs d a g w => Sys2Proof.Machine.execAtomFamax c o bs d a g w s
  | .atomXrst c o bs d a g w => Sys2Proof.Machine.execAtomXrst c o bs d a g w s
  | .ald c o bs d a g w => Sys2Proof.Machine.execAld c o bs d a g w s
  | .ast c o bs d a g w => Sys2Proof.Machine.execAst c o bs d a g w s
  | .fence c k bs => Sys2Proof.Machine.execFence c k bs s
  | .binit c b x => Sys2Proof.Machine.execBinit c b x s
  | .binitMem c bs b x => Sys2Proof.Machine.execBinitMem c bs b x s
  | .barr c b => Sys2Proof.Machine.execBarr c b s
  | .barrMem c b => Sys2Proof.Machine.execBarrMem c b s
  | .barrierUnit => Sys2Proof.Machine.execBarrierUnit s
  | .barrierWaitRetry => Sys2Proof.Machine.execBarrierWaitRetry s
  | .bard c b => Sys2Proof.Machine.execBard c b s
  | .bexp c b x => Sys2Proof.Machine.execBexp c b x s
  | .bwait c b x => Sys2Proof.Machine.execBwait c b x s
  | .bwaitMem c b x => Sys2Proof.Machine.execBwaitMem c b x s
  | .btest c b x => Sys2Proof.Machine.execBtest c b x s
  | .btestMem c b x => Sys2Proof.Machine.execBtestMem c b x s
  | .qinit c q x y => Sys2Proof.Machine.execQinit c q x y s
  | .qpush c q x => Sys2Proof.Machine.execQpush c q x s
  | .qpop c q x => Sys2Proof.Machine.execQpop c q x s
  | .qtry c q x y => Sys2Proof.Machine.execQtry c q x y s
  | .qalw c q x y => Sys2Proof.Machine.execQalw c q x y s
  | .slinit c a b p => Sys2Proof.Machine.execSlinit c a b p s
  | .sle c bs a b => Sys2Proof.Machine.execSle c bs a b s
  | .slx c bs a => Sys2Proof.Machine.execSlx c bs a s
  | .slclose c a b => Sys2Proof.Machine.execSlclose c a b s
  | .slq c a b => Sys2Proof.Machine.execSlq c a b s
  | .sluiceRequest => Sys2Proof.Machine.execSluiceRequest s
  | .sluiceGrant => Sys2Proof.Machine.execSluiceGrant s
  | .sluiceRelease => Sys2Proof.Machine.execSluiceRelease s
  | .sluiceBufferRetry => Sys2Proof.Machine.execSluiceBufferRetry s
  | .slTimeout => Sys2Proof.Machine.execSlTimeout s
  | .releaseResend => Sys2Proof.Machine.execReleaseResend s
  | .cflush c bs a b l => Sys2Proof.Machine.execCflush c bs a b l s
  | .cinv c bs a b l => Sys2Proof.Machine.execCinv c bs a b l s
  | .scbwait c a b l => Sys2Proof.Machine.execScbwait c a b l s
  | .cp c z bs d a b r => Sys2Proof.Machine.execCp c z bs d a b r s
  | .cpt c bs d a b r => Sys2Proof.Machine.execCpt c bs d a b r s
  | .cpx c z bs d a b r => Sys2Proof.Machine.execCpx c z bs d a b r s
  | .cpm c z bs d a b r => Sys2Proof.Machine.execCpm c z bs d a b r s
  | .cpe c z bs d a b r => Sys2Proof.Machine.execCpe c z bs d a b r s
  | .copyLineLand => Sys2Proof.Machine.execCopyLineLand s
  | .copyComplete => Sys2Proof.Machine.execCopyComplete s
  | .cpmLineRequest => Sys2Proof.Machine.execCpmLineRequest s
  | .mergeWindow => Sys2Proof.Machine.execMergeWindow s
  | .mergeEntryFree => Sys2Proof.Machine.execMergeEntryFree s
  | .cpeEnqueue => Sys2Proof.Machine.execCpeEnqueue s
  | .followOnPost => Sys2Proof.Machine.execFollowOnPost s
  | .mma c t a b f l z => Sys2Proof.Machine.execMma c t a b f l z s
  | .mmz c t f l => Sys2Proof.Machine.execMmz c t f l s
  | .mdr c t a b f l z => Sys2Proof.Machine.execMdr c t a b f l z s
  | .mld c t a f l => Sys2Proof.Machine.execMld c t a f l s
  | .mfmt c a f l => Sys2Proof.Machine.execMfmt c a f l s
  | .mrq c t a l z => Sys2Proof.Machine.execMrq c t a l z s
  | .mqry c a l => Sys2Proof.Machine.execMqry c a l s
  | .reservationAccept => Sys2Proof.Machine.execReservationAccept s
  | .passGrant => Sys2Proof.Machine.execPassGrant s
  | .tilePathGrant => Sys2Proof.Machine.execTilePathGrant s
  | .matrixAgeBoost => Sys2Proof.Machine.execMatrixAgeBoost s
  | .requestFinish => Sys2Proof.Machine.execRequestFinish s
  | .mxRsv => Sys2Proof.Machine.execMxRsv s
  | .dice c a b => Sys2Proof.Machine.execDice c a b s
  | .gsh c d a l => Sys2Proof.Machine.execGsh c d a l s
  | .gwb c a b => Sys2Proof.Machine.execGwb c a b s
  | .gemit c a => Sys2Proof.Machine.execGemit c a s
  | .stq c d a b l => Sys2Proof.Machine.execStq c d a b l s
  | .bknext c d l => Sys2Proof.Machine.execBknext c d l s
  | .bkdone c a => Sys2Proof.Machine.execBkdone c a s
  | .bkspl c a => Sys2Proof.Machine.execBkspl c a s
  | .binner => Sys2Proof.Machine.execBinner s
  | .bucketDistributor => Sys2Proof.Machine.execBucketDistributor s
  | .bucketSetup => Sys2Proof.Machine.execBucketSetup s
  | .dicerJob => Sys2Proof.Machine.execDicerJob s
  | .writeBackJob => Sys2Proof.Machine.execWriteBackJob s
  | .stuJob => Sys2Proof.Machine.execStuJob s
  | .gridForward => Sys2Proof.Machine.execGridForward s
  | .bucketClose => Sys2Proof.Machine.execBucketClose s
  | .park => Sys2Proof.Machine.execPark s
  | .bucketReload => Sys2Proof.Machine.execBucketReload s
  | .ray c a b => Sys2Proof.Machine.execRay c a b s
  | .rayw c d a l => Sys2Proof.Machine.execRayw c d a l s
  | .rays c d a l => Sys2Proof.Machine.execRays c d a l s
  | .query => Sys2Proof.Machine.execQuery s
  | .tspawn c a b => Sys2Proof.Machine.execTspawn c a b s
  | .spawn => Sys2Proof.Machine.execSpawn s
  | .tsucc c a => Sys2Proof.Machine.execTsucc c a s
  | .tdone => Sys2Proof.Machine.execTdone s
  | .doorbell => Sys2Proof.Machine.execDoorbell s
  | .frontEndTake => Sys2Proof.Machine.execFrontEndTake s
  | .steal => Sys2Proof.Machine.execSteal s
  | .dispatch => Sys2Proof.Machine.execDispatch s
  | .crewEnd => Sys2Proof.Machine.execCrewEnd s
  | .taskCompletion => Sys2Proof.Machine.execTaskCompletion s
  | .slotTableWrite => Sys2Proof.Machine.execSlotTableWrite s
  | .eviction => Sys2Proof.Machine.execEviction s
  | .swapOut => Sys2Proof.Machine.execSwapOut s
  | .resume => Sys2Proof.Machine.execResume s
  | .handlerEntry => Sys2Proof.Machine.execHandlerEntry s
  | .serviceDelivery => Sys2Proof.Machine.execServiceDelivery s
  | .fatalPath => Sys2Proof.Machine.execFatalPath s
  | .watchdog => Sys2Proof.Machine.execWatchdog s
  | .timeLimit => Sys2Proof.Machine.execTimeLimit s
  | .dbgHalt => Sys2Proof.Machine.execDbgHalt s
  | .flitReceive => Sys2Proof.Machine.execFlitReceive s
  | .replay => Sys2Proof.Machine.execReplay s
  | .homeTimeout => Sys2Proof.Machine.execHomeTimeout s
  | .fabUncorr => Sys2Proof.Machine.execFabUncorr s
  | .completionTimeout => Sys2Proof.Machine.execCompletionTimeout s
  | .faultFence => Sys2Proof.Machine.execFaultFence s
  | .heartbeatTimeout => Sys2Proof.Machine.execHeartbeatTimeout s
  | .fenceQuiesce => Sys2Proof.Machine.execFenceQuiesce s
  | .selfRefreshTimeout => Sys2Proof.Machine.execSelfRefreshTimeout s
  | .retrain => Sys2Proof.Machine.execRetrain s
  | .reAdmission => Sys2Proof.Machine.execReAdmission s
  | .domainSet => Sys2Proof.Machine.execDomainSet s
  | .xlFlush => Sys2Proof.Machine.execXlFlush s
  | .queueSet => Sys2Proof.Machine.execQueueSet s
  | .queueRestart => Sys2Proof.Machine.execQueueRestart s
  | .queueShare => Sys2Proof.Machine.execQueueShare s
  | .noticeAnswer => Sys2Proof.Machine.execNoticeAnswer s
  | .domainKill => Sys2Proof.Machine.execDomainKill s
  | .warmReset => Sys2Proof.Machine.execWarmReset s
  | .clearLost => Sys2Proof.Machine.execClearLost s
  | .imageLoad => Sys2Proof.Machine.execImageLoad s
  | .mailboxComplete => Sys2Proof.Machine.execMailboxComplete s
  | .notice => Sys2Proof.Machine.execNotice s
  | .bar2Write => Sys2Proof.Machine.execBar2Write s
  | .bar2Read => Sys2Proof.Machine.execBar2Read s
  | .registerWrite => Sys2Proof.Machine.execRegisterWrite s
  | .hostDown => Sys2Proof.Machine.execHostDown s
  | .d3hot => Sys2Proof.Machine.execD3hot s
  | .coldReset => Sys2Proof.Machine.execColdReset s
  | .entdaa => Sys2Proof.Machine.execEntdaa s
  | .powerLimit => Sys2Proof.Machine.execPowerLimit s
  | .boardInputPower => Sys2Proof.Machine.execBoardInputPower s
  | .boardInputAbsent => Sys2Proof.Machine.execBoardInputAbsent s
  | .mgmtKill => Sys2Proof.Machine.execMgmtKill s
  | .telemetryRefresh => Sys2Proof.Machine.execTelemetryRefresh s
  | .powerThrottle => Sys2Proof.Machine.execPowerThrottle s
  | .thermalKill => Sys2Proof.Machine.execThermalKill s
  | .resident10usElapsed => Sys2Proof.Machine.execResident10usElapsed s
  | .lockhouseFault => Sys2Proof.Machine.execLockhouseFault s
  | .d3cold => Sys2Proof.Machine.execD3cold s
  | .correctedSoftError => Sys2Proof.Machine.execCorrectedSoftError s
  | .sluiceEntryFree => Sys2Proof.Machine.execSluiceEntryFree s

end Sys2Proof.Machine
end

