-- ==== Sys2Proof/Machine/Run.lean ====
section
/-! DEFINITION. How a step is made: time and age, which group the arbiter lets issue (R60, R61), the fetch and the
decode checks of its chain (R27 to R33), the repeat (R80), and the words of the chain one after another (R31). -/

namespace Sys2Proof.Machine
open Sys2Proof

/-! ### Readiness of a slice -/

/-- The slice could issue as far as its own control state tells (R60); one that waits at an issued word issues nothing
further, so that no window holds it there. -/
def Slice.runs (sl : Slice) : Bool :=
  sl.live && !sl.stopped && !sl.frozen && sl.join.isNone && (sl.block.isSome || sl.wins.all (fun p => decide (p.2 ≠ 0)))

/-! ### The chain of a group -/

/-- The pipe of a word by its class and code (Table 2-1). -/
def wordPipe (w : Word) : Pipe :=
  let c := fld w.toNat 27 4
  if c = 4 then (if 48 ≤ fld w.toNat 21 6 ∧ fld w.toNat 21 6 ≤ 55 then .x else .v)
  else if c = 2 ∨ c = 3 ∨ c = 5 ∨ c = 6 ∨ c = 15 then .v
  else if c = 8 ∨ c = 9 ∨ c = 10 ∨ c = 12 then .m
  else .s

/-- The parts of a word that say which registers it writes, by class and format (Tables 2-4 and 2-6): the bits kept, in
the order in which they are tried, with an assigned code in a format field and a mask's number in the place of `vd`. -/
def destParts (w : Nat) : List Nat :=
  let top := fun (n : Nat) => w / 2 ^ n * 2 ^ n
  let cls := fld w 27 4
  if cls = 1 ∨ cls = 7 ∨ cls = 14 then [top 16]
  else if cls = 2 then [top 15, top 21 + fld w 15 3 * 2 ^ 15]
  else if cls = 3 then [top 17, top 23 + fld w 17 3 * 2 ^ 17]
  else if cls = 4 then [top 15 + fld w 4 5 * 16, top 15, top 15 + 3 * 16, top 21 + fld w 15 3 * 2 ^ 15]
  else if cls = 8 then [top 22 + fld w 0 19]
  else if cls = 10 then [top 2 + fld w 0 1]
  else if cls = 11 then
    (if fld w 22 5 ≤ 6 then [top 22 + fld w 21 1 * 2 ^ 21 + fld w 4 10 * 16]
     else if fld w 22 5 ≤ 11 then [top 6, top 12] else [top 22 + fld w 5 12 * 2 ^ 5])
  else if cls = 13 then [top 24 + fld w 15 6 * 2 ^ 15]
  else if cls = 15 then [top 1]
  else []

/-- The destinations of a word whose function is assigned, by its destination fields whatever its other fields hold:
R28 is checked before the fields are (Table 2-3). DEDUCED: notes/assumptions/24. -/
def wordDests (w : Word) : List RegUse :=
  match decode w with
  | .ok i => (Instr.uses i).filter (fun u => u.wr)
  | .illField =>
    ((destParts w.toNat).findSome? (fun n => match decode (BitVec.ofNat 32 n) with
      | .ok i => some ((Instr.uses i).filter (fun u => u.wr))
      | _ => none)).getD []
  | _ => []

/-- Two uses that touch one register. -/
def useMeets (u v : RegUse) : Bool :=
  decide (u.file = v.file) && decide (u.first < v.first + v.n) && decide (v.first < u.first + u.n)

/-- Two words of one chain in conflict: one pipe, or one destination (R28). DEDUCED: notes/assumptions/24. -/
def wordsClash (a b : Word) : Bool :=
  decide (wordPipe a = wordPipe b) || (wordDests a).any (fun u => (wordDests b).any (useMeets u))

/-- The word at `pc` breaks R28 in its chain: REP_BAD or ILL_CHAIN. -/
def chainBadAt (ws : List (Word × Word)) (p : Word × Word) : Option Cause :=
  if decode p.2 = .repBad then some .repBad
  else if decode p.2 = .illChain || (chainBit p.2.toNat && decide (p.1.toNat % 3 = 2)) ||
    ws.any (fun q => decide (q.1 ≠ p.1) && wordsClash q.2 p.2) then some .illChain
  else none

/-- The first word for which `f` gives a cause. -/
def firstBad (ws : List (Word × Word)) (f : Word × Word → Option Cause) : Option (Word × Word × Cause) :=
  ws.findSome? (fun p => (f p).map (fun c => (p.1, p.2, c)))

/-- Checks 2 to 4 of Table 2-3 over a chain, in order; the lowest slot is reported. `f` tells the words whose registers
select a field that must be zero. -/
def chainCheck (ws : List (Word × Word)) (f : Word × Word × Instr → Bool) : Option (Word × Word × Cause) :=
  match firstBad ws (chainBadAt ws) with
  | some b => some b
  | none =>
    match firstBad ws (fun p => if decode p.2 = .illEnc then some .illEnc else none) with
    | some b => some b
    | none => firstBad ws (fun p => match decode p.2 with
      | .illField => some .illField
      | .ok i => if f (p.1, p.2, i) then some .illField else none
      | _ => none)

/-! ### Issue -/

/-- The state that issues the word `w` at `pc` under `c`. -/
def State.at_ (s : State) (c : Cur) (pc w : Word) : State := { s with work.cur := some { c with pc := pc, word := w } }

/-- A trap of the word `w` at `pc` under `c`. -/
def trapAt (s : State) (c : Cur) (pc w : Word) (t : Cx → TrapReq) : State :=
  let s := s.at_ c pc w
  match s.cx with
  | none => s
  | some x => raiseTrap s x (t x)

/-- The words of a chain, all of which can take effect, make their effects in slot order. A word that does not, because
of the others, keeps the whole chain from issuing. -/
def runAll (pre : State) (c : Cur) : List (Word × Word × Instr) → State → Host.Outcome State Fault Refusal
  | [], s => .next s
  | (pc, w, i) :: rest, s =>
    (match exec i (s.at_ c pc w) with
     | .next t =>
       if t.work.issued = .done then runAll pre c rest t
       else .next { pre with work.cur := none, work.issued := .held }
     | o => o)

/-- A chain's words issue together (R27). Each is judged on the state before the chain, in slot order: the first that
traps or must wait keeps the whole chain from issuing (R31, R518). Where none does, every release side has been
performed and all take effect. DEDUCED: notes/assumptions/17. -/
def runWords (pre : State) (c : Cur) (ws : List (Word × Word × Instr)) : Host.Outcome State Fault Refusal :=
  match ws with
  | [p] => exec p.2.2 (pre.at_ c p.1 p.2.1)
  | _ =>
    match ws.findSome? (fun p => match exec p.2.2 (pre.at_ c p.1 p.2.1) with
      | .next t => if t.work.issued = .done then none else some (.next t)
      | o => some o) with
    | some o => o
    | none => runAll pre { c with released := true } ws pre

/-- The property `f` of a word's context and instruction, under `c`. -/
def holdsAt (s : State) (c : Cur) (f : Cx → Instr → Bool) (p : Word × Word × Instr) : Bool :=
  match (s.at_ c p.1 p.2.1).cx with
  | some x => f x p.2.2
  | none => false

/-- The first word of a chain that fails check `f` at issue (checks 4 to 7 over the chain, in order). -/
def issueCheck (s : State) (c : Cur) (ws : List (Word × Word × Instr)) (f : Cx → Instr → Bool) :
    Option (Word × Word × Instr) := ws.find? (holdsAt s c f)

/-- Some word of the chain has the property `f` of its context and instruction. -/
def chainAny (s : State) (c : Cur) (ws : List (Word × Word × Instr)) (f : Cx → Instr → Bool) : Bool :=
  ws.any (holdsAt s c f)

/-- The L and A instructions of a chain. -/
def trackedWords (ws : List (Word × Word × Instr)) : Nat := (ws.filter (fun p => tracked p.2.2)).length

/-- Some word of the chain must wait before it issues, or the chain's L and A instructions together are too many (R47). -/
def chainHeld (s : State) (c : Cur) (ws : List (Word × Word × Instr)) : Bool :=
  chainAny s c ws (fun x i => mustHold s x i || (tracked i && tooMany x (trackedWords ws)))

/-- A chain that does not issue, because of a register match: the core's counter of such stalls counts it (R47).
DESIGN CHOICE: notes/assumptions/138. -/
def countStall (s : State) (c : Cur) (ws : List (Word × Word × Instr)) : State :=
  match (s.at_ c c.first 0).cx with
  | none => s
  | some x =>
    if chainAny s c ws (interlocked s) then
      { s with work.stalls := smPut 0 s.work.stalls x.core (smGet 0 s.work.stalls x.core + 1) }
    else s

/-- A chain issues: checks 4 to 7 over its words, the holds, then its words (R31, R33). -/
def issueChain (s : State) (c : Cur) (ws : List (Word × Word × Instr)) : Host.Outcome State Fault Refusal :=
  match (issueCheck s c ws fieldBad).or ((issueCheck s c ws (fun x i => regBad x.crew i)).or
      ((issueCheck s c ws privBad).or (issueCheck s c ws (fun _ i => Instr.segpol i)))) with
  | some p => exec p.2.2 (s.at_ c p.1 p.2.1)
  | none =>
    if chainHeld s c ws then .next { countStall s c ws with work.cur := none, work.issued := .held }
    else runWords s c ws

/-- EADDR and EDETAIL of a failed fetch. -/
def fetchTrap (g : Seg) (pc : Word) (f : CkFail) (x : Cx) : TrapReq :=
  { cause := f.cause, lanes := x.all, detail := f.detail,
    addr := if f.cause = .codeLimit then 0 else g.base + BitVec.ofNat 64 (4 * pc.toNat) }

/-- A decode trap: the word in EDETAIL. DEDUCED: notes/assumptions/22. -/
def decodeTrap (w : Word) (c : Cause) (x : Cx) : TrapReq := { cause := c, lanes := x.all, detail := w }

/-- The words fetched, in the instruction cache and the TLBs. -/
def fillWords (s : State) (core dom : Nat) (g : Seg) (ws : List (Word × Word)) : State :=
  ws.foldl (fun s p => fillIc s core dom g p.1) s

/-- The next chain of a group that is not waiting and not repeating. -/
def newChain (s : State) (core dom : Nat) (seg : Seg) (c : Cur) (g : Gang) (pc : Word) :
    Host.Outcome State Fault Refusal :=
  let r := fetchChain s core dom seg 3 pc
  let c := { c with first := pc, last := ((r.1.getLast?).map (fun p => p.1)).getD pc }
  match r.2 with
  | some (p, f) => .next (trapAt s c p 0 (fetchTrap seg p f))
  | none =>
    match chainCheck r.1 (holdsAt s c fieldBad) with
    | some (p, w, k) => .next (trapAt s c p w (decodeTrap w k))
    | none =>
      let s := fillWords s core dom seg r.1
      issueChain s (if c.last = pc then c else { c with before := some g, scopes := some (s.domain dom).map.scopes }) (chainInstrs r.1)

/-- Repetition `r.j` of the word at `pc` (R80): the word that it forms passes checks 3 to 7, a stepped field outside 0 to
63 being check 5 (R34). DEDUCED: notes/assumptions/139. -/
def repetition (s : State) (core dom : Nat) (seg : Seg) (c : Cur) (pc : Word) (r : Rep) :
    Host.Outcome State Fault Refusal :=
  let c := { c with first := pc, last := pc, rep := some r.j }
  match fetchWord s core dom seg pc with
  | .error f => .next (trapAt s c pc 0 (fetchTrap seg pc f))
  | .ok tw =>
    let n := stepWord r.word.toNat tw.toNat r.j
    let w := BitVec.ofNat 32 n.1
    match decode w with
    | .ok i =>
      if n.2 then .next (trapAt s c pc w (decodeTrap w .illReg))
      else issueChain (fillIc s core dom seg pc) c [(pc, w, i)]
    | .illEnc => .next (trapAt s c pc w (decodeTrap w .illEnc))
    | .illField => .next (trapAt s c pc w (decodeTrap w .illField))
    | .illChain => .next (trapAt s c pc w (decodeTrap w .illChain))
    | .repBad => .next (trapAt s c pc w (decodeTrap w .repBad))

/-- A word that a group waits at tries again; the rest of its chain is in effect, and a trap names that chain's first
issued word (R457). DEDUCED: notes/assumptions/18. -/
def retryWord (s : State) (core dom : Nat) (seg : Seg) (c : Cur) (b : Block) : Host.Outcome State Fault Refusal :=
  let c := { c with first := b.first, last := b.last, mark := b.mark, retry := true }
  match fetchWord s core dom seg b.pc with
  | .error f => .next (trapAt s c b.pc 0 (fetchTrap seg b.pc f))
  | .ok w =>
    match decode w with
    | .ok i => exec i (s.at_ c b.pc w)
    | _ => .next (trapAt s c b.pc w (decodeTrap w .illEnc))

/-- A BKNEXT that was outstanding at the crew's save issues again, alone and in the mode in which it issued; the group's own
chain stays where it is (R431).
DEDUCED: notes/assumptions/91. -/
def issueAgain (s : State) (core dom : Nat) (r : Regs) (c : Cur) (w : Word × Bool) : Host.Outcome State Fault Refusal :=
  let pc := w.1
  let seg := segOf s dom w.2 r 7
  let c := { c with last := pc, again := true, mode := some w.2 }
  match fetchWord s core dom seg pc with
  | .error f => .next (trapAt s c pc 0 (fetchTrap seg pc f))
  | .ok w =>
    match decode w with
    | .ok i => exec i (s.at_ c pc w)
    | _ => .next (trapAt s c pc w (decodeTrap w .illEnc))

/-- A group of a gang issues, if there is one that can: a deferred fault that waits for its chain boundary first, then
the wait it is in, the repeat in progress, or its next chain. -/
def issueGroup (s : State) (gk : Nat) (m : BitVec 8) : Host.Outcome State Fault Refusal :=
  let s := { s with work.issued := .done, evt := [] }
  match s.gang gk with
  | none => .next s
  | some g =>
    match s.crew g.crew with
    | none => .next s
    | some w =>
      match w.core? with
      | none => .next s
      | some core =>
        let sl := g.slice (firstSlice m)
        let seg := segOf s w.dom sl.hnd g.r 7
        let c : Cur := { gang := gk, grp := m, mark := s.work.next }
        match sl.again with
        | a :: _ => issueAgain s core w.dom g.r { c with first := sl.nextPc } a
        | [] =>
        match sl.block with
        | some b => retryWord s core w.dom seg c b
        | none =>
          match lateOf s gk m with
          | some e => .next (deferTrap s gk m e)
          | none =>
            match sl.rep with
            | some r => repetition s core w.dom seg c sl.pc r
            | none => newChain s core w.dom seg c g sl.pc

/-! ### The arbiter (R60, R61) -/

/-- The quadrant of a gang: four gang slots of its core. -/
def gangQuad (s : State) (g : Gang) : Option (Nat × Nat) :=
  match s.crew g.crew with
  | none => none
  | some w => w.core?.map (fun k => (k, g.slot / 4))

/-- The crew goes on issuing: it is on a core and is not being drained. -/
def crewRuns (s : State) (g : Gang) : Bool :=
  match s.crew g.crew with
  | none => false
  | some w => w.core?.isSome && w.leaving.isNone

/-- A group that could issue. -/
def groupReady (s : State) (gk : Nat) (m : BitVec 8) : Bool :=
  match s.gang gk with
  | none => false
  | some g => crewRuns s g && decide (m ≠ 0) && !s.mgmt.stopped && !frozenNow s gk g m &&
      (grpSlices m).all (fun k => (g.slice k).runs && decide ((g.slice k).grp = m))

/-- The priority of a gang's crew. -/
def gangPri (s : State) (g : Gang) : Nat := ((s.crew g.crew).map (fun w => kwPri w.kw)).getD 0

/-- The arbiter's order of a group: raised, then priority (raised groups by age alone), then age (R61). -/
def rankOf (s : State) (g : Gang) (m : BitVec 8) : Nat × Nat × Nat :=
  let sl := g.slice (firstSlice m)
  if sl.boost then (1, 0, sl.age) else (0, gangPri s g, sl.age)

/-- `a` goes before `b`. -/
def rankBefore (a b : Nat × Nat × Nat) : Bool :=
  decide (b.1 < a.1) || (decide (a.1 = b.1) && (decide (b.2.1 < a.2.1) ||
    (decide (a.2.1 = b.2.1) && decide (b.2.2 < a.2.2))))

/-- The groups of all gangs. -/
def allGroups (s : State) : List (Nat × BitVec 8) :=
  s.work.gangs.flatMap (fun p => (liveGroups p.2).map (fun m => (p.1, m)))

/-- The group's issue comes to nothing now: an interlock or a shared unit holds its chain. -/
def groupHeld (s : State) (gk : Nat) (m : BitVec 8) : Bool :=
  match issueGroup s gk m with
  | .next t => decide (t.work.issued = .held)
  | _ => false

/-- A class latency or a shared unit that another quadrant's word holds keeps the group from being ready in this step
(R60, R62). DESIGN CHOICE: notes/assumptions/140. -/
def unready (s : State) (gk : Nat) (m : BitVec 8) : Bool := Config.unready s.ticks (256 * gk + m.toNat)

/-- The arbiter lets the group issue: it is ready, and every ready group of its quadrant that ranks above it is held
or not ready (R60, R61). A group that waits at a word may try it again at any time. DEDUCED: notes/assumptions/28. -/
def mayIssue (s : State) (gk : Nat) (m : BitVec 8) : Bool :=
  groupReady s gk m &&
  (match s.gang gk with
   | none => false
   | some g =>
     (g.slice (firstSlice m)).block.isSome ||
     (allGroups s).all (fun p =>
       match s.gang p.1 with
       | none => true
       | some h =>
         decide (p = (gk, m)) || decide (gangQuad s h ≠ gangQuad s g) || !groupReady s p.1 p.2 || (h.slice (firstSlice p.2)).block.isSome ||
         !rankBefore (rankOf s h p.2) (rankOf s g m) || groupHeld s p.1 p.2 || unready s p.1 p.2))

/-! ### Time and age -/

/-- The group is ready to issue and waits for the arbiter alone (R60). -/
def ageing (s : State) (gk : Nat) (m : BitVec 8) (sl : Slice) : Bool :=
  sl.block.isNone && groupReady s gk m && !groupHeld s gk m && !unready s gk m

/-- The clocks of a step in the ages of the slices whose groups are ready; a group that has been ready for 4,096 clocks
is raised (R61, R62). DEDUCED: notes/assumptions/27. -/
def tickAges (s : State) : State :=
  { s with work.gangs := s.work.gangs.map (fun p =>
             (p.1, { p.2 with slices := p.2.slices.map (fun sl =>
               let age := if ageing s p.1 sl.grp sl then min 65535 (sl.age + Config.clocks s.ticks) else sl.age
               { sl with age := age, boost := sl.boost || decide (4096 ≤ age) }) })) }

/-- A step's time: package time (R486), the ages of the slices (Table 3-3), the sluice timers (R318), the eligibility
of matrix requests (R177), how long crews have been blocked (R461), and the grids that BKNEXT waits for (R407). DESIGN CHOICE: notes/assumptions/3. DESIGN CHOICE: notes/assumptions/15. -/
def tick (s : State) : State :=
  let dt := Config.elapsed s.ticks
  let s := tickAges s
  tickNext (tickBlocked (tickMatrix (tickSluices { s with time := s.time + dt, ticks := s.ticks + 1 } dt)))

/-! ### The step -/

/-- A step of an engine, a home, the scheduler or the host side has no word. -/
def isEvent (i : Instr) : Bool := (encode i).isNone

/-- What the environment picked, made. A pick that is not possible changes nothing. -/
def runPick (s : State) : Option Pick → Host.Outcome State Fault Refusal
  | none => .next s
  | some (.issue g m) => if mayIssue s g m then issueGroup s g m else .next s
  | some (.event i ops) => if isEvent i then exec i { s with evt := ops } else .next s

/-- The events of `evs` on the pending items numbered by `ks`. -/
def pendAt (ks : List Nat) (evs : List Instr) : List Pick := ks.flatMap (fun k => evs.map (fun i => .event i [k]))

/-- The events of `evs` on each item of a list of `n`. -/
def pendIx (n : Nat) (evs : List Instr) : List Pick := pendAt (List.range n) evs

/-- What the memory path has pending. -/
def candCoh (s : State) : List Pick :=
  pendIx s.coh.reqs.length [.stagingQueue, .rdThr, .rdSis, .rdWis, .rdOwn, .wrThr, .wrWis, .pushWr, .writeback,
    .atomicAtHome, .barrierUnit] ++
  pendIx s.coh.snoops.length [.recall, .fwdRd, .invalidation] ++ pendIx s.coh.acks.length [.invalidationAck] ++
  pendIx s.coh.replies.length [.loadReply, .storeAck, .errorReply] ++ pendIx s.coh.waits.length [.barrierWaitRetry]

/-- What the engines have pending. -/
def candEng (s : State) : List Pick :=
  pendAt (s.work.outs.map (fun p => p.1)) [.sfuResult] ++
  (s.eng.copies.flatMap (fun p => (List.range (p.2.c.lines.length + p.2.c.need.length)).flatMap (fun l =>
    [Pick.event .copyLineLand [p.1, l], Pick.event .cpmLineRequest [p.1, l]]))) ++
  pendAt (s.eng.copies.map (fun p => p.1)) [.cpeEnqueue, .copyComplete] ++
  pendIx s.eng.merges.length [.mergeWindow, .mergeEntryFree] ++
  (if s.eng.mx.isEmpty then [] else pendIx 192 [.reservationAccept, .passGrant, .tilePathGrant]) ++
  pendAt (s.eng.mx.map (fun p => p.1)) [.followOnPost, .requestFinish] ++
  pendIx s.eng.slreqs.length [.sluiceRequest, .sluiceGrant, .sluiceBufferRetry] ++
  pendIx s.eng.slrels.length [.sluiceRelease, .releaseResend]

/-- What the scheduler and the host side have pending. -/
def candSched (s : State) : List Pick :=
  (s.sched.domains.flatMap (fun p => p.2.queues.map (fun q => Pick.event .frontEndTake [p.1, q.1]))) ++
  pendIx s.sched.spawns.length [.spawn] ++
  (if s.sched.deques.all (fun p => p.2.isEmpty) then [] else pendIx 192 [.dispatch]) ++
  pendAt (s.work.crews.map (fun p => p.1)) [.crewEnd] ++ pendAt s.sched.ending [.taskCompletion] ++
  pendIx (s.sched.softis.length + 32) [.softiNotice] ++ pendAt (s.host.notices.map (fun n => n.dom)) [.notice] ++
  (s.sched.deques.map (fun p => Pick.event .bucketSetup [p.1 / 512, p.1 / 64 % 8, p.1 % 64])) ++
  (if s.host.mbox.fin.isSome then [.event .mailboxComplete []] else [])

/-- What the micropolygon path and the ray units have pending. -/
def candGfx (s : State) : List Pick :=
  pendIx (s.gfx.frames.length + 1) [.binner, .bucketDistributor] ++ pendIx s.gfx.dicers.length [.dicerJob] ++
  pendIx s.gfx.wbs.length [.writeBackJob] ++ pendIx s.gfx.stus.length [.stuJob] ++
  pendAt (s.gfx.buckets.map (fun p => p.1)) [.gridForward, .bucketClose] ++
  pendAt (s.gfx.rays.map (fun p => p.1)) [.query]

/-- The picks the model makes where the environment has made none, in turn: the groups of all gangs, and the events
on what is pending. -/
def candidates (s : State) : List Pick :=
  (allGroups s).map (fun p => .issue p.1 p.2) ++ candCoh s ++ candEng s ++ candSched s ++ candGfx s

/-- The model's own choice. -/
def defaultPick (s : State) : Option Pick :=
  (candidates s)[s.ticks % (candidates s).length]?

/-- One step: time passes, and what is picked is made. DESIGN CHOICE: notes/assumptions/1. -/
def stepOnce (s : State) : Host.Outcome State Fault Refusal :=
  let s := tick s
  match s.picks with
  | [] => runPick s (defaultPick s)
  | p :: ps => runPick { s with picks := ps } (some p)

/-! ### A program placed from outside -/

/-- A page-table pointer to the table at die-local address `a` of die 0. -/
def tablePtr (a : Nat) : DWord := BitVec.ofNat 64 (a / 256 * 256)

/-- A leaf for the 64 KiB page at `a` of die 0, every policy, readable, writable and executable. -/
def leafPtr (a : Nat) : DWord := BitVec.ofNat 64 (0xF * 2 ^ 60 + a / 65536 * 65536 + 0xE)

/-- A 64-bit entry stored at `a`. -/
def setEntry (m : List Host.Cell) (a : Nat) (e : DWord) : List Host.Cell := setWords m a [loW e, hiW e]

/-- Page tables of die 0 from 0x20000 up that map virtual page 0 to the page at `a`. -/
def placeTables (m : List Host.Cell) (a : Nat) : List Host.Cell :=
  let m := setEntry m 0x20000 (tablePtr 0x21000)
  let m := setEntry m 0x21000 (tablePtr 0x22000)
  let m := setEntry m 0x22000 (tablePtr 0x23000)
  let m := setEntry m 0x23000 (tablePtr 0x24000)
  setEntry m 0x24000 (leafPtr a)

/-- Domain 0 as a loader sets it: its root, the whole of die 0 as its carve-out, virtual page 0 as its code window. -/
def loadDomain : Domain :=
  { map := { root := some (0, 0x20000), carve := [(0, { base := 0, size := usableOf 90 })],
             code := some { base := 0, size := 0x10000 } } }

/-- A crew of one gang, with every resource a record may ask for, resident on core 0. -/
def loadCrew : Crew :=
  { place := .on 0, kw := BitVec.ofNat 32 (16 * 2 ^ 18 + 16 * 2 ^ 13 + 2), rw := BitVec.ofNat 32 (8 * 2 ^ 26 + 63 * 16),
    task := 1 }

/-- Its gang: one slice at word 0 of the code window. -/
def loadGang : Gang :=
  { crew := 1, slices := [{ live := true, x := 0xF, grp := 1 }],
    r := { gen := genSeeds 0 0,
           seg := [(0, { base := 0, limit := BitVec.ofNat 64 (2 ^ 57) }), (7, { base := 0, limit := 0x10000 })] } }

/-- A program word placed at the first word of a loaded kernel that issues next: what the host's launch of a program
brings about (page tables, the domain's settings, a started crew), made at once. DESIGN CHOICE: notes/assumptions/8. -/
def placeWord (s : State) (w : Word) : State :=
  { s with mem := setWord (placeTables s.mem 0x10000) 0x10000 w,
           sched.domains := smSet s.sched.domains 0 loadDomain,
           work.crews := smSet s.work.crews 1 loadCrew, work.gangs := smSet s.work.gangs 16 loadGang,
           work.next := s.work.next + 1, picks := [.issue 16 1] }

end Sys2Proof.Machine
end

