-- ==== Sys2Proof/Machine/Step.lean ====
section
/-! DEFINITION. The step, and the placing of an instruction where the step fetches its next one. -/

namespace Sys2Proof.Machine
open Sys2Proof

/-- One step of the Dolup. -/
def step (s : State) : Host.Outcome State Fault Refusal := stepOnce s

/-- The state with the instruction whose bits are `w` stored where `step` fetches its next instruction. -/
def State.withFetchWord (s : State) (_nbits w : Nat) : State := placeWord s (BitVec.ofNat 32 w)

end Sys2Proof.Machine
end

