-- ==== Sys2Proof/Safety.lean ====
section
/-! DEFINITION. What counts as a safe run, when a word may issue, and the parts of the state that the completion of a
word may change beside the word's own effect: the terms that the statements use. -/

namespace Sys2Proof
open Machine

/-- The step goes on. -/
def goesOn (s : State) : Prop := ∃ t, step s = .next t

/-- `n` steps from `s` all go on. -/
def safeFor (n : Nat) (s : State) : Prop := ∃ t, Sys2Proof.core.run n s = .next t

namespace Machine

/-- The word `i` may issue under the context `x`: it passes the checks of R33 that depend on the state, no loop of its
group ends inside its chain (R78), and nothing holds it (R47, R248). -/
structure Issues (s : State) (x : Cx) (i : Instr) : Prop where
  ctx : s.cx = some x
  checks : checkIssue x i = none
  loops : loopCut x = 0
  free : x.cur.retry = false → mustHold s x i = false

/-- A slice without what a word's completion or trap places: PC, group, age, join, loop and repeat state, windows,
wait, words to issue again, stop. -/
def Slice.still (sl : Slice) : Slice :=
  { sl with pc := 0, grp := 0, age := 0, boost := false, join := none, loops := [], rep := none, stopped := false,
            wins := [], block := none, again := [] }

/-- A gang without its slices' control state and its record queue. -/
def Gang.still (g : Gang) : Gang := { g with slices := g.slices.map Slice.still, recs := [] }

/-- A state without the control state of gang `gk` and without an issuing context: everything a word's completion
leaves as it is. -/
def State.still (s : State) (gk : Nat) : State :=
  { s with work.gangs := smModify s.work.gangs gk Gang.still, work.cur := none, work.issued := .done }

/-- Everything but the gangs and the issuing context. -/
def State.rest (s : State) : State := { s with work.gangs := [], work.cur := none, work.issued := .done }

/-- Between `s` and `t` the issuing word changed its gang's register files to `r` and its gang's control state, and
nothing else: no other gang, no memory, no other part of the state. -/
def OnlyRegs (s t : State) (x : Cx) (r : Regs) : Prop :=
  t.rest = s.rest ∧ (∀ k, k ≠ x.cur.gang → t.gang k = s.gang k) ∧
    ∃ g, t.gang x.cur.gang = some g ∧ g.still = { x.gang.still with r := r }

/-- Register `d` of every active lane, with the value `f` gives the lane; every other register as it is. -/
def Cx.oneV (x : Cx) (d : Nat) (f : Nat → Word) (r l : Nat) : Option Word :=
  if r = d ∧ l ∈ x.lanes then some (f l) else none

/-- The pair at `d` of every active lane, low word in the lower register. -/
def Cx.twoV (x : Cx) (d : Nat) (f : Nat → DWord) (r l : Nat) : Option Word :=
  if l ∈ x.lanes then (if r = d then some ((f l).extractLsb' 0 32) else if r = d + 1 then some ((f l).extractLsb' 32 32)
    else none) else none

/-- The word goes on, and beside the control state of its gang it changes exactly the vector registers `w` names. -/
def DoesV (s : State) (x : Cx) (i : Instr) (w : Nat → Nat → Option Word) : Prop :=
  ∃ t r', exec i s = .next t ∧ OnlyRegs s t x r' ∧
    (∀ r l, l < 32 → r'.rdV r l = (w r l).getD (x.gang.r.rdV r l)) ∧ { r' with v := [] } = { x.gang.r with v := [] }

/-- The word goes on, and beside the control state of its gang it changes exactly mask register `k` in the active
lanes, to `p` of the lane; where `k` is 0 nothing. -/
def DoesM (s : State) (x : Cx) (i : Instr) (k : Nat) (p : Nat → Bool) : Prop :=
  ∃ t r', exec i s = .next t ∧ OnlyRegs s t x r' ∧
    (∀ j l, l < 32 → (r'.rdM j).getLsbD l = if j = k ∧ k ≠ 0 ∧ l ∈ x.lanes then p l else (x.gang.r.rdM j).getLsbD l) ∧
    { r' with m := [] } = { x.gang.r with m := [] }

/-- The word goes on, and beside the control state of its gang it changes exactly the scalar registers `w` names, as
its group sees them: a number from 56 up in the bank of the group's mode only. -/
def DoesS (s : State) (x : Cx) (i : Instr) (w : Nat → Option Word) : Prop :=
  ∃ t r', exec i s = .next t ∧ OnlyRegs s t x r' ∧
    (∀ n, r'.rdS x.hnd n = (w n).getD (x.gang.r.rdS x.hnd n)) ∧
    (∀ n, 56 ≤ n → r'.rdS (!x.hnd) n = x.gang.r.rdS (!x.hnd) n) ∧
    { r' with s := [], bank := [] } = { x.gang.r with s := [], bank := [] }

/-- Scalar register `d` takes `v`. -/
def oneS (d : Nat) (v : Word) (n : Nat) : Option Word := if n = d then some v else none

/-- The pair at `d` takes `v`, low word in the lower register. -/
def twoS (d : Nat) (v : DWord) (n : Nat) : Option Word :=
  if n = d then some (v.extractLsb' 0 32) else if n = d + 1 then some (v.extractLsb' 32 32) else none

/-- Where the word may issue, v[d] of every active lane takes `f` of the lane. -/
def ResV (s : State) (x : Cx) (i : Instr) (d : Fin 64) (f : Nat → Word) : Prop :=
  Issues s x i → DoesV s x i (x.oneV d.val f)

/-- Where the word may issue, the pair at v[d] of every active lane takes `f` of the lane. -/
def ResV2 (s : State) (x : Cx) (i : Instr) (d : Fin 64) (f : Nat → DWord) : Prop :=
  Issues s x i → DoesV s x i (x.twoV d.val f)

/-- Where the word may issue, bit l of m[k] takes `p` l for every active lane l. -/
def ResM (s : State) (x : Cx) (i : Instr) (k : Fin 8) (p : Nat → Bool) : Prop := Issues s x i → DoesM s x i k.val p

/-- Where the word may issue, s[d] takes `v`. -/
def ResS (s : State) (x : Cx) (i : Instr) (d : Fin 64) (v : Word) : Prop := Issues s x i → DoesS s x i (oneS d.val v)

/-- The word goes on with the state `e` as its effect: Advance follows. -/
def Does (s : State) (x : Cx) (i : Instr) (e : State) : Prop := exec i s = .next (finish x (.done e))

/-- The words of the atomic unit with the operation code of Table 9-2. -/
def atomForms : List (Nat × (Bool → Fin 4 → Fin 32 → Fin 64 → Fin 64 → Fin 4 → Fin 2 → Instr)) :=
  [(0, .atomAdd), (1, .atomMinI), (2, .atomMinN), (3, .atomMaxI), (4, .atomMaxN), (5, .atomAnd), (6, .atomOr), (7, .atomXor),
   (8, .atomXchg), (9, .acas), (10, .atomFadd), (11, .atomFamax), (12, .atomXrst), (13, .ald), (14, .ast)]

/-- The word enters a wait at its own PC with the state `e`; the other words of its chain are in effect. -/
def Waits (s : State) (x : Cx) (i : Instr) (e : State) : Prop := exec i s = .next (finish x (.block e))

/-- The word takes the trap `t`, with the state `e` as what survives it. -/
def Traps (s : State) (x : Cx) (i : Instr) (e : State) (t : TrapReq) : Prop := exec i s = .next (finish x (.trap e t))

/-- The state in a meaning's answer. -/
def Res.state : Res → State
  | .done s => s
  | .ctl s => s
  | .trap s _ => s
  | .hold s => s
  | .block s => s

end Machine
end Sys2Proof
end

