-- ==== Sys2Proof/Certificates/Slice0/Obligations.lean ====
section
/-! DEFINITION. The statements for the provers. -/

open Sys2Proof Sys2Proof.Machine

/-! ### Compute words -/

/-- R109 to R113, R115 to R116: the integer words of two or three operands, in exact arithmetic narrowed to 32 bits. -/
def Obligations.IntegerResults : Prop :=
  ∀ (s : State) (x : Cx) (c : Bool) (d a b : Fin 64) (bs : Fin 4),
    ResV s x (.iadd c d a b bs) d (fun l => BitVec.ofInt 32 ((x.v a l).toInt + (x.b bs b l).toInt)) ∧
    ResV s x (.isub c d a b bs) d (fun l => BitVec.ofInt 32 ((x.v a l).toInt - (x.b bs b l).toInt)) ∧
    ResV s x (.imul c d a b bs) d (fun l => BitVec.ofInt 32 ((x.v a l).toInt * (x.b bs b l).toInt)) ∧
    ResV s x (.imulhI c d a b bs) d (fun l => BitVec.ofInt 32 ((x.v a l).toInt * (x.b bs b l).toInt / 2 ^ 32)) ∧
    ResV s x (.imulhN c d a b bs) d (fun l => BitVec.ofNat 32 ((x.v a l).toNat * (x.b bs b l).toNat / 2 ^ 32)) ∧
    ResV s x (.imad c d a b bs) d
      (fun l => BitVec.ofInt 32 ((x.v a l).toInt * (x.b bs b l).toInt + (x.v d l).toInt)) ∧
    ResV s x (.iminI c d a b bs) d (fun l => BitVec.ofInt 32 (min (x.v a l).toInt (x.b bs b l).toInt)) ∧
    ResV s x (.iminN c d a b bs) d (fun l => BitVec.ofNat 32 (min (x.v a l).toNat (x.b bs b l).toNat)) ∧
    ResV s x (.imaxI c d a b bs) d (fun l => BitVec.ofInt 32 (max (x.v a l).toInt (x.b bs b l).toInt)) ∧
    ResV s x (.imaxN c d a b bs) d (fun l => BitVec.ofNat 32 (max (x.v a l).toNat (x.b bs b l).toNat)) ∧
    ResV s x (.iabs c d a) d (fun l => BitVec.ofNat 32 (x.v a l).toInt.natAbs) ∧
    ResV s x (.andV c d a b bs) d (fun l => x.v a l &&& x.b bs b l) ∧
    ResV s x (.orV c d a b bs) d (fun l => x.v a l ||| x.b bs b l) ∧
    ResV s x (.xorV c d a b bs) d (fun l => x.v a l ^^^ x.b bs b l) ∧
    ResV s x (.andn c d a b bs) d (fun l => x.v a l &&& ~~~(x.b bs b l)) ∧
    ResV s x (.shl c d a b bs) d (fun l => BitVec.ofNat 32 ((x.v a l).toNat * 2 ^ (x.b bs b l).toNat)) ∧
    ResV s x (.shr c d a b bs) d (fun l => BitVec.ofNat 32 ((x.v a l).toNat / 2 ^ (x.b bs b l).toNat)) ∧
    ResV s x (.sar c d a b bs) d (fun l => BitVec.ofInt 32 ((x.v a l).toInt / 2 ^ (x.b bs b l).toNat)) ∧
    ResV s x (.fsl c d a b bs) d (fun l => BitVec.ofNat 32
      (((x.v a l).toNat * 2 ^ 32 + (x.v d l).toNat) * 2 ^ ((x.b bs b l).toNat % 32) / 2 ^ 32)) ∧
    ResV s x (.fsr c d a b bs) d (fun l => BitVec.ofNat 32
      (((x.v d l).toNat * 2 ^ 32 + (x.v a l).toNat) / 2 ^ ((x.b bs b l).toNat % 32)))

/-- R114: the population count, the count of leading zeros and the bit reversal.
R115, R116, R126: field extract and insert, the byte permute, the logic table. Position and length are the control
operand's bits 4:0 and 13:8, the length cut at the word's end. -/
def Obligations.BitFieldResults : Prop :=
  (∀ (s : State) (x : Cx) (c : Bool) (d a : Fin 64),
    ResV s x (.popc c d a) d (fun l => BitVec.ofNat 32 ((List.range 32).countP (fun k => (x.v a l).getLsbD k))) ∧
    ResV s x (.clz c d a) d (fun l => BitVec.ofNat 32 (if x.v a l = 0 then 32 else 31 - (x.v a l).toNat.log2)) ∧
    (∀ f : Nat → Word, (∀ l k, k < 32 → (f l).getLsbD k = (x.v a l).getLsbD (31 - k)) → ResV s x (.brev c d a) d f)) ∧
  (∀ (s : State) (x : Cx) (c : Bool) (d a b : Fin 64) (bs : Fin 4) (t : Fin 256),
    let pos := fun l => (x.b bs b l).toNat % 32
    let len := fun l => min ((x.b bs b l).toNat / 256 % 64) (32 - pos l)
    ResV s x (.bfxN c d a b bs) d (fun l => BitVec.ofNat 32 ((x.v a l).toNat / 2 ^ pos l % 2 ^ len l)) ∧
    (∀ f : Nat → Word, (∀ l k, k < 32 → (f l).getLsbD k = if len l = 0 then false else
        (x.v a l).getLsbD (pos l + min k (len l - 1))) → ResV s x (.bfxI c d a b bs) d f) ∧
    (∀ f : Nat → Word, (∀ l k, k < 32 → (f l).getLsbD k =
        if pos l ≤ k ∧ k < pos l + len l then (x.v a l).getLsbD (k - pos l) else (x.v d l).getLsbD k) →
      ResV s x (.bfi c d a b bs) d f) ∧
    (∀ f : Nat → Word, (∀ l k, k < 32 → (f l).getLsbD k =
        (let q := (x.b bs b l).toNat / 2 ^ (4 * (k / 8)) % 16
         (x.v d l ++ x.v a l).getLsbD (8 * (q % 8) + if q < 8 then k % 8 else 7))) → ResV s x (.prm c d a b bs) d f) ∧
    (∀ f : Nat → Word, (∀ l k, k < 32 → (f l).getLsbD k = t.val.testBit
        (4 * ((x.v d l).getLsbD k).toNat + 2 * ((x.v a l).getLsbD k).toNat + ((x.v b l).getLsbD k).toNat)) →
      ResV s x (.lgt c d a b t) d f))

/-- R104, R105, R117, R118, R120: the compares, the selects and the moves between mask and vector registers.
R107, R119, R103, R122: the shuffles and the swizzle. A source lane of a slice that the gang does not have gives the
lane its own value; the width is 32, 16, 8 or 4 by bits 6:5 of the count. -/
def Obligations.SelectAndMoveResults : Prop :=
  (∀ (s : State) (x : Cx) (c : Bool) (m : Fin 8) (d a b : Fin 64) (bs : Fin 4),
    ResM s x (.icmpEq c m a b bs) m (fun l => decide ((x.v a l).toNat = (x.b bs b l).toNat)) ∧
    ResM s x (.icmpNe c m a b bs) m (fun l => decide ((x.v a l).toNat ≠ (x.b bs b l).toNat)) ∧
    ResM s x (.icmpLtI c m a b bs) m (fun l => decide ((x.v a l).toInt < (x.b bs b l).toInt)) ∧
    ResM s x (.icmpLtN c m a b bs) m (fun l => decide ((x.v a l).toNat < (x.b bs b l).toNat)) ∧
    ResM s x (.icmpLeI c m a b bs) m (fun l => decide ((x.v a l).toInt ≤ (x.b bs b l).toInt)) ∧
    ResM s x (.icmpLeN c m a b bs) m (fun l => decide ((x.v a l).toNat ≤ (x.b bs b l).toNat)) ∧
    ResM s x (.vtom c m a) m (fun l => decide (x.v a l ≠ 0)) ∧
    ResV s x (.mtov c d m) d (fun l => if (x.m m).getLsbD l then 1 else 0) ∧
    ResV s x (.selM1 c d a b bs) d (fun l => if (x.m 1).getLsbD l then x.v a l else x.b bs b l) ∧
    ResV s x (.selM2 c d a b bs) d (fun l => if (x.m 2).getLsbD l then x.v a l else x.b bs b l) ∧
    ResV s x (.selM3 c d a b bs) d (fun l => if (x.m 3).getLsbD l then x.v a l else x.b bs b l) ∧
    ResV s x (.selM4 c d a b bs) d (fun l => if (x.m 4).getLsbD l then x.v a l else x.b bs b l) ∧
    ResV s x (.selM5 c d a b bs) d (fun l => if (x.m 5).getLsbD l then x.v a l else x.b bs b l) ∧
    ResV s x (.selM6 c d a b bs) d (fun l => if (x.m 6).getLsbD l then x.v a l else x.b bs b l) ∧
    ResV s x (.selM7 c d a b bs) d (fun l => if (x.m 7).getLsbD l then x.v a l else x.b bs b l)) ∧
  (∀ (s : State) (x : Cx) (c : Bool) (d a b : Fin 64) (bs : Fin 4) (p : Fin 2048),
    let k := fun l => (x.b bs b l).toNat % 32
    let w := fun l => 32 / 2 ^ ((x.b bs b l).toNat / 32 % 4)
    let from_ := fun l j => if x.src.nsl ≤ j / 4 then x.v a l else x.v a j
    ResV s x (.shflIdx c d a b bs) d (fun l => from_ l (l / w l * w l + k l % w l)) ∧
    ResV s x (.shflUp c d a b bs) d (fun l => from_ l (if k l ≤ l % w l then l - k l else l)) ∧
    ResV s x (.shflDn c d a b bs) d (fun l => from_ l (if l % w l + k l < w l then l + k l else l)) ∧
    ResV s x (.shflXor c d a b bs) d (fun l => from_ l (l / w l * w l + ((l % w l) ^^^ (k l % w l)))) ∧
    (p.val < 256 → ResV s x (.swz c d a p) d (fun l => x.v a (l / 4 * 4 + p.val / 4 ^ (l % 4) % 4))) ∧
    (p.val = 512 → ResV s x (.swz c d a p) d (fun l => x.v a l + BitVec.ofNat 32 l)))

/-- R121: the immediate forms; the 11-bit immediate is read with a sign by the additions and compares, without one by
the logic forms. -/
def Obligations.ImmediateResults : Prop :=
  ∀ (s : State) (x : Cx) (c : Bool) (m : Fin 8) (d a : Fin 64) (i : Fin 2048) (n : Fin 32),
    let im : Int := if i.val < 1024 then i.val else (i.val : Int) - 2048
    ResV s x (.iaddi c d a i) d (fun l => BitVec.ofInt 32 ((x.v a l).toInt + im)) ∧
    ResV s x (.andi c d a i) d (fun l => x.v a l &&& BitVec.ofNat 32 i) ∧
    ResV s x (.ori c d a i) d (fun l => x.v a l ||| BitVec.ofNat 32 i) ∧
    ResV s x (.xori c d a i) d (fun l => x.v a l ^^^ BitVec.ofNat 32 i) ∧
    ResV s x (.shli c d a n) d (fun l => BitVec.ofNat 32 ((x.v a l).toNat * 2 ^ n.val)) ∧
    ResV s x (.shri c d a n) d (fun l => BitVec.ofNat 32 ((x.v a l).toNat / 2 ^ n.val)) ∧
    ResV s x (.sari c d a n) d (fun l => BitVec.ofInt 32 ((x.v a l).toInt / 2 ^ n.val)) ∧
    ResV s x (.fsli c d a n) d
      (fun l => BitVec.ofNat 32 (((x.v a l).toNat * 2 ^ 32 + (x.v d l).toNat) * 2 ^ n.val / 2 ^ 32)) ∧
    ResV s x (.fsri c d a n) d
      (fun l => BitVec.ofNat 32 (((x.v d l).toNat * 2 ^ 32 + (x.v a l).toNat) / 2 ^ n.val)) ∧
    ResV s x (.movi c d i) d (fun _ => BitVec.ofInt 32 im) ∧
    ResM s x (.icmpiEq c m a i) m (fun l => decide ((x.v a l).toInt = im)) ∧
    ResM s x (.icmpiLtI c m a i) m (fun l => decide ((x.v a l).toInt < im))

/-- R123 to R125: the scalar words, and the lane reads and writes. -/
def Obligations.ScalarResults : Prop :=
  ∀ (s : State) (x : Cx) (c : Bool) (d a b : Fin 64) (i : Fin 65536),
    let im : Int := if i.val < 32768 then i.val else (i.val : Int) - 65536
    let j := (x.s b).toNat % 32
    ResS s x (.sadd c d a b) d (BitVec.ofInt 32 ((x.s a).toInt + (x.s b).toInt)) ∧
    ResS s x (.ssub c d a b) d (BitVec.ofInt 32 ((x.s a).toInt - (x.s b).toInt)) ∧
    ResS s x (.smul c d a b) d (BitVec.ofInt 32 ((x.s a).toInt * (x.s b).toInt)) ∧
    ResS s x (.sand c d a b) d (x.s a &&& x.s b) ∧ ResS s x (.sor c d a b) d (x.s a ||| x.s b) ∧
    ResS s x (.sxor c d a b) d (x.s a ^^^ x.s b) ∧
    ResS s x (.sshl c d a b) d (BitVec.ofNat 32 ((x.s a).toNat * 2 ^ (x.s b).toNat)) ∧
    ResS s x (.sshr c d a b) d (BitVec.ofNat 32 ((x.s a).toNat / 2 ^ (x.s b).toNat)) ∧
    ResS s x (.ssar c d a b) d (BitVec.ofInt 32 ((x.s a).toInt / 2 ^ (x.s b).toNat)) ∧
    ResS s x (.scmpEq c d a b) d (if x.s a = x.s b then 1 else 0) ∧
    ResS s x (.scmpLtI c d a b) d (if (x.s a).toInt < (x.s b).toInt then 1 else 0) ∧
    ResS s x (.scmpLtN c d a b) d (if (x.s a).toNat < (x.s b).toNat then 1 else 0) ∧
    ResS s x (.sminI c d a b) d (BitVec.ofInt 32 (min (x.s a).toInt (x.s b).toInt)) ∧
    ResS s x (.smaxI c d a b) d (BitVec.ofInt 32 (max (x.s a).toInt (x.s b).toInt)) ∧
    ResS s x (.smov c d a) d (x.s a) ∧
    ResS s x (.ssel c d a b) d (if x.s d = 0 then x.s b else x.s a) ∧
    ResS s x (.slil c d i) d (BitVec.ofNat 32 i) ∧
    ResS s x (.slih c d i) d (BitVec.ofNat 32 (i.val * 65536 + (x.s d).toNat % 65536)) ∧
    ResS s x (.saddi c d i) d (BitVec.ofInt 32 ((x.s d).toInt + im)) ∧
    ResS s x (.srdl c d a b) d (if x.src.nsl ≤ j / 4 then 0 else x.v a j) ∧
    (∀ v : Word, (∀ l, l < 32 → v.getLsbD l = (decide (l ∈ x.lanes) && decide (x.v a l ≠ 0))) →
      ResS s x (.sbal c d a) d v) ∧
    (Issues s x (.swrl c d a b) → DoesV s x (.swrl c d a b) (fun r l =>
      if r = d.val ∧ l = j ∧ ¬ x.src.nsl ≤ j / 4 then some (x.s a) else none))

/-- R137: the four directed roundings of a magnitude m × 2^e to a multiple of 2^q below which it has digits: nearest with
ties to the even multiple, toward zero, toward plus infinity, toward minus infinity.
R128, R129: reading a pattern of a format and encoding the value read gives the pattern back, NaNs apart. -/
def Obligations.FormatsAndRounding : Prop :=
  (∀ (neg : Bool) (m : Nat) (e q : Int), e < q →
    let u : Nat := 2 ^ (q - e).toNat
    let n := quantise 0 neg m e q 0
    2 * ((m : Int) - (n * u : Nat)).natAbs ≤ u ∧ (2 * ((m : Int) - (n * u : Nat)).natAbs = u → n % 2 = 0) ∧
    quantise 1 neg m e q 0 = m / u ∧
    quantise 2 neg m e q 0 = (if neg then m / u else (m + (u - 1)) / u) ∧
    quantise 3 neg m e q 0 = (if neg then (m + (u - 1)) / u else m / u)) ∧
  (∀ (f : Fmt) (n : Nat), n < 2 ^ f.bits → val f n ≠ .nan → enc f (val f n) = n)

/-- R144 to R149: the binary32 words of FPA. -/
def Obligations.Float32Results : Prop :=
  ∀ (s : State) (x : Cx) (c : Bool) (m : Fin 8) (d a b : Fin 64) (bs : Fin 4) (z : Fin 2) (r : Fin 8),
    let A := fun l => flush (decide (z = 1)) .f32 (val .f32 (x.v a l).toNat)
    let B := fun l => flush (decide (z = 1)) .f32 (val .f32 (x.b bs b l).toNat)
    let out := fun v => BitVec.ofNat 32 (enc .f32 (flush (decide (z = 1)) .f32 v))
    let least := fun (u v : FV) => if u.isNan then v else if v.isNan then u else if v.below u then v else u
    let most := fun (u v : FV) => if u.isNan then v else if v.isNan then u else if u.below v then v else u
    ResV s x (.fadd c d a b bs z) d (fun l => out (round .f32 0 (sumV 0 [A l, B l]))) ∧
    ResV s x (.fsub c d a b bs z) d (fun l => out (round .f32 0 (sumV 0 [A l, (B l).neg]))) ∧
    ResV s x (.fmul c d a b bs z) d (fun l => out (round .f32 0 ((A l).mul (B l)))) ∧
    ResV s x (.fmin c d a b bs z) d (fun l => BitVec.ofNat 32 (enc .f32 (least (A l) (B l)))) ∧
    ResV s x (.fmax c d a b bs z) d (fun l => BitVec.ofNat 32 (enc .f32 (most (A l) (B l)))) ∧
    ResV s x (.fminn c d a b bs z) d (fun l => BitVec.ofNat 32 (enc .f32
      (if (A l).isNan || (B l).isNan then .nan else least (A l) (B l)))) ∧
    ResV s x (.fmaxn c d a b bs z) d (fun l => BitVec.ofNat 32 (enc .f32
      (if (A l).isNan || (B l).isNan then .nan else most (A l) (B l)))) ∧
    ResV s x (.famax c d a b bs z) d (fun l => BitVec.ofNat 32 (enc .f32 (most (A l).abs (B l).abs))) ∧
    ResM s x (.fcmpEq c m a b bs z) m (fun l => (A l).eqv (B l)) ∧
    ResM s x (.fcmpNe c m a b bs z) m (fun l => !(A l).eqv (B l)) ∧
    ResM s x (.fcmpLt c m a b bs z) m (fun l => (A l).lt (B l)) ∧
    ResM s x (.fcmpLe c m a b bs z) m (fun l => (A l).lt (B l) || (A l).eqv (B l)) ∧
    ResM s x (.fcmpUn c m a b bs z) m (fun l => (A l).isNan || (B l).isNan) ∧
    ResV s x (.frint c d a r z) d (fun l => out (roundToInt r (A l))) ∧
    ResV s x (.fscale c d a b bs z) d (fun l => out (round .f32 0 ((A l).scale (x.b bs b l).toInt))) ∧
    ResV s x (.fclass c d a z) d (fun l => BitVec.ofNat 32 (2 ^ (match A l with
      | .nan => if (x.v a l).getLsbD 22 then 9 else 8
      | .inf n => if n then 0 else 7
      | .fin n m e => if m = 0 then (if n then 3 else 4)
        else if (Nat.log2 m : Int) + e < -126 then (if n then 2 else 5) else (if n then 1 else 6))))

/-- R150, R146, R159: the binary64 words, and the fused words, each rounded once. -/
def Obligations.Float64AndFusedResults : Prop :=
  ∀ (s : State) (x : Cx) (c : Bool) (m : Fin 8) (d a b g : Fin 64) (bs : Fin 4) (z : Fin 2),
    let A := fun l => flush (decide (z = 1)) .f64 (val .f64 (x.v2 a l).toNat)
    let B := fun l => flush (decide (z = 1)) .f64 (val .f64 (x.b2 bs b l).toNat)
    let out := fun v => BitVec.ofNat 64 (enc .f64 (flush (decide (z = 1)) .f64 (round .f64 0 v)))
    let least := fun (u v : FV) => if u.isNan then v else if v.isNan then u else if v.below u then v else u
    let most := fun (u v : FV) => if u.isNan then v else if v.isNan then u else if u.below v then v else u
    let p := fun l => (val .f32 (x.v a l).toNat).mul (val .f32 (x.v b l).toNat)
    let q := fun l => val .f32 (x.v g l).toNat
    let one := fun v => BitVec.ofNat 32 (enc .f32 (round .f32 0 v))
    let h := fun f (w : Word) k => val f (w.toNat / 2 ^ (16 * k) % 2 ^ 16)
    let half := fun f l k => BitVec.ofNat 16
      (enc f (round f 0 (sumV 0 [(h f (x.v a l) k).mul (h f (x.v b l) k), h f (x.v g l) k])))
    let dot := fun f l => one (sumV 0 [(h f (x.v a l) 0).mul (h f (x.v b l) 0), (h f (x.v a l) 1).mul (h f (x.v b l) 1), q l])
    ResV2 s x (.dadd c d a b bs z) d (fun l => out (sumV 0 [A l, B l])) ∧
    ResV2 s x (.dmul c d a b bs z) d (fun l => out ((A l).mul (B l))) ∧
    ResV2 s x (.dmin c d a b bs z) d (fun l => BitVec.ofNat 64 (enc .f64 (least (A l) (B l)))) ∧
    ResV2 s x (.dmax c d a b bs z) d (fun l => BitVec.ofNat 64 (enc .f64 (most (A l) (B l)))) ∧
    ResM s x (.dcmpLt c m a b bs z) m (fun l => (A l).lt (B l)) ∧
    ResV2 s x (.dfma c d a b g) d (fun l => BitVec.ofNat 64 (enc .f64 (round .f64 0 (sumV 0
      [(val .f64 (x.v2 a l).toNat).mul (val .f64 (x.v2 b l).toNat), val .f64 (x.v2 g l).toNat])))) ∧
    ResV s x (.ffma c d a b g) d (fun l => one (sumV 0 [p l, q l])) ∧
    ResV s x (.ffms c d a b g) d (fun l => one (sumV 0 [p l, (q l).neg])) ∧
    ResV s x (.ffnma c d a b g) d (fun l => one (sumV 0 [(p l).neg, q l])) ∧
    ResV s x (.ffnms c d a b g) d (fun l => one (sumV 0 [(p l).neg, (q l).neg])) ∧
    ResV s x (.hfma2 c d a b g) d (fun l => half .f16 l 1 ++ half .f16 l 0) ∧
    ResV s x (.bfma2 c d a b g) d (fun l => half .bf16 l 1 ++ half .bf16 l 0) ∧
    ResV s x (.hdot2 c d a b g) d (fun l => dot .f16 l) ∧
    ResV s x (.bdot2 c d a b g) d (fun l => dot .bf16 l)

/-- R151 to R156: conversion, quantisation with its draws, and the packing words. The draws of QNT.rst come from the
generators as they stood before the chain, and each active lane's generator goes on by one draw. The model's choices here: notes/assumptions/142. -/
def Obligations.ConversionResults : Prop :=
  ∀ (s : State) (x : Cx) (c : Bool) (d a b : Fin 64) (bs : Fin 4) (t : Fin 32) (r : Fin 8) (k : Fin 8) (z : Fin 2),
    let Z := decide (z = 1)
    let I := fun f n => flush Z f (val f n)
    let A := fun l => I .f32 (x.v a l).toNat
    let out := fun m v => BitVec.ofNat 32 (enc .f32 (flush Z .f32 (round .f32 m v)))
    let pack := fun (w : Word) => BitVec.ofNat 16 (enc .bf16 (flush Z .bf16 (round .bf16 0 (I .f32 w.toNat))))
    let draw := fun l => (lfsrDraw (smGet 0 x.src.r.gen l)).1
    let w := fun l => (x.v a l).toNat
    let W := fun l => (x.v2 a l).toNat
    let o32 := fun f v => BitVec.ofNat 32 (enc f (flush Z f (round f r v)))
    let o64 := fun v => BitVec.ofNat 64 (enc .f64 (flush Z .f64 (round .f64 r v)))
    let lim := fun lo hi v => (roundToInt r v).satInt lo hi
    let single : List (Nat × (Nat → Word)) :=
      [(0, fun l => o32 .f32 (I .f16 (w l % 2 ^ 16))), (1, fun l => o32 .f16 (A l)),
       (2, fun l => o32 .f32 (I .bf16 (w l % 2 ^ 16))), (3, fun l => o32 .bf16 (A l)),
       (4, fun l => o32 .f32 (I .f64 (W l))), (6, fun l => o32 .f32 (.ofInt (x.v a l).toInt)),
       (7, fun l => o32 .f32 (.ofInt (w l))), (8, fun l => BitVec.ofInt 32 (lim (-(2 ^ 31)) (2 ^ 31 - 1) (A l))),
       (9, fun l => BitVec.ofInt 32 (lim 0 (2 ^ 32 - 1) (A l))),
       (11, fun l => BitVec.ofInt 32 (lim (-(2 ^ 31)) (2 ^ 31 - 1) (I .f64 (W l)))),
       (15, fun l => BitVec.ofInt 32 (lim 0 (2 ^ 32 - 1) (I .f64 (W l))))]
    let pairs : List (Nat × (Nat → DWord)) :=
      [(5, fun l => o64 (A l)), (10, fun l => o64 (.ofInt (x.v a l).toInt)), (12, fun l => o64 (.ofInt (x.v2 a l).toInt)),
       (13, fun l => BitVec.ofInt 64 (lim (-(2 ^ 63)) (2 ^ 63 - 1) (I .f64 (W l)))), (14, fun l => o64 (.ofInt (w l)))]
    let sc := fun l => (x.v d l).toNat % 256
    let elem := fun (draw : Nat → Nat) l => BitVec.ofNat 32 (enc (.ofCode t)
      (if sc l = 255 ∨ (A l).isNan = true then .nan else roundR (.ofCode t) r (draw l) ((A l).scale (127 - (sc l : Nat)))))
    (∀ p ∈ single, t.val = p.1 → ResV s x (.cvt c d a t r z) d p.2) ∧
    (∀ p ∈ pairs, t.val = p.1 → ResV2 s x (.cvt c d a t r z) d p.2) ∧
    (r.val ≠ 4 → ResV s x (.qnt c d a t r z) d (elem (fun _ => 0))) ∧
    (Issues s x (.qnt c d a t r z) → r.val = 4 → ∃ u g, exec (.qnt c d a t r z) s = .next u ∧ u.gang x.cur.gang = some g ∧
      (∀ l, l ∈ x.lanes → g.r.rdV d l = elem draw l) ∧
      (∀ e l, l < 32 → (e ≠ d.val ∨ l ∉ x.lanes) → g.r.rdV e l = x.gang.r.rdV e l) ∧
      ∀ l, l < 32 → smGet 0 g.r.gen l = if l ∈ x.lanes then (lfsrDraw (smGet 0 x.gang.r.gen l)).2
        else smGet 0 x.gang.r.gen l) ∧
    (t.val ≠ 10 → ResV s x (.dqnt c d a t r z) d (fun l => out r ((val (.ofCode t) ((x.v a l).toNat % 256)).mul
      (scaleV ((x.v a l).toNat / 2 ^ 16 % 256))))) ∧
    (t.val = 10 → ResV s x (.dqnt c d a t r z) d (fun l => out r ((vqCoord ((x.v a l).toNat % 2 ^ 16)
      ((x.v a l).toNat / 2 ^ 24 % 8)).mul (scaleV ((x.v a l).toNat / 2 ^ 16 % 256))))) ∧
    (ResV s x (.mxscl c d a b bs z) d (fun l =>
      let f := (x.b bs b l).toNat % 32
      if f < 3 ∨ 9 < f then 0xFF else BitVec.ofNat 32 (blockScale (A l).abs (.ofCode f)))) ∧
    ResV s x (.pack2 c d a b bs z) d (fun l => pack (x.b bs b l) ++ pack (x.v a l)) ∧
    ((t.val = 1 ∨ t.val = 2) → ResV s x (.unpk c d a t k z) d
      (fun l => out 0 (flush Z (.ofCode t) (val (.ofCode t) ((x.v a l).toNat / 2 ^ (16 * k.val) % 2 ^ 16))))) ∧
    ((t.val = 7 ∨ t.val = 9) → ResV s x (.unpk c d a t k z) d
      (fun l => out 0 (flush Z (.ofCode t) (val (.ofCode t) ((x.v a l).toNat / 2 ^ (4 * k.val) % 2 ^ 4))))) ∧
    ((3 ≤ t.val ∧ t.val ≤ 9 ∧ t.val ≠ 7 ∧ t.val ≠ 9) → ResV s x (.unpk c d a t k z) d
      (fun l => out 0 (flush Z (.ofCode t) (val (.ofCode t) ((x.v a l).toNat / 2 ^ (8 * k.val) % 2 ^ 8)))))

/-- R142, R157, R158: a special function issues as an outstanding instruction with the results of the operands read at
issue, and completes by writing them.
R157: the cases that the special functions fix whatever the bound: NaNs, zeros, infinities, negative arguments, and
the correctly rounded square root and quotient. The model's choices here: notes/assumptions/30, 31. -/
def Obligations.SpecialFunctionResults : Prop :=
  ((∀ (s : State) (x : Cx) (c : Bool) (d a : Fin 64) (l : Fin 16),
    let opens := fun (i : Instr) (f : Word → Word → Word) => Issues s x i → Does s x i (openOut s x
      { kind := .sfu, gang := x.cur.gang, grp := x.cur.grp, pc := x.cur.pc, npc := x.cur.last + 1,
        wrV := x.lanes.map (fun k => (vkey d k, f (x.v d k) (x.v a k))), dstV := [d.val] } l)
    opens (.frcp c d a l) frcpW ∧ opens (.frsq c d a l) frsqW ∧ opens (.fsqrt c d a l) fsqrtW ∧
    opens (.fex2 c d a l) fex2W ∧ opens (.flg2 c d a l) flg2W ∧ opens (.fsin c d a l) (ftrigW 1) ∧
    opens (.fcos c d a l) (ftrigW 0) ∧ opens (.fdiv c d a l) fdivW) ∧
  (∀ (s : State) (o : Out) (g : Gang), smFind s.work.outs (s.op 0) = some o → o.kind = .sfu → o.wrS = [] →
    s.gang o.gang = some g → ∃ t g', exec .sfuResult s = .next t ∧ smFind t.work.outs (s.op 0) = none ∧
      t.gang o.gang = some g' ∧ g'.r = g.r.putV o.wrV ∧
      (∀ sl ∈ g'.slices, ∀ p ∈ sl.wins, p.1 ≠ s.op 0) ∧ ∀ a, getByte t.mem a = getByte s.mem a)) ∧
  (∀ (d a : Word) (n : Bool) (m k : Nat) (e f : Int),
    (val .f32 a.toNat = .nan → frcpW d a = 0x7FC00000 ∧ frsqW d a = 0x7FC00000 ∧ fsqrtW d a = 0x7FC00000 ∧
      fex2W d a = 0x7FC00000 ∧ flg2W d a = 0x7FC00000 ∧ ftrigW 1 d a = 0x7FC00000 ∧ ftrigW 0 d a = 0x7FC00000) ∧
    (val .f32 a.toNat = .fin n 0 e → frcpW d a = (if n then 0xFF800000 else 0x7F800000) ∧
      frsqW d a = (if n then 0xFF800000 else 0x7F800000) ∧ fsqrtW d a = (if n then 0x80000000 else 0) ∧
      fex2W d a = 0x3F800000 ∧ flg2W d a = 0xFF800000 ∧ ftrigW 1 d a = (if n then 0x80000000 else 0) ∧
      ftrigW 0 d a = 0x3F800000) ∧
    (val .f32 a.toNat = .inf n → frcpW d a = (if n then 0x80000000 else 0) ∧
      frsqW d a = (if n then 0x7FC00000 else 0) ∧ fsqrtW d a = (if n then 0x7FC00000 else 0x7F800000) ∧
      fex2W d a = (if n then 0 else 0x7F800000) ∧ flg2W d a = (if n then 0x7FC00000 else 0x7F800000) ∧
      ftrigW 1 d a = 0x7FC00000 ∧ ftrigW 0 d a = 0x7FC00000) ∧
    (0 < m → val .f32 a.toNat = .fin true m e →
      frsqW d a = 0x7FC00000 ∧ fsqrtW d a = 0x7FC00000 ∧ flg2W d a = 0x7FC00000) ∧
    (0 < m → val .f32 a.toNat = .fin false m e → fsqrtW d a = BitVec.ofNat 32 (enc .f32 (round .f32 0 (sqrtV m e)))) ∧
    (0 < m → 0 < k → val .f32 d.toNat = .fin n m e → val .f32 a.toNat = .fin false k f →
      fdivW d a = BitVec.ofNat 32 (enc .f32 (round .f32 0 (divV m e k f n)))))

/-! ### Control flow, traps and the system words -/

/-- Table 3-2, Advance and Jump (R76, R77): past the end of the top loop's body the count falls and the body starts
again; at its last pass the entry goes and the next one is asked; elsewhere the next word follows. A branch from inside
the top body to outside it drops the entries whose bodies it leaves.
R78, R88, R90, R79, R61: loops and repeats begin, and a group that has waited long is raised. The model's choices here: notes/assumptions/23, 27, 139. -/
def Obligations.LoopsAndRepeats : Prop :=
  (∀ (sl : Slice) (e : LoopEntry) (es : List LoopEntry) (w t : Word),
    (sl.loops = [] → (sl.advance w).pc = w + 1 ∧ (sl.advance w).loops = [] ∧ (sl.jump w t).pc = t ∧
      (sl.jump w t).loops = []) ∧
    (sl.loops = e :: es → e.stop ≠ w → (sl.advance w).pc = w + 1 ∧ (sl.advance w).loops = e :: es) ∧
    (sl.loops = e :: es → e.stop = w → e.count ≠ 1 → (sl.advance w).pc = e.start ∧
      (sl.advance w).loops = { e with count := e.count - 1 } :: es) ∧
    (sl.loops = e :: es → e.stop = w → e.count = 1 → (sl.advance w).pc = ({ sl with loops := es }.advance w).pc ∧
      (sl.advance w).loops = ({ sl with loops := es }.advance w).loops) ∧
    (sl.loops = e :: es → (sl.jump w t).pc = t) ∧
    (sl.loops = e :: es → ¬ (e.start ≤ w ∧ w ≤ e.stop) → (sl.jump w t).loops = e :: es) ∧
    (sl.loops = e :: es → e.start ≤ w ∧ w ≤ e.stop → e.start ≤ t ∧ t ≤ e.stop → (sl.jump w t).loops = e :: es) ∧
    (sl.loops = e :: es → e.start ≤ w ∧ w ≤ e.stop → ¬ (e.start ≤ t ∧ t ≤ e.stop) →
      (sl.jump w t).loops = es.dropWhile (fun f => !(decide (f.start ≤ t) && decide (t ≤ f.stop))))) ∧
  ((∀ (s : State) (x : Cx) (d : Fin 64) (l : Fin 65536) (n : Fin 4096) (h : Fin 1024),
    let pc := x.cur.pc
    let lim := (x.code s).limit.toNat / 4
    let fits := fun bl => bl ≠ 0 ∧ pc.toNat + bl < lim ∧ ∀ j ∈ grpSlices x.cur.grp, ∀ e es, (x.src.slice j).loops = e :: es →
      (e.start ≤ pc ∧ pc ≤ e.stop) → pc.toNat + bl ≤ e.stop.toNat
    let room := ∀ j ∈ grpSlices x.cur.grp, (x.src.slice j).loops.length < 4
    let push := fun (bl : Nat) (n : Word) => s.modSl x (fun _ sl => { sl with
      loops := { start := pc + 1, stop := pc + BitVec.ofNat 32 bl, count := n } :: sl.loops, pc := pc + 1 })
    let skip := fun (bl : Nat) => s.modSl x (fun _ sl => sl.advance (pc + BitVec.ofNat 32 bl))
    (Issues s x (.loopS d l) → fits l.val → room → x.s d ≠ 0 →
      exec (.loopS d l) s = .next (finish x (.ctl (push l (x.s d))))) ∧
    (Issues s x (.loopS d l) → fits l.val → x.s d = 0 → exec (.loopS d l) s = .next (finish x (.ctl (skip l)))) ∧
    (Issues s x (.loopi n h) → fits h.val → room → n.val ≠ 0 →
      exec (.loopi n h) s = .next (finish x (.ctl (push h (BitVec.ofNat 32 n))))) ∧
    (Issues s x (.loopi n h) → fits h.val → n.val = 0 → exec (.loopi n h) s = .next (finish x (.ctl (skip h))))) ∧
  (∀ (s : State) (x : Cx) (n : Fin 64) (d a b e : Fin 4) (tw : Word), Issues s x (.rep n d a b e) →
    fetchWord s x.core x.dom (x.code s) (x.cur.pc + 1) = .ok tw → chainBit tw.toNat = false →
    repeatable (fld tw.toNat 27 4) = true → stepsBad x.cur.word.toNat tw.toNat = false →
    (∀ j ∈ grpSlices x.cur.grp, ∀ f fs, (x.src.slice j).loops = f :: fs → f.stop ≠ x.cur.pc) →
    exec (.rep n d a b e) s = .next (finish x (.ctl (s.modSl x (fun _ sl =>
      { sl with rep := some { j := 0, word := x.cur.word }, pc := x.cur.pc + 1 }))))) ∧
  (∀ (s : State) (g : Gang), s.gang (s.op 0) = some g → BitVec.ofNat 8 (s.op 1) ∈ liveGroups g →
    ∃ t g', exec .ageBoost s = .next t ∧ t.gang (s.op 0) = some g' ∧
    ∀ k, k < g.slices.length → (g'.slice k).boost =
      ((g.slice k).boost || ((BitVec.ofNat 8 (s.op 1)).getLsbD k && decide (4096 ≤ (g.slice k).age)))))

/-- R84 to R95, R26, R67, R68, R70: the control words. Each slice of the group goes where the word sends it.
R70: a join holds until every live slice of the gang waits in it. Then, where all wait at one REGANG with one loop stack, they
form one group that goes on after it with the age of the first arrival; else each former group's record names REGANG_MIX. The model's choices here: notes/assumptions/20. -/
def Obligations.ControlResults : Prop :=
  (∀ (s : State) (x : Cx) (c : Bool) (o : Fin 4194304) (m : Fin 8) (n : Fin 2) (k : Fin 4) (b i : Fin 65536) (a : Fin 64),
    let pc := x.cur.pc
    let goes := fun (w : Instr) (e : State) => exec w s = .next (finish x (.ctl e))
    let far := pc + (BitVec.ofNat 22 o).signExtend 32
    let near := pc + (BitVec.ofNat 16 b).signExtend 32
    let T := fun j => brTaken x m n k j
    let taken := sliceMask ((grpSlices x.cur.grp).filter (fun j => T j == some true))
    let not := sliceMask ((grpSlices x.cur.grp).filter (fun j => T j == some false))
    (Issues s x (.nop c) → Does s x (.nop c) s) ∧
    (Issues s x (.bra o) → goes (.bra o) (s.modSl x (fun _ sl => sl.jump pc far))) ∧
    (Issues s x (.br m n k b) → (∀ j ∈ grpSlices x.cur.grp, (T j).isSome) → goes (.br m n k b)
      (s.modSl x (fun j sl => if taken.getLsbD j then { sl.jump pc near with grp := taken }
        else { sl.advance pc with grp := not }))) ∧
    (Issues s x (.brx a) → (x.s2 a).toNat % 4 = 0 → goes (.brx a) (s.modSl x (fun _ sl => sl.jump pc (pcOf (x.code s) (x.s2 a))))) ∧
    (Issues s x (.call o) → goes (.call o) ((s.putS2 x 62 ((x.code s).base + BitVec.ofNat 64 (4 * (pc.toNat + 1)))).modSl x
      (fun _ sl => { sl with pc := far }))) ∧
    (Issues s x .ret → (x.s2 62).toNat % 4 = 0 → goes .ret
      (s.modSl x (fun _ sl => { sl with pc := pcOf (x.code s) (x.s2 62) }))) ∧
    (Issues s x (.lbrk) → (∀ j ∈ grpSlices x.cur.grp, (x.src.slice j).loops ≠ []) → goes .lbrk (s.modSl x (fun _ sl =>
      match sl.loops with | [] => sl | e :: es => { sl with loops := es }.advance e.stop))) ∧
    (Issues s x (.setx c m) → Does s x (.setx c m) (s.modSl x (fun j sl => { sl with x := (x.m m).extractLsb' (4 * j) 4 }))) ∧
    (Issues s x (.andx c m) → Does s x (.andx c m)
      (s.modSl x (fun j sl => { sl with x := sl.x &&& (x.m m).extractLsb' (4 * j) 4 }))) ∧
    (Issues s x (.orx c m) → Does s x (.orx c m)
      (s.modSl x (fun j sl => { sl with x := sl.x ||| (x.m m).extractLsb' (4 * j) 4 }))) ∧
    (Issues s x (.regang c i) → exec (.regang c i) s = .next (finish x (.block (s.fresh.modSl x
      (fun _ sl => { sl with join := some (BitVec.ofNat 16 i), joinAt := s.work.next }))))) ∧
    (Issues s x .yield → Does s x .yield (s.modSl x (fun _ sl => { sl with age := 0, boost := false }))) ∧
    (Issues s x (.waitla c) → noOuts x.gang x.cur.grp = true → x.cur.pc = x.cur.last → Does s x (.waitla c) s)) ∧
  (∀ (s : State) (gk : Nat) (g : Gang) (w : Crew), s.gang gk = some g → g.slices.length ≤ 8 → s.crew g.crew = some w →
    let live := g.liveSlices
    let h := g.slice (live.headD 0)
    let site := fun (sl : Slice) => (sl.join, sl.block.map (fun b => b.pc), sl.loops)
    ((∃ j ∈ live, (g.slice j).join = none) → resolveJoin s gk = s) ∧
    ((∀ j ∈ live, (g.slice j).join ≠ none) → (∀ j ∈ live, site (g.slice j) = site h) → g.ss = false ∨ h.hnd = true →
      live ≠ [] → ∃ g', (resolveJoin s gk).gang gk = some g' ∧ g'.recs = g.recs ∧ g'.r = g.r ∧
      (∀ j, j ∉ live → g'.slice j = g.slice j) ∧ ∃ i ∈ live, (∀ k ∈ live, (g.slice i).joinAt ≤ (g.slice k).joinAt) ∧
      ∀ j ∈ live, let sl := g.slice j
        (g'.slice j).grp = sliceMask live ∧ (g'.slice j).join = none ∧ (g'.slice j).block = none ∧
        (g'.slice j).age = (g.slice i).age ∧
        (g'.slice j).pc = (sl.advance ((sl.block.map (fun b => b.last)).getD sl.pc)).pc) ∧
    ((∀ j ∈ live, (g.slice j).join ≠ none) → (∃ j ∈ live, site (g.slice j) ≠ site h) → ∃ g',
      (resolveJoin s gk).gang gk = some g' ∧ g'.r = g.r ∧ ∀ m ∈ liveGroups g, (∃ r ∈ g'.recs,
        r.cause = Cause.regangMix.code ∧ r.grp = m ∧ r.emask = grpLanes m ∧
        r.epc = ((g.slice (firstSlice m)).block.map (fun b => b.pc)).getD (g.slice (firstSlice m)).pc) ∧
      ∀ j, j < g.slices.length → m.getLsbD j = true → (g'.slice j).stopped = true ∧ (g'.slice j).join = none))

/-- R457, R479, R26, R67, R87 to R90: where a control word traps, its group's record names the cause and the lanes; TRAP
and BKPT resume past the word. LOOP and LOOPI trap where the body has no word, leaves the code segment or the enclosing
body, or the stack holds four entries; LBRK where the stack is empty; REP where its target may not repeat.
R456, R457, R460: the record of a trap, and the stop of its group. The model's choices here: notes/assumptions/19, 23, 25, 139. -/
def Obligations.ControlTraps : Prop :=
  (∀ (s : State) (x : Cx) (i : Fin 65536) (a : Fin 64) (m : Fin 8) (n : Fin 2) (k : Fin 4) (b : Fin 65536)
    (cn : Fin 4096) (h : Fin 1024) (d0 d1 d2 d3 : Fin 4) (tw : Word),
    let pc := x.cur.pc
    let loopsOf := fun j => (x.src.slice j).loops
    let depth := BitVec.ofNat 32 (loopsOf (firstSlice x.cur.grp)).length
    let named := fun (p : Nat → Bool) => grpLanes (sliceMask ((grpSlices x.cur.grp).filter p))
    let wide := fun (bl : Nat) j => decide (bl = 0) || decide ((x.code s).limit.toNat / 4 ≤ pc.toNat + bl) ||
      (match loopsOf j with
       | e :: _ => decide (e.start ≤ pc ∧ pc ≤ e.stop ∧ e.stop.toNat < pc.toNat + bl)
       | [] => false)
    let full := fun j => decide (4 ≤ (loopsOf j).length)
    let traps := fun (w : Instr) (e : State) (t : TrapReq) => exec w s = .next (finish x (.trap e t))
    (Issues s x (.trap i) → traps (.trap i) (s.modSl x (fun _ sl => sl.advance x.cur.pc))
      { cause := .swTrap, lanes := grpLanes x.cur.grp, detail := BitVec.ofNat 32 i, after := true }) ∧
    (Issues s x (.bkpt i) → traps (.bkpt i) (s.modSl x (fun _ sl => sl.advance x.cur.pc))
      { cause := .bkpt, lanes := grpLanes x.cur.grp, detail := BitVec.ofNat 32 i, after := true }) ∧
    (Issues s x (.brx a) → (x.s2 a).toNat % 4 ≠ 0 → traps (.brx a) s
      { cause := .pcAlign, lanes := grpLanes x.cur.grp, addr := x.s2 a, detail := pcOf (x.code s) (x.s2 a) }) ∧
    (Issues s x .ret → (x.s2 62).toNat % 4 ≠ 0 → traps .ret s
      { cause := .pcAlign, lanes := grpLanes x.cur.grp, addr := x.s2 62, detail := pcOf (x.code s) (x.s2 62) }) ∧
    (Issues s x (.br m n k b) → (∃ j ∈ grpSlices x.cur.grp, brTaken x m n k j = none) → traps (.br m n k b) s
      { cause := .brNonuni,
        lanes := grpLanes (sliceMask ((grpSlices x.cur.grp).filter (fun j => (brTaken x m n k j).isNone))) }) ∧
    (∀ (w : Instr) (count : Word) (bl : Nat),
      (w = .loopS a i ∧ count = x.s a ∧ bl = i.val) ∨ (w = .loopi cn h ∧ count = BitVec.ofNat 32 cn ∧ bl = h.val) → Issues s x w →
      (named (wide bl) ≠ 0 → traps w s { cause := .loopBad, lanes := named (wide bl), detail := depth }) ∧
      (named (wide bl) = 0 → count ≠ 0 → named full ≠ 0 →
        traps w s { cause := .loopOvf, lanes := named full, detail := depth })) ∧
    (Issues s x .lbrk → let none_ := named (fun j => decide (loopsOf j = []))
      none_ ≠ 0 → traps .lbrk s { cause := .loopBad, lanes := none_ }) ∧
    (Issues s x (.rep a d0 d1 d2 d3) → fetchWord s x.core x.dom (x.code s) (pc + 1) = .ok tw →
      let bad := chainBit tw.toNat = true ∨ repeatable (fld tw.toNat 27 4) = false ∨ stepsBad x.cur.word.toNat tw.toNat = true
      let ending := named (fun j => decide ((loopsOf j).head?.map (fun e => e.stop) = some pc))
      (bad → traps (.rep a d0 d1 d2 d3) s { cause := .repBad, lanes := x.all, detail := x.cur.word }) ∧
      (¬ bad → ending ≠ 0 → traps (.rep a d0 d1 d2 d3) s { cause := .loopBad, lanes := ending, detail := depth }))) ∧
  (∀ (s : State) (x : Cx) (t : TrapReq), s.gang x.cur.gang = some x.gang → x.cur.retry = false → ∃ g r,
    (finish x (.trap s t)).gang x.cur.gang = some g ∧ g.recs = x.gang.recs ++ [r] ∧
    r.cause = t.cause.code % 128 ∧ r.disp = dispOf s x.crew.dom (x.gang.slice (firstSlice x.cur.grp)).hnd t.cause ∧
    r.grp = x.cur.grp ∧ r.epc = x.cur.first ∧ r.emask = t.lanes ∧ r.eaddr = t.addr ∧ r.edetail = t.detail ∧
    r.ex = x.gang.grpX x.cur.grp ∧ r.tstop = BitVec.ofNat 64 s.time ∧
    (t.after = false → x.cur.rep = none → r.erpc = x.cur.first) ∧
    (t.after = false → x.cur.rep ≠ none → r.erpc = x.cur.pc) ∧
    (t.after = true → r.erpc = (x.gang.slice (firstSlice x.cur.grp)).pc) ∧
    (∀ j, j < x.gang.slices.length → x.cur.grp.getLsbD j = true → (g.slice j).stopped = true) ∧
    ∀ j, j < x.gang.slices.length → x.cur.grp.getLsbD j = false → g.slice j = x.gang.slice j)

/-- R463, R471: handler entry makes the head record current, and its group starts at word 0 of the handler window with
all lanes, its loops and repeat set aside. With SA = 1 every other live slice of the crew is frozen.
R480: ERET sends the group of the current record to ERPC with the lanes of EX, its loops back, out of handler mode;
the record is retired and the frozen groups of the whole crew go on. The model's choices here: notes/assumptions/112, 141. -/
def Obligations.HandlerEntryAndReturn : Prop :=
  (∀ (s : State) (g : Gang) (w : Crew) (r : TrapRec) (rs : List TrapRec),
    s.gang (s.op 0) = some g → g.recs = r :: rs → g.cur = false → r.disp = 0 →
    s.crew g.crew = some w → w.core?.isSome = true → w.leaving = none → frozenNow s (s.op 0) g r.grp = false →
    let rest := fun (own : Bool) (sl : Slice) => if g.sa = true ∧ own = true ∧ sl.live = true then { sl with frozen := true } else sl
    ∃ t g', exec .handlerEntry s = .next t ∧ t.gang (s.op 0) = some g' ∧ g'.cur = true ∧ g'.recs = g.recs ∧ g'.r = g.r ∧
      (∀ j, j < g.slices.length → r.grp.getLsbD j = true → (g'.slice j).pc = 0 ∧ (g'.slice j).x = 0xF ∧
        (g'.slice j).hnd = true ∧ (g'.slice j).stopped = false ∧ (g'.slice j).loops = [] ∧ (g'.slice j).rep = none ∧
        (g'.slice j).asideLoops = (g.slice j).loops ∧ (g'.slice j).asideRep = (g.slice j).rep ∧
        (g'.slice j).frozen = (g.slice j).frozen) ∧
      (∀ j, j < g.slices.length → j < 8 → r.grp.getLsbD j = false → g'.slice j = rest true (g.slice j)) ∧
      (∀ a, getByte t.mem a = getByte s.mem a) ∧
      ∀ k h, k ≠ s.op 0 → s.gang k = some h → ∃ h', t.gang k = some h' ∧ h'.r = h.r ∧ h'.recs = h.recs ∧
        ∀ j, j < h.slices.length → j < 8 → h'.slice j = rest (decide (h.crew = g.crew)) (h.slice j)) ∧
  ((∀ (s : State) (x : Cx), Issues s x .eret → noOuts x.gang x.cur.grp = true → exec .eret s = .next (finish x (.ctl
    (leaveHandler (s.modSl x (fun _ sl => { sl with block := none })) x.cur.gang)))) ∧
  (∀ (s : State) (gk : Nat) (g : Gang) (r : TrapRec) (rs : List TrapRec), s.gang gk = some g → g.recs = r :: rs →
    ∃ g', (leaveHandler s gk).gang gk = some g' ∧ g'.recs = rs ∧ g'.cur = false ∧ g'.r = g.r ∧
      (∀ j, j < g.slices.length → j < 8 → r.grp.getLsbD j = false → g'.slice j = { g.slice j with frozen := false }) ∧
      (∀ j, j < g.slices.length → r.grp.getLsbD j = true → (g'.slice j).pc = r.erpc ∧ (g'.slice j).hnd = false ∧
        (g'.slice j).frozen = false ∧
        (g'.slice j).x = r.ex.extractLsb' (4 * j) 4 ∧ (g'.slice j).loops = (g.slice j).asideLoops ∧
        (g'.slice j).rep = (if r.repv then (g.slice j).asideRep.map (fun p => { p with j := r.j }) else none)) ∧
      ∀ k h, k ≠ gk → s.gang k = some h → ∃ h', (leaveHandler s gk).gang k = some h' ∧ h'.r = h.r ∧ h'.recs = h.recs ∧
        ∀ j, j < h.slices.length → j < 8 →
          h'.slice j = if h.crew = g.crew then { h.slice j with frozen := false } else h.slice j))

/-- Table 15-6, R478, R482: every special register as it reads, and the four that may be written. -/
def Obligations.SpecialRegisters : Prop :=
  ∀ (s : State) (x : Cx) (c : Bool) (d : Fin 64),
    let reads := fun (n : Fin 1024) (v : Word) => ResS s x (.mfsr c d n) d v
    let writes := fun (n : Fin 1024) (f : Gang → Gang) => Issues s x (.mtsr c d n) →
      Does s x (.mtsr c d n) (s.modGang x.cur.gang f)
    reads 0 (BitVec.ofNat 32 (x.lanes.headD 32)) ∧ reads 1 (BitVec.ofNat 32 x.gang.ix) ∧ reads 2 x.crew.crewid ∧
    reads 3 (BitVec.ofNat 32 x.core) ∧ reads 4 (BitVec.ofNat 32 (x.core / 48)) ∧ reads 5 (BitVec.ofNat 32 x.crew.dom) ∧
    reads 6 (BitVec.ofNat 32 x.crew.que) ∧ reads 7 (BitVec.ofNat 32 (x.crew.kw.toNat / 16 % 8)) ∧
    reads 8 (BitVec.ofNat 32 x.gang.nsl) ∧ reads 16 x.src.r.rnd ∧
    reads 17 (BitVec.ofNat 32 (x.src.ss.toNat + 2 * x.src.sa.toNat)) ∧
    reads 18 (BitVec.ofNat 32 (x.prv.toNat + 2 * x.hnd.toNat)) ∧
    (x.gang.cur = false → ∀ n : Fin 1024, 32 ≤ n.val → n.val ≤ 42 → reads n 0) ∧
    (∀ r rs, x.gang.cur = true → x.gang.recs = r :: rs → reads 32 r.w0 ∧ reads 33 r.epc ∧ reads 34 r.erpc ∧
      reads 35 r.emask ∧ reads 36 (r.eaddr.extractLsb' 0 32) ∧ reads 37 (r.eaddr.extractLsb' 32 32) ∧
      reads 38 r.edetail ∧ reads 39 r.ex ∧ reads 40 r.who ∧ reads 41 (r.tstop.extractLsb' 0 32) ∧
      reads 42 (r.tstop.extractLsb' 32 32)) ∧
    writes 16 (fun g => { g with r := { g.r with rnd := x.s d, gen := genSeeds (x.s d) g.ix } }) ∧
    writes 17 (fun g => { g with ss := (x.s d).getLsbD 0, sa := (x.s d).getLsbD 1 }) ∧
    writes 34 (fun g => g.modCurrent (fun e => { e with w0 := e.w0 &&& 0xFFBFFFFF, erpc := x.s d })) ∧
    writes 39 (fun g => g.modCurrent (fun e => { e with ex := x.s d }))

/-- R481, R483 to R487: software notices, segment registers, scopes, the time and the instruction caches, and where SOFTI,
SEGLD and SCOPEW trap. SEGLD that waits keeps the window that it read at its issue. -/
def Obligations.SystemResults : Prop :=
  ∀ (s : State) (x : Cx) (c : Bool) (g : Fin 8) (a d : Fin 64) (i : Fin 32) (b l : Nat),
    let refused := fun (w : Instr) (k : Cause) (v : Word) => Traps s x w s { cause := k, lanes := x.all, detail := v }
    let n := (x.s a).toNat
    let noTarget := 2 ≤ n / 2 ^ 30 ∨ n / 2 ^ 24 % 64 ≠ 0 ∨ n / 64 % 4 ≠ 0 ∨ (n / 2 ^ 30 ≠ 0 ∧ n / 4 % 16 ≠ 0) ∨
      (n / 2 ^ 30 = 0 ∧ (smGet {} (s.domain x.dom).queues (n % 64)).enabled = false)
    let idle := ∀ sl ∈ x.gang.slices, sl.wins = []
    let inside := fun (p : Nat × Nat) (size : Nat) => p.1 ≤ b ∧ b + size ≤ p.1 + p.2
    let pk := 1024 * rwPk x.crew.rw
    let share := ((smFind s.work.tasks x.crew.task).bind (fun t =>
      t.basin.find? (fun p => decide (p.1 = coreDie x.core)))).map (fun p => p.2)
    let fits := ((g.val = 0 ∨ g.val = 6 ∨ g.val = 7) ∧ b + l ≤ 2 ^ 57) ∨ (g.val = 1 ∧ inside (x.crew.pbase, pk) l) ∨
      (g.val = 2 ∧ l ≤ pk ∧ b < 16 ∧ b &&& teamMask s x.crew x.core = b) ∨ (g.val = 3 ∧ inside (share.getD (0, 0)) l) ∨
      (g.val = 4 ∧ inside (x.crew.pbase + pk, poundBytes x.crew.kw x.crew.rw - pk) (kwLanes x.crew.kw * l))
    let window : Seg := if g.val = 5 then
        { base := 0, limit := if (s.ceng x.crewNo).bkt.cur.isSome then 64 else (x.src.r.rdSeg 5).limit }
      else if x.hnd = true ∧ g.val = 7 then (((s.domain x.dom).map.handler).map (fun w =>
        ({ base := BitVec.ofNat 64 w.base, limit := BitVec.ofNat 64 w.size } : Seg))).getD {} else x.src.r.rdSeg g
    (Issues s x (.softi c a) → ¬ noTarget → Does s x (.softi c a) { s with sched.softis := s.sched.softis ++
      [{ gang := x.cur.gang, core := x.core, dom := x.dom, word := x.s a, mark := s.work.next }] }) ∧
    (Issues s x (.softi c a) → noTarget → refused (.softi c a) .softiTgt (x.s a)) ∧
    (Issues s x (.segld c g a) → (if x.held = [] then [(x.s2 a).toNat, (x.s2 (a.val + 2)).toNat] else x.held) = [b, l] →
      b < 2 ^ 64 → l < 2 ^ 64 →
      (¬ idle → Waits s x (.segld c g a) (keepArgs s x [b, l])) ∧
      (idle → fits → Does s x (.segld c g a)
        (s.modRegs x (fun r => r.wrSeg g { base := BitVec.ofNat 64 b, limit := BitVec.ofNat 64 l }))) ∧
      (idle → ¬ fits → refused (.segld c g a) .segDesc (BitVec.ofNat 32 g))) ∧
    (Issues s x (.segrd c d g) → Does s x (.segrd c d g)
      ((s.putS2 x d window.base).putS2 x (d.val + 2) window.limit)) ∧
    (Issues s x (.scopew c d i) → 4 ≤ i.val → scopeMask x d ≠ 0 → Does s x (.scopew c d i) (s.modDomain x.dom (fun m =>
      { m with map := { m.map with scopes := smSet m.map.scopes i (scopeMask x d) } }))) ∧
    (Issues s x (.scopew c d i) → (i.val < 4 ∨ scopeMask x d = 0) → refused (.scopew c d i) .scopeDesc (BitVec.ofNat 32 i)) ∧
    (Issues s x (.time c d) → DoesS s x (.time c d) (twoS d (BitVec.ofNat 64 s.time))) ∧
    (Issues s x (.icinv c) → Does s x (.icinv c) (icInv s x.core x.dom))

/-- R461, R457: the watchdog, the time limit and the debugger's halt stop every group of a resident crew that runs (one that is
neither stopped nor frozen): its gang gets a record of the cause for service with the PC of the next word the group would
issue; no byte of memory, no crew and no gang of another crew changes. The model's choices here: notes/assumptions/97, 98. -/
def Obligations.ImposedStops : Prop :=
  ∀ (s : State) (w : Crew), s.crew (s.op 0) = some w → w.core?.isSome = true → w.leaving = none →
    crewLives s (s.op 0) = true →
    let stops := fun (i : Instr) (k : Cause) (detail : Word) => ∃ t, exec i s = .next t ∧
      t = imposeCrew s (s.op 0) k detail ∧ t.mem = s.mem ∧ t.work.crews = s.work.crews ∧
      (∀ n, (∀ p ∈ s.work.gangs, p.1 = n → p.2.crew ≠ s.op 0) → t.gang n = s.gang n) ∧
      ∀ gk g m, s.gang gk = some g → g.crew = s.op 0 → m ∈ liveGroups g → (g.slice (firstSlice m)).stopped = false →
        frozenNow s gk g m = false → ∃ g' r, t.gang gk = some g' ∧ r ∈ g'.recs ∧ r.cause = k.code ∧ r.disp = 1 ∧ r.grp = m ∧
          r.epc = (g.slice (firstSlice m)).nextPc ∧ r.erpc = (g.slice (firstSlice m)).nextPc ∧ r.emask = grpLanes m ∧
          r.eaddr = 0 ∧ r.edetail = detail ∧ r.ex = g.grpX m ∧ g'.r = g.r ∧
          ∀ j, j < g.slices.length → m.getLsbD j = true → (g'.slice j).stopped = true
    (∀ t, w.blockedAt = some t → crewBlocked s (s.op 0) = true → (s.domain w.dom).set_.blocked ≠ 0 →
      (s.domain w.dom).set_.blocked < s.time - t → stops .watchdog .watchdog 0) ∧
    ((s.domain w.dom).set_.run ≠ 0 → (s.domain w.dom).set_.run < w.ran + (s.time - w.since) →
      stops .timeLimit .timeLimit 0) ∧
    stops .dbgHalt .dbgHalt (BitVec.ofNat 32 (s.op 1))

/-! ### The memory path -/

/-- R198, R199, R201 to R203, R213, R214, R231, R232, R234, R235: a load from storage without an L1 path (the Pounds, a lane segment, a Basin) returns at
issue: register v[d] of each active lane, or s[d] for LDU, takes the little-endian value at the address its checks
give, and nothing else changes, where no access reaches a member of the team that is out. `A` gives the package address of
each lane's access.
R9, R198, R199, R201 to R203, R213, R214, R231, R233 to R235: a store to storage without an L1 path writes each active lane's bytes at the
address its checks give, in ascending lanes, and no other byte; no register changes. -/
def Obligations.NearLoadsAndStores : Prop :=
  (∀ (s : State) (x : Cx) (c : Bool) (w : Fin 8) (p : Fin 4) (g : Fin 8) (d a : Fin 64) (l : Fin 16) (i : Fin 8) (A : Nat → Nat),
    1 ≤ g.val → g.val ≤ 4 →
    let n := lsBytes w
    let here := fun o => reachAway s x.core x.crew g o = false
    let ok := fun j => A j % min n 4 = 0 ∧ scoreHit s (A j / 4 * 4) 4 = false ∧
      ∀ k, k < max (n / 4) 1 → scoreHit s (A j / 4 * 4 + 4 * k) 4 = false ∧ isPoison s.poison (A j / 4 * 4 + 4 * k) = false
    let value := fun j k => if n = 1 then (getByte s.mem (A j)).zeroExtend 32
      else if n = 2 then (getByte s.mem (A j + 1) ++ getByte s.mem (A j)).zeroExtend 32 else getWord s.mem (A j + 4 * k)
    (Issues s x (.ld c w p g d a l i) →
      (∀ j ∈ x.lanes, checkAddr s x g j (laneOff x g a (i.val * n) j) n .read p = .ok (A j) ∧
        here (laneOff x g a (i.val * n) j) ∧ ok j) →
      DoesV s x (.ld c w p g d a l i) (fun r j =>
        if j ∈ x.lanes ∧ d.val ≤ r ∧ r < d.val + max (n / 4) 1 then some (value j (r - d.val)) else none)) ∧
    (Issues s x (.ldu c w p g d a l i) → checkAddr s x g 0 (onceOff x g a (i.val * n)) n .read p = .ok (A 0) →
      here (onceOff x g a (i.val * n)) → ok 0 →
      DoesS s x (.ldu c w p g d a l i) (fun r =>
        if d.val ≤ r ∧ r < d.val + max (n / 4) 1 then some (value 0 (r - d.val)) else none))) ∧
  (∀ (s : State) (x : Cx) (c : Bool) (w : Fin 8) (p : Fin 4) (g : Fin 8) (v a : Fin 64) (i : Fin 8) (A : Nat → Nat),
    1 ≤ g.val → g.val ≤ 4 →
    let n := lsBytes w
    let here := fun o => reachAway s x.core x.crew g o = false
    let free := fun j => A j % min n 4 = 0 ∧ ∀ k, k < max (n / 4) 1 → scoreHit s (A j / 4 * 4 + 4 * k) 4 = false
    let regs := fun (t : State) => ∃ h, t.gang x.cur.gang = some h ∧ h.r = x.gang.r
    (Issues s x (.st c w p g v a i) →
      (∀ j ∈ x.lanes, checkAddr s x g j (laneOff x g a (i.val * n) j) n .write p = .ok (A j) ∧
        here (laneOff x g a (i.val * n) j) ∧ free j) →
      ∃ t, exec (.st c w p g v a i) s = .next t ∧ regs t ∧ (∀ k, k ≠ x.cur.gang → t.gang k = s.gang k) ∧
        (∀ b, (∀ j ∈ x.lanes, b < A j ∨ A j + n ≤ b) → getByte t.mem b = getByte s.mem b) ∧
        ∀ j ∈ x.lanes, ∀ k, k < n → (∀ j' ∈ x.lanes, j < j' → A j + k < A j' ∨ A j' + n ≤ A j + k) →
          getByte t.mem (A j + k) = byteAt (x.v (v.val + k / 4) j) (k % 4)) ∧
    (Issues s x (.stu c w p g v a i) → checkAddr s x g 0 (onceOff x g a (i.val * n)) n .write p = .ok (A 0) →
      here (onceOff x g a (i.val * n)) → free 0 →
      ∃ t, exec (.stu c w p g v a i) s = .next t ∧ regs t ∧ (∀ k, k ≠ x.cur.gang → t.gang k = s.gang k) ∧
        (∀ b, b < A 0 ∨ A 0 + n ≤ b → getByte t.mem b = getByte s.mem b) ∧
        ∀ k, k < n → getByte t.mem (A 0 + k) = byteAt (x.s (v.val + k / 4)) (k % 4)))

/-- R210, R219, R220, Table 7-6: a load or store in a cached segment that waits for no request and needs no push. A load whose words the L1 serves
returns at issue; one that misses is outstanding with a request for each line and kind. A store completes at issue
into the L1 and the requests of Table 7-6, and changes no byte of storage and no register. The model's choices here: notes/assumptions/36. -/
def Obligations.CachedLoadsAndStores : Prop :=
  ∀ (s : State) (x : Cx) (c : Bool) (w : Fin 8) (p : Fin 4) (g : Fin 8) (d a : Fin 64) (l : Fin 16) (i : Fin 8),
    g.val = 0 ∨ g.val = 6 →
    let n := lsBytes w
    let rd := laneChecks s x g a (i.val * n) n .read p
    let once := [onceCheck s x g a (i.val * n) n .read p]
    let wr := laneChecks s x g a (i.val * n) n .write p
    let onceW := [onceCheck s x g a (i.val * n) n .write p]
    let fine := fun (rs : List (Nat × DWord × Except CkFail Nat)) => ∀ r ∈ rs, ∃ q, r.2.2 = .ok q
    let u := fun rs => fillTlbs s x g (passed s x g rs)
    let accs := fun dst rs => loadAccs n dst (passed s x g rs)
    let vec := fun j k => vkey (d.val + k) j
    let sca := fun (_ : Nat) k => d.val + k
    let served := fun rs dst => ∀ q ∈ accs dst rs, accWaits (u rs) x p q = false ∧ accAct (u rs) x p q = .hit ∧
      ((u rs).l1 x.core (lineOf q.pa)).po.getLsbD (wordIx q.pa) = false
    let word := fun rs pa => lineWord ((u rs).l1 x.core (lineOf pa)).data (wordIx pa)
    (Issues s x (.ld c w p g d a l i) → fine rd → served rd vec → Does s x (.ld c w p g d a l i)
      ((u rd).modRegs x (fun r => r.putV ((accs vec rd).map (fun q => (q.dst, accValue q (word rd q.pa))))))) ∧
    (Issues s x (.ldu c w p g d a l i) → fine once → served once sca → Does s x (.ldu c w p g d a l i)
      ((accs sca once).foldl (fun t q => t.putS x q.dst (accValue q (word once q.pa))) (u once))) ∧
    (Issues s x (.ld c w p g d a l i) → fine rd → (∀ q ∈ accs vec rd, accWaits (u rd) x p q = false ∧
        ∃ k, accAct (u rd) x p q = .send k) → accs vec rd ≠ [] →
      let rq := loadReqs (u rd) x p (u rd).work.next (accs vec rd)
      Does s x (.ld c w p g d a l i) (rq.foldl post (openOut (u rd) x
        { kind := .load, gang := x.cur.gang, grp := x.cur.grp, pc := x.cur.pc, npc := x.cur.last + 1,
          accs := accs vec rd, left := rq.length, dstV := ((accs vec rd).map (fun q => q.dst / 32)).dedup } l))) ∧
    (∀ (i' : Instr) (uni : Bool) (val : Nat → Nat → Word) (rs : List (Nat × DWord × Except CkFail Nat)),
      (i' = .st c w p g d a i ∧ uni = false ∧ rs = wr ∧ val = (fun j k => x.v (d.val + k) j)) ∨
        (i' = .stu c w p g d a i ∧ uni = true ∧ rs = onceW ∧ val = (fun _ k => x.s (d.val + k))) →
      Issues s x i' → fine rs →
      let ws := storeWords n val (passed s x g rs)
      let lines := (ws.map (fun q => lineOf q.pa)).dedup
      (∀ m ∈ lines, ∀ k ∈ wordsOf (touched (lineStore ws m).1), stWaits (u rs) x p m (lineStore ws m).1 k = false) →
      (∀ m ∈ lines, stSet (u rs) x p m (lineStore ws m).1 .push = 0) →
      ∃ t, exec i' s = .next t ∧ Does s x i' (lines.foldl (fun t m => storeLine t x p uni m ws) (u rs)) ∧
        (∀ b, getByte t.mem b = getByte s.mem b) ∧ ∃ h, t.gang x.cur.gang = some h ∧ h.r = x.gang.r)

/-- R201 to R203, R205: where a check fails the word takes one precise trap and writes nothing: no register and no byte.
R228: a deferred fault of the group is delivered in the place of its next chain: the record holds the faulting word's PC, the
PC of that chain as the resume PC and the lanes that failed, and no register and no byte changes. The model's choices here: notes/assumptions/26, 41. -/
def Obligations.AccessTraps : Prop :=
  (∀ (s : State) (x : Cx) (c : Bool) (w : Fin 8) (p : Fin 4) (g : Fin 8) (d a : Fin 64) (l : Fin 16) (i : Fin 8) (f : CkFail) (q : TrapReq),
    let n := lsBytes w
    let base := (segOf s x.dom x.hnd x.src.r g).base
    let traps := fun (w : Instr) (q : TrapReq) => exec w s = .next (finish x (.trap s q)) ∧
      ∀ b, getByte (finish x (.trap s q)).mem b = getByte s.mem b
    (Issues s x (.ld c w p g d a l i) → lanesFail base (laneChecks s x g a (i.val * n) n .read p) = some q →
      traps (.ld c w p g d a l i) q) ∧
    (Issues s x (.st c w p g d a i) → lanesFail base (laneChecks s x g a (i.val * n) n .write p) = some q →
      traps (.st c w p g d a i) q) ∧
    (Issues s x (.ldu c w p g d a l i) → checkAddr s x g 0 (onceOff x g a (i.val * n)) n .read p = .error f →
      traps (.ldu c w p g d a l i) (onceFail x base (onceOff x g a (i.val * n)) f)) ∧
    (Issues s x (.stu c w p g d a i) → checkAddr s x g 0 (onceOff x g a (i.val * n)) n .write p = .error f →
      traps (.stu c w p g d a i) (onceFail x base (onceOff x g a (i.val * n)) f))) ∧
  (∀ (s : State) (ps : List Pick) (gk : Nat) (m : BitVec 8) (g : Gang) (w : Crew) (core : Nat) (e : Late),
    let u := { tick s with picks := ps }
    s.picks = .issue gk m :: ps → mayIssue u gk m = true → u.gang gk = some g → u.crew g.crew = some w →
    w.core? = some core → let sl := g.slice (firstSlice m)
    sl.again = [] → sl.block = none → lateOf u gk m = some e → ∃ t g' r, step s = .next t ∧ t.gang gk = some g' ∧
      g'.recs = g.recs ++ [r] ∧ g'.r = g.r ∧ t.mem = s.mem ∧ r.cause = e.err.cause.code % 128 ∧ r.grp = m ∧ r.epc = e.pc ∧
      r.erpc = sl.pc ∧ r.emask = e.err.lanes &&& grpLanes m ∧ r.eaddr = e.err.addr ∧ r.edetail = e.err.detail ∧
      r.ex = g.grpX m ∧ ∀ j, j < g.slices.length → m.getLsbD j = true → (g'.slice j).stopped = true)

/-- R210, R208: the oldest of a core's staged requests that has a place takes a slot, a request that has waited 4,096 clocks is
raised, a translation fills the TLBs.
R214, R219, R220, R228, R344: replies reach their cores, and a host read that gets no completion is answered with HOST_ERR. The model's choices here: notes/assumptions/37, 39, 40, 177. -/
def Obligations.RequestAndReplySteps : Prop :=
  (∀ (s : State) (q : ReqX), s.coh.reqs[s.op 0]? = some q →
    (q.staged = true → lsuRoom s q.r.core (bankOf q.r.line) = true →
      (∀ p ∈ s.coh.reqs, p.staged = true → p.r.core = q.r.core → p.r.id < q.r.id →
        bankOf p.r.line ≠ bankOf q.r.line ∧ lsuRoom s q.r.core (bankOf p.r.line) = false) →
      exec .stagingQueue s = .next (s.modReq q.r.id (fun q => { q with r := q.r.sent s, staged := false }))) ∧
    (q.begun = false → 4096 ≤ clocksSince s q.at_ →
      exec .lsuAgeBoost s = .next (s.modReq q.r.id (fun q => { q with boost := true }))) ∧
    (s.op 0 < 192 → exec .pageWalk s = .next (fillTlb s (s.op 0) (s.op 1) (s.op 2)))) ∧
  ((∀ (s : State) (p : Reply), s.arriving (s.op 0) = some p →
    (p.kind = .data → p.r.kind ≠ .atomic → p.r.kind ≠ .barrier →
      exec .loadReply s = .next (takeData { s with coh.replies := dropAt s.coh.replies (s.op 0) } p)) ∧
    (p.kind = .ack ∨ p.kind = .done → exec .storeAck s = .next { s with coh.replies := dropAt s.coh.replies (s.op 0) }) ∧
    (∀ c, p.kind = .error c → p.r.kind ≠ .atomic → p.r.kind ≠ .barrier → p.r.kind ≠ .push → p.r.out = 0 → ∃ t,
      exec .errorReply s = .next t ∧ t.coh.late = s.coh.late ++ [{ gang := p.r.gang, pc := p.r.pc, err :=
        { cause := c, lanes := p.r.lanes, addr := p.r.va,
          detail := if c = .homeFenced || c = .incarnation then BitVec.ofNat 32 (lineDie p.r.line) else 0 } }] ∧
      ∀ b, getByte t.mem b = getByte s.mem b)) ∧
  (∀ (s : State) (p : Reply) (o : Out) (g : Gang), s.arriving (s.op 0) = some p → p.kind = .data → p.r.kind = .rdThr →
    p.r.wm = 0 → smFind s.work.outs p.r.out = some o → p.r.out ≠ 0 → o.kind = .load → o.left = 1 → o.err = none →
    o.acq = none → o.wrV = [] → o.wrS = [] → p.po = 0 → s.gang o.gang = some g →
    (∀ a ∈ o.accs, lineOf a.pa = p.r.line ∧ p.r.words.getLsbD (wordIx a.pa) = true) → o.hits = [] →
    ∃ t g', exec .loadReply s = .next t ∧ t.gang o.gang = some g' ∧ smFind t.work.outs p.r.out = none ∧
      g'.r = g.r.putV (o.accs.map (fun a => (a.dst, accValue a (lineWord p.data (wordIx a.pa)))))) ∧
  (∀ (s : State) (q : ReqX), s.coh.reqs[s.op 0]? = some q → lineHost q.r.line = true → q.begun = false →
    q.r.kind = .rdThr → exec .completionTimeout s = .next { s with
      host.aer := s.host.aer ||| ((1 : Word) <<< 14)
      coh.reqs := s.coh.reqs.filter (fun p => decide (p.r.id ≠ q.r.id)),
      coh.replies := s.coh.replies ++ [({ kind := .error .hostErr, r := q.r, ats := q.ats, wide := q.wide,
                                          route := routeOf s (homeDie q.r.line) (coreDie q.r.core),
                                          inc := (s.die (homeDie q.r.line)).inc } : Reply)] }))

/-- R215, R216, R222, R225: a home that can take a request and has no message to send first performs it. A read is answered
with the line as the home holds it, RdWis makes the requester's cluster a sharer, RdOwn makes the requester the owner
of the words.
R215, R216, R219, R222, R225: a write that its home takes with no sharer to invalidate is applied at once, byte by byte as its
mask says, and answered; a writeback applies the words its sender still owns and frees them. The model's choices here: notes/assumptions/34, 35, 38, 148. -/
def Obligations.HomeSteps : Prop :=
  (∀ (s : State) (q : ReqX), refusal s q = none → q.begun = false → firstMsgs s q = [] →
    let answer := fun (t : State) => (t.dropReq q.r.id).reply
      { kind := .data, r := q.r, data := homeLine t q, po := homePo t q, dropFill := q.noFill }
    (takeReq s (s.op 0) .rdThr = some q → exec .rdThr s = .next (answer s)) ∧
    (takeReq s (s.op 0) .rdSis = some q → exec .rdSis s = .next (answer s)) ∧
    (takeReq s (s.op 0) .rdWis = some q → dirFull s q.r.line = false → lineHost q.r.line = false → ∃ t,
      exec .rdWis s = .next t ∧ (t.dirOf q.r.line).sharers = (s.dirOf q.r.line).sharers ||| (1 <<< (q.r.core / 4)) ∧
      (t.dirOf q.r.line).owners = (s.dirOf q.r.line).owners ∧ ∀ b, getByte t.mem b = getByte s.mem b) ∧
    (takeReq s (s.op 0) .rdOwn = some q → dirFull s q.r.line = false → lineHost q.r.line = false → q.r.words ≠ 0 → ∃ t,
      exec .rdOwn s = .next t ∧ (t.dirOf q.r.line).sharers = 0 ∧
      (∀ w, w < 16 → q.r.words.getLsbD w = true → (t.dirOf q.r.line).owner w = some q.r.core) ∧
      (∀ w, q.r.words.getLsbD w = false → w < 16 → (t.dirOf q.r.line).owner w = (s.dirOf q.r.line).owner w) ∧
      ∀ b, getByte t.mem b = getByte s.mem b)) ∧
  (∀ (s : State) (q : ReqX), 
    let inLine := fun b => 64 * q.r.line ≤ b ∧ b < 64 * q.r.line + 64
    let written := fun (t : State) (m : BitVec 64) => (∀ b, ¬ inLine b → getByte t.mem b = getByte s.mem b) ∧
      ∀ k, k < 64 → getByte t.mem (64 * q.r.line + k) =
        if m.getLsbD k then q.r.wd.extractLsb' (8 * k) 8 else getByte s.mem (64 * q.r.line + k)
    (∀ i k, ((i, k) = (Instr.wrThr, ReqKind.wrThr) ∨ (i, k) = (Instr.wrWis, ReqKind.wrWis) ∨ (i, k) = (Instr.pushWr, ReqKind.push)) →
      takeReq s (s.op 0) k = some q → refusal s q = none → q.begun = false → firstMsgs s q = [] →
      (s.dirOf q.r.line).sharers = 0 → ∃ t, exec i s = .next t ∧ written t q.r.wm ∧
        t.coh.replies = s.coh.replies ++ [{ kind := .done, r := q.r, route := routeOf s (homeDie q.r.line) (coreDie q.r.core),
                                            inc := (s.die (homeDie q.r.line)).inc }] ∧
        t.coh.reqs = s.coh.reqs.filter (fun p => decide (p.r.id ≠ q.r.id))) ∧
    (s.coh.reqs[s.op 0]? = some q → q.r.kind = .writeback → q.lost = false → ∃ t, exec .writeback s = .next t ∧
      written t (q.r.wm &&& wholeMask (ownedBy (s.dirOf q.r.line) q.r.words q.r.core)) ∧
      (∀ w, (t.dirOf q.r.line).owner w = if w < 16 ∧ q.r.words.getLsbD w = true ∧ (s.dirOf q.r.line).owner w = some q.r.core
        then none else (s.dirOf q.r.line).owner w) ∧ (t.dirOf q.r.line).sharers = (s.dirOf q.r.line).sharers ∧
      t.coh.reqs = s.coh.reqs.filter (fun p => decide (p.r.id ≠ q.r.id))))

/-- R216, R221, Table 7-7: what a core does on a recall, a forwarded read and an invalidation. A recall applies the owned dirty
words at the home and clears the words' owner fields; a forwarded read sends the value of each owned word to the request; the
last acknowledgement ends a write. -/
def Obligations.SnoopSteps : Prop :=
  (∀ (s : State) (m : Snoop), s.snoopAt (s.op 0) = some m → coreAnswers s m.dest = true →
    dataComing s m.dest m.line = false →
    let e := s.l1 m.dest m.line
    let mine := m.words &&& e.om
    let left := bitsTo16 (fun w => m.words.getLsbD w && !mine.getLsbD w && (pendingWb s m.dest m.line w).isSome)
    let sent := (wordsOf mine).map (fun w => (w, lineWord e.data w, (e.po ||| m.po).getLsbD w))
    let inLine := fun b => 64 * m.line ≤ b ∧ b < 64 * m.line + 64
    let evicts := ∃ q ∈ s.coh.reqs, q.r.id = m.req ∧ q.r.kind = .evict
    (m.kind = .recall → ∃ t, exec .recall s = .next t ∧ t.l1 m.dest m.line = (e.giveUp mine).norm ∧
      (∀ b, ¬ inLine b → getByte t.mem b = getByte s.mem b) ∧
      (∀ k, k < 64 → getByte t.mem (64 * m.line + k) =
        if (mine &&& e.dm).getLsbD (k / 4) then e.data.extractLsb' (8 * k) 8 else getByte s.mem (64 * m.line + k)) ∧
      (∀ w, mine.getLsbD w = true → (t.dirOf m.line).owner w = none) ∧
      (¬ evicts → (t.dirOf m.line).sharers = (s.dirOf m.line).sharers ∧
        ∀ w, mine.getLsbD w = false → (t.dirOf m.line).owner w = (s.dirOf m.line).owner w) ∧
      (left = 0 → t.coh.snoops = dropAt s.coh.snoops (s.op 0))) ∧
    (m.kind = .fwdRd → ¬ evicts → ∃ t, exec .fwdRd s = .next t ∧ t.l1 m.dest m.line = e ∧ t.coh.dir = s.coh.dir ∧
      t.coh.reqs = s.coh.reqs.map (fun q =>
        if q.r.id = m.req then { q with got := sent.foldl (fun g p => smSet g p.1 p.2) q.got } else q) ∧
      (∀ b, getByte t.mem b = getByte s.mem b) ∧ (left = 0 → t.coh.snoops = dropAt s.coh.snoops (s.op 0)))) ∧
  (∀ (s : State) (m : Snoop), s.snoopAt (s.op 0) = some m → coreAnswers s (4 * m.dest) = true → m.kind = .inv → m.dest < 48 →
    m.line < 2 ^ 60 → (∀ c, c / 4 = m.dest → some c ≠ m.skip → dataComing s c m.line = false) →
    ∃ t, exec .invalidation s = .next t ∧ (∃ a : Ack, t.coh.acks = s.coh.acks ++ [a] ∧ a.req = m.req ∧
      a.src = m.dest / 12 ∧ a.dst = homeDie m.line ∧ a.route = routeOf s (m.dest / 12) (homeDie m.line) ∧
      a.inc = (s.die (m.dest / 12)).inc) ∧
    t.coh.snoops = dropAt s.coh.snoops (s.op 0) ∧
    (∀ c, c / 4 = m.dest → some c ≠ m.skip → t.l1 c m.line = ((s.l1 c m.line).dropS).norm) ∧
    ∀ c, (c / 4 ≠ m.dest ∨ some c = m.skip) → t.l1 c m.line = s.l1 c m.line) ∧
  (∀ (s : State) (a : Ack) (q : ReqX), s.ackAt (s.op 0) = some a →
    s.coh.reqs.find? (fun q => decide (q.r.id = a.req)) = some q → q.applied = true → q.r.kind ≠ .atomic → q.r.kind ≠ .evict →
    msgsOut { s with coh.acks := dropAt s.coh.acks (s.op 0) } a.req = false → ∃ t, exec .invalidationAck s = .next t ∧
      t.coh.replies = s.coh.replies ++ [{ kind := .done, r := q.r, freed := q.acked, inc := (s.die (homeDie q.r.line)).inc,
                                          route := routeOf s (homeDie q.r.line) (coreDie q.r.core) }] ∧
      t.coh.reqs = s.coh.reqs.filter (fun p => decide (p.r.id ≠ a.req)))

/-! ### Atomics, barriers and fences -/

/-- R263, Table 9-2: the new value of each atomic operation on patterns of n bits, n 32 or 64, and what it gives back; ACAS
writes where the comparison holds, ALD never. ATOM.fadd gives back a NaN in its canonical pattern. -/
def Obligations.AtomicOperations : Prop :=
  ∀ (n old v v2 : Nat), n = 32 ∨ n = 64 → old < 2 ^ n → v < 2 ^ n → v2 < 2 ^ n →
    let i := fun k => (BitVec.ofNat n k).toInt
    let f : Fmt := if n = 64 then .f64 else .f32
    let most := fun (u v : FV) => if u.isNan then v else if v.isNan then u else if u.below v then v else u
    atomOp 0 n old v v2 = some ((BitVec.ofInt n (i old + i v)).toNat) ∧
    atomOp 1 n old v v2 = some (if i v < i old then v else old) ∧ atomOp 2 n old v v2 = some (min old v) ∧
    atomOp 3 n old v v2 = some (if i old < i v then v else old) ∧ atomOp 4 n old v v2 = some (max old v) ∧
    atomOp 5 n old v v2 = some (old &&& v) ∧ atomOp 6 n old v v2 = some (old ||| v) ∧
    atomOp 7 n old v v2 = some (old ^^^ v) ∧ atomOp 8 n old v v2 = some v ∧
    atomOp 9 n old v v2 = (if old = v then some v2 else none) ∧
    atomOp 10 n old v v2 = some (enc f (round f 0 (sumV 0 [val f old, val f v]))) ∧
    atomOp 11 n old v v2 = some (enc f (most (val f old).abs (val f v).abs)) ∧ atomOp 12 n old v v2 = some 0 ∧
    atomOp 13 n old v v2 = none ∧ atomOp 14 n old v v2 = some v ∧
    ∀ k, atomOld k n old = if k = 10 ∧ val f old = .nan then enc f .nan else old

/-- R258, R260, R264, R266: an atomic in a Pound or a Basin is performed as it issues. With one active lane and a 32-bit
word: the word at the lane's address takes the operation's value, the lane's v[d] takes what the word held, and no
other byte changes.
R259, R260, R266: an atomic in the global segment goes to the homes of its lines, one request for each, as an
outstanding instruction; with no lane it is complete. The model's choices here: notes/assumptions/48, 49. -/
def Obligations.AtomicWords : Prop :=
  (∀ (s : State) (x : Cx) (c : Bool) (o : Fin 4) (sc : Fin 32) (d a : Fin 64) (g : Fin 4) (w : Fin 2) (j pa : Nat) (m : BitVec 192),
    ∀ p ∈ atomForms, Issues s x (p.2 c o sc d a g w) → g.val ≠ 0 → x.scopeSet s sc = some m →
    ((p.1 = 10 ∨ p.1 = 11) → g.val = 3) →
    (o.val < 2 ∨ p.1 = 13 ∨ release s x.cur.gang x.core x.dom x.cur.grp (wideSet m x.core) = .ok) →
    let n := if w.val = 1 then 64 else 32
    let rs := atomChecks s x p.1 g a (n / 8)
    let ls := atLanes x p.1 d (decide (w.val = 1)) (passed s x g rs)
    (∀ r ∈ rs, (∃ q, r.2.2 = .ok q) ∧ reachAway s x.core x.crew g r.2.1 = false) →
    (∀ l ∈ ls, scoreHit s l.pa (n / 8) = false) →
    (∃ t, exec (p.2 c o sc d a g w) s = .next t ∧ t.mem = (atomLanes s p.1 n ls).s.mem ∧
      ∀ k, k ≠ x.cur.gang → t.gang k = s.gang k) ∧
    (w.val = 0 → x.lanes = [j] → checkAddr s x g j (laneOff x g a 0 j) 4 .atomic 1 = .ok pa → isPoison s.poison pa = false →
      ∃ t h, exec (p.2 c o sc d a g w) s = .next t ∧ t.gang x.cur.gang = some h ∧
      (∀ r l, l < 32 → h.r.rdV r l = if r = d.val ∧ l = j ∧ p.1 ≠ 14
        then BitVec.ofNat 32 (atomOld p.1 32 (getWord s.mem pa).toNat) else x.gang.r.rdV r l) ∧
      (∀ b, b < pa ∨ pa + 4 ≤ b → getByte t.mem b = getByte s.mem b) ∧
      getWord t.mem pa = (match atomOp p.1 32 (getWord s.mem pa).toNat (x.v d j).toNat
        (if p.1 = 9 then (x.v (d.val + 1) j).toNat else 0) with
        | some v => BitVec.ofNat 32 v
        | none => getWord s.mem pa))) ∧
  (∀ (s : State) (x : Cx) (c : Bool) (o : Fin 4) (sc : Fin 32) (d a : Fin 64) (w : Fin 2) (m : BitVec 192),
    ∀ p ∈ atomForms, Issues s x (p.2 c o sc d a 0 w) → x.scopeSet s sc = some m →
    (o.val < 2 ∨ p.1 = 13 ∨ release s x.cur.gang x.core x.dom x.cur.grp (wideSet m x.core) = .ok) →
    let big := decide (w.val = 1)
    let n := if w.val = 1 then 64 else 32
    let rs := atomChecks s x p.1 0 a (n / 8)
    let cs := passed s x 0 rs
    let u := fillTlbs s x 0 cs
    let ls := atLanes x p.1 d big cs
    let words := ls.flatMap (fun l => atomWords n l.pa)
    (∀ r ∈ rs, ∃ q, r.2.2 = .ok q) →
    (∀ b ∈ words, mustWait u x (lineOf b) (wordBit (wordIx b)) true false true = false ∧
      (u.l1 x.core (lineOf b)).loose (wordIx b) = false) →
    let lines := (ls.map (fun l => lineOf l.pa)).dedup
    (ls = [] → Does s x (p.2 c o sc d a 0 w)
      (if o.val % 2 = 1 ∧ p.1 ≠ 14 then acquire u x.core (wideSet m x.core) else u)) ∧
    (ls ≠ [] → Does s x (p.2 c o sc d a 0 w) ((lines.map (atomReq x p.1 big u.work.next ls)).foldl post (openOut u x
      { kind := .atomic, gang := x.cur.gang, grp := x.cur.grp, pc := x.cur.pc, npc := x.cur.last + 1, left := lines.length,
        dstV := if p.1 = 14 then [] else if w.val = 1 then [d.val, d.val + 1] else [d.val],
        acq := if o.val % 2 = 1 ∧ p.1 ≠ 14 then some (wideSet m x.core) else none } 15))))

/-- R258, R260, R264, R267: a home performs an atomic of one 32-bit lane on its storage and answers with what the word held. The model's choices here: notes/assumptions/49. -/
def Obligations.AtomicAtHome : Prop :=
  ∀ (s : State) (q : ReqX) (l : AtLane), takeReq s (s.op 0) .atomic = some q → refusal s q = none → q.begun = false →
    firstMsgs s q = [] → (s.dirOf q.r.line).sharers = 0 → q.wide = false → q.ats = [l] → isPoison s.poison l.pa = false →
    q.op ≤ 14 → q.op ≠ 14 →
    ∃ t r, exec .atomicAtHome s = .next t ∧ t.coh.replies = s.coh.replies ++ [r] ∧
      r.res = [(l.dst, BitVec.ofNat 64 (atomOld q.op 32 (getWord s.mem l.pa).toNat))] ∧ r.bad = none ∧
      t.coh.reqs = s.coh.reqs.filter (fun p => decide (p.r.id ≠ q.r.id)) ∧
      (∀ b, b < l.pa ∨ l.pa + 4 ≤ b → getByte t.mem b = getByte s.mem b) ∧
      getWord t.mem l.pa = (match atomOp q.op 32 (getWord s.mem l.pa).toNat l.v.toNat l.v2.toNat with
        | some v => BitVec.ofNat 32 v
        | none => getWord s.mem l.pa)

/-- R270: the phase test that follows every change to a barrier register.
R271 to R273, R285 to R290: the barrier register words. BARD binds the gang's unbound copies, those of its own chain left
out, to the barrier; BWAIT goes on when the phase has left the token that it read at its issue. -/
def Obligations.BarrierRegisterWords : Prop :=
  (∀ (v : Barrier),
    (v.i = true → v.p = false → v.arr = 0 → v.dp = 0 → v.txb = 0 →
      v.tryComplete = { v with ph := v.ph + 1, arr := v.exp, xa := false, td := false }) ∧
    (¬ (v.i = true ∧ v.p = false ∧ v.arr = 0 ∧ v.dp = 0 ∧ v.txb = 0) → v.tryComplete = v)) ∧
  (∀ (s : State) (x : Cx) (c : Bool) (b : Fin 16) (r : Fin 64),
    let v := (s.ceng x.crewNo).bar b
    let n := (grpSlices x.cur.grp).length
    let rel := release s x.cur.gang x.core x.dom x.cur.grp false = .ok
    let w := x.s r
    let free := smGet 0 (s.ceng x.crewNo).unbound (ubKey x.gang.ix b)
    let chained := chainBound s x b
    (Issues s x (.binit c b r) → w.toNat % 4096 ≠ 0 → (w.getLsbD 12 = true → w.getLsbD 13 = true) → ∃ t,
      exec (.binit c b r) s = .next t ∧ (t.ceng x.crewNo).bar b =
        { i := true, t := w.getLsbD 12, bc := w.getLsbD 13, arr := w.toNat % 4096, exp := w.toNat % 4096, ph := v.ph } ∧
      (∀ k, k ≠ b.val → (t.ceng x.crewNo).bar k = (s.ceng x.crewNo).bar k) ∧
      (∀ p ∈ (t.ceng x.crewNo).binds, p.bar ≠ b.val)) ∧
    (Issues s x (.barr c b) → rel → v.i = true → v.p = false → n ≤ v.room →
      Does s x (.barr c b) (s.modBar x.crewNo b (fun v => { v with arr := v.arr - n }))) ∧
    (Issues s x (.bard c b) → rel → v.i = true → v.p = false → n ≤ v.room →
      bindsOf s x.crewNo x.gang.ix b < 4 →
      (free ≤ chained → Does s x (.bard c b) (s.fresh.modBar x.crewNo b (fun v => { v with arr := v.arr - n }))) ∧
      (chained < free → ∃ t, Does s x (.bard c b) t ∧ t.mem = s.mem ∧
        (t.ceng x.crewNo).bar b = ({ v with arr := v.arr - n, dp := v.dp + n } : Barrier).tryComplete ∧
        smGet 0 (t.ceng x.crewNo).unbound (ubKey x.gang.ix b) = chained ∧
        (t.ceng x.crewNo).binds = (s.ceng x.crewNo).binds ++
          [{ gang := x.gang.ix, bar := b, copies := free - chained, arrivals := n, num := s.work.next + 1 }] ∧
        t.eng.copies = s.eng.copies.map (fun p =>
          if x.newer p.1 then p else boundCopy x.cur.gang b (s.work.next + 1) p))) ∧
    (Issues s x (.bexp c b r) → v.i = true → v.bc = true → v.p = false → v.txb + w.toNat ≤ 8388607 →
      Does s x (.bexp c b r) (s.modBar x.crewNo b (fun v =>
        { v with txb := v.txb + w.toNat, xa := v.xa || (v.t && !v.td) }.unitArrives))) ∧
    (Issues s x (.bwait c b r) → x.cur.retry = false → v.i = true → v.p = false → v.ce = 0 → v.ph ≠ w.extractLsb' 0 8 →
      Does s x (.bwait c b r) (s.putS x r ((v.ph - w.extractLsb' 0 8).zeroExtend 32))) ∧
    (Issues s x (.bwait c b r) → x.cur.retry = false → v.i = true → v.p = false → v.ce = 0 → v.ph = w.extractLsb' 0 8 →
      Waits s x (.bwait c b r) (waitOn (keepArgs s x [(w.extractLsb' 0 8).toNat]) x b)) ∧
    (∀ tok, Issues s x (.bwait c b r) → x.cur.retry = true → x.held = [tok] → v.i = true → v.p = false → v.ce = 0 →
      (∀ k ∈ grpSlices x.cur.grp, ((x.gang.slice k).block.any (fun w => w.burst)) = false) → v.ph ≠ BitVec.ofNat 8 tok →
      Does s x (.bwait c b r) (s.putS x r ((v.ph - BitVec.ofNat 8 tok).zeroExtend 32))) ∧
    ResS s x (.btest c b r) r v.testWord)

/-- R271, R272, R274, R285 to R289: where a barrier register word traps, with the barrier's number as detail; an error that the
barrier has recorded is delivered by BWAIT and cleared.
R300, R305 to R310: where a queue word traps.
R413 to R415, R426: STQ, where it does not trap, tests its lanes' samples against the four vertices of a record in the Pound; R421: a bucket word
without a bucket traps, and a pending bucket error is delivered first and cleared. -/
def Obligations.UnitTraps : Prop :=
  (∀ (s : State) (x : Cx) (c : Bool) (b : Fin 16) (r : Fin 64),
    let v := (s.ceng x.crewNo).bar b
    let n := (grpSlices x.cur.grp).length
    let rel := release s x.cur.gang x.core x.dom x.cur.grp false = .ok
    let t := fun (k : Cause) => ({ cause := k, lanes := grpLanes x.cur.grp, detail := BitVec.ofNat 32 b } : TrapReq)
    (Issues s x (.binit c b r) → ((x.s r).toNat % 4096 = 0 ∨ (x.s r).getLsbD 12 = true ∧ (x.s r).getLsbD 13 = false) →
      Traps s x (.binit c b r) s (t .barUninit)) ∧
    (∀ i, i = .barr c b ∨ i = .bard c b → Issues s x i → rel →
      (v.i = false → Traps s x i s (t .barUninit)) ∧ (v.i = true → v.p = true → Traps s x i s (t .barPoisoned)) ∧
      (v.i = true → v.p = false → v.room < n → Traps s x i s (t .barArrOverrun))) ∧
    (Issues s x (.bexp c b r) → v.i = true → v.bc = true → v.p = false → 8388607 < v.txb + (x.s r).toNat →
      Traps s x (.bexp c b r) s (t .barTxOverrun)) ∧
    (Issues s x (.bexp c b r) → (v.i = false ∨ v.bc = false) → Traps s x (.bexp c b r) s (t .barUninit)) ∧
    (Issues s x (.bexp c b r) → v.i = true → v.bc = true → v.p = true → Traps s x (.bexp c b r) s (t .barPoisoned)) ∧
    (Issues s x (.bwait c b r) → x.cur.retry = false → v.i = false → Traps s x (.bwait c b r) s (t .barUninit)) ∧
    (Issues s x (.bwait c b r) → x.cur.retry = false → v.i = true → v.p = true →
      Traps s x (.bwait c b r) s (t .barPoisoned)) ∧
    (Issues s x (.bwait c b r) → x.cur.retry = true → v.p = true → Traps s x (.bwait c b r) s (t .barTxOverrun)) ∧
    (∀ k, Issues s x (.bwait c b r) → x.cur.retry = false → v.i = true → v.p = false → v.ce ≠ 0 →
      causeOf v.ce.toNat = some k → Traps s x (.bwait c b r)
        (s.modCeng x.crewNo (fun e => e.setBar b { v with ce := 0, info := 0, addr := 0 }))
        { cause := k, lanes := grpLanes x.cur.grp, addr := v.addr, detail := v.info, kind := .async })) ∧
  (∀ (s : State) (x : Cx) (c : Bool) (q : Fin 16) (a b : Fin 64),
    let e := s.ceng x.crewNo
    let v := e.que q
    let lim := (x.src.r.rdSeg 1).limit.toNat
    let off := (x.s a).toNat
    let cfg := (x.s b).toNat
    let rel := x.cur.retry = false → release s x.cur.gang x.core x.dom x.cur.grp false = .ok
    let t := fun (k : Cause) (n : Nat) => ({ cause := k, lanes := grpLanes x.cur.grp, detail := BitVec.ofNat 32 n } : TrapReq)
    let at_ := fun (k : Cause) => ({ cause := k, lanes := grpLanes x.cur.grp, detail := 1, addr := (x.s a).zeroExtend 64 } : TrapReq)
    (Issues s x (.qinit c q a b) →
      (off % 4 ≠ 0 → Traps s x (.qinit c q a b) s (at_ .misalign)) ∧
      (off % 4 = 0 → cfg < 2 ^ 31 → cfg % 4096 = 0 → Traps s x (.qinit c q a b) s (t .qUninit q)) ∧
      (off % 4 = 0 → cfg < 2 ^ 31 → cfg % 4096 ≠ 0 → lim < off + 4 * (cfg % 4096) →
        Traps s x (.qinit c q a b) s (at_ .segLimit)) ∧
      (off % 4 = 0 → 2 ^ 31 ≤ cfg → (256 < cfg % 512 ∨ e.lentPool ≠ []) → Traps s x (.qinit c q a b) s (t .qUninit 0)) ∧
      (off % 4 = 0 → 2 ^ 31 ≤ cfg → cfg % 512 ≤ 256 → e.lentPool = [] → lim < off + 4 * (cfg % 512) →
        Traps s x (.qinit c q a b) s (at_ .segLimit))) ∧
    (∀ i ∈ [Instr.qpush c q a, .qpop c q a, .qtry c q a b, .qalw c q a b], Issues s x i →
      (i = .qpush c q a → rel) → v.i = false → Traps s x i s (t .qUninit q)) ∧
    (∀ i, (i = .qpop c q a ∧ x.held = []) ∨ (i = .qtry c q a b ∧ cfg % 2 = 0) ∨ i = .qalw c q a b → Issues s x i →
      v.i = true → v.own ≠ x.gang.ix → Traps s x i s (t .qOwner q)) ∧
    (Issues s x (.qalw c q a b) → v.i = true → v.own = x.gang.ix → (v.allowance (cfg % 64) : Int) + (x.s a).toInt < 0 →
      Traps s x (.qalw c q a b) s (t .qAllowNeg q))) ∧
  ((∀ (s : State) (x : Cx) (c : Bool) (d a b : Fin 64) (l : Fin 16), Issues s x (.stq c d a b l) →
    stqBad s x a (x.s b) ≠ 0 → Traps s x (.stq c d a b l) s { cause := .gxStqArg, lanes := stqBad s x a (x.s b) }) ∧
  (∀ (s : State) (x : Cx) (c : Bool) (d a b : Fin 64) (l : Fin 16), Issues s x (.stq c d a b l) → stqBad s x a (x.s b) = 0 →
    let pa := poundAddr x.core ((segOf s x.dom x.hnd x.src.r 1).base.toNat + (x.s b).toNat)
    scoreHit s pa 112 = false → (∀ k, k < 28 → isPoison s.poison (pa + 4 * k) = false) →
    DoesV s x (.stq c d a b l) (fun r i => if i ∈ x.lanes then
      (if r = d.val then some (stqLane (getWords s.mem pa 28) (laneSmp x a i)).1
       else if r = d.val + 1 then some (stqLane (getWords s.mem pa 28) (laneSmp x a i)).2 else none) else none)) ∧
  (∀ (s : State) (x : Cx) (c : Bool) (a : Fin 64) (i : Instr), i = .bkdone c a ∨ i = .bkspl c a → Issues s x i →
    x.cur.retry = false →
    ((s.ceng x.crewNo).bkt.err = none → (s.ceng x.crewNo).bkt.cur = none → Traps s x i s
      { cause := .gxNobucket, lanes := grpLanes x.cur.grp }) ∧
    (∀ e, (s.ceng x.crewNo).bkt.err = some e → Traps s x i
      (s.modCeng x.crewNo (fun v => { v with bkt := { v.bkt with err := none } }))
      { cause := e.cause, lanes := grpLanes x.cur.grp, addr := e.addr, detail := e.info, kind := .async })))

/-- R277 to R281, R283, R285 to R290: a memory form sends its request to the barrier unit and waits, keeping the operands it
read, and goes on with the answer. The model's choices here: notes/assumptions/50, 51, 52. -/
def Obligations.BarrierMemoryWords : Prop :=
  ∀ (s : State) (x : Cx) (c : Bool) (sc : Fin 32) (b r : Fin 64) (pa k : Nat) (p : Reply) (m : BitVec 192),
    let ws := (List.range 8).foldl (fun (m : BitVec 16) k => m ||| wordBit (wordIx pa + k)) 0
    let goes := mustWait s x (lineOf pa) ws true false true = false ∧
      (∀ a, a = pa ∨ a = pa + 16 → (s.l1 x.core (lineOf a)).looseWords &&& secBits (wordIx a / 4) = 0) ∧
      objCheck s x (x.s2 b) = .ok pa
    let sends := fun (i : Instr) (l : List Nat) => Issues s x i → x.cur.retry = false → goes →
      Waits s x i (keepArgs (barReq s x (x.s2 b) pa l) x ((x.s2 b).toNat :: l))
    let ends := fun (i : Instr) (e : State) => Issues s x i → x.cur.retry = true → myBarReply s x = some (k, p) →
      s.arriving k = some p → p.kind = .data → p.bad = none → Does s x i e
    let ex := (x.s r).toNat % 4096
    let got := { s with coh.replies := dropAt s.coh.replies k }
    let v := (p.res.map (fun q => loW q.2)).headD 0
    (x.scopeSet s sc = some m → ex ≠ 0 → sends (.binitMem c sc b r) [0, ex, sc, m.toNat, x.cur.grp.toNat] ∧
      ends (.binitMem c sc b r) got) ∧
    (release s x.cur.gang x.core x.dom x.cur.grp (objWide s x b) = .ok →
      sends (.barrMem c b) [1, (grpSlices x.cur.grp).length, 0, 0, x.cur.grp.toNat]) ∧ ends (.barrMem c b) got ∧
    sends (.bwaitMem c b r) [2, (x.s r).toNat % 256, 0, 0, x.cur.grp.toNat] ∧
    ends (.bwaitMem c b r) (acquire (got.putS x r v) x.core p.wide) ∧
    sends (.btestMem c b r) [3, 0, 0, 0, x.cur.grp.toNat] ∧ ends (.btestMem c b r) (got.putS x r v)

/-- R277, R278, R281, R286: arrivals at a memory barrier object: ARR falls, and where it reaches 0 the phase goes on, ARR is EXP again
and every wait on the object is woken; an object that a fence has broken, and that nothing has written since, takes its B bit first and
refuses the arrival; a wait that found the registrations full is repeated after 256 clocks. The model's choices here: notes/assumptions/50, 53, 181. -/
def Obligations.BarrierUnitSteps : Prop :=
  (∀ (s : State) (q : ReqX) (k : Nat) (rest : List Nat), takeReq s (s.op 0) .barrier = some q → refusal s q = none →
    q.begun = false → firstMsgs s q = [] → (s.dirOf q.r.line).sharers = 0 → q.bar = 1 :: k :: rest →
    let pa := objAddr q
    let o := objOf (getWords s.mem pa 8)
    (∀ j, j < 8 → isPoison s.poison (pa + 4 * j) = false) → o.i = true →
    (∀ ws, smFind s.coh.breaks pa = some ws → getWords s.mem pa 8 = ws → ∃ t p, exec .barrierUnit s = .next t ∧
      smFind t.coh.breaks pa = none ∧ getWord t.mem (pa + 4) = getWord s.mem (pa + 4) ||| ((1 : Word) <<< 29) ∧
      (∀ a, a < pa + 4 ∨ pa + 8 ≤ a → getByte t.mem a = getByte s.mem a) ∧ t.coh.replies = s.coh.replies ++ [p] ∧
      p.bad.map (fun e => e.cause) = some .barBroken) ∧
    (smFind s.coh.breaks pa = none → o.b = false → k ≤ o.arr → ∃ t,
      exec .barrierUnit s = .next t ∧ (∀ a, a < pa ∨ pa + 4 ≤ a → getByte t.mem a = getByte s.mem a) ∧
      getWord t.mem pa = (if o.arr = k then objLo o.exp o.exp (o.ph + 1) else objLo (o.arr - k) o.exp o.ph) ∧
      t.coh.replies.length = s.coh.replies.length + 1 ∧
      (o.arr = k → ∀ w ∈ t.coh.waits, w.pa = pa → w.woken = true))) ∧
  (∀ (s : State) (w : BarWait), s.coh.waits[s.op 0]? = some w → w.repeats = true → 256 ≤ clocksSince s w.at_ →
    exec .barrierWaitRetry s = .next { s with coh.waits := putAt s.coh.waits (s.op 0) { w with woken := true } })

/-- R217, R241, R248, R253 to R256, R518: fences, cache maintenance and the scoreboard wait; one that waits keeps the set and
the bytes that it read at its issue. The model's choices here: notes/assumptions/45. -/
def Obligations.FenceAndMaintenanceWords : Prop :=
  ∀ (s : State) (x : Cx) (c : Bool) (k : Fin 16) (sc : Fin 32) (a b : Fin 64) (l : Fin 2) (m : BitVec 192)
    (r : Option (List (Nat × Nat))),
    let wide := wideSet m x.core
    let all := decide (l.val = 1)
    let cs := (coresOf m).filter (fun c => !coreFenced s c)
    (Issues s x (.fence c k sc) → heldSet s x sc = some m → noOuts x.gang x.cur.grp = true →
      (k.val / 2 % 2 = 1 → release s x.cur.gang x.core x.dom x.cur.grp (wide || decide (k.val = 7)) = .ok) →
      Does s x (.fence c k sc) (if k.val % 2 = 1 ∧ wide = true then acquireWide s x.core else s)) ∧
    (Issues s x (.fence c k sc) → heldSet s x sc = some m → noOuts x.gang x.cur.grp = false →
      Waits s x (.fence c k sc) (keepArgs s x [m.toNat])) ∧
    (∀ i, i = Instr.fence c k sc → x.held = [] → heldSet s x sc = x.scopeSet s sc) ∧
    (Issues s x (.fence c k sc) → heldSet s x sc = none → Traps s x (.fence c k sc) s
      { cause := .fenceScope, lanes := grpLanes x.cur.grp, detail := BitVec.ofNat 32 sc }) ∧
    (Issues s x (.cinv c sc a b l) → x.cur.retry = false → rangeCheck s x sc a b all = .ok (m, r) →
      flushBad (cs.foldl (invL1 r) s) m r false = none → Does s x (.cinv c sc a b l) (cs.foldl (invL1 r) s)) ∧
    (Issues s x (.cflush c sc a b l) → x.cur.retry = false → rangeCheck s x sc a b all = .ok (m, r) →
      let t := cs.foldl (flushL1 r x.cur.gang x.dom) s
      (flushBusy t m r = true → Waits s x (.cflush c sc a b l) (keepArgs t x (packRange m r))) ∧
      (flushBusy t m r = false → flushBad t m r true = none → Does s x (.cflush c sc a b l) t)) ∧
    (Issues s x (.cflush c sc a b l) → x.held = packRange m r →
      flushBusy s m r = false → flushBad s m r true = none → Does s x (.cflush c sc a b l) s) ∧
    (Issues s x (.scbwait c a b l) → x.cur.retry = false →
      let g := x.src.r.rdSeg 1
      let lo := if all then x.crew.pbase else g.base.toNat + (x.s a).toNat
      let n := if all then poundBytes x.crew.kw x.crew.rw else (x.s b).toNat
      (all = true ∨ (x.s a).toNat + (x.s b).toNat ≤ g.limit.toNat) →
      let but := chainCopies s x
      (scoreMeets s x.core lo (lo + n) but = false → Does s x (.scbwait c a b l) s) ∧
      (n ≠ 0 → scoreMeets s x.core lo (lo + n) but = true →
        Waits s x (.scbwait c a b l) (keepArgs s x (lo :: (lo + n) :: but)))) ∧
    (∀ lo hi but, Issues s x (.scbwait c a b l) → x.held = lo :: hi :: but → scoreMeets s x.core lo hi but = false →
      Does s x (.scbwait c a b l) s)

/-! ### Pound queues and sluices -/

/-- R294, R295, R300 to R302, R306 to R310: the queue controller and the queue words. A queue holds its handles in its ring and
then in lent slots of the pool; a pop takes the oldest and moves the oldest lent handle into the ring. A word that
changes a queue goes on with the operations that wait on the crew's queues (`serveQueues`), where there are any; one that
cannot take place waits in line. The model's choices here: notes/assumptions/54, 55. -/
def Obligations.QueueWords : Prop :=
  (∀ (s : State) (cr core q p : Nat) (h : Word) (cpe : Bool),
    let e := s.ceng cr
    let v := e.que q
    let at_ := fun k => crewWord s cr core k
    let t := pushHandle s cr core q p h cpe
    let w := (t.ceng cr).que q
    let puts := fun (t : State) (a : Nat) (h : Word) => getWord t.mem a = h ∧
      ∀ b, (b < a ∨ a + 4 ≤ b) → getByte t.mem b = getByte s.mem b
    (canPush s cr q p = true → w.cnt = v.cnt + 1 ∧ w.byCpe = v.byCpe ++ [cpe] ∧
      (∀ k, w.allowance k = if k = p then v.allowance p - 1 else v.allowance k) ∧
      (v.cnt < v.cap → w.lent = v.lent ∧ puts t (at_ (v.rb + (v.hd + v.cnt) % v.cap)) h) ∧
      (∀ j, ¬ v.cnt < v.cap → poolSlot e v = some j → w.lent = v.lent ++ [j] ∧ puts t (at_ (e.pb + j)) h)) ∧
    (v.cnt ≠ 0 → let t := popHandle s cr core q
      let w := (t.ceng cr).que q
      w.cnt = v.cnt - 1 ∧ w.hd = (v.hd + 1) % v.cap ∧ w.lent = v.lent.tail ∧ (v.lent = [] → t.mem = s.mem) ∧
      ∀ j js, v.lent = j :: js → puts t (at_ (v.rb + v.hd)) (getWord s.mem (at_ (e.pb + j)))) ∧
    ((∀ p ∈ e.qs, p.2.pushW = [] ∧ p.2.popW = []) → serveQueues s cr core = s)) ∧
  (∀ (s : State) (x : Cx) (c : Bool) (q : Fin 16) (a b : Fin 64),
    let e := s.ceng x.crewNo
    let v := e.que q
    let lim := (x.src.r.rdSeg 1).limit.toNat
    let off := (x.s a).toNat
    let cfg := x.s b
    let served := fun t => serveQueues t x.crewNo x.core
    let pushed := pushHandle s x.crewNo x.core q x.producer (x.s a) false
    let rel := release s x.cur.gang x.core x.dom x.cur.grp false = .ok
    (Issues s x (.qinit c q a b) → off % 4 = 0 → cfg.getLsbD 31 = false → cfg.toNat % 4096 ≠ 0 →
      off + 4 * (cfg.toNat % 4096) ≤ lim → ∃ u, Does s x (.qinit c q a b) (served u) ∧ u.mem = s.mem ∧
        (∀ k, k ≠ q.val → (u.ceng x.crewNo).que k = e.que k) ∧ ∃ w, (u.ceng x.crewNo).que q = w ∧ w.i = true ∧
        w.own = x.gang.ix ∧ w.rb = off / 4 ∧ w.cap = cfg.toNat % 4096 ∧ w.hd = 0 ∧ w.cnt = 0 ∧ w.lent = [] ∧
        ∀ p, w.allowance p = 0) ∧
    (Issues s x (.qinit c q a b) → off % 4 = 0 → cfg.getLsbD 31 = true → cfg.toNat % 512 ≤ 256 → e.lentPool = [] →
      off + 4 * (cfg.toNat % 512) ≤ lim → ∃ u, Does s x (.qinit c q a b) (served u) ∧ u.mem = s.mem ∧
        (u.ceng x.crewNo).pb = off / 4 ∧ (u.ceng x.crewNo).spn = cfg.toNat % 512 ∧
        ∀ k, (u.ceng x.crewNo).que k = e.que k) ∧
    (Issues s x (.qpush c q a) → v.i = true → (x.cur.retry = false → rel) →
      (canPush s x.crewNo q x.producer = true → Does s x (.qpush c q a) (served (leavePush pushed x.crewNo q x.waiter))) ∧
      (canPush s x.crewNo q x.producer = false → Waits s x (.qpush c q a)
        (keepArgs (s.modQue x.crewNo q (fun v => { v with pushW := addWaiter v.pushW x.waiter })) x [a.val]))) ∧
    (Issues s x (.qpop c q a) → v.i = true → (x.held = [] → v.own = x.gang.ix) →
      (v.cnt ≠ 0 → Does s x (.qpop c q a) (served (leavePop (takeHead q a s x) x.crewNo q x.waiter))) ∧
      (v.cnt = 0 → Waits s x (.qpop c q a)
        (keepArgs (s.modQue x.crewNo q (fun v => { v with popW := addWaiter v.popW x.waiter })) x [a.val]))) ∧
    (v.cnt ≠ 0 → s.gang x.cur.gang = some x.gang → let t := takeHead q a s x
      t.mem = (popHandle s x.crewNo x.core q).mem ∧ (t.ceng x.crewNo).que q = ((popHandle s x.crewNo x.core q).ceng x.crewNo).que q ∧
      ∃ g, t.gang x.cur.gang = some g ∧ g.r = x.gang.r.wrS x.hnd a (getWord s.mem (crewWord s x.crewNo x.core (v.rb + v.hd)))) ∧
    (Issues s x (.qtry c q a b) → v.i = true → cfg.getLsbD 0 = false → v.own = x.gang.ix →
      (v.cnt ≠ 0 → Does s x (.qtry c q a b) (served ((takeHead q a s x).putS x b 0))) ∧
      (v.cnt = 0 → DoesS s x (.qtry c q a b) (oneS b 1))) ∧
    (Issues s x (.qtry c q a b) → v.i = true → cfg.getLsbD 0 = true →
      (v.allowance x.producer = 0 → DoesS s x (.qtry c q a b) (oneS b 2)) ∧
      (v.allowance x.producer ≠ 0 → queRoom e v = false → DoesS s x (.qtry c q a b) (oneS b 1)) ∧
      (canPush s x.crewNo q x.producer = true → rel → Does s x (.qtry c q a b) (served (pushed.putS x b 0)))) ∧
    (Issues s x (.qalw c q a b) → v.i = true → v.own = x.gang.ix →
      0 ≤ (v.allowance (cfg.toNat % 64) : Int) + (x.s a).toInt → ∃ u, Does s x (.qalw c q a b) (served u) ∧ u.mem = s.mem ∧
        ∀ p, ((u.ceng x.crewNo).que q).allowance p = if p = cfg.toNat % 64
          then min ((v.allowance p : Int) + (x.s a).toInt).toNat 4095 else v.allowance p))

/-- R316, R317, R319, R325 to R330: the sluice words. SLE enters once every key it names has been granted; SLX releases the newest
level; SLINIT and SLCLOSE go on with their homes' answers. The checks at issue: a full hold stack, a key out of order, a gap
in a batch's sequences, a key not held, a scope that does not exist. A batch that fails at its home raises its cause in the
waiting word, and the batches granted stand. The model's choices here: notes/assumptions/56, 58, 153, 156, 168, 169, 171. -/
def Obligations.SluiceWords : Prop :=
  ∀ (s : State) (x : Cx) (c : Bool) (sc : Fin 32) (a b : Fin 64) (p : Fin 2) (m : BitVec 192),
    let wide := wideSet m x.core
    let mine := s.eng.slreqs.filter (mySl x)
    let granted := ∀ r ∈ mine, r.granted = true ∧ r.fail = none
    let ls := slLanes x a b
    let full := ls.filter (fun l => decide (2 ≤ (x.src.slice (l.lane / 4)).hold.length))
    let low := ls.filter (fun l => (firstHeld (x.src.slice (l.lane / 4)) l.lane).any (fun k => decide (l.key ≤ k)))
    let gap := ls.filter (fun l => !runsOk (batchOf ls l.key))
    let worst := ls.find? (fun l => full.contains l || low.contains l)
    let empty := (grpSlices x.cur.grp).filter (fun k => (x.src.slice k).hold.isEmpty)
    let other := (grpSlices x.cur.grp).flatMap (fun k => (((x.src.slice k).hold.head?.map (fun h => h.pairs k)).getD []).filter
      (fun p => decide (p.2 ≠ x.v a p.1)))
    let noScope : TrapReq := { cause := .fenceScope, lanes := grpLanes x.cur.grp, detail := BitVec.ofNat 32 sc }
    let one := fun (k : SlKind) (skip : Bool) (l : SlLane) =>
      ({ kind := k, dom := x.dom, key := l.key, first := l.seq, n := 1, gang := x.cur.gang, pc := x.cur.pc, grp := x.cur.grp,
         lanes := maskOfLanes [l], skip := skip } : SlReq)
    let each := fun (k : SlKind) (skip : Bool) => ({ s with eng.slreqs := s.eng.slreqs ++ (slLanes x a b).map (fun l =>
      SlReq.sent s x.core (one k skip l)) } : State)
    (Issues s x (.sle c sc a b) → x.cur.retry = true → granted →
      Does s x (.sle c sc a b) (acquire (pushLevel (dropMine s x) x mine) x.core
        (wideSet ((mine.map (fun r => r.scope)).headD 0) x.core))) ∧
    (Issues s x (.sle c sc a b) → x.scopeSet s sc = some m → x.cur.retry = false → slxPending s x = false →
      x.lanes = [] → Does s x (.sle c sc a b) (acquire s x.core wide)) ∧
    (Issues s x (.sle c sc a b) → x.scopeSet s sc = some m → x.cur.retry = false → slxPending s x = false →
      (∀ l ∈ slLanes x a b, (x.src.slice (l.lane / 4)).hold.length < 2 ∧ runsOk (batchOf (slLanes x a b) l.key) = true ∧
        ∀ k, firstHeld (x.src.slice (l.lane / 4)) l.lane = some k → k < l.key) → x.lanes ≠ [] →
      Waits s x (.sle c sc a b)
        { s with eng.slreqs := s.eng.slreqs ++ (sleReqs x m (slLanes x a b)).map (SlReq.sent s x.core) }) ∧
    (Issues s x (.sle c sc a b) → x.cur.retry = false → x.scopeSet s sc = none → Traps s x (.sle c sc a b) s noScope) ∧
    (Issues s x (.slx c sc a) → x.scopeSet s sc = none → Traps s x (.slx c sc a) s noScope) ∧
    (Issues s x (.sle c sc a b) → x.scopeSet s sc = some m → x.cur.retry = false → slxPending s x = false →
      (∀ l, worst = some l → (∃ k ∈ full, k.lane / 4 = l.lane / 4) → Traps s x (.sle c sc a b) s
        { cause := .slHoldOvf, lanes := maskOfLanes full, detail := (full.map (fun k => k.key)).headD 0 }) ∧
      (∀ l, worst = some l → (∀ k ∈ full, k.lane / 4 ≠ l.lane / 4) → Traps s x (.sle c sc a b) s
        { cause := .slOrder, lanes := maskOfLanes low, detail := (low.map (fun k => k.key)).headD 0 }) ∧
      (worst = none → gap ≠ [] → Traps s x (.sle c sc a b) s
        { cause := .slGap, lanes := maskOfLanes gap, detail := (gap.map (fun k => k.key)).headD 0 })) ∧
    (Issues s x (.slx c sc a) → x.scopeSet s sc = some m → release s x.cur.gang x.core x.dom x.cur.grp wide = .ok →
      (∀ k ks, empty = k :: ks → Traps s x (.slx c sc a) s
        { cause := .slNotheld, lanes := grpLanes (sliceMask empty), detail := x.v a (4 * k) }) ∧
      (∀ p ps, empty = [] → other = p :: ps → Traps s x (.slx c sc a) s
        { cause := .slNotheld, lanes := lanesOf (other.map (fun p => p.1)), detail := x.v a p.1 })) ∧
    (∀ r k, Issues s x (.sle c sc a b) → x.cur.retry = true → r ∈ mine → r.fail = some k → (∀ q ∈ mine, q ≠ r → q.fail = none) →
      k ≠ .homeFenced → k ≠ .incarnation → k ≠ .fabUncorr → let got := mine.filter (fun q => q.granted)
      Traps s x (.sle c sc a b) (if got = [] then dropMine s x else acquire (pushLevel (dropMine s x) x got) x.core
        (wideSet ((got.map (fun q => q.scope)).headD 0) x.core)) { cause := k, lanes := r.lanes, detail := r.key }) ∧
    (Issues s x (.slx c sc a) → x.scopeSet s sc = some m →
      release s x.cur.gang x.core x.dom x.cur.grp wide = .ok →
      (∀ k ∈ grpSlices x.cur.grp, ∃ h hs, (x.src.slice k).hold = h :: hs ∧ ∀ l w, (l, w) ∈ h.pairs k → x.v a l = w) →
      Does s x (.slx c sc a) { s.modSl x (fun _ sl => { sl with hold := sl.hold.tail }) with
        eng.slrels := s.eng.slrels ++ slxRels x }) ∧
    (∀ i k, (i = .slinit c a b p ∧ k = .init) ∨ (i = .slclose c a b ∧ k = .close) → Issues s x i →
      (x.cur.retry = true → granted → Does s x i (dropMine s x)) ∧
      (x.cur.retry = false → slxPending s x = false → x.lanes = [] → Does s x i s) ∧
      (x.cur.retry = false → slxPending s x = false → x.lanes ≠ [] →
        Waits s x i (each k (decide (k = .init) && decide (p.val = 1))))) ∧
    (Issues s x (.slq c a b) → (∀ l ∈ x.lanes, keyFenced s x.dom 0 (x.v a l) = false) → DoesV s x (.slq c a b)
      (fun r l => if l ∈ x.lanes then (if r = b.val + 1 then some (slFlags s (slNum x.dom 0 (x.v a l)))
        else if r = b.val then some (s.slKey (slNum x.dom 0 (x.v a l))).ne else none) else none)) ∧
    (Issues s x (.slq c a b) → let bad := x.lanes.filter (fun l => keyFenced s x.dom 0 (x.v a l))
      ∀ l ls, bad = l :: ls → Traps s x (.slq c a b) s
        { cause := .homeFenced, lanes := lanesOf bad, detail := BitVec.ofNat 32 (keyDie x.dom 0 (x.v a l)) })

/-- R314, R315, R317, R320 to R322: a sluice home registers a request, refuses one sent to an earlier incarnation of its die, grants the one whose sequence has come, counts releases and
fails a request that waits too long. `ix` is the place of a key's entry in the overflow table, 0 in the home's own table. The model's choices here: notes/assumptions/57, 60, 154, 155, 161. -/
def Obligations.SluiceHomeSteps : Prop :=
  ∀ (s : State) (r : SlReq) (l : SlRel) (v : SlKey) (p : Nat × SlKey),
    let k := s.op 0
    let here := fun (t : State) => t.eng.slreqs[k]?
    let next := fun (i : Instr) (q : State → Prop) => ∃ t, exec i s = .next t ∧ q t
    let fenced := keyFenced s r.dom r.ns r.key
    let inc := (s.die (numSlice r.num / 24)).inc
    (s.eng.slreqs[k]? = some r → r.registered = false → r.fail = none → r.granted = false → fenced = false →
      r.route ≠ [] → inc ≠ r.tinc → next .sluiceRequest (fun t => here t = some { r with fail := some .incarnation })) ∧
    (s.eng.slreqs[k]? = some r → r.registered = false → r.fail = none → r.granted = false → fenced = false →
      (r.route = [] ∨ inc = r.tinc) → buffered s (numSlice r.num) + r.n ≤ 512 →
      next .sluiceRequest (fun t => here t = some { r with registered := true }) ∧
      (r.at_ ≠ 0 → 256 ≤ clocksSince s r.at_ → next .sluiceBufferRetry (fun t => here t = some { r with registered := true }))) ∧
    (s.eng.slreqs[k]? = some r → r.registered = false → r.fail = none → r.granted = false → fenced = false →
      (r.route = [] ∨ inc = r.tinc) → 512 < buffered s (numSlice r.num) + r.n → next .sluiceRequest (fun t => here t = some { r with at_ := s.time })) ∧
    (s.eng.slreqs[k]? = some r → r.waits = true → r.mark = false → fenced = false → r.kind = .enter →
      smFind s.eng.keys r.num = some v →
      (v.brk = false → v.hld = false → v.ne = r.first → next .sluiceGrant (fun t =>
        here t = some { r with granted := true } ∧
        t.slKey r.num = { v with hld := true, hn := r.n, rln := 0, holders := [r.gang], used := s.ticks,
                                 ix := if v.ovf then v.ix else 0 })) ∧
      (v.brk = false → passedSeq v.ne r.first = true → next .sluiceGrant (fun t =>
        here t = some { r with fail := some .slStale })) ∧
      (v.brk = true → next .sluiceGrant (fun t => here t = some { r with fail := some .slBroken }))) ∧
    (s.eng.slreqs[k]? = some r → r.waits = true → r.mark = false → slStuck s r = true →
      (s.domain r.dom).set_.slTimeout < r.timer →
      next .slTimeout (fun t => here t = some { r with fail := some .slTimeout })) ∧
    (s.eng.slrels[k]? = some l → l.kept = false → keyFenced s l.dom l.ns l.key = false →
      s.slKey (slNum l.dom l.ns l.key) = v → v.hld = true → l.kill = false →
      (v.rln + l.n < v.hn → next .sluiceRelease (fun t => t.eng.slrels = dropAt s.eng.slrels k ∧
        t.slKey (slNum l.dom l.ns l.key) = { v with rln := v.rln + l.n, ix := if v.ovf then v.ix else 0 })) ∧
      (v.hn ≤ v.rln + l.n → v.clp = false → (∀ q ∈ s.eng.slreqs, q.mark = false) →
        next .sluiceRelease (fun t => t.eng.slrels = dropAt s.eng.slrels k ∧ t.slKey (slNum l.dom l.ns l.key) =
          { v with hld := false, rln := 0, ne := v.ne + BitVec.ofNat 32 v.hn, hn := 0, holders := [],
                   ix := if v.ovf then v.ix else 0 }))) ∧
    (s.eng.slrels[k]? = some l → l.kept = false → keyFenced s l.dom l.ns l.key = true →
      next .sluiceRelease (fun t => t.eng.slrels[k]? = some { l with kept := true })) ∧
    (s.eng.slrels[k]? = some l → l.kept = true → keyFenced s l.dom l.ns l.key = false →
      next .releaseResend (fun t => t.eng.slrels[k]? = some { l with kept := false })) ∧
    (s.eng.keys[k]? = some p → { p.2 with used := 0, ovf := false, ix := 0 } = ({} : SlKey) →
      next .sluiceEntryFree (fun t => smFind t.eng.keys p.1 = none))

/-! ### Copies and the matrix engine -/

/-- R332, R336, R341, R345, R346, R350, R353, R358: a copy word that passes its checks forks one copy, counted against its
barrier, whose destination lines gather its parts; CPX puts it into the gang's follow-on latch, CPM records the
multicast mask, CPE what it will enqueue. The checks at issue, in their order: the pair of spaces, the size, a tile's descriptors,
the multicast mask, each lane's addresses, the enqueue, its translations. The model's choices here: notes/assumptions/43, 61, 62, 172, 173. -/
def Obligations.CopyWords : Prop :=
  ∀ (s : State) (x : Cx) (c : Bool) (z : Fin 4) (z8 : Fin 8) (sp d : Fin 8) (a b : Fin 64) (r : Fin 16)
    (e : Word × Nat × Nat × Nat),
    let parts := fun (n : Nat) => if n = 0 then tileParts s x sp d (tileD x a) (tileD x b) else laneParts s x n sp d a b
    let ok := fun (n flg : Nat) => spacesBad sp d flg = false ∧
      (n = 0 → tileChecks s x sp d (tileD x a) (tileD x b) = none) ∧ (n ≠ 0 → copyLaneChecks s x n sp d a b = none) ∧
      wordAway s x (decide (n = 0)) sp d a b (tileD x a) (tileD x b) = false ∧
      ∀ q ∈ cpRanges d (parts n), scoreUsed s q.1 < 32
    let forks := fun (i : Instr) (n flg : Nat) (q : State → CopyX → Prop) => ∃ t p, exec i s = .next t ∧
      smFind t.eng.copies s.work.next = some p ∧ t.work.next = s.work.next + 1 ∧ t.mem = s.mem ∧ t.poison = s.poison ∧
      (∀ k, k ≠ s.work.next → smFind t.eng.copies k = smFind s.eng.copies k) ∧
      smGet 0 (t.ceng x.crewNo).unbound (ubKey x.gang.ix r) = smGet 0 (s.ceng x.crewNo).unbound (ubKey x.gang.ix r) + 1 ∧
      p.c.flg = flg ∧ p.c.sps = sp.val ∧ p.c.spd = d.val ∧ p.c.bar = r.val ∧ p.c.gang = x.cur.gang ∧
      p.c.tile = decide (n = 0) ∧ p.c.lines = partLines (parts n) ∧ p.c.fail = none ∧ p.landed = 0 ∧
      p.total = 4 * (dstWords (parts n)).length ∧ q t p
    let n := cpBytes z.val
    let m := cpBytes z8.val
    let forms : List (Instr × Nat × Nat) := [(.cp c z sp d a b r, n, 0), (.cpt c sp d a b r, 0, 0), (.cpx c z8 sp d a b r, m, 1),
      (.cpm c z sp d a b r, n, 2), (.cpe c z8 sp d a b r, m, 3)]
    (∀ w ∈ forms, Issues s x w.1 → let n := w.2.1
      let flg := w.2.2
      let traps := fun (k : Cause) => Traps s x w.1 s { cause := k, lanes := grpLanes x.cur.grp }
      let tiled := if n = 0 then tileChecks s x sp d (tileD x a) (tileD x b) else none
      let laned := if n = 0 then none else copyLaneChecks s x n sp d a b
      let ps := if n = 0 then (parts n).map (fun p => (0, p)) else x.lanes.zip (parts n)
      (spacesBad sp d flg = true → traps .cpSpaces) ∧
      (spacesBad sp d flg = false → (flg = 2 → n = 0 → traps .cpSize) ∧ ((flg = 2 → n ≠ 0) →
        (∀ q, tiled = some q → Traps s x w.1 s q) ∧ (tiled = none →
          (flg = 2 → maskBad x (x.s2 60) = true → traps .cpMcast) ∧ ((flg = 2 → maskBad x (x.s2 60) = false) →
            (∀ q, laned = some q → Traps s x w.1 s q) ∧ (laned = none → flg = 3 → (enqBad x = true → traps .cpEnq) ∧
              ∀ q, enqBad x = false → partTrap x (decide (n = 0)) (partChecks s x sp d ps) = some q → Traps s x w.1 s q)))))) ∧
    (Issues s x (.cp c z sp d a b r) → ok n 0 → forks (.cp c z sp d a b r) n 0 (fun _ p => p.enq = none)) ∧
    (Issues s x (.cpt c sp d a b r) → ok 0 0 → forks (.cpt c sp d a b r) 0 0 (fun _ p => p.enq = none)) ∧
    (Issues s x (.cpx c z8 sp d a b r) → ok m 1 → x.gang.latch.copies.length < 8 → forks (.cpx c z8 sp d a b r) m 1
      (fun t _ => ∃ g, t.gang x.cur.gang = some g ∧ g.latch.armed = true ∧
        g.latch.copies = x.gang.latch.copies ++ [s.work.next])) ∧
    (Issues s x (.cpm c z sp d a b r) → ok n 2 → n ≠ 0 → maskBad x (x.s2 60) = false →
      forks (.cpm c z sp d a b r) n 2 (fun _ p => p.mask = (x.s2 60).toNat)) ∧
    (Issues s x (.cpe c z8 sp d a b r) → ok m 3 → enqBad x = false → enqTarget s x = some e →
      partTrap x (decide (m = 0)) (partChecks s x sp d (if m = 0 then (parts m).map (fun p => (0, p))
        else x.lanes.zip (parts m))) = none →
      forks (.cpe c z8 sp d a b r) m 3 (fun _ p => p.enq = some e ∧ p.enqDone = false))

/-- R342 to R344, R347, R348, R351, R352, R490: the steps of a copy: its requests to other dies are sent, a line lands, the copy
completes, a multicast line is asked for, sent and forgotten, and a landed copy enqueues its handle, or is refused. The model's choices here: notes/assumptions/63, 64, 66. -/
def Obligations.CopySteps : Prop :=
  (∀ (s : State) (p : CopyX) (ps : List CpPart), smFind s.eng.copies (s.op 0) = some p → p.c.lines[s.op 1]? = some ps →
    let k := s.op 0
    let now := toRead p.c ps
    let ls := now.flatMap (fun b => blockLine s p.c p.c.sps b .read) ++ blockLine s p.c p.c.spd ((ps.headD {}).dst / 64) .write
    (unsent s k p.c.core ls ≠ [] →
      exec .copyLineLand s = .next (sendPkts s k p.c.core (unsent s k p.c.core ls))) ∧
    (unsent s k p.c.core ls = [] → (∀ l ∈ ls, ∀ q, pktOf s k l = some q → q.lost = false) →
    ¬ (p.c.flg = 2 ∧ (p.c.need ≠ [] ∨ inMerge s k = true)) →
    copyBefore s k p.c ((sharers s k p.c (s.op 1) ps).flatMap (fun i => p.c.lines.getD i [])) = false →
    (∀ b ∈ now, blockReady s k p.c p.c.sps b .read = true) →
    blockReady s k p.c p.c.spd ((ps.headD {}).dst / 64) .write = true →
    (let r := readBlocks s k { p.c with need := p.c.need.filter (fun b => !now.contains b) } p.c.lines.flatten now
     let is := if (srcBlocks ps).any (fun b => (smFind r.2.bad b).isSome) then [s.op 1] else sharers r.1 k r.2 (s.op 1) ps
     exec .copyLineLand s =
       .next (dropPkts (landLine r.1 k p r.2 is (byLane (is.flatMap (fun i => p.c.lines.getD i [])))) k ls)) ∧
    (∀ q, ps = [q] → p.c.tile = true → q.n = 16 → q.lane < 32 → q.src / 64 ∈ p.c.need → p.c.bad = [] → (p.c.sps = 1 ∨ p.c.sps = 2 ∨ p.c.sps = 3) →
      (p.c.spd = 1 ∨ p.c.spd = 2 ∨ p.c.spd = 3) → ∃ t, exec .copyLineLand s = .next t ∧
      (∀ j, j < 4 → getWord t.mem (q.dst + 4 * j) = getWord s.mem (q.src + 4 * j)) ∧
      ∀ a, a < q.dst ∨ q.dst + 16 ≤ a → getByte t.mem a = getByte s.mem a))) ∧
  (∀ (s : State) (p : CopyX), smFind s.eng.copies (s.op 0) = some p → p.c.lines = [] →
    (p.enq = none ∨ p.enqDone = true) → forkPending s (s.op 0) p.c.gang p.c.core = false → ∃ t, exec .copyComplete s = .next t ∧ smFind t.eng.copies (s.op 0) = none ∧
    ∀ k, k ≠ s.op 0 → smFind t.eng.copies k = smFind s.eng.copies k) ∧
  (∀ (s : State) (p : CopyX) (b : Nat), smFind s.eng.copies (s.op 0) = some p → p.c.flg = 2 → p.c.need[s.op 1]? = some b →
    blockReady s (s.op 0) p.c p.c.sps b .read = true → let ls := blockLine s p.c p.c.sps b .read
    unsent s (s.op 0) p.c.core ls = [] → (∀ l ∈ ls, ∀ q, pktOf s (s.op 0) l = some q → q.lost = false) →
    ∃ t q, exec .cpmLineRequest s = .next t ∧
    smFind t.eng.copies (s.op 0) = some q ∧ q.c.need = dropAt p.c.need (s.op 1) ∧ q.c.lines = p.c.lines) ∧
  (∀ (s : State) (m : MergeEnt), s.eng.merges[s.op 0]? = some m →
    (m.sent = false → lineBusy s m.line = false → (s.domain m.dom).set_.window ≤ clocksSince s m.at_ →
      exec .mergeWindow s = .next (putMerge (sendMerge s m).1 (s.op 0) (sendMerge s m).2)) ∧
    (m.sent = true → 4096 ≤ clocksSince s m.at_ →
      exec .mergeEntryFree s = .next { s with eng.merges := dropAt s.eng.merges (s.op 0) })) ∧
  (∀ (s : State) (p : CopyX) (h : Word) (cr q pr core : Nat) (w : Crew), smFind s.eng.copies (s.op 0) = some p →
    p.enq = some (h, cr, q, pr) → p.c.lines = [] → p.enqDone = false →
    (∀ e, p.c.fail = some e → exec .cpeEnqueue s = .next (s.modCopy (s.op 0) (refuseEnq e.cause.code))) ∧
    (p.c.fail = none → s.crew cr = some w → w.place = .on core →
      bgRelease s (s.op 0) p.c.gang p.c.core p.c.dom = .done true →
      exec .cpeEnqueue s = .next (s.modCopy (s.op 0) (refuseEnq Cause.homeFenced.code))) ∧
    (p.c.fail = none → s.crew cr = some w → w.place = .on core →
      bgRelease s (s.op 0) p.c.gang p.c.core p.c.dom = .done false →
      ((s.ceng cr).que q).i = true → canPush s cr q pr = true →
      ∃ t o, exec .cpeEnqueue s = .next (serveQueues t cr core) ∧ t = enqueueNow s (s.op 0) cr core q pr h ∧
        smFind t.eng.copies (s.op 0) = some o ∧ o.enqDone = true ∧
        ((t.ceng cr).que q).cnt = ((s.ceng cr).que q).cnt + 1 ∧
        ((t.ceng cr).que q).allowance pr = ((s.ceng cr).que q).allowance pr - 1 ∧
        ((t.ceng cr).que q).byCpe = ((s.ceng cr).que q).byCpe ++ [true]))

/-- R169, R187, R188, R190 to R196, R353: the matrix words. A request whose checks pass is posted as an outstanding instruction,
or captured where the gang's latch is armed, with the copies in the latch but those of its own chain; MFMT sets a format slot; MRQ and MQRY read. -/
def Obligations.MatrixWords : Prop :=
  ∀ (s : State) (x : Cx) (c : Bool) (k : Fin 8) (a b : Fin 64) (f l : Fin 16) (z : Fin 2),
    let four := x.s4 a
    let two := [x.s b, x.s (b.val + 1)]
    let forms : List (Instr × MxKind × Bool × List Word × List Word) :=
      [(.mma c k a b f l z, .mma, decide (z.val = 1), four, two), (.mmz c k f l, .mmz, false, [], []),
       (.mdr c k a b f l z, .mdr, decide (z.val = 1), four, two), (.mld c k a f l, .mld, false, four, [])]
    (∀ w ∈ forms, ∀ q, Issues s x w.1 → x.gang.mxerr = none → mxChecks s x w.2.1 k f w.2.2.2.1 w.2.2.2.2 = some q →
      Traps s x w.1 s q) ∧
    (∀ w ∈ forms, Issues s x w.1 → x.gang.mxerr = none → mxChecks s x w.2.1 k f w.2.2.2.1 w.2.2.2.2 = none →
      (x.src.latch.armed = false → postCount s x.core (x.gang.slot / 4) < 4 → ∃ t p o, exec w.1 s = .next t ∧
        smFind t.eng.mx s.work.next = some p ∧ p.q.kind = w.2.1 ∧ p.q.gang = x.cur.gang ∧ p.q.tile = k.val ∧
        p.q.a = w.2.2.2.1 ∧ p.q.b = w.2.2.2.2 ∧ p.q.z = w.2.2.1 ∧ p.q.st = .post ∧
        p.q.fd = (smFind (s.ceng x.crewNo).fds f).getD 0 ∧ p.q.out = s.work.next + 1 ∧
        smFind t.work.outs (s.work.next + 1) = some o ∧ o.kind = .matrix ∧ t.mem = s.mem ∧ t.work.engs = s.work.engs) ∧
      (x.src.latch.armed = true → followCount s x.core < 16 →
        let new := x.gang.latch.copies.filter x.newer
        ∃ t p g, exec w.1 s = .next t ∧
        smFind t.eng.mx s.work.next = some p ∧ p.q.kind = w.2.1 ∧ p.q.st = .follow ∧
        p.q.copies = x.gang.latch.copies.filter (fun k => !x.newer k) ∧
        p.q.dropped = x.gang.latch.failed ∧ t.gang x.cur.gang = some g ∧
        g.latch = { armed := !new.isEmpty, copies := new } ∧ t.mem = s.mem ∧
        t.work.engs = s.work.engs)) ∧
    (Issues s x (.mfmt c a f l) → x.gang.mxerr = none → fdOk (x.s2 a) = true → Does s x (.mfmt c a f l)
      (s.modCeng x.crewNo (fun e => { e with fds := smSet e.fds f.val (x.s2 a) }))) ∧
    (Issues s x (.mfmt c a f l) → x.gang.mxerr = none → fdOk (x.s2 a) = false →
      Traps s x (.mfmt c a f l) s { cause := .mxFmt, lanes := grpLanes x.cur.grp, detail := BitVec.ofNat 32 (16 * f.val) }) ∧
    (Issues s x (.mrq c k a l z) → x.gang.mxerr = none → k.val < rwNt x.crew.rw →
      (s.eng.mx.all (fun e => decide (e.2.q.tile ≠ k.val) ||
        !(if z.val = 1 then decide (e.2.q.crew = x.crewNo) else decide (e.2.q.gang = x.cur.gang)))) = true →
      DoesS s x (.mrq c k a l z) (oneS a 0)) ∧
    (Issues s x (.mrq c k a l z) → x.gang.mxerr = none → k.val < rwNt x.crew.rw → z.val = 0 →
      (∃ e ∈ s.eng.mx, e.2.q.tile = k.val ∧ e.2.q.gang = x.cur.gang) → ∃ t o, exec (.mrq c k a l z) s = .next t ∧
      smFind t.work.outs s.work.next = some o ∧ o.kind = .mrq ∧ o.dstS = [a.val] ∧
      o.left = (s.eng.mx.filter (fun e => decide (e.2.q.tile = k.val) && decide (e.2.q.gang = x.cur.gang))).length) ∧
    (Issues s x (.mqry c a l) → x.gang.mxerr = none → DoesS s x (.mqry c a l) (oneS a (BitVec.ofNat 32
      (rwNt x.crew.rw * 2 ^ 24 + (s.ceng x.crewNo).tileP.toNat % 2 ^ rwNt x.crew.rw * 2 ^ 16 +
        mxOfGang s x.cur.gang * 2 ^ 12 + min 4 (postCount s x.core (x.gang.slot / 4)) * 2 ^ 9 +
        (16 - (mxIn s x.core MxReqX.inTable).length))))) ∧
    (∀ i e, i ∈ forms.map (fun w => w.1) ++ [.mfmt c a f l, .mrq c k a l z, .mqry c a l] → Issues s x i →
      x.gang.mxerr = some e → Traps s x i (s.modGang x.cur.gang (fun g => { g with mxerr := none }))
        { cause := e.cause, lanes := grpLanes x.cur.grp, addr := e.addr, detail := e.info, kind := .async })

/-- R174 to R177, R179, R181 to R183, R186, R188, R191, R354, R355: the steps of the matrix engine: acceptance, a pass, the tile path,
the age rule, the timeout, the end of a request, a captured request posted or dropped. The model's choices here: notes/assumptions/67, 69, 70, 144, 145, 146, 166. -/
def Obligations.MatrixSteps : Prop :=
  (∀ (s : State) (k : Nat) (p : MxReqX), (mxIn s (s.op 0) MxReqX.inTable).length < 16 → followReady s (s.op 0) = false →
    postHead s (s.op 0) ((smGet 3 s.eng.mxLast (s.op 0) + 1) % 4) = some (k, p) → mxOfGang s p.q.gang < 8 →
    ∃ t q, exec .reservationAccept s = .next t ∧ smFind t.eng.mx k = some q ∧ q.q = { p.q with st := .table, out := 0 } ∧
      q.since = s.time ∧ smFind t.work.outs p.q.out = none ∧ t.mem = s.mem) ∧
  (∀ (s : State) (k : Nat) (p : MxReqX) (sh : Shape), grantPick s (s.op 0) (fun k => decide (k = .mma)) = some (k, p) →
    (s.ceng p.q.crew).tileP.getLsbD p.q.tile = false → passShape (fdAf p.q.fd) (fdBf p.q.fd) = some sh →
    passPoison s (s.op 0) p.q sh = false → s.op 1 = 0 → ∃ t q, exec .passGrant s = .next t ∧ smFind t.eng.mx k = some q ∧
      q.q.st = .running ∧ q.fail = none ∧ t.mem = s.mem ∧
      (∀ m n, m < 64 → n < 64 → smGet 0 (t.ceng p.q.crew).acc (accKey p.q.tile m n) = passAdd (fdAcc p.q.fd)
        (if p.q.z then 0 else smGet 0 (s.ceng p.q.crew).acc (accKey p.q.tile m n)) (passElem s (s.op 0) p.q sh m n)) ∧
      ∀ j m n, j ≠ p.q.tile → m < 64 → n < 64 →
        smGet 0 (t.ceng p.q.crew).acc (accKey j m n) = smGet 0 (s.ceng p.q.crew).acc (accKey j m n)) ∧
  (∀ (s : State) (k : Nat) (p : MxReqX), tilePathFree s (s.op 0) = true →
    grantPick s (s.op 0) (fun k => decide (k ≠ .mma)) = some (k, p) →
    (p.q.kind = .mmz → ∃ t, exec .tilePathGrant s = .next t ∧ t.mem = s.mem ∧
      (t.ceng p.q.crew).tileP.getLsbD p.q.tile = false ∧
      ∀ m n, m < 64 → n < 64 → smGet 0 (t.ceng p.q.crew).acc (accKey p.q.tile m n) = 0) ∧
    (p.q.kind = .mdr → let ls := (mdLines p.q).flatMap (mdHome s (s.op 0) p.q)
      (unsent s k (s.op 0) ls ≠ [] → exec .tilePathGrant s = .next (sendPkts s k (s.op 0) (unsent s k (s.op 0) ls))) ∧
      (unsent s k (s.op 0) ls = [] → (∀ l ∈ ls, ∀ r, pktOf s k l = some r → r.lost = false) →
        mdReady s (s.op 0) k p.q = true → exec .tilePathGrant s = .next (dropPkts (grantDrain s (s.op 0) k p) k ls))) ∧
    (p.q.kind = .mdr → (s.ceng p.q.crew).tileP.getLsbD p.q.tile = false → mdSp p.q.a = 1 → fdAos p.q.fd = false →
      fdMxs p.q.fd = false → fdAmx p.q.fd = false → ∃ t q, exec .tilePathGrant s = .next t ∧ smFind t.eng.mx k = some q ∧
      q.q.st = .running ∧ q.fail = none ∧ t.work.engs = s.work.engs ∧
      let lo := poundAddr (s.op 0) (crewPb s p.q.crew + mdAddr p.q.a)
      ∀ a, a < lo ∨ lo + 63 * mdStr p.q.a + dfRow (fdDf p.q.fd) ≤ a → getByte t.mem a = getByte s.mem a) ∧
    (p.q.kind = .mld → mdSp p.q.a = 1 → (∀ a, isPoison s.poison a = false) → ∃ t, exec .tilePathGrant s = .next t ∧
      t.mem = s.mem ∧ (t.ceng p.q.crew).tileP.getLsbD p.q.tile = false ∧ ∀ m n, m < 64 → n < 64 →
      smGet 0 (t.ceng p.q.crew).acc (accKey p.q.tile m n) = loadElem p.q.fd (packed (fdDf p.q.fd) (fun i =>
        (readByte s (poundAddr (s.op 0) (crewPb s p.q.crew + (mdAddr p.q.a + m * mdStr p.q.a + i)))).toNat) n))) ∧
  (∀ (s : State) (p : MxReqX), smFind s.eng.mx (s.op 0) = some p →
    (∀ t, p.elig = some t → 4096 ≤ clocksSince s t → ∃ u q, exec .matrixAgeBoost s = .next u ∧
      smFind u.eng.mx (s.op 0) = some q ∧ q.boost = true) ∧
    (∀ w, s.crew p.q.crew = some w → p.q.st = .table → w.core?.isSome = true → p.fail = none →
      (s.domain w.dom).set_.mxTimeout < p.waited + (s.time - p.since) → ∃ t q, exec .mxRsv s = .next t ∧
      smFind t.eng.mx (s.op 0) = some q ∧ q.q = { p.q with st := .running } ∧ q.fail = some (mxErr p.q .mxRsv)) ∧
    (p.q.st = .running → owesAmax p = false → (∀ w core, s.crew p.q.crew = some w → w.holds? = some core →
        forkPending s (s.op 0) p.q.gang core = false) → ∃ t, exec .requestFinish s = .next t ∧ smFind t.eng.mx (s.op 0) = none ∧ t.mem = s.mem ∧
      (∀ e g, p.fail = some e → s.gang p.q.gang = some g → g.mxerr = none → ∃ h, t.gang p.q.gang = some h ∧
        h.mxerr = some e) ∧
      (fdCbe p.q.fd = true → ((s.ceng p.q.crew).bar (fdCb p.q.fd)).i = true →
        ((s.ceng p.q.crew).bar (fdCb p.q.fd)).p = false → 1 < ((s.ceng p.q.crew).bar (fdCb p.q.fd)).arr →
        ((t.ceng p.q.crew).bar (fdCb p.q.fd)).arr = ((s.ceng p.q.crew).bar (fdCb p.q.fd)).arr - 1)) ∧
    (∀ core, p.q.st = .follow → p.q.copies = [] → p.q.dropped = false → mxCore s p.q = some core →
      (mxIn s core MxReqX.inTable).length < 16 → mxOfGang s p.q.gang < 8 → ∃ t q, exec .followOnPost s = .next t ∧
      smFind t.eng.mx (s.op 0) = some q ∧ q.q.st = .table ∧ q.since = s.time) ∧
    (∀ g, p.q.st = .follow → p.q.copies = [] → p.q.dropped = true → s.gang p.q.gang = some g → g.mxerr = none → ∃ t h,
      exec .followOnPost s = .next t ∧ smFind t.eng.mx (s.op 0) = none ∧ t.gang p.q.gang = some h ∧
      h.mxerr = some { cause := .cpFollow, info := BitVec.ofNat 32 p.q.tile }))

/-! ### Buckets, rays and tasks -/

/-- R405, R407 to R410, R422 to R429: the bucket words, of a crew that has a bucket and no pending bucket error. BKDONE and
BKSPL that wait keep the name that they read at their issue. The model's choices here: notes/assumptions/86, 91, 164. -/
def Obligations.BucketWords : Prop :=
  ∀ (s : State) (x : Cx) (c : Bool) (d a m : Fin 64) (l : Fin 16) (b : Nat) (v : Bucket),
    (s.ceng x.crewNo).bkt.cur = some b → s.bkt b = some v → (s.ceng x.crewNo).bkt.err = none →
    let ref := x.s2 a
    let fn := (x.s m).toNat % 32
    let fm := (x.s m).toNat / 256 % 32
    let gk := fun (w : Word) => w.toNat % 65536
    let done := s.modBkt b (fun v => { v with cnt := { v.cnt with done := true } })
    let named := if x.held = [] then x.s a else BitVec.ofNat 32 (x.held.headD 0)
    let held := fun (u : State) (next : Bool) (w : Word) =>
      u.modSl x (fun _ sl => { sl with block := some { sl.block.getD {} with args := [w.toNat], bk := next } })
    (∀ p, Issues s x (.dice c a m) → refBroken v ref = false → ((fn = 0) ↔ (fm = 0)) → fn ≤ 16 → fm ≤ 16 →
      ref.toNat / 2 ^ 62 = 1 → smFind v.slots (ref.toNat % 65536) = some p → Does s x (.dice c a m)
      (forkDicer (s.modBkt b (fun v => freeSlot v (ref.toNat % 65536) p)) x b
        { slot := ref.toNat % 65536, patch := some p.patch, fn := fn, fm := fm })) ∧
    (∀ g, Issues s x (.gsh c d a l) → liveGrid v (x.s a) = some (gk (x.s a), g) → ∃ t h w g', exec (.gsh c d a l) s = .next t ∧
      t.gang x.cur.gang = some h ∧ (∀ p ∈ x.lanes.zipIdx, ∀ j, j < 8 →
        h.r.rdV (d.val + j) p.1 = (vertexRec g (g.cursor + p.2)).getD j 0) ∧
      (∀ r i, i < 32 → (i ∉ x.lanes ∨ r < d.val ∨ d.val + 8 ≤ r) → h.r.rdV r i = x.gang.r.rdV r i) ∧
      t.bkt b = some w ∧ smFind w.grids (gk (x.s a)) = some g' ∧ g'.cursor = min g.verts (g.cursor + x.lanes.length) ∧
      g'.vout = g.vout ∧ t.mem = s.mem) ∧
    (∀ g, Issues s x (.gwb c a m) → liveGrid v (x.s m) = some (gk (x.s m), g) →
      let ls := x.lanes.filter (fun i => !(x.v (a.val + 9) i).getLsbD 15)
      let recs := ls.map (fun i => ((x.v (a.val + 9) i).toNat % 512, (outRec x a i).take 9))
      (∀ i ∈ ls, (x.v (a.val + 9) i).toNat % 512 < g.verts ∧ outBad g.patch (outRec x a i) = false) →
      Does s x (.gwb c a m) { s with gfx.wbs := s.gfx.wbs ++ [{ bucket := b, grid := gk (x.s m), recs := recs }] }) ∧
    (∀ g, Issues s x (.gemit c a) → liveGrid v (x.s a) = some (gk (x.s a), g) → ∃ t w g', exec (.gemit c a) s = .next t ∧
      t.bkt b = some w ∧ w.cnt.nem = v.cnt.nem + 1 ∧ smFind w.grids (gk (x.s a)) = some g' ∧ g'.rank = some v.cnt.nem ∧
      t.gfx.stus = s.gfx.stus ++ [{ bucket := b, grid := gk (x.s a) }] ∧ t.mem = s.mem) ∧
    (Issues s x (.bknext c d l) → (∀ w u, nextItem s b v = some (w, u) →
        Does s x (.bknext c d l) ((s.modBkt b (fun _ => u)).putS2 x d w)) ∧
      (nextItem s b v = none → l.val = 0 → Waits s x (.bknext c d l) (held s true 0)) ∧
      (nextItem s b v = none → l.val ≠ 0 → Does s x (.bknext c d l) (openOut s x
        { kind := .graphics, gang := x.cur.gang, grp := x.cur.grp, pc := x.cur.pc, npc := x.cur.last + 1,
          dstS := [d.val, d.val + 1] } l.val))) ∧
    (∀ i, i = .bkdone c a ∨ i = .bkspl c a → Issues s x i → named ≠ v.name → Traps s x i s
      { cause := .gxNobucket, lanes := grpLanes x.cur.grp }) ∧
    (Issues s x (.bkdone c a) → named = v.name →
      (v.cnt.split = true → Does s x (.bkdone c a) (clearBucket done x.crewNo)) ∧
      (v.cnt.split = false → v.st = .closed → (v.cnt.dead = true ∨ samplesBusy done v x.core x.cur.gang s.work.next = false) →
        Does s x (.bkdone c a) (clearBucket (finishBucket done b v x.core) x.crewNo)) ∧
      (v.cnt.split = false → (v.st ≠ .closed ∨ v.cnt.dead = false ∧ samplesBusy done v x.core x.cur.gang s.work.next = true) →
        Waits s x (.bkdone c a) (held done true named))) ∧
    (Issues s x (.bkspl c a) → named = v.name →
      (v.cnt.split = true → Does s x (.bkspl c a) s) ∧
      (v.cnt.split = false → v.id.bw ≠ 8 → v.cnt.handedGrid = false →
        (dicing s b = false → Does s x (.bkspl c a) (splitBkt s b)) ∧
        (dicing s b = true → Waits s x (.bkspl c a) (held s false named))) ∧
      (v.cnt.split = false → (v.id.bw = 8 ∨ v.cnt.handedGrid = true) → Traps s x (.bkspl c a) s
        { cause := .gxBucketQuota, lanes := grpLanes x.cur.grp }))

/-- R394 to R397, R400, R401, R405, R406, R409, R410, R418: the steps of the micropolygon path. The model's choices here: notes/assumptions/83, 87, 89, 92, 159. -/
def Obligations.GraphicsSteps : Prop :=
  (∀ (s : State) (f : Frame), s.gfx.frames[s.op 0]? = some f →
    (∀ ws, f.desc = none → readDesc s f.dom f.fdAddr = .ok ws → exec .binner s =
      .next { s with gfx.frames := putAt s.gfx.frames (s.op 0) { f with desc := some (descOf ws) } }) ∧
    (∀ d aw w0 ws, f.desc = some d → f.made = none → f.next < (f.record.inl.getD 2 0).toNat →
      let ea := f.record.arg + BitVec.ofNat 64 (8 * f.next)
      let pa : DWord := aw.getD 1 0 ++ aw.getD 0 0
      ea.toNat % 8 = 0 → engWords s f.dom ea 2 = .ok aw → pa.toNat % 32 = 0 → engWords s f.dom pa 1 = .ok w0 →
      engWords s f.dom pa (patchLen (w0.headD 0)) = .ok ws → (Patch.mk ws 0).ok = true →
      exec .binner s = .next (binPatch s (s.op 0) f d { w := ws })) ∧
    (∀ d first v, f.desc = some d → f.made = some first → s.bkt (first + f.placed) = some v →
      f.placed < bktCount d.fw * bktCount d.fh → dqFull s 1 (dqKey (f.placed % 4) f.dom f.que) = false → ∃ t g,
      exec .bucketDistributor s = .next t ∧ t.gfx.frames[s.op 0]? = some g ∧ g.placed = f.placed + 1 ∧
      (t.deque (dqKey (f.placed % 4) f.dom f.que)).length = (s.deque (dqKey (f.placed % 4) f.dom f.que)).length + 1)) ∧
  (∀ (s : State) (e : DqEnt) (b : Nat) (v : Bucket) (r : Except Cause (FrameDesc × List DWord)),
    (looseEnts s (s.op 0) (s.op 1) (s.op 2)).head? = some e → e.bucket = some b → s.bkt b = some v → v.st = .waiting →
    dieWorks s (s.op 0) = true → dieFits s (s.op 0) e = true → storeRoom s (s.op 0) v.quota = true →
    setupCheck s v = some r → exec .bucketSetup s = .next (setup s b (s.op 0) v r)) ∧
  (∀ (s : State) (j : DicerJob) (p : Patch) (v : Bucket), s.gfx.dicers[s.op 0]? = some j → s.bkt j.bucket = some v →
    j.patch = some p → p.ok = true →
    exec .dicerJob s = .next (dicePatch { s with gfx.dicers := dropAt s.gfx.dicers (s.op 0) } j p)) ∧
  (∀ (s : State) (j : WbJob) (v : Bucket) (g : Grid), s.gfx.wbs[s.op 0]? = some j → s.bkt j.bucket = some v →
    smFind v.grids j.grid = some g → ∃ t w h, exec .writeBackJob s = .next t ∧ t.bkt j.bucket = some w ∧
      smFind w.grids j.grid = some h ∧ h.vout = j.recs.foldl (fun m p => smSet m p.1 p.2) g.vout ∧
      t.gfx.wbs = dropAt s.gfx.wbs (s.op 0)) ∧
  (∀ (s : State) (j : StuJob) (v : Bucket) (g : Grid) (key : Word) (r : Nat) (e : SlKey), s.gfx.stus[s.op 0]? = some j →
    s.bkt j.bucket = some v → smFind v.grids j.grid = some g → g.verts ≤ g.vout.length →
    (∀ w ∈ s.gfx.wbs, w.bucket = j.bucket → w.grid ≠ j.grid) → v.keys[j.tiles]? = some key →
    g.rank = some r → keyFenced s v.id.dom 1 key = false → smFind s.eng.keys (slNum v.id.dom 1 key) = some e →
    e.brk = false → e.hld = false → e.ne = BitVec.ofNat 32 r → ∃ t, exec .stuJob s = .next t ∧
      (t.slKey (slNum v.id.dom 1 key)).ne = e.ne + 1 ∧ t.gfx.stus[s.op 0]? = some { j with tiles := j.tiles + 1 } ∧
      t.bkt j.bucket = some (if j.failed || v.cnt.dead then v else sampleTile v g key)) ∧
  (∀ (s : State) (v : Bucket), s.bkt (s.op 0) = some v →
    (∀ p ps, v.st = .resident → v.inP = p :: ps → exec .gridForward s =
      .next (placePatch (s.modBkt (s.op 0) (fun v => { v with inP := ps })) (s.op 0) p)) ∧
    (v.st = .resident → forwarded s (s.op 0) v = true → earlierDone s v = true →
      exec .bucketClose s = .next (s.modBkt (s.op 0) (fun v => { v with st := .closed }))) ∧
    (v.st = .resident → v.cnt.split = false → ownDone s (s.op 0) v = true → earlierDone s v = false →
      fenRoom s v.id.dom v.baseBytes = true →
      earlierReady s v.die v (fun _ u => decide (u.st = .waiting) && !storeRoom s v.die u.quota) = true →
      exec .park s = .next (s.modBkt (s.op 0) (fun v => { v with st := .parked }))) ∧
    (v.st = .parked → earlierDone s v = true → storeRoom s v.die v.quota = true → dieWorks s v.die = true →
      exec .bucketReload s = .next (s.modBkt (s.op 0) (fun v => { v with st := .resident }))))

/-- R432, R435, R439 to R441, R446, R449 to R452: the ray words, where they trap, and the turns of a query. RAYW with queries
that failed takes the cause of the lowest failing lane for every lane that failed so, and frees their slots and those it
collects. The model's choices here: notes/assumptions/94, 95, 96. -/
def Obligations.RayWords : Prop :=
  (∀ (s : State) (x : Cx) (c : Bool) (d a b : Fin 64) (l : Fin 16),
    (∀ ds, Issues s x (.ray c a b) → x.gang.struct = some ds → (x.s b).toNat < 32 →
      (∀ i ∈ x.lanes, smFind s.gfx.rays (rayKey x (x.s b) i) = none) → ∃ t, exec (.ray c a b) s = .next t ∧ t.mem = s.mem ∧
        (∀ i ∈ x.lanes, smFind t.gfx.rays (rayKey x (x.s b) i) =
          some { num := s.work.next, ray := (List.range 11).map (fun k => x.v (a.val + k) i), desc := ds }) ∧
        ∀ k, (∀ i ∈ x.lanes, k ≠ rayKey x (x.s b) i) → smFind t.gfx.rays k = smFind s.gfx.rays k) ∧
    (∀ (R : Nat → RaySlot) (E : Nat → Nat), Issues s x (.rayw c d a l) → (x.s a).toNat < 32 →
      (∀ i ∈ x.lanes, smFind s.gfx.rays (rayKey x (x.s a) i) = some (R i) ∧ (R i).done = some (.fin (E i))) →
      ∃ t h, exec (.rayw c d a l) s = .next t ∧ t.gang x.cur.gang = some h ∧ t.mem = s.mem ∧
        (∀ i ∈ x.lanes, smFind t.gfx.rays (rayKey x (x.s a) i) = none) ∧
        ∀ r i, i < 32 → h.r.rdV r i = if i ∈ x.lanes ∧ d.val ≤ r ∧ r < d.val + 6
          then (rayResult (R i) (E i)).getD (r - d.val) 0 else x.gang.r.rdV r i) ∧
    (∀ pa, Issues s x (.rays c d a l) → (x.s2 a).toNat % 64 = 0 → checkAddr s x 0 0 (x.s2 a) 64 .read 1 = .ok pa →
      let u := fillTlb s x.core x.dom ((segOf s x.dom x.hnd x.src.r 0).base + x.s2 a).toNat
      let as := (List.range 16).map (fun k =>
        ({ pa := pa + 4 * k, va := (segOf s x.dom x.hnd x.src.r 0).base + x.s2 a, dst := 64 + k } : Acc))
      let ws := (List.range 16).map (fun k => lineWord (u.l1 x.core (lineOf (pa + 4 * k))).data (wordIx (pa + 4 * k)))
      (∀ q ∈ as, accWaits u x 1 q = false ∧ accAct u x 1 q = .hit ∧
        (u.l1 x.core (lineOf q.pa)).po.getLsbD (wordIx q.pa) = false) → structOk ws = true →
      Does s x (.rays c d a l) (u.modGang x.cur.gang (fun g =>
        { g with struct := some ws, r := g.r.wrS x.hnd d (ws.getD 2 0) }))) ∧
    (let all := fun (v : Word) => ({ cause := .rySlot, lanes := grpLanes x.cur.grp, detail := v } : TrapReq)
      let at_ := fun (v : Word) i => smFind s.gfx.rays (rayKey x v i)
      let busy := x.lanes.filter (fun i => (at_ (x.s b) i).isSome)
      let free := x.lanes.filter (fun i => (at_ (x.s a) i).isNone)
      (Issues s x (.ray c a b) → x.gang.struct = none → Traps s x (.ray c a b) s (all (x.s b))) ∧
      (∀ ds, Issues s x (.ray c a b) → x.gang.struct = some ds →
        (32 ≤ (x.s b).toNat → Traps s x (.ray c a b) s (all (x.s b))) ∧
        ((x.s b).toNat < 32 → busy ≠ [] → Traps s x (.ray c a b) s (rySlot x (lanesOf busy) (x.s b)))) ∧
      (Issues s x (.rayw c d a l) →
        (32 ≤ (x.s a).toNat → Traps s x (.rayw c d a l) s (all (x.s a))) ∧
        ((x.s a).toNat < 32 → free ≠ [] → Traps s x (.rayw c d a l) s (rySlot x (lanesOf free) (x.s a))) ∧
        (∀ i e fs, (x.s a).toNat < 32 → (∀ j ∈ x.lanes, ∃ r, at_ (x.s a) j = some r ∧ r.done ≠ none) →
          rayFails s x (x.s a) = (i, e) :: fs →
          let mine := ((rayFails s x (x.s a)).filter (fun p => decide (p.2.cause = e.cause))).map (fun p => p.1)
          ∃ u, Traps s x (.rayw c d a l) u { cause := e.cause, lanes := lanesOf mine, addr := e.addr, detail := e.info, kind := .async } ∧
            u.mem = s.mem ∧ ∀ j ∈ x.lanes, smFind u.gfx.rays (rayKey x (x.s a) j) =
              if j ∈ mine ∨ (∀ p ∈ rayFails s x (x.s a), p.1 ≠ j) then none else at_ (x.s a) j)) ∧
      (Issues s x (.rays c d a l) → ((x.s2 a).toNat % 64 ≠ 0 → Traps s x (.rays c d a l) s
          { cause := .atomAlign, lanes := grpLanes x.cur.grp, addr := x.s2 a }) ∧
        (∀ f, (x.s2 a).toNat % 64 = 0 → checkAddr s x 0 0 (x.s2 a) 64 .read 1 = .error f → Traps s x (.rays c d a l) s
          (onceFail x (segOf s x.dom x.hnd x.src.r 0).base (x.s2 a) f))))) ∧
  (∀ (s : State) (r : RaySlot) (g : Gang) (core dom : Nat) (leaving : Bool), smFind s.gfx.rays (s.op 0) = some r →
    gangCore s (s.op 0 / 32) = some (core, dom, leaving) → (leaving = true → r.got ≠ []) →
    s.gang (s.op 0 / 32) = some g → g.liveSlices ≠ [] → r.done = none →
    let read := fun (w : Word) => if w = 0x80000000 then 0 else w
    let next := fun q => exec .query s = .next { s with gfx.rays := smSet s.gfx.rays (s.op 0) q }
    let passes := fun tn => if r.best.isSome then (fv tn).ge (fv r.tcur) else (fv r.tcur).lt (fv tn)
    (r.begun = false → r.invalid = true → next { r with begun := true, done := some (.fin 0) }) ∧
    (r.begun = false → r.invalid = false → refBad r (r.ds 3) = none →
      next { r with begun := true, tcur := read (r.w 7), stack := [(r.ds 3, read (r.w 6))] }) ∧
    (r.begun = true → r.stack = [] → next { r with done := some (.fin (if r.best.isSome then 1 else 0)) }) ∧
    (∀ ref tn rest, r.begun = true → r.stack = (ref, tn) :: rest →
      (passes tn = true → next { r with stack := rest }) ∧
      (passes tn = false → r.steps = r.bud → (r.w 10).getLsbD 0 = false → next { r with done := some (.fin 2) }) ∧
      (passes tn = false → r.steps ≠ r.bud →
        exec .query s = .next (dropRays (rayVisit s (s.op 0) r core dom ref) (s.op 0 / 32)))))

/-- R94, R374, R383, R385 to R389: the task words. TSPAWN forks a spawn, TSUCC decrements its successor object after a release
and spawns the record it names at 0, EXIT ends its slices, TDONE ends every slice of the crew. The model's choices here: notes/assumptions/79. -/
def Obligations.TaskWords : Prop :=
  ∀ (s : State) (x : Cx) (c : Bool) (a b : Fin 64),
    let base := (segOf s x.dom x.hnd x.src.r 0).base
    let va := x.s2 a
    let u := fillTlb s x.core x.dom (base + va).toNat
    (∀ pa, Issues s x (.tspawn c a b) → x.gang.tkerr = none → va.toNat % 64 = 0 →
      checkAddr s x 0 0 va 64 .read 1 = .ok pa → (s.queue x.dom ((x.s b).toNat % 64)).enabled = true → ∃ t,
      exec (.tspawn c a b) s = .next t ∧ t.mem = s.mem ∧ ∃ p, t.sched.spawns = s.sched.spawns ++ [p] ∧
        p.gang = x.cur.gang ∧ p.dom = x.dom ∧ p.que = (x.s b).toNat % 64 ∧ p.addr = pa ∧ p.va = base + va ∧
        p.core = x.core ∧ p.words = none ∧ p.bad = false) ∧
    (∀ pa, Issues s x (.tspawn c a b) → x.gang.tkerr = none → va.toNat % 64 = 0 →
      checkAddr s x 0 0 va 64 .read 1 = .ok pa → (s.queue x.dom ((x.s b).toNat % 64)).enabled = false →
      Traps s x (.tspawn c a b) s
        { cause := .tkDomain, lanes := grpLanes x.cur.grp, detail := BitVec.ofNat 32 ((x.s b).toNat % 64) }) ∧
    (∀ pa n qs ra t, Issues s x (.tsucc c a) → x.gang.tkerr = none → va.toNat % 32 = 0 →
      checkAddr s x 0 0 va 32 .atomic 1 = .ok pa → release u x.cur.gang x.core x.dom x.cur.grp true = .ok →
      engineReady u u.work.next x.cur.gang x.core (lineOf pa) = true →
      succStep (enginePush u x.core (lineOf pa)) x.core pa = .ok (n, qs, ra, t) →
      (n ≠ 1 → Does s x (.tsucc c a) t) ∧
      (∀ ra' t', n = 1 → ra.toNat % 64 = 0 → checkAddr t x 0 0 ra 64 .read 1 = .ok ra' →
        (t.queue x.dom (qs.toNat % 64)).enabled = true →
        succPlace (enginePush t x.core (lineOf ra')) x.dom (qs.toNat % 64) ra'
          ((segOf t x.dom x.hnd x.src.r 0).base + ra) (coreDie x.core) = .ok t' → Does s x (.tsucc c a) t')) ∧
    (∀ i, i = .tspawn c a b ∨ i = .tsucc c a → ∀ e, Issues s x i → x.gang.tkerr = some e →
      Traps s x i (s.modGang x.cur.gang (fun g => { g with tkerr := none }))
        { cause := e.cause, lanes := grpLanes x.cur.grp, addr := e.addr, detail := e.info, kind := .async }) ∧
    (Issues s x (.tspawn c a b) → x.gang.tkerr = none → va.toNat % 64 ≠ 0 → Traps s x (.tspawn c a b) s
      { cause := .atomAlign, lanes := grpLanes x.cur.grp, addr := va }) ∧
    (Issues s x (.tsucc c a) → x.gang.tkerr = none → va.toNat % 32 ≠ 0 → Traps s x (.tsucc c a) s
      { cause := .atomAlign, lanes := grpLanes x.cur.grp, addr := va }) ∧
    (Issues s x .exit → noOuts x.gang x.cur.grp = true → lateOf s x.cur.gang x.cur.grp = none → x.gang.mxerr = none →
      x.gang.tkerr = none → (s.ceng x.crewNo).bkt.err = none → exec .exit s = .next (finish x (.ctl (exitGroup s x))) ∧
      ∃ t g, exec .exit s = .next t ∧ t.gang x.cur.gang = some g ∧ ∀ j ∈ grpSlices x.cur.grp, (g.slice j).live = false) ∧
    (Issues s x .exit → noOuts x.gang x.cur.grp = false →
      (quietSlices x = 0 → Waits s x .exit s) ∧
      (quietSlices x ≠ 0 → lateOf s x.cur.gang x.cur.grp = none →
        exec .exit s = .next (finish x (.ctl (exitSlices (blockGroup s x) x (quietSlices x)))))) ∧
    (Issues s x .tdone → noOuts x.gang x.cur.grp = true → lateOf s x.cur.gang x.cur.grp = none → x.gang.tkerr = none →
      (s.ceng x.crewNo).bkt.err = none → ∃ t w, exec .tdone s = .next t ∧ t.crew x.crewNo = some w ∧
      w.place = .ended (some x.core) ∧ ∀ k g, t.gang k = some g → g.crew = x.crewNo → ∀ j, (g.slice j).live = false)

/-- R366 to R369, R371, R384, R386: the doorbell, the front end, spawn threads, stealing, slot tables, the completion of a task.
A spawn's record is read once its core's earlier accesses allow it, and placed after the release that it makes; a task
completes when its cores' words are at their homes. The model's choices here: notes/assumptions/74, 75, 76, 77, 106, 158, 175. -/
def Obligations.SchedulerSteps : Prop :=
  (∀ (s : State), let v := s.queue (s.op 0) (s.op 1)
    let tail := BitVec.ofNat 32 (s.op 2)
    v.enabled = true → (tail - v.head).toNat ≤ 2 ^ v.k → (v.tail - v.head).toNat ≤ (tail - v.head).toNat → ∃ t,
      exec .doorbell s = .next t ∧ t.queue (s.op 0) (s.op 1) = { v with tail := tail }) ∧
  (∀ (s : State), let v := s.queue (s.op 0) (s.op 1)
    let tail := BitVec.ofNat 32 (s.op 2)
    v.enabled = true → v.stop = false → 2 ^ v.k < (tail - v.head).toNat → ∃ t, exec .doorbell s = .next t ∧
      t.queue (s.op 0) (s.op 1) = { v with stop := true, cause := BitVec.ofNat 7 Cause.tkQueueFull.code }) ∧
  (∀ (s : State) (pa : Nat) (ws : List Word), let d := s.op 0
    let q := s.op 1
    let v := s.queue d q
    v.enabled = true → v.stop = false → v.head ≠ v.tail → binning s d q = false →
    engXl s d (slotVa v v.head) .read = .ok pa → lineBusy s (lineOf pa) = false →
    (∀ k, readRec s pa = .error k → ∃ t, exec .frontEndTake s = .next t ∧
      t.queue d q = { v with stop := true, cause := BitVec.ofNat 7 k.code }) ∧
    (readRec s pa = .ok ws → (∀ k, recBad s d (recOf ws) = some k → ∃ t, exec .frontEndTake s = .next t ∧
        t.queue d q = { v with stop := true, cause := BitVec.ofNat 7 k.code }) ∧
      (recBad s d (recOf ws) = none → (recOf ws).isFrame = false → recFull s d q (recOf ws) 0 = false →
        ∃ t, exec .frontEndTake s = .next t ∧ t.queue d q = { v with head := v.head + 1 } ∧ t.mem = s.mem ∧
        (kwKind (recOf ws).kw ≠ 1 → let k := dqKey (placeDie s d (recOf ws).arg 0) d q
          ∃ e, t.deque k = s.deque k ++ [e] ∧ e.record = recOf ws ∧ e.trec = slotVa v v.head ∧ e.dom = d ∧ e.que = q ∧
            e.ready = s.time ∧ e.core = none ∧ e.bucket = none)))) ∧
  (∀ (s : State) (p : Spawn), s.sched.spawns[s.op 0]? = some p →
    (p.words = none → unsent s p.num p.core [lineOf p.addr] ≠ [] →
      exec .spawn s = .next (sendPkts s p.num p.core (unsent s p.num p.core [lineOf p.addr]))) ∧
    (p.words = none → unsent s p.num p.core [lineOf p.addr] = [] → (∀ r, pktOf s p.num (lineOf p.addr) = some r → r.lost = false) →
      engineReady s p.num p.gang p.core (lineOf p.addr) = true → threadFail s p.num (lineOf p.addr) = none →
      threadPo s p.num (lineOf p.addr) = 0 →
      let u := enginePush s p.core (lineOf p.addr)
      let r := recOf (readWords u p.addr 16)
      let q := { p with words := some (readWords u p.addr 16) }
      recBad u p.dom r = none → recFull u p.dom p.que r (coreDie p.core) = false →
      anyPoison u p.addr 16 = false →
      exec .spawn s = .next (dropPkts { u with sched.spawns := putAt u.sched.spawns (s.op 0) q } p.num [lineOf p.addr])) ∧
    (∀ ws, p.words = some ws → p.bad = false → bgRelease s p.num p.gang p.core p.dom = .done false →
      recFull s p.dom p.que (recOf ws) (coreDie p.core) = false →
      exec .spawn s = .next (placeRec { s with sched.spawns := dropAt s.sched.spawns (s.op 0) } p.dom p.que (recOf ws)
        p.va (coreDie p.core)))) ∧
  (∀ (s : State) (e : DqEnt) (ix : Nat), let die := s.op 0
    let v := longestOther s die (s.op 1) (s.op 2)
    let from_ := dqKey v (s.op 1) (s.op 2)
    let into := dqKey die (s.op 1) (s.op 2)
    dieWorks s die = true → v ≠ die → looseEnts s die (s.op 1) (s.op 2) = [] → newestEnt s from_ = some (e, ix) →
    dieFits s die e = true → from_ ≠ into → dqFull s 1 into = false → ∃ t, exec .steal s = .next t ∧ t.deque into = s.deque into ++ [{ e with stolen := true }] ∧
      t.deque from_ = dropAt (s.deque from_) ix) ∧
  (∀ (s : State), s.op 0 < 192 → 16 ≤ s.op 1 → ∃ t, exec .slotTableWrite s = .next t ∧
    smGet 0 t.sched.reserve (s.op 0) = (BitVec.ofNat 32 (s.op 2) &&& 0x1FFFFFFF)) ∧
  (∀ (s : State) (k : Task), smFind s.work.tasks (s.op 0) = some k → s.op 0 ∈ s.sched.ending → taskStores s k = false →
    (∀ b, k.succ = 0 → k.parent = none → taskRelease s k k.cores = .done b → ∃ t, exec .taskCompletion s = .next t ∧ smFind t.work.tasks (s.op 0) = none) ∧
    (∀ t, k.succ ≠ 0 → taskRelease s k k.cores = .done false → taskSucc s k = some (.ok t) →
      exec .taskCompletion s = .next (closeTask t (s.op 0) k)))

/-- R370 to R374: dispatch starts the best candidate in the place it has, with the state of R373 in every gang; the end of a
crew frees everything it held. The model's choices here: notes/assumptions/72, 73. -/
def Obligations.CrewStartAndEnd : Prop :=
  (∀ (s : State) (cd : Cand) (e : DqEnt) (f : Fit) (b : Nat × Nat), bestCand s (s.op 0) = some cd → cd.crew = none →
    (s.deque cd.dq)[cd.ix]? = some e → fit s (s.op 0) e.dom e.que e.record.kw e.record.rw = some f →
    basinFit s e.task (coreDie (s.op 0)) (kwBsn e.record.kw) = some b → ∃ t w, exec .dispatch s = .next t ∧
    t.crew s.work.next = some w ∧ w.place = .on (s.op 0) ∧ w.dom = e.dom ∧ w.que = e.que ∧ w.kw = e.record.kw ∧
    w.rw = e.record.rw ∧ w.pbase = f.pbase ∧ w.crewid = (if kwKind e.record.kw = 1 then BitVec.ofNat 32 (s.op 0) else 0) ∧
    t.deque cd.dq = dropAt (s.deque cd.dq) cd.ix ∧ t.work.next = s.work.next + 1 ∧
    ∀ ix, ix < rwNg e.record.rw + 1 → ∃ g, t.gang (16 * s.work.next + ix) = some g ∧ g.ix = ix ∧ g.crew = s.work.next ∧
      g.nsl = kwSlc e.record.kw + 1 ∧ g.slices.length = g.nsl ∧ g.recs = [] ∧ g.ss = false ∧ g.sa = false ∧ g.mxerr = none ∧
      g.tkerr = none ∧ g.struct = none ∧ g.prv = (s.queue e.dom e.que).priv ∧
      (∀ j, j < g.nsl → (g.slice j).live = true ∧ (g.slice j).x = 0xF ∧ (g.slice j).hnd = false ∧ (g.slice j).loops = [] ∧
        (g.slice j).grp = sliceMask (List.range g.nsl)) ∧
      (∀ r i, g.r.rdV r i = 0) ∧ (∀ k, g.r.rdM k = if k = 0 then 0xFFFFFFFF else 0) ∧ g.r.rnd = 0 ∧
      g.r.rdS false 0 = e.record.arg.extractLsb' 0 32 ∧ g.r.rdS false 1 = e.record.arg.extractLsb' 32 32 ∧
      (∀ k, k < 6 → g.r.rdS false (2 + k) = e.record.inl.getD k 0) ∧
      g.r.rdS false 8 = e.record.coord.extractLsb' 0 32 ∧ g.r.rdS false 9 = e.record.coord.extractLsb' 32 32 ∧
      g.r.rdS false 10 = e.record.succ.extractLsb' 0 32 ∧ g.r.rdS false 11 = e.record.succ.extractLsb' 32 32 ∧
      (∀ n, 12 ≤ n → g.r.rdS false n = 0) ∧ g.r.rdSeg 0 = { base := 0, limit := BitVec.ofNat 64 (2 ^ 57) } ∧
      g.r.rdSeg 1 = { base := BitVec.ofNat 64 f.pbase, limit := BitVec.ofNat 64 (1024 * rwPk e.record.rw) } ∧
      g.r.rdSeg 6 = { base := 0, limit := BitVec.ofNat 64 (2 ^ 57) }) ∧
  (∀ (s : State) (w : Crew) (k : Option Nat), s.crew (s.op 0) = some w → w.place = .ended k → crewBusy s (s.op 0) w = false →
    ∃ t, exec .crewEnd s = .next t ∧ t.crew (s.op 0) = none ∧ t.ceng (s.op 0) = {} ∧
      (∀ j g, t.gang j = some g → g.crew ≠ s.op 0) ∧ ∀ j, j ≠ s.op 0 → t.crew j = s.crew j)

/-! ### Leaving a core, the fatal path, the host, management -/

/-- R376 to R379, R462, R465, R467, R474: a crew begins to leave for an eviction or for service; once its drain is over, a
context slot is free and no image of its die was ready before its own, it is out; a waiting crew is restored on a core that it fits. The model's choices here: notes/assumptions/99, 100, 101, 103. -/
def Obligations.EvictionAndResume : Prop :=
  (∀ (s : State) (w : Crew) (core : Nat), s.crew (s.op 0) = some w → w.core? = some core →
    let first := fun (u : State) (core : Nat) => (readySaves (readySave u (s.op 0)) (coreDie core)).head? = some (s.op 0)
    (w.leaving = none → evictWhy s (s.op 0) w core = true → ∃ t v, exec .eviction s = .next t ∧ t.crew (s.op 0) = some v ∧
      v.leaving = some .preempt ∧ v.place = w.place ∧ t.mem = s.mem ∧ t.work.gangs = s.work.gangs) ∧
    (∀ u k die base, w.leaving = some .preempt → drain s (s.op 0) w core = .over u →
      freeCtx u w.dom (coreDie core) = some (k, (die, base)) → first u core → ∃ t v, exec .eviction s = .next t ∧
      t.crew (s.op 0) = some v ∧ v.place = .waiting die ∧ v.leaving = none ∧ v.kw = w.kw ∧ v.rw = w.rw ∧
      (k, s.op 0) ∈ (t.domain w.dom).set_.ctxUse) ∧
    (w.leaving = some .preempt → (∃ u, drain s (s.op 0) w core = .wait u ∧ exec .eviction s = .next u) ∨
      ∃ u, drain s (s.op 0) w core = .over u) ∧
    (∀ c u k die base gk g r, w.leaving = some c → c ≠ .preempt → serviceGang s (s.op 0) = some (gk, g, r) →
      r.cause ≠ Cause.homeFenced.code → r.cause ≠ Cause.incarnation.code → drain s (s.op 0) w core = .over u →
      freeCtx u w.dom (coreDie core) = some (k, (die, base)) → first u core → ∃ t v, exec .swapOut s = .next t ∧
      t.crew (s.op 0) = some v ∧ v.place = .serviced die ∧ v.leaving = none ∧
      (∃ n, t.host.notices = s.host.notices ++ [n] ∧ n.dom = w.dom ∧ n.rcd = r ∧ n.kind = 0 ∧ n.seq = (s.ring w.dom).seq) ∧
      ∃ q, t.host.services = s.host.services ++ [q] ∧ q.crew = s.op 0 ∧ q.gang = gk ∧ q.rcd = r ∧ q.firm = false ∧
        q.seq = (s.ring w.dom).seq) ∧
    (w.resumed = true → 10000 ≤ s.time - w.since → exec .resident10usElapsed s = .next (evict
      (s.modCrew (s.op 0) (fun w => { w with resumed := false })) (s.op 0)))) ∧
  (∀ (s : State) (g : Gang) (r : TrapRec) (k : Cause), s.gang (s.op 0) = some g → serviceRec g = some r →
    crewStays s g = true → causeOf r.cause = some k → ∃ t v, exec .serviceDelivery s = .next t ∧
    t.crew g.crew = some v ∧ v.leaving = some k ∧ t.work.gangs = s.work.gangs ∧ t.mem = s.mem) ∧
  (∀ (s : State) (w : Crew) (d a : Nat) (f : Fit), let core := s.op 1
    s.crew (s.op 0) = some w → w.place = .waiting d → core < 192 → resumable s core (s.op 0) d = true →
    outTeam s (s.op 0) = [s.op 0] → savedAt s (s.op 0) = some a →
    fit s (teamCore w core) w.dom w.que w.kw w.rw = some f → ∃ t v, exec .resume s = .next t ∧
    t.crew (s.op 0) = some v ∧ v.place = .on (teamCore w core) ∧ v.pbase = f.pbase ∧ v.rsv = f.rsv ∧ v.since = s.time ∧
    v.resumed = true ∧ v.leaving = none ∧ v.kw = w.kw ∧ v.rw = w.rw ∧ v.dom = w.dom ∧ v.que = w.que ∧
    (∀ p ∈ (t.domain w.dom).set_.ctxUse, p.2 ≠ s.op 0) ∧
    ∀ ix g, ix < rwNg w.rw + 1 → s.gang (16 * s.op 0 + ix) = some g → ∃ h, t.gang (16 * s.op 0 + ix) = some h ∧
      h.slot = f.slots.getD ix 0 ∧ ∀ r i, r ≤ rwNr w.rw → i < kwLanes w.kw → i < 32 →
        h.r.rdV r i = (readWord s (a + vOff ix r i)).1)

/-- R488: the context transfers. An address that is not a multiple of 4,096 takes ATOM_ALIGN; the word waits, with the address
of its issue, until the crew's other groups are frozen and its engines drained; then CTXSV writes the image and changes no register, and CTXLD loads the
crew's registers from it. The model's choices here: notes/assumptions/104, 105. -/
def Obligations.ContextTransfers : Prop :=
  ∀ (s : State) (x : Cx) (c : Bool) (a : Fin 64),
    let va := if x.held = [] then x.s2 a else BitVec.ofNat 64 (x.held.headD 0)
    let froze := freezeOthers s x true
    let passes := fun (k : AccKind) => va.toNat % 4096 = 0 ∧ ctxCheck s x va k = none ∧ ctxWalk s x va k = none ∧
      saHolds s x.crewNo = false
    let quiet := fun (u : State) (k : AccKind) => u.work.outs.any (fun p => decide (p.2.gang / 16 = x.crewNo)) = false ∧
      ∀ p j, p < 768 → j < 64 → lineBusy u (lineOf (ctxPlace u x va k (4096 * p + 64 * j))) = false
    (∀ i, i = .ctxsv c a ∨ i = .ctxld c a → Issues s x i → x.cur.retry = false → va.toNat % 4096 ≠ 0 →
      Traps s x i s { cause := .atomAlign, lanes := x.all, addr := va }) ∧
    (∀ i k u, (i = .ctxsv c a ∧ k = .write) ∨ (i = .ctxld c a ∧ k = .read) → Issues s x i → passes k →
      drain froze x.crewNo x.crew x.core = .wait u → Waits s x i (keepArgs u x [va.toNat])) ∧
    (∀ u, Issues s x (.ctxsv c a) → passes .write → drain froze x.crewNo x.crew x.core = .over u → quiet u .write →
      ∃ t, exec (.ctxsv c a) s = .next t ∧ exec (.ctxsv c a) s = .next (finish x (ctxSave u x va)) ∧
      t.work.crews = s.work.crews ∧ t.work.engs = s.work.engs ∧
      (∀ k g, s.gang k = some g → ∃ h, t.gang k = some h ∧ h.r = g.r) ∧
      ∀ b, (∀ o, lineOf b ≠ lineOf (ctxPlace u x va .write o)) → getByte t.mem b = getByte s.mem b) ∧
    (∀ u, Issues s x (.ctxld c a) → passes .read → drain froze x.crewNo x.crew x.core = .over u → quiet u .read →
      ctxFail u x va .read plainOff (imageOffs x.crew) = none →
      let word := fun o => (readWord u (ctxPlace u x va .read o)).1
      (headerBad x.crew ((List.range 12).map (fun k => word (4 * k))) = true →
        exec (.ctxld c a) s = .next (finish x (.trap (releaseOthers u x) { cause := .segDesc, lanes := x.all }))) ∧
      (headerBad x.crew ((List.range 12).map (fun k => word (4 * k))) = false → ∃ t, exec (.ctxld c a) s = .next t ∧
        ∀ ix g, ix < rwNg x.crew.rw + 1 → s.gang (16 * x.crewNo + ix) = some g → ∃ h,
          t.gang (16 * x.crewNo + ix) = some h ∧ ∀ r i, r ≤ rwNr x.crew.rw → i < kwLanes x.crew.kw → i < 32 →
            h.r.rdV r i = word (vOff ix r i)))

/-- R461, R475, R477: the fatal path of a domain: its crews are gone, its queues stopped with the cause, its engine threads, tasks and
deque entries dropped; the crews of other domains stay. An uncorrectable error of a crew's state takes it, and so do a
management kill, the loss of the host, a lockhouse fault and a junction at 110 degrees, in every domain that is set. The model's choices here: notes/assumptions/107, 108, 123. -/
def Obligations.FatalPath : Prop :=
  let dead := fun (s t : State) (d : Nat) (k : Cause) =>
    (∀ c w, t.crew c = some w → w.dom ≠ d) ∧
    (∀ c, (∀ p ∈ s.work.crews, p.1 = c → p.2.dom ≠ d) → t.crew c = s.crew c) ∧
    (∀ q v, smFind (s.domain d).queues q = some v →
      t.queue d q = { v with stop := true, cause := BitVec.ofNat 7 k.code }) ∧
    (∀ n k, smFind t.work.tasks n = some k → k.dom ≠ d) ∧ (∀ p ∈ t.eng.copies, p.2.c.dom ≠ d) ∧
    (∀ p ∈ t.sched.deques, p.1 / 64 % 8 ≠ d) ∧ ((s.domain d).set_.dump = none → t.mem = s.mem)
  let none_ := fun (s t : State) => ∀ c w, t.crew c = some w → w.dom < 8 → smFind s.sched.domains w.dom = none
  (∀ (s : State) (k : Cause), causeOf (s.op 1) = some k → k.cls = .fatal → s.op 0 < 8 → s.op 3 ≤ 4 → ∃ t,
    exec .fatalPath s = .next t ∧ dead s t (s.op 0) k) ∧
  (∀ (s : State) (w : Crew) (core : Nat), s.crew (s.op 0) = some w → w.core? = some core → ∃ t,
    exec .eccReg s = .next t ∧ dead s t w.dom .eccReg) ∧
  (∀ (s : State), ∃ t u v, exec .mgmtKill s = .next t ∧ none_ s t ∧ exec .hostDown s = .next u ∧ none_ s u ∧
    exec .lockhouseFault s = .next v ∧ none_ s v ∧ v.mgmt.stopped = true) ∧
  (∀ (s : State), 110 ≤ s.op 0 → ∃ t, exec .thermalKill s = .next t ∧ none_ s t ∧ t.mgmt.stopped = true)

/-- R481, R508, R510, R511: notices. A software notice whose release is performed becomes a notice of its domain, or a word of a
wake mailbox in device memory, whose core is woken; one that finds the ring or the mailbox full is dropped and counted; a domain's oldest notice is written to its ring, TAIL advances and its vector is signalled; the mailbox completes
with vector 63. The model's choices here: notes/assumptions/109, 110, 111, 160. -/
def Obligations.NoticeSteps : Prop :=
  let signalled := fun (s t : State) (v : Nat) =>
    (s.masked v = false → t.host.sent = v :: s.host.sent) ∧ (s.masked v = true → t.host.pending.getLsbD v = true ∧
      t.host.sent = s.host.sent)
  (∀ (s : State) (q : Softi) (bad : Bool), s.sched.softis[s.op 0]? = some q → bgRelease s q.mark q.gang q.core q.dom = .done bad →
    let failed := q.failed || bad
    let target := q.word.toNat / 2 ^ 30
    let value := q.word.toNat / 2 ^ 8 % 2 ^ 16
    let n := q.word.toNat % 4
    let box := smGet {} (s.domain q.dom).mail n
    let lost := fun (t : State) => (t.ring q.dom).ovf = (s.ring q.dom).ovf + 1 ∧ t.host.notices = s.host.notices
    mailBusy s q.dom q.word = false →
    ∃ t, exec .softiNotice s = .next t ∧ t.sched.softis = dropAt s.sched.softis (s.op 0) ∧
      (target = 0 → t.mem = s.mem) ∧
      (target = 0 → (s.ring q.dom).fits (waitingNotices s q.dom) = true → ∃ n, t.host.notices = s.host.notices ++ [n] ∧
        n.dom = q.dom ∧ n.kind = 1 ∧ n.w12 = BitVec.ofNat 32 (value * 2 ^ 16 + q.word.toNat % 64) ∧
        n.w14 = (if failed then 1 else 0) ∧ n.seq = (s.ring q.dom).seq) ∧
      (target = 0 → (s.ring q.dom).fits (waitingNotices s q.dom) = false → lost t) ∧
      (target ≠ 0 → mailPlace s q.dom n = none → t.mem = s.mem ∧ lost t) ∧
      (∀ a, target ≠ 0 → mailPlace s q.dom n = some a → a % 4 = 0 →
        smGet {} (t.domain q.dom).mail n = { box with put := box.put + 1, woken := true } ∧
        getWord t.mem a = BitVec.ofNat 32 (value + (if failed then 2 ^ 31 else 0)) ∧
        ∀ b, b < a ∨ a + 4 ≤ b → getByte t.mem b = getByte s.mem b)) ∧
  (∀ (s : State), s.sched.softis.length ≤ s.op 0 → let n := (s.op 0 - s.sched.softis.length) % 4
    let d := (s.op 0 - s.sched.softis.length) / 4
    ∀ box, smFind (s.domain d).mail n = some box → box.woken = true → ∃ t, exec .softiNotice s = .next t ∧
      smFind (t.domain d).mail n = some { box with got := box.got + 1, woken := decide (box.got + 1 < box.put) } ∧
      t.mem = s.mem) ∧
  (∀ (s : State) (n : Notice), s.host.notices.find? (fun n => decide (n.dom = s.op 0)) = some n →
    (s.ring (s.op 0)).fits 0 = true → let r := s.ring (s.op 0)
    let a := hostAddr (r.base.toNat + 64 * (r.tail.toNat % 2 ^ r.k.toNat))
    ∃ t, exec .notice s = .next t ∧ t.host.notices = s.host.notices.erase n ∧ t.ring (s.op 0) = { r with tail := r.tail + 1 } ∧
      (∀ j, j < 16 → getWord t.mem (a + 4 * j) = n.words.getD j 0) ∧
      (∀ b, b < a ∨ a + 64 ≤ b → getByte t.mem b = getByte s.mem b) ∧ (s.op 0 < 64 → signalled s t (s.op 0))) ∧
  (∀ (s : State) (r : BitVec 8), s.host.mbox.fin = some r → s.host.mbox.busy = true → s.host.mbox.flush = none → ∃ t,
    exec .mailboxComplete s = .next t ∧ t.host.mbox.busy = false ∧ t.host.mbox.result = r ∧ t.host.mbox.fin = none ∧
    signalled s t 63 ∧ t.mem = s.mem)

/-- R229, R493, R494, R496, R497, R498, R506: what the links and the homes do with errors. The flits of a packet go out one
after another; a good flit of the expected sequence number and the current incarnation is accepted; a bad one asks for a
replay, and a data flit bad once more is accepted as poison; a transaction, a request or an engine's packet that gets no
answer for more than 100 µs costs its line or fails in its slice; errors in memory are counted, or poison their word. The model's choices here: notes/assumptions/113, 114, 115, 116, 118, 157. -/
def Obligations.FabricSteps : Prop :=
  (∀ (s : State) (v : LinkDir), smFind s.fab.dirs (s.op 0) = some v → linkUp s v.src v.dst = true →
    let sender := if s.op 4 < 5 then s.op 4 else v.src
    let f := flit (s.op 2) v.seqTx (s.op 3 % 8) (s.die sender).inc.toNat sender
    (v.wire = [] → v.pend = [] → v.buffer = [] → v.replay = false → s.op 1 = 0 → s.op 5 = 0 → s.op 6 = 0 → v.seqTx = v.seqRx →
      v.seqTx < 4096 → sender < 5 →
      ((s.die v.dst).table[sender]? = some (s.die sender).inc → ∃ t, exec .flitReceive s = .next t ∧ t.mem = s.mem ∧
        let n := (v.seqTx + 1) % 4096
        smFind t.fab.dirs (s.op 0) = some { v with seqTx := n, seqRx := n, fails := 0, got := v.got ++ [(f, false)] }) ∧
      ((s.die v.dst).table[sender]? ≠ some (s.die sender).inc → ∃ t w, exec .flitReceive s = .next t ∧ t.mem = s.mem ∧
        smFind t.fab.dirs (s.op 0) = some w ∧ w.dropped = v.dropped + 1 ∧ w.got = v.got)) ∧
    (∀ p ps, v.wire = [] → v.pend = p :: ps → v.replay = true → v.buffer.length < 256 → ∃ t, exec .flitReceive s = .next t ∧
      t.mem = s.mem ∧
      let g := flit p.pl v.seqTx (p.hd % 8 + 8 * bitN p.data) (s.die p.sd).inc.toNat p.sd
      let b := v.buffer ++ [({ f := g, msg := p.msg, part := p.part } : SentFlit)]
      smFind t.fab.dirs (s.op 0) = some { v with pend := ps, seqTx := (v.seqTx + 1) % 4096, buffer := b }) ∧
    (∀ g gs, v.wire = g :: gs → flitOk (g.f ^^^ BitVec.ofNat 512 (s.op 1)) = false →
      (v.fails < 3 → ∃ t, exec .flitReceive s = .next t ∧
        smFind t.fab.dirs (s.op 0) = some { v with wire := [], fails := v.fails + 1, replay := true }) ∧
      (3 ≤ v.fails → flitData g.f = true → ∃ t, exec .flitReceive s = .next t ∧ t.mem = s.mem ∧
        let n := (v.seqRx + 1) % 4096
        smFind t.fab.dirs (s.op 0) =
          some { v with wire := gs, buffer := v.buffer.tail, seqRx := n, fails := 0, got := v.got ++ [(g.f, true)] })) ∧
    (v.replay = true → ∃ t, exec .replay s = .next t ∧
      smFind t.fab.dirs (s.op 0) = some { v with wire := v.buffer, replay := false } ∧ t.mem = s.mem)) ∧
  (∀ (s : State) (q : ReqX), s.coh.reqs[s.op 0]? = some q →
    let d := lineDie q.r.line
    (q.begun = true → msgsOut s q.r.id = true → 100000 < s.time - q.at_ → q.r.kind ≠ .evict → lineHost q.r.line = false →
      isLost s q.r.line = false → (s.die d).lost.length < 4096 → ∃ t, exec .homeTimeout s = .next t ∧
      isLost t q.r.line = true ∧ t.coh.reqs = s.coh.reqs.filter (fun p => decide (p.r.id ≠ q.r.id)) ∧
      (t.die d).err.lcause = BitVec.ofNat 7 Cause.cohLost.code ∧ (∃ p, t.coh.replies = s.coh.replies ++ [p] ∧
        p.kind = .error .cohLost ∧ p.r = q.r) ∧ t.mem = s.mem) ∧
    (∀ w, q.staged = false → q.begun = false → q.r.kind ≠ .evict → q.r.kind ≠ .writeback → q.r.kind ≠ .push →
      q.r.kind ≠ .barrier → q.r.out = 0 → 100000 < s.time - q.r.made →
      lostLink s (coreDie q.r.core) q.r.route q.lost = some w → ∃ t e, exec .fabUncorr s = .next t ∧ t.coh.late = s.coh.late ++ [e] ∧
      e.gang = q.r.gang ∧ e.pc = q.r.pc ∧ e.err.cause = .fabUncorr ∧ e.err.detail = Config.linkName w.1 w.2 ∧ e.err.lanes = q.r.lanes ∧ e.err.addr = q.r.va ∧
      t.coh.reqs = s.coh.reqs.filter (fun p => decide (p.r.id ≠ q.r.id)) ∧ t.mem = s.mem)) ∧
  (∀ (s : State) (p : Pkt) (w : Nat × Nat) (k : Nat), s.op 0 = s.coh.reqs.length + s.coh.replies.length + k →
    s.eng.pkts[k]? = some p → p.fail = none → 100000 < s.time - p.made → lostLink s (coreDie p.core) p.route p.lost = some w →
    ∃ t, exec .fabUncorr s = .next t ∧ t.mem = s.mem ∧ t.coh = s.coh ∧
      t.eng.pkts[k]? = some { p with fail := some .fabUncorr, info := Config.linkName w.1 w.2 }) ∧
  (∀ (s : State), s.op 0 < 4 → let die := s.die (s.op 0)
    let up := fun (w : Word) => BitVec.ofNat 32 (min (w.toNat + 1) (2 ^ 32 - 1))
    (s.op 1 = 0 → ∃ t, exec .correctedSoftError s = .next t ∧ t.mem = s.mem ∧ t.poison = s.poison ∧
      t.die (s.op 0) = { die with err := { die.err with cl2 := up die.err.cl2 } }) ∧
    (s.op 1 = 1 → ∃ t, exec .correctedSoftError s = .next t ∧ t.mem = s.mem ∧ t.poison = s.poison ∧
      t.die (s.op 0) = { die with err := { die.err with cdr := up die.err.cdr } }) ∧
    (s.op 1 = 2 → exec .correctedSoftError s = .next s) ∧
    (s.op 1 = 3 → let a := s.op 2 / 4 * 4
      isHost a = false → ∃ t, exec .correctedSoftError s = .next t ∧ t.mem = s.mem ∧ isPoison t.poison a = true ∧
        (isDev a = true → (t.die (dieOf a)).err.udr = up (s.die (dieOf a)).err.udr))) ∧
  (∀ (s : State), s.op 0 < 192 →
    let a := s.op 1 / 4 * 4
    let e := s.l1 (s.op 0) (lineOf a)
    (e.owned (wordIx a) || e.dirty (wordIx a)) = true → ∃ t, exec .eccL1 s = .next t ∧ isPoison t.poison a = true ∧
      getWord t.mem a = lineWord e.data (wordIx a) ∧ ∀ b, (b < a ∨ a + 4 ≤ b) → getByte t.mem b = getByte s.mem b)

/-- R498, R500 to R502, R504: a fence: what begins it, the steps of Table 16-3 and the re-admission, with the
100 µs after which what a step of a fault fence finds no path for is lost. The model's choices here: notes/assumptions/119, 120, 121. -/
def Obligations.FenceSteps : Prop :=
  let fence := fun (s : State) (d : Nat) => s.fab.fences.find? (fun f => decide (f.die = d))
  (∀ (s : State) (i : Instr), i = .faultFence ∨ i = .heartbeatTimeout → s.op 0 < 4 → fence s (s.op 0) = none →
    (∀ k, k < 8 → crewOn s k (s.op 0) = false ∧ bktOn s k (s.op 0) = false ∧ basinOn s k (s.op 0) = false) → ∃ t,
    exec i s = .next t ∧ (t.die (s.op 0)).st = .fenced ∧ (t.die (s.op 0)).ff = true ∧
    (t.die (s.op 0)).fcnt = BitVec.ofNat 32 (min ((s.die (s.op 0)).fcnt.toNat + 1) (2 ^ 32 - 1)) ∧
    fence t (s.op 0) = some { die := s.op 0, fault := true, step := 1, since := s.time, at_ := s.time } ∧
    t.work.crews = s.work.crews) ∧
  (∀ (s : State) (f : Fence), let d := s.op 0
    fence s d = some f → d < 4 →
    (f.step = 0 → (∀ p ∈ s.work.crews, p.2.holds?.any (fun c => decide (coreDie c = d)) = false) →
      (∀ k, k < 8 → bktOn s k d = false ∧ basinOn s k d = false) → ∃ t, exec .fenceQuiesce s = .next t ∧
      (t.die d).st = .fenced ∧ fence t d = some { f with step := 1, since := s.time, at_ := s.time }) ∧
    (f.step = 1 → heldReqs s d = [] → inFlight s d = false → ∃ t, exec .fenceQuiesce s = .next t ∧
      fence t d = some { f with step := 2, at_ := s.time } ∧ t.mem = s.mem) ∧
    (f.step = 2 → (∀ p ∈ s.eng.keys, p.2.ovf = true ∨ numSlice p.1 / 24 ≠ d) →
      (s.op 1 = 0 → ownedLines s d = [] → ∃ t, exec .fenceQuiesce s = .next t ∧ fence t d = some { f with step := 3, at_ := s.time }) ∧
      (∀ l, s.op 1 = 0 → (ownedLines s d)[s.op 2]? = some l → ∃ t, exec .fenceQuiesce s = .next t ∧
        ∀ w, w < 16 → (t.dirOf l).owner w = none) ∧
      (s.op 1 = 1 → f.fault = true → 100000 < s.time - f.at_ → (s.die d).lost.length + (ownedLines s d).length ≤ 4096 → ∃ t,
        exec .fenceQuiesce s = .next t ∧ ∀ l ∈ ownedLines s d, lineHost l = false → isLost t l = true)) ∧
    (f.step = 3 → s.op 1 = 0 → inFlight s d = false → awayLines s d = [] → ∃ t, exec .fenceQuiesce s = .next t ∧
      fence t d = some { f with step := 5, at_ := s.time }) ∧
    (f.fault = true → 1 ≤ f.step → f.step < 5 → 1000000 < s.time - f.since → heldReqs s d = [] → ownedLines s d = [] →
      awayLines s d = [] → (∀ p ∈ s.eng.keys, p.2.ovf = true ∨ numSlice p.1 / 24 ≠ d) → ∃ t, exec .selfRefreshTimeout s = .next t ∧
      fence t d = some { f with step := 5, zero := true }) ∧
    (f.step = 5 → ∃ t, exec .retrain s = .next t ∧ (t.die d).st = .inReset ∧
      (∀ c l, c / 48 = d → l < 2 ^ 60 → t.l1 c l = {}) ∧ fence t d = some { f with step := 6 } ∧
      (inFlight s d = false → (∀ p ∈ s.coh.dir, lineDie p.1 ≠ d → ∀ o ∈ p.2.owners, coreDie o.2 ≠ d) →
        (∀ k e w c, smFind s.work.engs k = some e → s.crew k = some w → w.holds? = some c → coreDie c = d →
          ∃ e', smFind t.work.engs k = some e' ∧ e'.acc = [] ∧ e'.bst = []) ∧
        (∀ e, e ∈ neighbours d → ((t.die d).links.length = 3 → linkUp t d e = false)) ∧
        ∀ b, isDev b = true → f.zero = false → getByte t.mem b = getByte s.mem b)) ∧
    (f.step = 6 → ∃ t, exec .retrain s = .next t ∧ (t.die d).st = .retraining ∧
      fence t d = some (if s.op 1 = 0 then { f with step := 7 } else f)) ∧
    (f.step = 7 → (∀ v ∈ s.host.services, v.firm = true → v.rcd.die ≠ d) → ∃ t, exec .reAdmission s = .next t ∧
      (t.die d).st = .admitted ∧ (t.die d).inc = (if (s.die d).inc = 255 then 1 else (s.die d).inc + 1) ∧
      fence t d = none ∧ (∀ e, e < 5 → (t.die e).table = putAt (s.die e).table d (t.die d).inc) ∧
      ((∀ p ∈ s.eng.keys, p.2.ovf = true → numSlice p.1 / 24 ≠ d) → t.mem = s.mem) ∧
      (f.mailbox = true → t.host.mbox.fin = some 0)))

/-- Table 16-7, R209, R364, R366, R381, R465, R475, R497, R501, R511, R513: the mailbox commands: the result of each, and its effect. The model's choices here: notes/assumptions/81, 124, 125, 126, 127, 150, 151, 179. -/
def Obligations.MailboxCommands : Prop :=
  ∀ (s : State), let d := mArg s 0
    let q := mArg s 1
    let ends := fun (i : Instr) (r : BitVec 8) (p : State → Prop) => ∃ t, exec i s = .next t ∧ t.host.mbox.fin = some r ∧
      t.host.mbox.busy = s.host.mbox.busy ∧ p t
    let same := fun (t : State) => t.mem = s.mem ∧ t.work = s.work ∧ t.sched = s.sched
    (running s 1 = true → (8 ≤ d ∨ settingsBad s = true → ends .domainSet 1 same) ∧
      (d < 8 → settingsBad s = false → (s.domain d).set_.ctxUse ≠ [] → ends .domainSet 3 same) ∧
      (d < 8 → settingsBad s = false → (s.domain d).set_.ctxUse = [] → ends .domainSet 0 (fun t =>
        t.domain d = settings s (s.domain d) ∧ (∀ e, e ≠ d → t.domain e = s.domain e) ∧
        (setVal s 31 ≠ 0 → (t.ring d).k = BitVec.ofNat 8 (setVal s 31) ∧ (t.ring d).base = BitVec.ofNat 64 (setVal s 30))))) ∧
    (running s 2 = true → (8 ≤ d → ends .xlFlush 1 same) ∧ (d < 8 → ends .xlFlush 0 (fun t => same t ∧
      t.host.mbox.flush.isSome = true ∧ ∀ p ∈ t.coh.tlb1, p.2.dom ≠ d))) ∧
    (running s 3 = true → (8 ≤ d ∨ 64 ≤ q → ends .queueSet 1 same) ∧
      (d < 8 → q < 64 → mArg s 2 % 2 = 1 → 6 ≤ mArg s 5 → mArg s 5 ≤ 16 → ends .queueSet 0 (fun t => t.queue d q =
        { s.queue d q with enabled := true, priv := decide (mArg s 2 / 2 % 2 = 1), k := mArg s 5,
                           ring := BitVec.ofNat 64 (mArg2 s 3), head := 0, tail := 0, stop := false, cause := 0 })) ∧
      (d < 8 → q < 64 → mArg s 2 % 2 = 1 → (mArg s 5 < 6 ∨ 16 < mArg s 5) → ends .queueSet 1 same) ∧
      (d < 8 → q < 64 → mArg s 2 % 2 = 0 → ends .queueSet 0 (fun t =>
        t.queue d q = { s.queue d q with enabled := false }))) ∧
    (running s 4 = true → (8 ≤ d ∨ 64 ≤ q → ends .queueRestart 1 same) ∧
      (d < 8 → q < 64 → (s.queue d q).enabled = false → ends .queueRestart 3 same) ∧
      (d < 8 → q < 64 → (s.queue d q).enabled = true → ends .queueRestart 0 (fun t =>
        t.queue d q = { s.queue d q with stop := false }))) ∧
    (running s 5 = true → (8 ≤ d ∨ 64 ≤ q ∨ 15 < mArg s 2 ∨ 160 < mArg s 3 ∨ 160 < mArg s 4 ∨ 15 < mArg s 5 → ends .queueShare 1 same) ∧
      (d < 8 → q < 64 → mArg s 2 ≤ 15 → mArg s 3 ≤ 160 → mArg s 4 ≤ 160 → mArg s 5 ≤ 15 →
        let v := { s.queue d q with rsv := mArg s 2, df := mArg s 3, ff := mArg s 4, dmask := BitVec.ofNat 4 (mArg s 5) }
        let u := s.modQueue d q (fun _ => v)
        let over_ := queueSum u (fun v => v.df) > 160 ∨ queueSum u (fun v => v.ff) > 160 ∨
          ∃ c, c < 192 ∧ rsvFits s c d q (shareAt s c) = false
        (over_ → ends .queueShare 3 same) ∧ (¬ over_ → ends .queueShare 0 (fun t => t.queue d q = v ∧ t.mem = s.mem ∧ t.work = s.work ∧
          (∀ c, c < 192 → (rsvSlots t c d q).length = shareAt s c) ∧
          ∀ c k, c < 192 → k < 16 → 3 ≤ (s.slotWord c k).toNat / 2 ^ 30 → slotRsv (s.slotWord c k) d q = false →
            t.slotWord c k = s.slotWord c k)))) ∧
    (running s 6 = true → (8 ≤ d ∨ 2 < mArg s 2 → ends .noticeAnswer 1 same) ∧
      (d < 8 → mArg s 2 ≤ 2 → (∀ v ∈ s.host.services, v.dom = d → v.seq.toNat = q → v.firm = true) →
        ends .noticeAnswer 3 same) ∧
      (∀ v, d < 8 → s.host.services.find? (fun v => decide (v.dom = d) && decide (v.seq.toNat = q) && !v.firm) = some v →
        let u := { s with host.services := s.host.services.erase v }
        (∀ w a, mArg s 2 = 0 → s.crew v.crew = some w → savedAt s v.crew = some a → ends .noticeAnswer 0 (fun t =>
          (∃ w', t.crew v.crew = some w' ∧ w'.place = .waiting (dieOf a)) ∧ t.host.services = u.host.services)) ∧
        (∀ w, mArg s 2 = 1 → s.crew v.crew = some w → ends .noticeAnswer 0 (fun t =>
          (∃ w', t.crew v.crew = some w' ∧ w'.place = .ended w.core?) ∧ t.host.services = u.host.services)) ∧
        (mArg s 2 = 2 → ends .noticeAnswer 0 (fun t => ∀ c w, t.crew c = some w → w.dom ≠ d)))) ∧
    (running s 7 = true → (8 ≤ d → ends .domainKill 1 same) ∧ (d < 8 → ends .domainKill 0 (fun t =>
      ∀ c w, t.crew c = some w → w.dom ≠ d))) ∧
    (running s 8 = true → (∀ f ∈ s.fab.fences, f.mailbox = false) → (4 ≤ d → ends .warmReset 1 same) ∧
      (d < 4 → (∃ f ∈ s.fab.fences, f.fault = false) → ends .warmReset 2 same) ∧
      (d < 4 → (∀ f ∈ s.fab.fences, f.fault = true) → (s.die d).st ≠ .admitted → ends .warmReset 3 same) ∧
      (d < 4 → (∀ f ∈ s.fab.fences, f.fault = true) → (s.die d).st = .admitted → exec .warmReset s = .next { s with
        fab.fences := s.fab.fences ++ [{ die := d, wait := decide (mArg s 1 % 2 = 1), since := s.time, mailbox := true }] })) ∧
    (running s 9 = true → let a := mArg2 s 1
      (4 ≤ d ∨ s.usable ≤ a → ends .clearLost 1 same) ∧
      (d < 4 → a < s.usable → (s.die d).st ≠ .admitted → ends .clearLost 3 same) ∧
      (d < 4 → a < s.usable → (s.die d).st = .admitted → ends .clearLost 0 (fun t =>
        smFind (t.die d).lost (a / 64) = none ∧ t.mem = s.mem ∧
        ∀ n, n ≠ a / 64 → smFind (t.die d).lost n = smFind (s.die d).lost n))) ∧
    (running s 10 = true → (s.mgmt.power ≠ .recovery → ends .imageLoad 3 same) ∧
      (s.mgmt.power = .recovery → s.op 0 = 0 → ends .imageLoad 1 same) ∧
      (s.mgmt.power = .recovery → s.op 0 ≠ 0 → ends .imageLoad 0 (fun t => t.mgmt.power = .d0 ∧ t.work = State.reset.work ∧
        ∀ b, getByte t.mem b = if isHost b then getByte s.mem b else 0)))

/-- R508 to R510: the host's accesses: a BAR0 register takes what is written to it, BAR2 reads and writes memory at the point of
coherence, is dropped or unsupported through an entry that is off, and stops on an address that does not exist. The model's choices here: notes/assumptions/128, 129, 130, 162, 176, 177. -/
def Obligations.HostAccesses : Prop :=
  (∀ (s : State), s.mgmt.power = .d0 → let o := s.op 0
    let w := BitVec.ofNat 32 (s.op 1)
    let next := fun (p : State → Prop) => ∃ t, exec .registerWrite s = .next t ∧ t.mem = s.mem ∧ p t
    (o = 0x1000 → s.host.mbox.busy = false → 
      let r : Option (BitVec 8) := if 1 ≤ w.toNat ∧ w.toNat ≤ 10 then none else some 1
      next (fun t => t.host.mbox = { s.host.mbox with cmd := w, busy := true, fin := r })) ∧
    (o = 2 ^ 20 → 8 ≤ w.toNat → w.toNat ≤ 16 → exec .registerWrite s = .next { s with host.bar2 := 20 + w.toNat }) ∧
    (o = 2 ^ 20 + 4 → exec .registerWrite s = .next { s with host.aer := s.host.aer &&& ~~~w }) ∧
    (o = 0x1000 → s.host.mbox.busy = true → next (fun t => t = s)) ∧
    (∀ k, k < 6 → o = 0x1004 + 4 * k → next (fun t => t.host.mbox = { s.host.mbox with args := putAt s.host.mbox.args k w })) ∧
    (∀ d, d < 8 → (o = 0x2000 + 32 * d → next (fun t => t.ring d = { s.ring d with base := hiW (s.ring d).base ++ w })) ∧
      (o = 0x2004 + 32 * d → next (fun t => t.ring d = { s.ring d with base := w ++ loW (s.ring d).base })) ∧
      (o = 0x2008 + 32 * d → next (fun t => t.ring d = { s.ring d with k := w.extractLsb' 0 8 })) ∧
      (o = 0x200C + 32 * d → next (fun t => t.ring d = { s.ring d with head := w }))) ∧
    (∀ d q, d < 8 → q < 64 → o = 0x10000 + 1024 * d + 16 * q → let v := s.queue d q
      (v.enabled = false → next (fun t => t = s)) ∧
      (v.enabled = true → (w - v.head).toNat ≤ 2 ^ v.k → (v.tail - v.head).toNat ≤ (w - v.head).toNat →
        next (fun t => t.queue d q = { v with tail := w }))) ∧
    (∀ k, k < 64 → (o = 0x30000 + 8 * k → next (fun t => smGet 0 t.host.aper k = hiW (smGet 0 s.host.aper k) ++ w)) ∧
      (o = 0x30004 + 8 * k → next (fun t => smGet 0 t.host.aper k = w ++ loW (smGet 0 s.host.aper k)))) ∧
    (∀ k, k < 256 → o = 0x40000 + 4 * k → next (fun t => t.msix k = w ∧
      (k % 4 = 3 → w.getLsbD 0 = false → s.host.pending.getLsbD (k / 4) = true → t.host.sent = k / 4 :: s.host.sent ∧
        t.host.pending.getLsbD (k / 4) = false)))) ∧
  (∀ (s : State), s.mgmt.power = .recovery → s.op 0 = 0x1000 → s.host.mbox.busy = false → 1 ≤ s.op 1 → s.op 1 < 10 →
    exec .registerWrite s = .next { s with host.mbox := { s.host.mbox with cmd := BitVec.ofNat 32 (s.op 1), busy := true, fin := some 3 } }) ∧
  (∀ (s : State), let o := s.op 0
    let e := smGet 0 s.host.aper (o / 2 ^ 30)
    let off := e.toNat / 2 ^ 30 % 2 ^ 18 * 2 ^ 30 + o % 2 ^ 30 / 4 * 4
    let die := e.toNat / 2 ^ 48 % 8
    let a := devAddr die off
    let ok := s.mgmt.power = .d0 ∧ e.getLsbD 63 = true ∧ o < 2 ^ s.host.bar2 ∧ die < 4 ∧ off + 4 ≤ s.usable
    let ended := fun (r : ReadEnd) (bit : Nat) => { s with host.aer := s.host.aer ||| BitVec.ofNat 32 (2 ^ bit), host.lastRead := some r }
    (s.mgmt.power ≠ .d0 ∨ e.getLsbD 63 = false ∨ 2 ^ s.host.bar2 ≤ o → exec .bar2Write s = .next s ∧
      exec .bar2Read s = .next (ended .unsupported 20)) ∧
    (s.mgmt.power = .d0 → e.getLsbD 63 = true → o < 2 ^ s.host.bar2 → (4 ≤ die ∨ s.usable < off + 4) →
      exec .bar2Write s = .fault .absentAddress ∧ exec .bar2Read s = .fault .absentAddress) ∧
    (ok → homeFail s (lineOf a) = none → lineBusy s (lineOf a) = false → (s.dirOf (lineOf a)).owners = [] →
      (∃ t, exec .bar2Write s = .next t ∧ (∀ j, j < 4 → getByte t.mem (a + j) =
          if (BitVec.ofNat 4 (s.op 2)).getLsbD j then byteAt (BitVec.ofNat 32 (s.op 1)) j else getByte s.mem (a + j)) ∧
        ∀ b, b < a ∨ a + 4 ≤ b → getByte t.mem b = getByte s.mem b) ∧
      (isPoison s.poison a = false →
        exec .bar2Read s = .next { s with host.lastRead := some (.value (getWord s.mem a)) })) ∧
    (ok → (∃ c, homeFail s (lineOf a) = some c) → (∃ t, exec .bar2Write s = .next t ∧ t.mem = s.mem) ∧
      exec .bar2Read s = .next (ended .abort 15)))

/-- R512, R513, R515 to R517: boot and the power states, the sideband, limits, telemetry and the throttle. The model's choices here: notes/assumptions/13, 14, 132, 133, 134, 135, 136, 178, 180. -/
def Obligations.PowerAndManagement : Prop :=
  ∀ (s : State), let host := fun (t : State) => ∀ b, getByte t.mem b = if isHost b then getByte s.mem b else 0
    let l := s.mgmt.lim
    (∃ t, exec .coldReset s = .next t ∧ host t ∧ t.work = State.reset.work ∧ t.sched = State.reset.sched ∧
      (t.mgmt.power = if s.mgmt.flash.getD 0 false || s.mgmt.flash.getD 1 false then .d0 else .recovery) ∧
      (l.is4P = true → s.mgmt.flash.getD 0 false = true → t.mgmt.lim.limit = (match s.mgmt.boards.getD 0 none with
        | some p => if boardOk p then p.1 else 600
        | none => 600))) ∧
    (∃ t, exec .d3cold s = .next t ∧ host t ∧ t.mgmt.power = .d3cold ∧ t.work = State.reset.work) ∧
    (s.op 0 = 0 → s.mgmt.power = .d0 → ∃ t, exec .d3hot s = .next t ∧ t.mgmt.power = .d3hot ∧
      ∀ c w, t.crew c = some w → w.dom < 8 → w.core? = none) ∧
    (s.op 0 ≠ 0 → s.mgmt.power = .d3hot → exec .d3hot s = .next { s with mgmt.power := .d0 }) ∧
    (s.op 0 < 128 → s.mgmt.i3c = none → exec .entdaa s = .next { s with mgmt.i3c := some (s.op 0) }) ∧
    (∀ o, s.mgmt.i3c.isSome = true → o < 0x1000 ∨ (0x3000 ≤ o ∧ o < 0x4000) ∨ (0x20000 ≤ o ∧ o < 0x20140) →
      i3cRead s o = some (bar0Read s o)) ∧
    (300 ≤ s.op 0 → s.op 0 ≤ 1500 → exec .powerLimit s = .next { s with mgmt.lim.limit := s.op 0 }) ∧
    (s.op 0 < 300 ∨ 1500 < s.op 0 → exec .powerLimit s = .next s) ∧
    (l.is4P = true → exec .boardInputPower s = .next { s with mgmt.lim.boardPower := some (s.op 0, s.time) }) ∧
    (∀ w u, l.is4P = true → l.boardPower = some (w, u) → 10000000 ≤ s.time - u → ∃ t, exec .boardInputAbsent s = .next t ∧
      t.mgmt.lim.boardPower = none ∧ t.mgmt.throttle.getLsbD 2 = false ∧ t.work = s.work ∧ t.mem = s.mem) ∧
    (∃ t, exec .telemetryRefresh s = .next t ∧ t.work = s.work ∧ t.mem = s.mem ∧
      (∀ k, k < 12 → smGet 0 t.mgmt.tele k = BitVec.ofNat 32 (s.op k)) ∧
      smGet 0 t.mgmt.tele 12 = (if s.mgmt.stopped then 0 else BitVec.ofNat 32 s.mgmt.clock) ∧ smGet 0 t.mgmt.tele 16 = s.mgmt.throttle.zeroExtend 32) ∧
    (∃ t, exec .powerThrottle s = .next t ∧ t.work = s.work ∧ t.mem = s.mem ∧
      t.mgmt.throttle.getLsbD 0 = decide (l.limit < s.op 0) ∧ t.mgmt.throttle.getLsbD 1 = decide (95 < s.op 1) ∧
      (l.is4P = false → t.mgmt.throttle.getLsbD 2 = decide (1650 < s.op 2)) ∧
      (∀ w u, l.is4P = true → l.boardPower = some (w, u) → t.mgmt.throttle.getLsbD 2 =
        (decide (s.time - u < 10000000) && decide (l.limit * l.defBoard < w * l.defLimit))) ∧
      (50 < s.mgmt.clock → t.mgmt.throttle ≠ 0 → t.mgmt.clock = s.mgmt.clock - 50) ∧
      (t.mgmt.throttle = 0 → t.mgmt.clock = min 2300 (s.mgmt.clock + 50)))

/-! ### The whole machine -/

/-- R33, R454: what a word must pass at issue. A QINIT of a pool that names a queue other than 0 takes
ILL_FIELD; a register, barrier or queue number beyond the crew's takes ILL_REG, a privileged word outside privileged mode PRIV, ERET outside handler mode PRIV, a segment and policy that do not go together
ILL_SEGPOL; nothing of the word's effect is made. Handler mode is privileged. The model's choices here: notes/assumptions/25. -/
def Obligations.IssueChecks : Prop :=
  (∀ (s : State) (x : Cx) (i : Instr), s.cx = some x → encode i ≠ none →
    let traps := fun (c : Cause) =>
      exec i s = .next (raiseTrap s x { cause := c, lanes := x.all, detail := x.cur.word })
    (fieldBad x i = true → traps .illField) ∧ (fieldBad x i = false →
    (regBad x.crew i = true → traps .illReg) ∧
    (regBad x.crew i = false → x.prv = false → Instr.privileged i = true → traps .priv) ∧
    (regBad x.crew i = false → x.hnd = false → i = .eret → traps .priv) ∧
    (regBad x.crew i = false → privBad x i = false → Instr.segpol i = true → traps .illSegpol))) ∧
  (∀ (x : Cx), x.hnd = true → x.prv = true) ∧
  (∀ (c : Bool) (g : Fin 8) (a b : Fin 64) (k : Fin 32) (n : Fin 1024), Instr.privileged (.segld c g a) = true ∧
    Instr.privileged (.scopew c a k) = true ∧ Instr.privileged (.ctxsv c a) = true ∧ Instr.privileged (.ctxld c a) = true ∧
    Instr.privileged .eret = true ∧ Instr.privileged (.iadd c a b a 0) = false ∧
    (16 ≤ n.val → n.val ≤ 17 → Instr.privileged (.mtsr c a n) = srPriv n)) ∧
  (∀ (s : State) (i : Instr), s.cx = none → encode i ≠ none → exec i s = .next s)

/-- A step makes what is picked: the next word of a group, which is fetched at its PC and decoded, runs as `exec` of that
instruction; so does a word that the group waits at, or a BKNEXT that issues again; and an event runs as `exec` of itself. Time passes before it
(`tick`), and the instruction cache keeps the word (`fillIc`); which group or event is picked is the model's input
(`picks`). The model's choices here: notes/assumptions/1, 5, 25, 29, 91. -/
def Obligations.StepRunsDecoded : Prop :=
  ∀ (s : State) (ps : List Pick), let u := { tick s with picks := ps }
    (∀ (gk : Nat) (m : BitVec 8) (g : Gang) (w : Crew) (core : Nat) (word : Word) (i : Instr),
      s.picks = .issue gk m :: ps → mayIssue u gk m = true → u.gang gk = some g → u.crew g.crew = some w →
      w.core? = some core → let sl := g.slice (firstSlice m)
      let seg := segOf u w.dom sl.hnd g.r 7
      let v := { u with work.issued := .done, evt := [] }
      let c : Cur := { gang := gk, grp := m, mark := u.work.next }
      (sl.again = [] → sl.block = none → sl.rep = none → lateOf u gk m = none → fetchWord v core w.dom seg sl.pc = .ok word →
        chainBit word.toNat = false → decode word = .ok i →
        let c := { c with first := sl.pc, last := sl.pc }
        let f := fillIc v core w.dom seg sl.pc
        ((∀ x, (v.at_ c sl.pc word).cx = some x → fieldBad x i = false) →
          (∀ x, (f.at_ c sl.pc word).cx = some x → mustHold f x i = false) → step s = exec i (f.at_ c sl.pc word)) ∧
        (∀ x, (v.at_ c sl.pc word).cx = some x → fieldBad x i = true →
          step s = .next (raiseTrap (v.at_ c sl.pc word) x { cause := .illField, lanes := x.all, detail := word }))) ∧
      (∀ a as, sl.again = a :: as → fetchWord v core w.dom (segOf u w.dom a.2 g.r 7) a.1 = .ok word → decode word = .ok i →
        step s = exec i (v.at_ { c with first := sl.nextPc, last := a.1, again := true, mode := some a.2 } a.1 word)) ∧
      (∀ b, sl.again = [] → sl.block = some b → fetchWord v core w.dom seg b.pc = .ok word → decode word = .ok i →
        step s = exec i (v.at_ { c with first := b.first, last := b.last, mark := b.mark, retry := true } b.pc word))) ∧
    (∀ (i : Instr) (ops : List Nat), s.picks = .event i ops :: ps → encode i = none →
      step s = exec i { u with evt := ops })

/-- Words written out from the encoding tables decode to the instructions they stand for; a reserved bit, an unassigned
function code and C = 1 in a word that cannot chain are refused by name. -/
def Obligations.DecodeWords : Prop :=
  ([0x9009E430, 0x18386BA1, 0xA010EA81, 0xA8336FB2, 0xB017A5D4, 0xB80AF230, 0xF8BE432C, 0xC241263B, 0xCC810601, 0xD0676241, 0xE108A36C, 0xE86A44B3, 0x80000000, 0x08001234, 0xD81E6000, 0xF0008AD0] : List Word).map decode =
    [.ok (.iadd true 19 50 6 0), .ok (.iaddi false 28 13 929), .ok (.fadd true 33 53 16 0 1), .ok (.ffma true 12 54 62 50), .ok (.hfma2 true 5 58 23 20), .ok (.sadd true 10 60 35), .ok (.lgt true 5 60 33 150), .ok (.ld true 2 1 0 9 12 7 3), .ok (.st true 4 2 0 8 12 1), .ok (.atomAdd true 3 7 24 36 0 1), .ok (.cp true 1 0 2 10 13 11), .ok (.mma true 3 20 34 5 9 1), .ok (.nop true), .ok (.trap 4660), .ok (.fence true 7 19), .ok (.dice true 34 45)] ∧
  ([0x04400000, 0x00000001, 0x80400000, 0x82400000, 0x10000006, 0x24000000] : List Word).map decode =
    [.illEnc, .illField, .illChain, .repBad, .illField, .illEnc]

/-- The encoder and the decoder agree: every instruction that has a word and holds allowed field values is what its word
decodes to, and every word that decodes is the word of its instruction, whose field values are allowed. -/
def Obligations.EncodeRoundTrip : Prop :=
  (∀ (i : Instr) (n : Nat), i.wf = true → encode i = some n → n < 2 ^ 32 ∧ decode (BitVec.ofNat 32 n) = .ok i) ∧
  ∀ (w : Word) (i : Instr), decode w = .ok i → i.wf = true ∧ encode i = some w.toNat

/-- Every step keeps the memory in its canonical form: addresses rise strictly, no byte listed with the value that an
unlisted byte reads as. The model's choices here: notes/assumptions/9. -/
def Obligations.MemoryCanonical : Prop :=
  ∀ (s t : State), Memory.wf s.mem → step s = .next t → Memory.wf t.mem

/-- No instruction is refused, and only a BAR2 access to an address that does not exist stops: every other instruction has a
next state in every state, and so has every step that does not pick such an access. That such an access stops the run is
the model's choice (log entry 7). The model's choices here: notes/assumptions/2, 7. -/
def Obligations.OnlyBar2Stops : Prop :=
  (∀ (i : Instr) (s : State), (∃ t, exec i s = .next t) ∨
    ((i = .bar2Write ∨ i = .bar2Read) ∧ exec i s = .fault .absentAddress)) ∧
  (∀ (s : State), (∃ t, step s = .next t) ∨
    (∃ i ops ps, s.picks = .event i ops :: ps ∧ (i = .bar2Write ∨ i = .bar2Read) ∧ step s = .fault .absentAddress))

/-- R498, R513, Table 16-4 and the model's own choices: the state after reset. Every incarnation number is 1, every
die is admitted with its links up and its counters clear, nothing runs, nothing is under way; every byte reads as zero (device
memory by R513, the other storages by the model's choice), and the memory is in canonical form. The model's choices here: notes/assumptions/9, 10, 12. -/
def Obligations.ResetState : Prop :=
  let s := State.reset
  (∀ d, d < 5 → (s.die d).inc = 1 ∧ (s.die d).st = .admitted ∧ (s.die d).fcnt = 0 ∧ (s.die d).err = {} ∧
    (s.die d).lost = [] ∧ (s.die d).table = [1, 1, 1, 1, 1] ∧ ∀ l ∈ (s.die d).links, l.up = true) ∧
  s.time = 0 ∧ (∀ c, s.crew c = none) ∧ (∀ g, s.gang g = none) ∧ (∀ d, s.domain d = {}) ∧ s.coh.reqs = [] ∧
  (∀ c l, s.l1 c l = {}) ∧ (∀ l, s.dirOf l = {}) ∧ s.host.mbox.busy = false ∧ s.mgmt.power = .d0 ∧
  (∀ a, getByte s.mem a = 0 ∧ isPoison s.poison a = false) ∧ Memory.wf s.mem
end

