-- ==== Sys2Proof/Laws/Sparse.lean ====
section
/-! SUPPORT. What the operations on sparse maps do: one lemma for each reading of each update, and that every update
keeps the keys rising and the defaults unlisted. -/

namespace Sys2Proof.Machine

universe u
variable {α : Type u}

theorem smFind_smErase (m : List (Nat × α)) (k j : Nat) :
    smFind (smErase m k) j = if j = k then none else smFind m j := by
  induction m with
  | nil => simp [smErase, smFind]
  | cons p m ih =>
    obtain ⟨a, v⟩ := p
    by_cases h : a = k
    · subst h; by_cases hj : j = a
      · subst hj; simp [smErase, ih]
      · simp [smErase, ih, smFind, hj, Ne.symm hj]
    · by_cases hj : a = j
      · subst hj; simp [smErase, smFind, h]
      · simp [smErase, h, smFind, hj, ih]

theorem smFind_smInsert (m : List (Nat × α)) (k : Nat) (v : α) (h : smFind m k = none) (j : Nat) :
    smFind (smInsert m k v) j = if j = k then some v else smFind m j := by
  induction m with
  | nil =>
    by_cases hj : j = k
    · simp [smInsert, smFind, hj]
    · simp [smInsert, smFind, hj, Ne.symm hj]
  | cons p m ih =>
    obtain ⟨a, w⟩ := p
    have ha : a ≠ k := by rintro rfl; simp [smFind] at h
    have hm : smFind m k = none := by simpa [smFind, ha] using h
    by_cases hlt : k < a
    · by_cases hj : j = k
      · subst hj; simp [smInsert, hlt, smFind]
      · simp [smInsert, hlt, smFind, hj, Ne.symm hj]
    · by_cases hj : a = j
      · subst hj; simp [smInsert, hlt, smFind, ha]
      · simp [smInsert, hlt, smFind, hj, ih hm]

/-- The entry read after an entry is set. -/
theorem smFind_smSet (m : List (Nat × α)) (k : Nat) (v : α) (j : Nat) :
    smFind (smSet m k v) j = if j = k then some v else smFind m j := by
  unfold smSet
  rw [smFind_smInsert _ _ _ (by simp [smFind_smErase]), smFind_smErase]
  split <;> simp [*]

/-- The entry read after an entry is changed. -/
theorem smFind_smModify (m : List (Nat × α)) (k : Nat) (f : α → α) (j : Nat) :
    smFind (smModify m k f) j = if j = k then (smFind m j).map f else smFind m j := by
  induction m with
  | nil => simp [smModify, smFind]
  | cons p m ih =>
    obtain ⟨a, v⟩ := p
    simp only [smModify, List.map_cons] at ih ⊢
    by_cases ha : a = k
    · subst ha; by_cases hj : a = j
      · subst hj; simp [smFind]
      · simp [smFind, hj, ih]
    · by_cases hj : a = j
      · subst hj; simp [smFind, ha]
      · simp [smFind, ha, hj, ih]

/-- The value read after a value is put. -/
theorem smGet_smPut [DecidableEq α] (d : α) (m : List (Nat × α)) (k : Nat) (v : α) (j : Nat) :
    smGet d (smPut d m k v) j = if j = k then v else smGet d m j := by
  unfold smGet smPut
  by_cases hv : v = d
  · rw [if_pos hv, smFind_smErase]; split <;> simp_all
  · rw [if_neg hv, smFind_smSet]; split <;> simp_all

/-- The value read after a list of puts is the last one put at its key, else what stood there. -/
theorem smGet_smPuts [DecidableEq α] (d : α) (m ps : List (Nat × α)) (j : Nat) :
    smGet d (smPuts d m ps) j = (ps.reverse.find? (fun p => decide (p.1 = j))).elim (smGet d m j) (fun p => p.2) := by
  induction ps generalizing m with
  | nil => simp [smPuts]
  | cons p ps ih =>
    obtain ⟨k, v⟩ := p
    rw [smPuts, ih, List.reverse_cons, List.find?_append, smGet_smPut]
    cases h : ps.reverse.find? (fun p => decide (p.1 = j)) with
    | some q => simp
    | none => by_cases hk : j = k
              · subst hk; simp
              · simp [hk, Ne.symm hk]

/-! ### The canonical form -/

/-- A map is sorted when its keys rise pairwise. -/
theorem smSorted_iff (m : List (Nat × α)) : smSorted m = true ↔ m.Pairwise (fun a b => a.1 < b.1) := by
  induction m with
  | nil => simp [smSorted]
  | cons p m ih =>
    obtain ⟨i, v⟩ := p
    cases m with
    | nil => simp [smSorted]
    | cons q m =>
      obtain ⟨j, w⟩ := q
      rw [smSorted, Bool.and_eq_true, decide_eq_true_iff, ih, List.pairwise_cons (a := (i, v))]
      constructor
      · rintro ⟨h, hp⟩
        refine ⟨fun b hb => ?_, hp⟩
        rcases List.mem_cons.1 hb with rfl | hb
        · exact h
        · exact lt_trans h ((List.pairwise_cons.1 hp).1 b hb)
      · rintro ⟨h, hp⟩; exact ⟨h (j, w) (by simp), hp⟩

theorem mem_smErase (m : List (Nat × α)) (k : Nat) (p : Nat × α) :
    p ∈ smErase m k ↔ p ∈ m ∧ p.1 ≠ k := by
  induction m with
  | nil => simp [smErase]
  | cons q m ih =>
    obtain ⟨a, v⟩ := q
    by_cases h : a = k
    · simp only [smErase, h, if_true, ih, List.mem_cons]
      constructor
      · rintro ⟨hm, hk⟩; exact ⟨.inr hm, hk⟩
      · rintro ⟨rfl | hm, hk⟩
        · exact absurd rfl hk
        · exact ⟨hm, hk⟩
    · simp only [smErase, if_neg h, List.mem_cons, ih]
      constructor
      · rintro (rfl | ⟨hm, hk⟩)
        · exact ⟨.inl rfl, h⟩
        · exact ⟨.inr hm, hk⟩
      · rintro ⟨rfl | hm, hk⟩
        · exact .inl rfl
        · exact .inr ⟨hm, hk⟩

theorem mem_smInsert (m : List (Nat × α)) (k : Nat) (v : α) (p : Nat × α) :
    p ∈ smInsert m k v ↔ p = (k, v) ∨ p ∈ m := by
  induction m with
  | nil => simp [smInsert]
  | cons q m ih =>
    obtain ⟨a, w⟩ := q
    by_cases h : k < a
    · simp [smInsert, h]
    · simp only [smInsert, if_neg h, List.mem_cons, ih]; tauto

theorem smSorted_smErase (m : List (Nat × α)) (k : Nat) (h : smSorted m = true) : smSorted (smErase m k) = true := by
  rw [smSorted_iff] at h ⊢
  induction m with
  | nil => simp [smErase]
  | cons q m ih =>
    obtain ⟨a, v⟩ := q
    obtain ⟨h1, h2⟩ := List.pairwise_cons.1 h
    by_cases hk : a = k
    · simp only [smErase, hk, if_true]; exact ih h2
    · simp only [smErase, if_neg hk]
      exact List.pairwise_cons.2 ⟨fun b hb => h1 b ((mem_smErase m k b).1 hb).1, ih h2⟩

theorem smSorted_smInsert (m : List (Nat × α)) (k : Nat) (v : α) (hk : ∀ p ∈ m, p.1 ≠ k) (h : smSorted m = true) :
    smSorted (smInsert m k v) = true := by
  rw [smSorted_iff] at h ⊢
  induction m with
  | nil => simp [smInsert]
  | cons q m ih =>
    obtain ⟨a, w⟩ := q
    obtain ⟨h1, h2⟩ := List.pairwise_cons.1 h
    by_cases hlt : k < a
    · simp only [smInsert, if_pos hlt]
      refine List.pairwise_cons.2 ⟨fun b hb => ?_, h⟩
      rcases List.mem_cons.1 hb with rfl | hb
      · exact hlt
      · exact lt_trans hlt (h1 b hb)
    · simp only [smInsert, if_neg hlt]
      refine List.pairwise_cons.2 ⟨fun b hb => ?_, ih (fun p hp => hk p (List.mem_cons_of_mem _ hp)) h2⟩
      rcases (mem_smInsert m k v b).1 hb with rfl | hb
      · have := hk (a, w) (by simp); simp at this ⊢; omega
      · exact h1 b hb

theorem smSorted_smSet (m : List (Nat × α)) (k : Nat) (v : α) (h : smSorted m = true) :
    smSorted (smSet m k v) = true :=
  smSorted_smInsert _ _ _ (fun p hp => ((mem_smErase m k p).1 hp).2) (smSorted_smErase m k h)

/-- Putting a value keeps the canonical form. -/
theorem smWf_smPut [DecidableEq α] (d : α) (m : List (Nat × α)) (k : Nat) (v : α) (h : smWf d m = true) :
    smWf d (smPut d m k v) = true := by
  unfold smWf at h ⊢
  rw [Bool.and_eq_true, List.all_eq_true] at h ⊢
  have hd : ∀ p ∈ smErase m k, decide (p.2 ≠ d) = true := fun p hp => h.2 p ((mem_smErase m k p).1 hp).1
  unfold smPut
  split
  · exact ⟨smSorted_smErase m k h.1, hd⟩
  · refine ⟨smSorted_smSet m k v h.1, fun p hp => ?_⟩
    rcases (mem_smInsert _ _ _ p).1 hp with rfl | hp
    · simpa using ‹¬v = d›
    · exact hd p hp

/-- Putting a list of values keeps the canonical form. -/
theorem smWf_smPuts [DecidableEq α] (d : α) (m ps : List (Nat × α)) (h : smWf d m = true) :
    smWf d (smPuts d m ps) = true := by
  induction ps generalizing m with
  | nil => exact h
  | cons p ps ih => exact ih _ (smWf_smPut d m p.1 p.2 h)

end Sys2Proof.Machine
end

