-- ==== Sys2Proof/Laws/Mem.lean ====
section
/-! SUPPORT. Reading and writing byte storage: a read after a write, what a write leaves alone, and that every memory
operation keeps the canonical form. -/

namespace Sys2Proof.Machine

/-- Reading a byte after storing a byte. -/
theorem getByte_setByte (m : List Host.Cell) (a b : Nat) (v : Byte) :
    getByte (setByte m a v) b = if b = a then v else getByte m b := smGet_smPut 0 m a v b

theorem wf_setByte (m : List Host.Cell) (a : Nat) (v : Byte) (h : Memory.wf m) : Memory.wf (setByte m a v) :=
  smWf_smPut 0 m a v h

/-- Reading a byte after the masked store of a word. -/
theorem getByte_setWordMasked (m : List Host.Cell) (a b : Nat) (v : Word) (bm : BitVec 4) :
    getByte (setWordMasked m a v bm) b =
      if b = a + 3 ∧ bm.getLsbD 3 then byteAt v 3 else if b = a + 2 ∧ bm.getLsbD 2 then byteAt v 2
      else if b = a + 1 ∧ bm.getLsbD 1 then byteAt v 1 else if b = a ∧ bm.getLsbD 0 then byteAt v 0
      else getByte m b := by
  unfold setWordMasked
  cases bm.getLsbD 0 <;> cases bm.getLsbD 1 <;> cases bm.getLsbD 2 <;> cases bm.getLsbD 3 <;>
    simp [getByte_setByte]

theorem wf_setWordMasked (m : List Host.Cell) (a : Nat) (v : Word) (bm : BitVec 4) (h : Memory.wf m) :
    Memory.wf (setWordMasked m a v bm) := by
  unfold setWordMasked
  have step : ∀ (c : Bool) (m : List Host.Cell) (a : Nat) (b : Byte), Memory.wf m →
      Memory.wf (if c then setByte m a b else m) := by
    intro c m a b hm; cases c
    · exact hm
    · exact wf_setByte _ _ _ hm
  exact step _ _ _ _ (step _ _ _ _ (step _ _ _ _ (step _ _ _ _ h)))

/-- A store leaves every byte outside the word alone. -/
theorem getByte_setWordMasked_out (m : List Host.Cell) (a b : Nat) (v : Word) (bm : BitVec 4) (h : b < a ∨ a + 3 < b) :
    getByte (setWordMasked m a v bm) b = getByte m b := by
  rw [getByte_setWordMasked, if_neg (by omega), if_neg (by omega), if_neg (by omega), if_neg (by omega)]

theorem wf_setWord (m : List Host.Cell) (a : Nat) (v : Word) (h : Memory.wf m) : Memory.wf (setWord m a v) :=
  wf_setWordMasked m a v 0xF h

theorem getByte_setWord_out (m : List Host.Cell) (a b : Nat) (v : Word) (h : b < a ∨ a + 3 < b) :
    getByte (setWord m a v) b = getByte m b := getByte_setWordMasked_out m a b v 0xF h

theorem wf_setBytes (bs : List Byte) (m : List Host.Cell) (a : Nat) (h : Memory.wf m) : Memory.wf (setBytes m a bs) := by
  induction bs generalizing m a with
  | nil => exact h
  | cons b bs ih => exact ih _ _ (wf_setByte m a b h)

theorem wf_setWords (ws : List Word) (m : List Host.Cell) (a : Nat) (h : Memory.wf m) : Memory.wf (setWords m a ws) := by
  induction ws generalizing m a with
  | nil => exact h
  | cons w ws ih => exact ih _ _ (wf_setWord m a w h)

theorem getByte_setWords_out (ws : List Word) (m : List Host.Cell) (a b : Nat)
    (h : b < a ∨ a + 4 * ws.length ≤ b) : getByte (setWords m a ws) b = getByte m b := by
  induction ws generalizing m a with
  | nil => rfl
  | cons w ws ih =>
    simp only [List.length_cons] at h
    rw [setWords, ih _ _ (by omega), getByte_setWord_out _ _ _ _ (by omega)]

/-- A word is the little-endian join of its bytes (R4). -/
theorem word_bytes (v : Word) : byteAt v 3 ++ byteAt v 2 ++ byteAt v 1 ++ byteAt v 0 = v := by
  apply BitVec.eq_of_getLsbD_eq
  intro k hk
  simp only [byteAt, BitVec.getLsbD_append, BitVec.getLsbD_extractLsb']
  split_ifs <;> simp <;> grind

/-- Reading a word after storing it. -/
theorem getWord_setWord (m : List Host.Cell) (a : Nat) (v : Word) : getWord (setWord m a v) a = v := by
  unfold getWord setWord
  simp only [getByte_setWordMasked]
  simp
  exact word_bytes v

/-- WriteWord keeps the canonical form. -/
theorem putWord_mem (s : State) (a : Nat) (v : Word) (bm : BitVec 4) (po : Bool) (h : Memory.wf s.mem) :
    Memory.wf (s.putWord a v bm po).mem := wf_setWordMasked _ _ _ _ h

end Sys2Proof.Machine
end

