-- ==== Sys2Proof/Laws/State.lean ====
section
/-! SUPPORT. What each update of the state leaves alone: one lemma for each field, true by unfolding. -/

namespace Sys2Proof.Machine

@[simp] theorem State.setGang_mem (s : State) (g : Nat) (v : Gang) : (s.setGang g v).mem = s.mem := rfl
@[simp] theorem State.setGang_poison (s : State) (g : Nat) (v : Gang) : (s.setGang g v).poison = s.poison := rfl
@[simp] theorem State.setGang_coh (s : State) (g : Nat) (v : Gang) : (s.setGang g v).coh = s.coh := rfl
@[simp] theorem State.setGang_eng (s : State) (g : Nat) (v : Gang) : (s.setGang g v).eng = s.eng := rfl
@[simp] theorem State.setGang_sched (s : State) (g : Nat) (v : Gang) : (s.setGang g v).sched = s.sched := rfl
@[simp] theorem State.setGang_gfx (s : State) (g : Nat) (v : Gang) : (s.setGang g v).gfx = s.gfx := rfl
@[simp] theorem State.setGang_fab (s : State) (g : Nat) (v : Gang) : (s.setGang g v).fab = s.fab := rfl
@[simp] theorem State.setGang_host (s : State) (g : Nat) (v : Gang) : (s.setGang g v).host = s.host := rfl
@[simp] theorem State.setGang_mgmt (s : State) (g : Nat) (v : Gang) : (s.setGang g v).mgmt = s.mgmt := rfl
@[simp] theorem State.setGang_time (s : State) (g : Nat) (v : Gang) : (s.setGang g v).time = s.time := rfl
@[simp] theorem State.setGang_ticks (s : State) (g : Nat) (v : Gang) : (s.setGang g v).ticks = s.ticks := rfl
@[simp] theorem State.setGang_frees (s : State) (g : Nat) (v : Gang) : (s.setGang g v).frees = s.frees := rfl
@[simp] theorem State.setGang_picks (s : State) (g : Nat) (v : Gang) : (s.setGang g v).picks = s.picks := rfl
@[simp] theorem State.setGang_evt (s : State) (g : Nat) (v : Gang) : (s.setGang g v).evt = s.evt := rfl
@[simp] theorem State.setGang_work_crews (s : State) (g : Nat) (v : Gang) : (s.setGang g v).work.crews = s.work.crews := rfl
@[simp] theorem State.setGang_work_engs (s : State) (g : Nat) (v : Gang) : (s.setGang g v).work.engs = s.work.engs := rfl
@[simp] theorem State.setGang_work_outs (s : State) (g : Nat) (v : Gang) : (s.setGang g v).work.outs = s.work.outs := rfl
@[simp] theorem State.setGang_work_tasks (s : State) (g : Nat) (v : Gang) : (s.setGang g v).work.tasks = s.work.tasks := rfl
@[simp] theorem State.setGang_work_next (s : State) (g : Nat) (v : Gang) : (s.setGang g v).work.next = s.work.next := rfl
@[simp] theorem State.setGang_work_cur (s : State) (g : Nat) (v : Gang) : (s.setGang g v).work.cur = s.work.cur := rfl
@[simp] theorem State.setGang_work_issued (s : State) (g : Nat) (v : Gang) : (s.setGang g v).work.issued = s.work.issued := rfl

@[simp] theorem State.setCrew_mem (s : State) (c : Nat) (v : Crew) : (s.setCrew c v).mem = s.mem := rfl
@[simp] theorem State.setCrew_poison (s : State) (c : Nat) (v : Crew) : (s.setCrew c v).poison = s.poison := rfl
@[simp] theorem State.setCrew_coh (s : State) (c : Nat) (v : Crew) : (s.setCrew c v).coh = s.coh := rfl
@[simp] theorem State.setCrew_eng (s : State) (c : Nat) (v : Crew) : (s.setCrew c v).eng = s.eng := rfl
@[simp] theorem State.setCrew_sched (s : State) (c : Nat) (v : Crew) : (s.setCrew c v).sched = s.sched := rfl
@[simp] theorem State.setCrew_gfx (s : State) (c : Nat) (v : Crew) : (s.setCrew c v).gfx = s.gfx := rfl
@[simp] theorem State.setCrew_fab (s : State) (c : Nat) (v : Crew) : (s.setCrew c v).fab = s.fab := rfl
@[simp] theorem State.setCrew_host (s : State) (c : Nat) (v : Crew) : (s.setCrew c v).host = s.host := rfl
@[simp] theorem State.setCrew_mgmt (s : State) (c : Nat) (v : Crew) : (s.setCrew c v).mgmt = s.mgmt := rfl
@[simp] theorem State.setCrew_time (s : State) (c : Nat) (v : Crew) : (s.setCrew c v).time = s.time := rfl
@[simp] theorem State.setCrew_ticks (s : State) (c : Nat) (v : Crew) : (s.setCrew c v).ticks = s.ticks := rfl
@[simp] theorem State.setCrew_frees (s : State) (c : Nat) (v : Crew) : (s.setCrew c v).frees = s.frees := rfl
@[simp] theorem State.setCrew_picks (s : State) (c : Nat) (v : Crew) : (s.setCrew c v).picks = s.picks := rfl
@[simp] theorem State.setCrew_evt (s : State) (c : Nat) (v : Crew) : (s.setCrew c v).evt = s.evt := rfl
@[simp] theorem State.setCrew_work_gangs (s : State) (c : Nat) (v : Crew) : (s.setCrew c v).work.gangs = s.work.gangs := rfl
@[simp] theorem State.setCrew_work_engs (s : State) (c : Nat) (v : Crew) : (s.setCrew c v).work.engs = s.work.engs := rfl
@[simp] theorem State.setCrew_work_outs (s : State) (c : Nat) (v : Crew) : (s.setCrew c v).work.outs = s.work.outs := rfl
@[simp] theorem State.setCrew_work_tasks (s : State) (c : Nat) (v : Crew) : (s.setCrew c v).work.tasks = s.work.tasks := rfl
@[simp] theorem State.setCrew_work_next (s : State) (c : Nat) (v : Crew) : (s.setCrew c v).work.next = s.work.next := rfl
@[simp] theorem State.setCrew_work_cur (s : State) (c : Nat) (v : Crew) : (s.setCrew c v).work.cur = s.work.cur := rfl
@[simp] theorem State.setCrew_work_issued (s : State) (c : Nat) (v : Crew) : (s.setCrew c v).work.issued = s.work.issued := rfl

@[simp] theorem State.setCeng_mem (s : State) (c : Nat) (v : CrewEng) : (s.setCeng c v).mem = s.mem := rfl
@[simp] theorem State.setCeng_poison (s : State) (c : Nat) (v : CrewEng) : (s.setCeng c v).poison = s.poison := rfl
@[simp] theorem State.setCeng_coh (s : State) (c : Nat) (v : CrewEng) : (s.setCeng c v).coh = s.coh := rfl
@[simp] theorem State.setCeng_eng (s : State) (c : Nat) (v : CrewEng) : (s.setCeng c v).eng = s.eng := rfl
@[simp] theorem State.setCeng_sched (s : State) (c : Nat) (v : CrewEng) : (s.setCeng c v).sched = s.sched := rfl
@[simp] theorem State.setCeng_gfx (s : State) (c : Nat) (v : CrewEng) : (s.setCeng c v).gfx = s.gfx := rfl
@[simp] theorem State.setCeng_fab (s : State) (c : Nat) (v : CrewEng) : (s.setCeng c v).fab = s.fab := rfl
@[simp] theorem State.setCeng_host (s : State) (c : Nat) (v : CrewEng) : (s.setCeng c v).host = s.host := rfl
@[simp] theorem State.setCeng_mgmt (s : State) (c : Nat) (v : CrewEng) : (s.setCeng c v).mgmt = s.mgmt := rfl
@[simp] theorem State.setCeng_time (s : State) (c : Nat) (v : CrewEng) : (s.setCeng c v).time = s.time := rfl
@[simp] theorem State.setCeng_ticks (s : State) (c : Nat) (v : CrewEng) : (s.setCeng c v).ticks = s.ticks := rfl
@[simp] theorem State.setCeng_frees (s : State) (c : Nat) (v : CrewEng) : (s.setCeng c v).frees = s.frees := rfl
@[simp] theorem State.setCeng_picks (s : State) (c : Nat) (v : CrewEng) : (s.setCeng c v).picks = s.picks := rfl
@[simp] theorem State.setCeng_evt (s : State) (c : Nat) (v : CrewEng) : (s.setCeng c v).evt = s.evt := rfl
@[simp] theorem State.setCeng_work_gangs (s : State) (c : Nat) (v : CrewEng) : (s.setCeng c v).work.gangs = s.work.gangs := rfl
@[simp] theorem State.setCeng_work_crews (s : State) (c : Nat) (v : CrewEng) : (s.setCeng c v).work.crews = s.work.crews := rfl
@[simp] theorem State.setCeng_work_outs (s : State) (c : Nat) (v : CrewEng) : (s.setCeng c v).work.outs = s.work.outs := rfl
@[simp] theorem State.setCeng_work_tasks (s : State) (c : Nat) (v : CrewEng) : (s.setCeng c v).work.tasks = s.work.tasks := rfl
@[simp] theorem State.setCeng_work_next (s : State) (c : Nat) (v : CrewEng) : (s.setCeng c v).work.next = s.work.next := rfl
@[simp] theorem State.setCeng_work_cur (s : State) (c : Nat) (v : CrewEng) : (s.setCeng c v).work.cur = s.work.cur := rfl
@[simp] theorem State.setCeng_work_issued (s : State) (c : Nat) (v : CrewEng) : (s.setCeng c v).work.issued = s.work.issued := rfl

@[simp] theorem State.modGang_mem (s : State) (g : Nat) (f : Gang → Gang) : (s.modGang g f).mem = s.mem := rfl
@[simp] theorem State.modGang_poison (s : State) (g : Nat) (f : Gang → Gang) : (s.modGang g f).poison = s.poison := rfl
@[simp] theorem State.modGang_coh (s : State) (g : Nat) (f : Gang → Gang) : (s.modGang g f).coh = s.coh := rfl
@[simp] theorem State.modGang_eng (s : State) (g : Nat) (f : Gang → Gang) : (s.modGang g f).eng = s.eng := rfl
@[simp] theorem State.modGang_sched (s : State) (g : Nat) (f : Gang → Gang) : (s.modGang g f).sched = s.sched := rfl
@[simp] theorem State.modGang_gfx (s : State) (g : Nat) (f : Gang → Gang) : (s.modGang g f).gfx = s.gfx := rfl
@[simp] theorem State.modGang_fab (s : State) (g : Nat) (f : Gang → Gang) : (s.modGang g f).fab = s.fab := rfl
@[simp] theorem State.modGang_host (s : State) (g : Nat) (f : Gang → Gang) : (s.modGang g f).host = s.host := rfl
@[simp] theorem State.modGang_mgmt (s : State) (g : Nat) (f : Gang → Gang) : (s.modGang g f).mgmt = s.mgmt := rfl
@[simp] theorem State.modGang_time (s : State) (g : Nat) (f : Gang → Gang) : (s.modGang g f).time = s.time := rfl
@[simp] theorem State.modGang_ticks (s : State) (g : Nat) (f : Gang → Gang) : (s.modGang g f).ticks = s.ticks := rfl
@[simp] theorem State.modGang_frees (s : State) (g : Nat) (f : Gang → Gang) : (s.modGang g f).frees = s.frees := rfl
@[simp] theorem State.modGang_picks (s : State) (g : Nat) (f : Gang → Gang) : (s.modGang g f).picks = s.picks := rfl
@[simp] theorem State.modGang_evt (s : State) (g : Nat) (f : Gang → Gang) : (s.modGang g f).evt = s.evt := rfl
@[simp] theorem State.modGang_work_crews (s : State) (g : Nat) (f : Gang → Gang) : (s.modGang g f).work.crews = s.work.crews := rfl
@[simp] theorem State.modGang_work_engs (s : State) (g : Nat) (f : Gang → Gang) : (s.modGang g f).work.engs = s.work.engs := rfl
@[simp] theorem State.modGang_work_outs (s : State) (g : Nat) (f : Gang → Gang) : (s.modGang g f).work.outs = s.work.outs := rfl
@[simp] theorem State.modGang_work_tasks (s : State) (g : Nat) (f : Gang → Gang) : (s.modGang g f).work.tasks = s.work.tasks := rfl
@[simp] theorem State.modGang_work_next (s : State) (g : Nat) (f : Gang → Gang) : (s.modGang g f).work.next = s.work.next := rfl
@[simp] theorem State.modGang_work_cur (s : State) (g : Nat) (f : Gang → Gang) : (s.modGang g f).work.cur = s.work.cur := rfl
@[simp] theorem State.modGang_work_issued (s : State) (g : Nat) (f : Gang → Gang) : (s.modGang g f).work.issued = s.work.issued := rfl

@[simp] theorem State.modCrew_mem (s : State) (c : Nat) (f : Crew → Crew) : (s.modCrew c f).mem = s.mem := rfl
@[simp] theorem State.modCrew_poison (s : State) (c : Nat) (f : Crew → Crew) : (s.modCrew c f).poison = s.poison := rfl
@[simp] theorem State.modCrew_coh (s : State) (c : Nat) (f : Crew → Crew) : (s.modCrew c f).coh = s.coh := rfl
@[simp] theorem State.modCrew_eng (s : State) (c : Nat) (f : Crew → Crew) : (s.modCrew c f).eng = s.eng := rfl
@[simp] theorem State.modCrew_sched (s : State) (c : Nat) (f : Crew → Crew) : (s.modCrew c f).sched = s.sched := rfl
@[simp] theorem State.modCrew_gfx (s : State) (c : Nat) (f : Crew → Crew) : (s.modCrew c f).gfx = s.gfx := rfl
@[simp] theorem State.modCrew_fab (s : State) (c : Nat) (f : Crew → Crew) : (s.modCrew c f).fab = s.fab := rfl
@[simp] theorem State.modCrew_host (s : State) (c : Nat) (f : Crew → Crew) : (s.modCrew c f).host = s.host := rfl
@[simp] theorem State.modCrew_mgmt (s : State) (c : Nat) (f : Crew → Crew) : (s.modCrew c f).mgmt = s.mgmt := rfl
@[simp] theorem State.modCrew_time (s : State) (c : Nat) (f : Crew → Crew) : (s.modCrew c f).time = s.time := rfl
@[simp] theorem State.modCrew_ticks (s : State) (c : Nat) (f : Crew → Crew) : (s.modCrew c f).ticks = s.ticks := rfl
@[simp] theorem State.modCrew_frees (s : State) (c : Nat) (f : Crew → Crew) : (s.modCrew c f).frees = s.frees := rfl
@[simp] theorem State.modCrew_picks (s : State) (c : Nat) (f : Crew → Crew) : (s.modCrew c f).picks = s.picks := rfl
@[simp] theorem State.modCrew_evt (s : State) (c : Nat) (f : Crew → Crew) : (s.modCrew c f).evt = s.evt := rfl
@[simp] theorem State.modCrew_work_gangs (s : State) (c : Nat) (f : Crew → Crew) : (s.modCrew c f).work.gangs = s.work.gangs := rfl
@[simp] theorem State.modCrew_work_engs (s : State) (c : Nat) (f : Crew → Crew) : (s.modCrew c f).work.engs = s.work.engs := rfl
@[simp] theorem State.modCrew_work_outs (s : State) (c : Nat) (f : Crew → Crew) : (s.modCrew c f).work.outs = s.work.outs := rfl
@[simp] theorem State.modCrew_work_tasks (s : State) (c : Nat) (f : Crew → Crew) : (s.modCrew c f).work.tasks = s.work.tasks := rfl
@[simp] theorem State.modCrew_work_next (s : State) (c : Nat) (f : Crew → Crew) : (s.modCrew c f).work.next = s.work.next := rfl
@[simp] theorem State.modCrew_work_cur (s : State) (c : Nat) (f : Crew → Crew) : (s.modCrew c f).work.cur = s.work.cur := rfl
@[simp] theorem State.modCrew_work_issued (s : State) (c : Nat) (f : Crew → Crew) : (s.modCrew c f).work.issued = s.work.issued := rfl

@[simp] theorem State.modCeng_mem (s : State) (c : Nat) (f : CrewEng → CrewEng) : (s.modCeng c f).mem = s.mem := rfl
@[simp] theorem State.modCeng_poison (s : State) (c : Nat) (f : CrewEng → CrewEng) : (s.modCeng c f).poison = s.poison := rfl
@[simp] theorem State.modCeng_coh (s : State) (c : Nat) (f : CrewEng → CrewEng) : (s.modCeng c f).coh = s.coh := rfl
@[simp] theorem State.modCeng_eng (s : State) (c : Nat) (f : CrewEng → CrewEng) : (s.modCeng c f).eng = s.eng := rfl
@[simp] theorem State.modCeng_sched (s : State) (c : Nat) (f : CrewEng → CrewEng) : (s.modCeng c f).sched = s.sched := rfl
@[simp] theorem State.modCeng_gfx (s : State) (c : Nat) (f : CrewEng → CrewEng) : (s.modCeng c f).gfx = s.gfx := rfl
@[simp] theorem State.modCeng_fab (s : State) (c : Nat) (f : CrewEng → CrewEng) : (s.modCeng c f).fab = s.fab := rfl
@[simp] theorem State.modCeng_host (s : State) (c : Nat) (f : CrewEng → CrewEng) : (s.modCeng c f).host = s.host := rfl
@[simp] theorem State.modCeng_mgmt (s : State) (c : Nat) (f : CrewEng → CrewEng) : (s.modCeng c f).mgmt = s.mgmt := rfl
@[simp] theorem State.modCeng_time (s : State) (c : Nat) (f : CrewEng → CrewEng) : (s.modCeng c f).time = s.time := rfl
@[simp] theorem State.modCeng_ticks (s : State) (c : Nat) (f : CrewEng → CrewEng) : (s.modCeng c f).ticks = s.ticks := rfl
@[simp] theorem State.modCeng_frees (s : State) (c : Nat) (f : CrewEng → CrewEng) : (s.modCeng c f).frees = s.frees := rfl
@[simp] theorem State.modCeng_picks (s : State) (c : Nat) (f : CrewEng → CrewEng) : (s.modCeng c f).picks = s.picks := rfl
@[simp] theorem State.modCeng_evt (s : State) (c : Nat) (f : CrewEng → CrewEng) : (s.modCeng c f).evt = s.evt := rfl
@[simp] theorem State.modCeng_work_gangs (s : State) (c : Nat) (f : CrewEng → CrewEng) : (s.modCeng c f).work.gangs = s.work.gangs := rfl
@[simp] theorem State.modCeng_work_crews (s : State) (c : Nat) (f : CrewEng → CrewEng) : (s.modCeng c f).work.crews = s.work.crews := rfl
@[simp] theorem State.modCeng_work_outs (s : State) (c : Nat) (f : CrewEng → CrewEng) : (s.modCeng c f).work.outs = s.work.outs := rfl
@[simp] theorem State.modCeng_work_tasks (s : State) (c : Nat) (f : CrewEng → CrewEng) : (s.modCeng c f).work.tasks = s.work.tasks := rfl
@[simp] theorem State.modCeng_work_next (s : State) (c : Nat) (f : CrewEng → CrewEng) : (s.modCeng c f).work.next = s.work.next := rfl
@[simp] theorem State.modCeng_work_cur (s : State) (c : Nat) (f : CrewEng → CrewEng) : (s.modCeng c f).work.cur = s.work.cur := rfl
@[simp] theorem State.modCeng_work_issued (s : State) (c : Nat) (f : CrewEng → CrewEng) : (s.modCeng c f).work.issued = s.work.issued := rfl

@[simp] theorem State.modDomain_mem (s : State) (d : Nat) (f : Domain → Domain) : (s.modDomain d f).mem = s.mem := rfl
@[simp] theorem State.modDomain_poison (s : State) (d : Nat) (f : Domain → Domain) : (s.modDomain d f).poison = s.poison := rfl
@[simp] theorem State.modDomain_work (s : State) (d : Nat) (f : Domain → Domain) : (s.modDomain d f).work = s.work := rfl
@[simp] theorem State.modDomain_coh (s : State) (d : Nat) (f : Domain → Domain) : (s.modDomain d f).coh = s.coh := rfl
@[simp] theorem State.modDomain_eng (s : State) (d : Nat) (f : Domain → Domain) : (s.modDomain d f).eng = s.eng := rfl
@[simp] theorem State.modDomain_gfx (s : State) (d : Nat) (f : Domain → Domain) : (s.modDomain d f).gfx = s.gfx := rfl
@[simp] theorem State.modDomain_fab (s : State) (d : Nat) (f : Domain → Domain) : (s.modDomain d f).fab = s.fab := rfl
@[simp] theorem State.modDomain_host (s : State) (d : Nat) (f : Domain → Domain) : (s.modDomain d f).host = s.host := rfl
@[simp] theorem State.modDomain_mgmt (s : State) (d : Nat) (f : Domain → Domain) : (s.modDomain d f).mgmt = s.mgmt := rfl
@[simp] theorem State.modDomain_time (s : State) (d : Nat) (f : Domain → Domain) : (s.modDomain d f).time = s.time := rfl
@[simp] theorem State.modDomain_ticks (s : State) (d : Nat) (f : Domain → Domain) : (s.modDomain d f).ticks = s.ticks := rfl
@[simp] theorem State.modDomain_frees (s : State) (d : Nat) (f : Domain → Domain) : (s.modDomain d f).frees = s.frees := rfl
@[simp] theorem State.modDomain_picks (s : State) (d : Nat) (f : Domain → Domain) : (s.modDomain d f).picks = s.picks := rfl
@[simp] theorem State.modDomain_evt (s : State) (d : Nat) (f : Domain → Domain) : (s.modDomain d f).evt = s.evt := rfl

@[simp] theorem State.modDie_mem (s : State) (d : Nat) (f : Die → Die) : (s.modDie d f).mem = s.mem := rfl
@[simp] theorem State.modDie_poison (s : State) (d : Nat) (f : Die → Die) : (s.modDie d f).poison = s.poison := rfl
@[simp] theorem State.modDie_work (s : State) (d : Nat) (f : Die → Die) : (s.modDie d f).work = s.work := rfl
@[simp] theorem State.modDie_coh (s : State) (d : Nat) (f : Die → Die) : (s.modDie d f).coh = s.coh := rfl
@[simp] theorem State.modDie_eng (s : State) (d : Nat) (f : Die → Die) : (s.modDie d f).eng = s.eng := rfl
@[simp] theorem State.modDie_sched (s : State) (d : Nat) (f : Die → Die) : (s.modDie d f).sched = s.sched := rfl
@[simp] theorem State.modDie_gfx (s : State) (d : Nat) (f : Die → Die) : (s.modDie d f).gfx = s.gfx := rfl
@[simp] theorem State.modDie_host (s : State) (d : Nat) (f : Die → Die) : (s.modDie d f).host = s.host := rfl
@[simp] theorem State.modDie_mgmt (s : State) (d : Nat) (f : Die → Die) : (s.modDie d f).mgmt = s.mgmt := rfl
@[simp] theorem State.modDie_time (s : State) (d : Nat) (f : Die → Die) : (s.modDie d f).time = s.time := rfl
@[simp] theorem State.modDie_ticks (s : State) (d : Nat) (f : Die → Die) : (s.modDie d f).ticks = s.ticks := rfl
@[simp] theorem State.modDie_frees (s : State) (d : Nat) (f : Die → Die) : (s.modDie d f).frees = s.frees := rfl
@[simp] theorem State.modDie_picks (s : State) (d : Nat) (f : Die → Die) : (s.modDie d f).picks = s.picks := rfl
@[simp] theorem State.modDie_evt (s : State) (d : Nat) (f : Die → Die) : (s.modDie d f).evt = s.evt := rfl

@[simp] theorem State.fresh_mem (s : State) : (s.fresh).mem = s.mem := rfl
@[simp] theorem State.fresh_poison (s : State) : (s.fresh).poison = s.poison := rfl
@[simp] theorem State.fresh_coh (s : State) : (s.fresh).coh = s.coh := rfl
@[simp] theorem State.fresh_eng (s : State) : (s.fresh).eng = s.eng := rfl
@[simp] theorem State.fresh_sched (s : State) : (s.fresh).sched = s.sched := rfl
@[simp] theorem State.fresh_gfx (s : State) : (s.fresh).gfx = s.gfx := rfl
@[simp] theorem State.fresh_fab (s : State) : (s.fresh).fab = s.fab := rfl
@[simp] theorem State.fresh_host (s : State) : (s.fresh).host = s.host := rfl
@[simp] theorem State.fresh_mgmt (s : State) : (s.fresh).mgmt = s.mgmt := rfl
@[simp] theorem State.fresh_time (s : State) : (s.fresh).time = s.time := rfl
@[simp] theorem State.fresh_ticks (s : State) : (s.fresh).ticks = s.ticks := rfl
@[simp] theorem State.fresh_frees (s : State) : (s.fresh).frees = s.frees := rfl
@[simp] theorem State.fresh_picks (s : State) : (s.fresh).picks = s.picks := rfl
@[simp] theorem State.fresh_evt (s : State) : (s.fresh).evt = s.evt := rfl
@[simp] theorem State.fresh_work_gangs (s : State) : (s.fresh).work.gangs = s.work.gangs := rfl
@[simp] theorem State.fresh_work_crews (s : State) : (s.fresh).work.crews = s.work.crews := rfl
@[simp] theorem State.fresh_work_engs (s : State) : (s.fresh).work.engs = s.work.engs := rfl
@[simp] theorem State.fresh_work_outs (s : State) : (s.fresh).work.outs = s.work.outs := rfl
@[simp] theorem State.fresh_work_tasks (s : State) : (s.fresh).work.tasks = s.work.tasks := rfl
@[simp] theorem State.fresh_work_cur (s : State) : (s.fresh).work.cur = s.work.cur := rfl
@[simp] theorem State.fresh_work_issued (s : State) : (s.fresh).work.issued = s.work.issued := rfl

@[simp] theorem State.took_mem (s : State) : (s.took).mem = s.mem := rfl
@[simp] theorem State.took_poison (s : State) : (s.took).poison = s.poison := rfl
@[simp] theorem State.took_work (s : State) : (s.took).work = s.work := rfl
@[simp] theorem State.took_coh (s : State) : (s.took).coh = s.coh := rfl
@[simp] theorem State.took_eng (s : State) : (s.took).eng = s.eng := rfl
@[simp] theorem State.took_sched (s : State) : (s.took).sched = s.sched := rfl
@[simp] theorem State.took_gfx (s : State) : (s.took).gfx = s.gfx := rfl
@[simp] theorem State.took_fab (s : State) : (s.took).fab = s.fab := rfl
@[simp] theorem State.took_host (s : State) : (s.took).host = s.host := rfl
@[simp] theorem State.took_mgmt (s : State) : (s.took).mgmt = s.mgmt := rfl
@[simp] theorem State.took_time (s : State) : (s.took).time = s.time := rfl
@[simp] theorem State.took_ticks (s : State) : (s.took).ticks = s.ticks := rfl
@[simp] theorem State.took_picks (s : State) : (s.took).picks = s.picks := rfl
@[simp] theorem State.took_evt (s : State) : (s.took).evt = s.evt := rfl

@[simp] theorem State.modRegs_mem (s : State) (x : Cx) (f : Regs → Regs) : (s.modRegs x f).mem = s.mem := rfl
@[simp] theorem State.modRegs_poison (s : State) (x : Cx) (f : Regs → Regs) : (s.modRegs x f).poison = s.poison := rfl
@[simp] theorem State.modRegs_coh (s : State) (x : Cx) (f : Regs → Regs) : (s.modRegs x f).coh = s.coh := rfl
@[simp] theorem State.modRegs_eng (s : State) (x : Cx) (f : Regs → Regs) : (s.modRegs x f).eng = s.eng := rfl
@[simp] theorem State.modRegs_sched (s : State) (x : Cx) (f : Regs → Regs) : (s.modRegs x f).sched = s.sched := rfl
@[simp] theorem State.modRegs_gfx (s : State) (x : Cx) (f : Regs → Regs) : (s.modRegs x f).gfx = s.gfx := rfl
@[simp] theorem State.modRegs_fab (s : State) (x : Cx) (f : Regs → Regs) : (s.modRegs x f).fab = s.fab := rfl
@[simp] theorem State.modRegs_host (s : State) (x : Cx) (f : Regs → Regs) : (s.modRegs x f).host = s.host := rfl
@[simp] theorem State.modRegs_mgmt (s : State) (x : Cx) (f : Regs → Regs) : (s.modRegs x f).mgmt = s.mgmt := rfl
@[simp] theorem State.modRegs_time (s : State) (x : Cx) (f : Regs → Regs) : (s.modRegs x f).time = s.time := rfl
@[simp] theorem State.modRegs_ticks (s : State) (x : Cx) (f : Regs → Regs) : (s.modRegs x f).ticks = s.ticks := rfl
@[simp] theorem State.modRegs_frees (s : State) (x : Cx) (f : Regs → Regs) : (s.modRegs x f).frees = s.frees := rfl
@[simp] theorem State.modRegs_picks (s : State) (x : Cx) (f : Regs → Regs) : (s.modRegs x f).picks = s.picks := rfl
@[simp] theorem State.modRegs_evt (s : State) (x : Cx) (f : Regs → Regs) : (s.modRegs x f).evt = s.evt := rfl
@[simp] theorem State.modRegs_work_crews (s : State) (x : Cx) (f : Regs → Regs) : (s.modRegs x f).work.crews = s.work.crews := rfl
@[simp] theorem State.modRegs_work_engs (s : State) (x : Cx) (f : Regs → Regs) : (s.modRegs x f).work.engs = s.work.engs := rfl
@[simp] theorem State.modRegs_work_outs (s : State) (x : Cx) (f : Regs → Regs) : (s.modRegs x f).work.outs = s.work.outs := rfl
@[simp] theorem State.modRegs_work_tasks (s : State) (x : Cx) (f : Regs → Regs) : (s.modRegs x f).work.tasks = s.work.tasks := rfl
@[simp] theorem State.modRegs_work_next (s : State) (x : Cx) (f : Regs → Regs) : (s.modRegs x f).work.next = s.work.next := rfl
@[simp] theorem State.modRegs_work_cur (s : State) (x : Cx) (f : Regs → Regs) : (s.modRegs x f).work.cur = s.work.cur := rfl
@[simp] theorem State.modRegs_work_issued (s : State) (x : Cx) (f : Regs → Regs) : (s.modRegs x f).work.issued = s.work.issued := rfl

@[simp] theorem State.putS_mem (s : State) (x : Cx) (n : Nat) (v : Word) : (s.putS x n v).mem = s.mem := rfl
@[simp] theorem State.putS_poison (s : State) (x : Cx) (n : Nat) (v : Word) : (s.putS x n v).poison = s.poison := rfl
@[simp] theorem State.putS_coh (s : State) (x : Cx) (n : Nat) (v : Word) : (s.putS x n v).coh = s.coh := rfl
@[simp] theorem State.putS_eng (s : State) (x : Cx) (n : Nat) (v : Word) : (s.putS x n v).eng = s.eng := rfl
@[simp] theorem State.putS_sched (s : State) (x : Cx) (n : Nat) (v : Word) : (s.putS x n v).sched = s.sched := rfl
@[simp] theorem State.putS_gfx (s : State) (x : Cx) (n : Nat) (v : Word) : (s.putS x n v).gfx = s.gfx := rfl
@[simp] theorem State.putS_fab (s : State) (x : Cx) (n : Nat) (v : Word) : (s.putS x n v).fab = s.fab := rfl
@[simp] theorem State.putS_host (s : State) (x : Cx) (n : Nat) (v : Word) : (s.putS x n v).host = s.host := rfl
@[simp] theorem State.putS_mgmt (s : State) (x : Cx) (n : Nat) (v : Word) : (s.putS x n v).mgmt = s.mgmt := rfl
@[simp] theorem State.putS_time (s : State) (x : Cx) (n : Nat) (v : Word) : (s.putS x n v).time = s.time := rfl
@[simp] theorem State.putS_ticks (s : State) (x : Cx) (n : Nat) (v : Word) : (s.putS x n v).ticks = s.ticks := rfl
@[simp] theorem State.putS_frees (s : State) (x : Cx) (n : Nat) (v : Word) : (s.putS x n v).frees = s.frees := rfl
@[simp] theorem State.putS_picks (s : State) (x : Cx) (n : Nat) (v : Word) : (s.putS x n v).picks = s.picks := rfl
@[simp] theorem State.putS_evt (s : State) (x : Cx) (n : Nat) (v : Word) : (s.putS x n v).evt = s.evt := rfl
@[simp] theorem State.putS_work_crews (s : State) (x : Cx) (n : Nat) (v : Word) : (s.putS x n v).work.crews = s.work.crews := rfl
@[simp] theorem State.putS_work_engs (s : State) (x : Cx) (n : Nat) (v : Word) : (s.putS x n v).work.engs = s.work.engs := rfl
@[simp] theorem State.putS_work_outs (s : State) (x : Cx) (n : Nat) (v : Word) : (s.putS x n v).work.outs = s.work.outs := rfl
@[simp] theorem State.putS_work_tasks (s : State) (x : Cx) (n : Nat) (v : Word) : (s.putS x n v).work.tasks = s.work.tasks := rfl
@[simp] theorem State.putS_work_next (s : State) (x : Cx) (n : Nat) (v : Word) : (s.putS x n v).work.next = s.work.next := rfl
@[simp] theorem State.putS_work_cur (s : State) (x : Cx) (n : Nat) (v : Word) : (s.putS x n v).work.cur = s.work.cur := rfl
@[simp] theorem State.putS_work_issued (s : State) (x : Cx) (n : Nat) (v : Word) : (s.putS x n v).work.issued = s.work.issued := rfl

@[simp] theorem State.putS2_mem (s : State) (x : Cx) (n : Nat) (v : DWord) : (s.putS2 x n v).mem = s.mem := rfl
@[simp] theorem State.putS2_poison (s : State) (x : Cx) (n : Nat) (v : DWord) : (s.putS2 x n v).poison = s.poison := rfl
@[simp] theorem State.putS2_coh (s : State) (x : Cx) (n : Nat) (v : DWord) : (s.putS2 x n v).coh = s.coh := rfl
@[simp] theorem State.putS2_eng (s : State) (x : Cx) (n : Nat) (v : DWord) : (s.putS2 x n v).eng = s.eng := rfl
@[simp] theorem State.putS2_sched (s : State) (x : Cx) (n : Nat) (v : DWord) : (s.putS2 x n v).sched = s.sched := rfl
@[simp] theorem State.putS2_gfx (s : State) (x : Cx) (n : Nat) (v : DWord) : (s.putS2 x n v).gfx = s.gfx := rfl
@[simp] theorem State.putS2_fab (s : State) (x : Cx) (n : Nat) (v : DWord) : (s.putS2 x n v).fab = s.fab := rfl
@[simp] theorem State.putS2_host (s : State) (x : Cx) (n : Nat) (v : DWord) : (s.putS2 x n v).host = s.host := rfl
@[simp] theorem State.putS2_mgmt (s : State) (x : Cx) (n : Nat) (v : DWord) : (s.putS2 x n v).mgmt = s.mgmt := rfl
@[simp] theorem State.putS2_time (s : State) (x : Cx) (n : Nat) (v : DWord) : (s.putS2 x n v).time = s.time := rfl
@[simp] theorem State.putS2_ticks (s : State) (x : Cx) (n : Nat) (v : DWord) : (s.putS2 x n v).ticks = s.ticks := rfl
@[simp] theorem State.putS2_frees (s : State) (x : Cx) (n : Nat) (v : DWord) : (s.putS2 x n v).frees = s.frees := rfl
@[simp] theorem State.putS2_picks (s : State) (x : Cx) (n : Nat) (v : DWord) : (s.putS2 x n v).picks = s.picks := rfl
@[simp] theorem State.putS2_evt (s : State) (x : Cx) (n : Nat) (v : DWord) : (s.putS2 x n v).evt = s.evt := rfl
@[simp] theorem State.putS2_work_crews (s : State) (x : Cx) (n : Nat) (v : DWord) : (s.putS2 x n v).work.crews = s.work.crews := rfl
@[simp] theorem State.putS2_work_engs (s : State) (x : Cx) (n : Nat) (v : DWord) : (s.putS2 x n v).work.engs = s.work.engs := rfl
@[simp] theorem State.putS2_work_outs (s : State) (x : Cx) (n : Nat) (v : DWord) : (s.putS2 x n v).work.outs = s.work.outs := rfl
@[simp] theorem State.putS2_work_tasks (s : State) (x : Cx) (n : Nat) (v : DWord) : (s.putS2 x n v).work.tasks = s.work.tasks := rfl
@[simp] theorem State.putS2_work_next (s : State) (x : Cx) (n : Nat) (v : DWord) : (s.putS2 x n v).work.next = s.work.next := rfl
@[simp] theorem State.putS2_work_cur (s : State) (x : Cx) (n : Nat) (v : DWord) : (s.putS2 x n v).work.cur = s.work.cur := rfl
@[simp] theorem State.putS2_work_issued (s : State) (x : Cx) (n : Nat) (v : DWord) : (s.putS2 x n v).work.issued = s.work.issued := rfl

@[simp] theorem State.putV_mem (s : State) (x : Cx) (ls : List Nat) (d : Nat) (f : Nat → Word) : (s.putV x ls d f).mem = s.mem := rfl
@[simp] theorem State.putV_poison (s : State) (x : Cx) (ls : List Nat) (d : Nat) (f : Nat → Word) : (s.putV x ls d f).poison = s.poison := rfl
@[simp] theorem State.putV_coh (s : State) (x : Cx) (ls : List Nat) (d : Nat) (f : Nat → Word) : (s.putV x ls d f).coh = s.coh := rfl
@[simp] theorem State.putV_eng (s : State) (x : Cx) (ls : List Nat) (d : Nat) (f : Nat → Word) : (s.putV x ls d f).eng = s.eng := rfl
@[simp] theorem State.putV_sched (s : State) (x : Cx) (ls : List Nat) (d : Nat) (f : Nat → Word) : (s.putV x ls d f).sched = s.sched := rfl
@[simp] theorem State.putV_gfx (s : State) (x : Cx) (ls : List Nat) (d : Nat) (f : Nat → Word) : (s.putV x ls d f).gfx = s.gfx := rfl
@[simp] theorem State.putV_fab (s : State) (x : Cx) (ls : List Nat) (d : Nat) (f : Nat → Word) : (s.putV x ls d f).fab = s.fab := rfl
@[simp] theorem State.putV_host (s : State) (x : Cx) (ls : List Nat) (d : Nat) (f : Nat → Word) : (s.putV x ls d f).host = s.host := rfl
@[simp] theorem State.putV_mgmt (s : State) (x : Cx) (ls : List Nat) (d : Nat) (f : Nat → Word) : (s.putV x ls d f).mgmt = s.mgmt := rfl
@[simp] theorem State.putV_time (s : State) (x : Cx) (ls : List Nat) (d : Nat) (f : Nat → Word) : (s.putV x ls d f).time = s.time := rfl
@[simp] theorem State.putV_ticks (s : State) (x : Cx) (ls : List Nat) (d : Nat) (f : Nat → Word) : (s.putV x ls d f).ticks = s.ticks := rfl
@[simp] theorem State.putV_frees (s : State) (x : Cx) (ls : List Nat) (d : Nat) (f : Nat → Word) : (s.putV x ls d f).frees = s.frees := rfl
@[simp] theorem State.putV_picks (s : State) (x : Cx) (ls : List Nat) (d : Nat) (f : Nat → Word) : (s.putV x ls d f).picks = s.picks := rfl
@[simp] theorem State.putV_evt (s : State) (x : Cx) (ls : List Nat) (d : Nat) (f : Nat → Word) : (s.putV x ls d f).evt = s.evt := rfl
@[simp] theorem State.putV_work_crews (s : State) (x : Cx) (ls : List Nat) (d : Nat) (f : Nat → Word) : (s.putV x ls d f).work.crews = s.work.crews := rfl
@[simp] theorem State.putV_work_engs (s : State) (x : Cx) (ls : List Nat) (d : Nat) (f : Nat → Word) : (s.putV x ls d f).work.engs = s.work.engs := rfl
@[simp] theorem State.putV_work_outs (s : State) (x : Cx) (ls : List Nat) (d : Nat) (f : Nat → Word) : (s.putV x ls d f).work.outs = s.work.outs := rfl
@[simp] theorem State.putV_work_tasks (s : State) (x : Cx) (ls : List Nat) (d : Nat) (f : Nat → Word) : (s.putV x ls d f).work.tasks = s.work.tasks := rfl
@[simp] theorem State.putV_work_next (s : State) (x : Cx) (ls : List Nat) (d : Nat) (f : Nat → Word) : (s.putV x ls d f).work.next = s.work.next := rfl
@[simp] theorem State.putV_work_cur (s : State) (x : Cx) (ls : List Nat) (d : Nat) (f : Nat → Word) : (s.putV x ls d f).work.cur = s.work.cur := rfl
@[simp] theorem State.putV_work_issued (s : State) (x : Cx) (ls : List Nat) (d : Nat) (f : Nat → Word) : (s.putV x ls d f).work.issued = s.work.issued := rfl

@[simp] theorem State.putM_mem (s : State) (x : Cx) (ls : List Nat) (k : Nat) (p : Nat → Bool) : (s.putM x ls k p).mem = s.mem := rfl
@[simp] theorem State.putM_poison (s : State) (x : Cx) (ls : List Nat) (k : Nat) (p : Nat → Bool) : (s.putM x ls k p).poison = s.poison := rfl
@[simp] theorem State.putM_coh (s : State) (x : Cx) (ls : List Nat) (k : Nat) (p : Nat → Bool) : (s.putM x ls k p).coh = s.coh := rfl
@[simp] theorem State.putM_eng (s : State) (x : Cx) (ls : List Nat) (k : Nat) (p : Nat → Bool) : (s.putM x ls k p).eng = s.eng := rfl
@[simp] theorem State.putM_sched (s : State) (x : Cx) (ls : List Nat) (k : Nat) (p : Nat → Bool) : (s.putM x ls k p).sched = s.sched := rfl
@[simp] theorem State.putM_gfx (s : State) (x : Cx) (ls : List Nat) (k : Nat) (p : Nat → Bool) : (s.putM x ls k p).gfx = s.gfx := rfl
@[simp] theorem State.putM_fab (s : State) (x : Cx) (ls : List Nat) (k : Nat) (p : Nat → Bool) : (s.putM x ls k p).fab = s.fab := rfl
@[simp] theorem State.putM_host (s : State) (x : Cx) (ls : List Nat) (k : Nat) (p : Nat → Bool) : (s.putM x ls k p).host = s.host := rfl
@[simp] theorem State.putM_mgmt (s : State) (x : Cx) (ls : List Nat) (k : Nat) (p : Nat → Bool) : (s.putM x ls k p).mgmt = s.mgmt := rfl
@[simp] theorem State.putM_time (s : State) (x : Cx) (ls : List Nat) (k : Nat) (p : Nat → Bool) : (s.putM x ls k p).time = s.time := rfl
@[simp] theorem State.putM_ticks (s : State) (x : Cx) (ls : List Nat) (k : Nat) (p : Nat → Bool) : (s.putM x ls k p).ticks = s.ticks := rfl
@[simp] theorem State.putM_frees (s : State) (x : Cx) (ls : List Nat) (k : Nat) (p : Nat → Bool) : (s.putM x ls k p).frees = s.frees := rfl
@[simp] theorem State.putM_picks (s : State) (x : Cx) (ls : List Nat) (k : Nat) (p : Nat → Bool) : (s.putM x ls k p).picks = s.picks := rfl
@[simp] theorem State.putM_evt (s : State) (x : Cx) (ls : List Nat) (k : Nat) (p : Nat → Bool) : (s.putM x ls k p).evt = s.evt := rfl
@[simp] theorem State.putM_work_crews (s : State) (x : Cx) (ls : List Nat) (k : Nat) (p : Nat → Bool) : (s.putM x ls k p).work.crews = s.work.crews := rfl
@[simp] theorem State.putM_work_engs (s : State) (x : Cx) (ls : List Nat) (k : Nat) (p : Nat → Bool) : (s.putM x ls k p).work.engs = s.work.engs := rfl
@[simp] theorem State.putM_work_outs (s : State) (x : Cx) (ls : List Nat) (k : Nat) (p : Nat → Bool) : (s.putM x ls k p).work.outs = s.work.outs := rfl
@[simp] theorem State.putM_work_tasks (s : State) (x : Cx) (ls : List Nat) (k : Nat) (p : Nat → Bool) : (s.putM x ls k p).work.tasks = s.work.tasks := rfl
@[simp] theorem State.putM_work_next (s : State) (x : Cx) (ls : List Nat) (k : Nat) (p : Nat → Bool) : (s.putM x ls k p).work.next = s.work.next := rfl
@[simp] theorem State.putM_work_cur (s : State) (x : Cx) (ls : List Nat) (k : Nat) (p : Nat → Bool) : (s.putM x ls k p).work.cur = s.work.cur := rfl
@[simp] theorem State.putM_work_issued (s : State) (x : Cx) (ls : List Nat) (k : Nat) (p : Nat → Bool) : (s.putM x ls k p).work.issued = s.work.issued := rfl

@[simp] theorem State.pushRec_mem (s : State) (gk : Nat) (m : BitVec 8) (r : TrapRec) : (s.pushRec gk m r).mem = s.mem := rfl
@[simp] theorem State.pushRec_poison (s : State) (gk : Nat) (m : BitVec 8) (r : TrapRec) : (s.pushRec gk m r).poison = s.poison := rfl
@[simp] theorem State.pushRec_coh (s : State) (gk : Nat) (m : BitVec 8) (r : TrapRec) : (s.pushRec gk m r).coh = s.coh := rfl
@[simp] theorem State.pushRec_eng (s : State) (gk : Nat) (m : BitVec 8) (r : TrapRec) : (s.pushRec gk m r).eng = s.eng := rfl
@[simp] theorem State.pushRec_sched (s : State) (gk : Nat) (m : BitVec 8) (r : TrapRec) : (s.pushRec gk m r).sched = s.sched := rfl
@[simp] theorem State.pushRec_gfx (s : State) (gk : Nat) (m : BitVec 8) (r : TrapRec) : (s.pushRec gk m r).gfx = s.gfx := rfl
@[simp] theorem State.pushRec_fab (s : State) (gk : Nat) (m : BitVec 8) (r : TrapRec) : (s.pushRec gk m r).fab = s.fab := rfl
@[simp] theorem State.pushRec_host (s : State) (gk : Nat) (m : BitVec 8) (r : TrapRec) : (s.pushRec gk m r).host = s.host := rfl
@[simp] theorem State.pushRec_mgmt (s : State) (gk : Nat) (m : BitVec 8) (r : TrapRec) : (s.pushRec gk m r).mgmt = s.mgmt := rfl
@[simp] theorem State.pushRec_time (s : State) (gk : Nat) (m : BitVec 8) (r : TrapRec) : (s.pushRec gk m r).time = s.time := rfl
@[simp] theorem State.pushRec_ticks (s : State) (gk : Nat) (m : BitVec 8) (r : TrapRec) : (s.pushRec gk m r).ticks = s.ticks := rfl
@[simp] theorem State.pushRec_frees (s : State) (gk : Nat) (m : BitVec 8) (r : TrapRec) : (s.pushRec gk m r).frees = s.frees := rfl
@[simp] theorem State.pushRec_picks (s : State) (gk : Nat) (m : BitVec 8) (r : TrapRec) : (s.pushRec gk m r).picks = s.picks := rfl
@[simp] theorem State.pushRec_evt (s : State) (gk : Nat) (m : BitVec 8) (r : TrapRec) : (s.pushRec gk m r).evt = s.evt := rfl
@[simp] theorem State.pushRec_work_crews (s : State) (gk : Nat) (m : BitVec 8) (r : TrapRec) : (s.pushRec gk m r).work.crews = s.work.crews := rfl
@[simp] theorem State.pushRec_work_engs (s : State) (gk : Nat) (m : BitVec 8) (r : TrapRec) : (s.pushRec gk m r).work.engs = s.work.engs := rfl
@[simp] theorem State.pushRec_work_outs (s : State) (gk : Nat) (m : BitVec 8) (r : TrapRec) : (s.pushRec gk m r).work.outs = s.work.outs := rfl
@[simp] theorem State.pushRec_work_tasks (s : State) (gk : Nat) (m : BitVec 8) (r : TrapRec) : (s.pushRec gk m r).work.tasks = s.work.tasks := rfl
@[simp] theorem State.pushRec_work_next (s : State) (gk : Nat) (m : BitVec 8) (r : TrapRec) : (s.pushRec gk m r).work.next = s.work.next := rfl
@[simp] theorem State.pushRec_work_cur (s : State) (gk : Nat) (m : BitVec 8) (r : TrapRec) : (s.pushRec gk m r).work.cur = s.work.cur := rfl
@[simp] theorem State.pushRec_work_issued (s : State) (gk : Nat) (m : BitVec 8) (r : TrapRec) : (s.pushRec gk m r).work.issued = s.work.issued := rfl

@[simp] theorem State.modSl_mem (s : State) (x : Cx) (f : Nat → Slice → Slice) : (s.modSl x f).mem = s.mem := rfl
@[simp] theorem State.modSl_poison (s : State) (x : Cx) (f : Nat → Slice → Slice) : (s.modSl x f).poison = s.poison := rfl
@[simp] theorem State.modSl_coh (s : State) (x : Cx) (f : Nat → Slice → Slice) : (s.modSl x f).coh = s.coh := rfl
@[simp] theorem State.modSl_eng (s : State) (x : Cx) (f : Nat → Slice → Slice) : (s.modSl x f).eng = s.eng := rfl
@[simp] theorem State.modSl_sched (s : State) (x : Cx) (f : Nat → Slice → Slice) : (s.modSl x f).sched = s.sched := rfl
@[simp] theorem State.modSl_gfx (s : State) (x : Cx) (f : Nat → Slice → Slice) : (s.modSl x f).gfx = s.gfx := rfl
@[simp] theorem State.modSl_fab (s : State) (x : Cx) (f : Nat → Slice → Slice) : (s.modSl x f).fab = s.fab := rfl
@[simp] theorem State.modSl_host (s : State) (x : Cx) (f : Nat → Slice → Slice) : (s.modSl x f).host = s.host := rfl
@[simp] theorem State.modSl_mgmt (s : State) (x : Cx) (f : Nat → Slice → Slice) : (s.modSl x f).mgmt = s.mgmt := rfl
@[simp] theorem State.modSl_time (s : State) (x : Cx) (f : Nat → Slice → Slice) : (s.modSl x f).time = s.time := rfl
@[simp] theorem State.modSl_ticks (s : State) (x : Cx) (f : Nat → Slice → Slice) : (s.modSl x f).ticks = s.ticks := rfl
@[simp] theorem State.modSl_frees (s : State) (x : Cx) (f : Nat → Slice → Slice) : (s.modSl x f).frees = s.frees := rfl
@[simp] theorem State.modSl_picks (s : State) (x : Cx) (f : Nat → Slice → Slice) : (s.modSl x f).picks = s.picks := rfl
@[simp] theorem State.modSl_evt (s : State) (x : Cx) (f : Nat → Slice → Slice) : (s.modSl x f).evt = s.evt := rfl
@[simp] theorem State.modSl_work_crews (s : State) (x : Cx) (f : Nat → Slice → Slice) : (s.modSl x f).work.crews = s.work.crews := rfl
@[simp] theorem State.modSl_work_engs (s : State) (x : Cx) (f : Nat → Slice → Slice) : (s.modSl x f).work.engs = s.work.engs := rfl
@[simp] theorem State.modSl_work_outs (s : State) (x : Cx) (f : Nat → Slice → Slice) : (s.modSl x f).work.outs = s.work.outs := rfl
@[simp] theorem State.modSl_work_tasks (s : State) (x : Cx) (f : Nat → Slice → Slice) : (s.modSl x f).work.tasks = s.work.tasks := rfl
@[simp] theorem State.modSl_work_next (s : State) (x : Cx) (f : Nat → Slice → Slice) : (s.modSl x f).work.next = s.work.next := rfl
@[simp] theorem State.modSl_work_cur (s : State) (x : Cx) (f : Nat → Slice → Slice) : (s.modSl x f).work.cur = s.work.cur := rfl
@[simp] theorem State.modSl_work_issued (s : State) (x : Cx) (f : Nat → Slice → Slice) : (s.modSl x f).work.issued = s.work.issued := rfl

@[simp] theorem State.putWord_work (s : State) (a : Nat) (v : Word) (bm : BitVec 4) (po : Bool) : (s.putWord a v bm po).work = s.work := rfl
@[simp] theorem State.putWord_coh (s : State) (a : Nat) (v : Word) (bm : BitVec 4) (po : Bool) : (s.putWord a v bm po).coh = s.coh := rfl
@[simp] theorem State.putWord_eng (s : State) (a : Nat) (v : Word) (bm : BitVec 4) (po : Bool) : (s.putWord a v bm po).eng = s.eng := rfl
@[simp] theorem State.putWord_sched (s : State) (a : Nat) (v : Word) (bm : BitVec 4) (po : Bool) : (s.putWord a v bm po).sched = s.sched := rfl
@[simp] theorem State.putWord_gfx (s : State) (a : Nat) (v : Word) (bm : BitVec 4) (po : Bool) : (s.putWord a v bm po).gfx = s.gfx := rfl
@[simp] theorem State.putWord_fab (s : State) (a : Nat) (v : Word) (bm : BitVec 4) (po : Bool) : (s.putWord a v bm po).fab = s.fab := rfl
@[simp] theorem State.putWord_host (s : State) (a : Nat) (v : Word) (bm : BitVec 4) (po : Bool) : (s.putWord a v bm po).host = s.host := rfl
@[simp] theorem State.putWord_mgmt (s : State) (a : Nat) (v : Word) (bm : BitVec 4) (po : Bool) : (s.putWord a v bm po).mgmt = s.mgmt := rfl
@[simp] theorem State.putWord_time (s : State) (a : Nat) (v : Word) (bm : BitVec 4) (po : Bool) : (s.putWord a v bm po).time = s.time := rfl
@[simp] theorem State.putWord_ticks (s : State) (a : Nat) (v : Word) (bm : BitVec 4) (po : Bool) : (s.putWord a v bm po).ticks = s.ticks := rfl
@[simp] theorem State.putWord_frees (s : State) (a : Nat) (v : Word) (bm : BitVec 4) (po : Bool) : (s.putWord a v bm po).frees = s.frees := rfl
@[simp] theorem State.putWord_picks (s : State) (a : Nat) (v : Word) (bm : BitVec 4) (po : Bool) : (s.putWord a v bm po).picks = s.picks := rfl
@[simp] theorem State.putWord_evt (s : State) (a : Nat) (v : Word) (bm : BitVec 4) (po : Bool) : (s.putWord a v bm po).evt = s.evt := rfl

end Sys2Proof.Machine
end

