-- ==== Sys2Proof/Laws/Regs.lean ====
section
/-! SUPPORT. Reading and writing registers: what each write changes, and that it changes nothing else. -/

namespace Sys2Proof.Machine
open Sys2Proof

/-! ### Access to gangs, crews, domains and dies -/

theorem State.gang_modGang (s : State) (g : Nat) (f : Gang → Gang) (j : Nat) :
    (s.modGang g f).gang j = if j = g then (s.gang j).map f else s.gang j := smFind_smModify _ _ _ _

theorem State.gang_setGang (s : State) (g : Nat) (v : Gang) (j : Nat) :
    (s.setGang g v).gang j = if j = g then some v else s.gang j := smFind_smSet _ _ _ _

theorem State.crew_modCrew (s : State) (c : Nat) (f : Crew → Crew) (j : Nat) :
    (s.modCrew c f).crew j = if j = c then (s.crew j).map f else s.crew j := smFind_smModify _ _ _ _

theorem State.ceng_modCeng (s : State) (c : Nat) (f : CrewEng → CrewEng) (j : Nat) :
    (s.modCeng c f).ceng j = if j = c then f (s.ceng j) else s.ceng j := by
  simp only [State.ceng, State.modCeng, State.setCeng, smGet, smFind_smSet]
  split <;> simp_all

theorem State.domain_modDomain (s : State) (d : Nat) (f : Domain → Domain) (j : Nat) :
    (s.modDomain d f).domain j = if j = d then f (s.domain j) else s.domain j := by
  simp only [State.domain, State.modDomain, smGet, smFind_smSet]
  split <;> simp_all

theorem State.die_modDie (s : State) (d : Nat) (f : Die → Die) (j : Nat) :
    (s.modDie d f).die j = if j = d then f (s.die j) else s.die j := by
  simp only [State.die, State.modDie, smGet, smFind_smSet]
  split <;> simp_all

/-! ### Register files -/

/-- A scalar register read after a scalar register is written, in the same mode. -/
theorem Regs.rdS_wrS (g : Regs) (h : Bool) (n k : Nat) (v : Word) :
    (g.wrS h n v).rdS h k = if k = n then v else g.rdS h k := by
  by_cases hk : k = n
  · subst hk; simp only [Regs.wrS, Regs.rdS]; split <;> simp [smGet_smPut]
  · simp only [Regs.wrS, Regs.rdS]; split <;> split <;> simp [smGet_smPut, hk]

/-- m0 reads as ones and takes no write; every other mask register holds what was written (R104). -/
theorem Regs.rdM_wrM (g : Regs) (k j : Nat) (v : Word) :
    (g.wrM k v).rdM j = if j = 0 then 0xFFFFFFFF else if j = k then v else g.rdM j := by
  by_cases hj : j = 0
  · simp [Regs.rdM, hj]
  · by_cases hk : k = 0
    · subst hk; simp [Regs.wrM, Regs.rdM, hj]
    · simp [Regs.wrM, Regs.rdM, hj, hk, smGet_smPut]

/-- A segment register read after a segment register is written. -/
theorem Regs.rdSeg_wrSeg (g : Regs) (k j : Nat) (v : Seg) :
    (g.wrSeg k v).rdSeg j = if j = k then v else g.rdSeg j := smGet_smPut _ _ _ _ _

theorem vkey_inj {r i d j : Nat} (hi : i < 32) (hj : j < 32) : vkey r i = vkey d j ↔ r = d ∧ i = j := by
  unfold vkey; omega

/-- A vector register read after one register of some lanes is written. -/
theorem Regs.rdV_putV (g : Regs) (ls : List Nat) (d : Nat) (f : Nat → Word) (r i : Nat) (hi : i < 32)
    (hl : ∀ j ∈ ls, j < 32) :
    (g.putV (ls.map (fun j => (vkey d j, f j)))).rdV r i = if r = d ∧ i ∈ ls then f i else g.rdV r i := by
  unfold Regs.putV Regs.rdV
  simp only [smGet_smPuts]
  cases h : (ls.map (fun j => (vkey d j, f j))).reverse.find? (fun p => decide (p.1 = vkey r i)) with
  | none =>
    rw [List.find?_eq_none] at h
    rw [if_neg]
    · rfl
    · rintro ⟨rfl, hm⟩
      exact h (vkey r i, f i) (by simpa using ⟨i, hm, rfl, rfl⟩) (by simp)
  | some p =>
    have hp := List.find?_some h
    have hmem := List.mem_of_find?_eq_some h
    simp only [List.mem_reverse, List.mem_map] at hmem
    obtain ⟨j, hj, rfl⟩ := hmem
    obtain ⟨rfl, rfl⟩ := (vkey_inj (hl j hj) hi).1 (by simpa using hp)
    simp [hj]

/-- The bits of a mask register after a compare (R105). -/
theorem getLsbD_setBit (w : Word) (i k : Nat) (b : Bool) (hk : k < 32) :
    (setBit w i b).getLsbD k = if k = i then b else w.getLsbD k := by
  have key : (((1 : Word) <<< i).getLsbD k) = decide (k = i) := by
    simp only [BitVec.getLsbD_shiftLeft, hk, decide_true, Bool.true_and]
    by_cases h : k = i
    · subst h; simp
    · simp only [h, decide_false]
      by_cases h2 : k < i
      · simp [h2]
      · have : k - i ≠ 0 := by omega
        simp [this]
  unfold setBit
  cases b
  · simp only [Bool.false_eq_true, if_false, BitVec.getLsbD_and, BitVec.getLsbD_not, hk, decide_true, Bool.true_and, key]
    by_cases h : k = i <;> simp [h]
  · simp only [if_true, BitVec.getLsbD_or, key]
    by_cases h : k = i <;> simp [h]

theorem getLsbD_maskResult (ls : List Nat) (old : Word) (p : Nat → Bool) (k : Nat) (hk : k < 32) :
    (maskResult old ls p).getLsbD k = if k ∈ ls then p k else old.getLsbD k := by
  unfold maskResult
  induction ls generalizing old with
  | nil => simp
  | cons i ls ih =>
    rw [List.foldl_cons, ih, getLsbD_setBit _ _ _ _ hk]
    by_cases h : k = i
    · subst h; simp
    · simp [h]

/-! ### The issuing word's writes -/

theorem Cx.lanes_lt (x : Cx) : ∀ i ∈ x.lanes, i < 32 := by
  intro i hi; unfold Cx.lanes at hi; simp only [List.mem_filter, List.mem_range] at hi; exact hi.1

theorem State.gang_modRegs (s : State) (x : Cx) (f : Regs → Regs) (j : Nat) :
    (s.modRegs x f).gang j = if j = x.cur.gang then (s.gang j).map (fun g => { g with r := f g.r }) else s.gang j :=
  State.gang_modGang _ _ _ _

end Sys2Proof.Machine
end

