-- ==== Sys2Proof/Laws/Issue.lean ====
section
/-! SUPPORT. What the issue of a word does around the word's own effect: a word that may issue completes with its
meaning's answer, and completion changes nothing but the control state of its gang. -/

namespace Sys2Proof.Machine
open Sys2Proof

/-- A word that may issue is finished with its meaning's answer. -/
theorem issue_of (i : Instr) (s : State) (x : Cx) (body : State → Cx → Res) (h : Issues s x i) :
    issue i s body = .next (finish x (body s x)) := by
  have hf : (!x.cur.retry && mustHold s x i) = false := by
    cases hr : x.cur.retry
    · simp [h.free hr]
    · rfl
  unfold issue
  simp only [h.ctx, h.checks, h.loops, hf]
  simp

/-- A word whose check fails takes the trap of that check (R33). -/
theorem issue_check (i : Instr) (s : State) (x : Cx) (body : State → Cx → Res) (t : TrapReq) (hx : s.cx = some x)
    (h : checkIssue x i = some t) : issue i s body = .next (raiseTrap s x t) := by
  unfold issue; simp only [hx, h]

/-- A word always has a next state. -/
theorem issue_next (i : Instr) (s : State) (body : State → Cx → Res) : ∃ t, issue i s body = .next t := by
  unfold issue; split <;> exact ⟨_, rfl⟩

/-- A word that no group is issuing changes nothing. -/
theorem issue_idle (i : Instr) (s : State) (body : State → Cx → Res) (h : s.cx = none) : issue i s body = .next s := by
  unfold issue; simp only [h]

theorem smModify_smModify {α : Type} (m : List (Nat × α)) (k : Nat) (f g : α → α) :
    smModify (smModify m k f) k g = smModify m k (g ∘ f) := by
  unfold smModify; rw [List.map_map]; apply List.map_congr_left; intro p _
  by_cases h : p.1 = k <;> simp [h]

theorem Gang.still_modSlices (g : Gang) (m : BitVec 8) (f : Slice → Slice) (h : ∀ sl, (f sl).still = sl.still) :
    (g.modSlices m f).still = g.still := by
  unfold Gang.still Gang.modSlices
  simp only [List.map_map, Gang.mk.injEq, true_and, and_true]
  rw [show (Slice.still ∘ fun p : Slice × Nat => if m.getLsbD p.2 then f p.1 else p.1) = Slice.still ∘ Prod.fst from
    funext fun p => by simp only [Function.comp]; split <;> simp [h]]
  rw [← List.map_map, List.zipIdx_map_fst]

/-- A change of a gang that `Gang.still` does not see is not seen in the still state. -/
theorem State.still_modGang (s : State) (gk : Nat) (f : Gang → Gang) (h : ∀ g, (f g).still = g.still) :
    (s.modGang gk f).still gk = s.still gk := by
  unfold State.still State.modGang
  simp only [smModify_smModify]
  rw [show Gang.still ∘ f = Gang.still from funext h]

theorem State.still_modSlices (s : State) (gk : Nat) (m : BitVec 8) (f : Slice → Slice)
    (h : ∀ sl, (f sl).still = sl.still) : (s.modGang gk (fun g => g.modSlices m f)).still gk = s.still gk :=
  State.still_modGang _ _ _ fun g => Gang.still_modSlices g m f h

theorem State.still_pushRec (s : State) (gk : Nat) (m : BitVec 8) (r : TrapRec) :
    (s.pushRec gk m r).still gk = s.still gk := by
  refine State.still_modGang _ _ _ fun g => ?_
  have := Gang.still_modSlices g m (fun sl => { sl with stopped := true }) (fun _ => rfl)
  unfold Gang.still at this ⊢
  simp only [Gang.mk.injEq] at this ⊢
  exact ⟨this.1, this.2.1, this.2.2.1, this.2.2.2.1, this.2.2.2.2.1, this.2.2.2.2.2.1, this.2.2.2.2.2.2⟩

theorem State.still_ctx (s : State) (gk : Nat) (c : Option Cur) (i : Issued) :
    ({ s with work.cur := c, work.issued := i } : State).still gk = s.still gk := rfl

theorem Slice.still_advance (sl : Slice) (w : Word) : (sl.advance w).still = sl.still := rfl

theorem Slice.still_issued (sl : Slice) (c : Cur) (adv : Bool) : (sl.issued c adv).still = sl.still := by
  unfold Slice.issued; dsimp only
  split
  · rfl
  · split
    · rfl
    · split
      · split
        · split <;> rfl
        · rfl
      · rfl

theorem Slice.still_joined (sl : Slice) (m : BitVec 8) (f : Slice) : (sl.joined m f).still = sl.still := rfl

theorem State.still_mixTrap (s : State) (gk : Nat) (g : Gang) (m : BitVec 8) :
    (mixTrap s gk g m).still gk = s.still gk := by
  unfold mixTrap
  split
  · rfl
  · dsimp only
    rw [State.still_modSlices, State.still_pushRec]
    exact fun _ => rfl

theorem State.still_resolveJoin (s : State) (gk : Nat) : (resolveJoin s gk).still gk = s.still gk := by
  unfold resolveJoin
  split
  · rfl
  · dsimp only
    split
    · rfl
    · split
      · rfl
      · split
        · split
          · split
            · rw [State.still_pushRec, State.still_modSlices]; exact fun sl => Slice.still_joined sl _ _
            · rw [State.still_modSlices]; exact fun sl => Slice.still_joined sl _ _
          · rw [State.still_modSlices]; exact fun sl => Slice.still_joined sl _ _
        · have : ∀ (g : Gang) (l : List (BitVec 8)) (s : State),
              (l.foldl (fun s m => mixTrap s gk g m) s).still gk = s.still gk := by
            intro g l; induction l with
            | nil => intro s; rfl
            | cons m l ih => intro s; rw [List.foldl_cons, ih, State.still_mixTrap]
          exact this _ _ _

theorem State.still_stepTrap (s : State) (x : Cx) : (stepTrap s x).still x.cur.gang = s.still x.cur.gang := by
  unfold stepTrap
  split
  · split
    · rfl
    · next g _ =>
      have : ∀ (l : List (BitVec 8)) (s : State),
          (l.foldl (fun s m => sstepRec s x g m) s).still x.cur.gang = s.still x.cur.gang := by
        intro l; induction l with
        | nil => intro s; rfl
        | cons m l ih => intro s; rw [List.foldl_cons, ih]; exact State.still_pushRec _ _ _ _
      exact this _ _
  · rfl

theorem State.still_endChain (s : State) (x : Cx) (adv : Bool) :
    (endChain s x adv).still x.cur.gang = s.still x.cur.gang := by
  unfold endChain; dsimp only
  rw [State.still_resolveJoin]
  split
  · rw [State.still_ctx, State.still_modSlices]; exact fun sl => Slice.still_issued sl _ _
  · rw [State.still_stepTrap, State.still_ctx, State.still_modSlices]; exact fun sl => Slice.still_issued sl _ _

theorem State.still_completeWord (s : State) (x : Cx) (adv : Bool) :
    (completeWord s x adv).still x.cur.gang = s.still x.cur.gang := by
  unfold completeWord; split
  · exact State.still_endChain s x adv
  · rfl

theorem State.still_unblock (s : State) (x : Cx) : (unblock s x).still x.cur.gang = s.still x.cur.gang := by
  unfold unblock; split
  · rfl
  · exact State.still_modSlices _ _ _ _ fun _ => rfl

theorem State.still_blockGroup (s : State) (x : Cx) : (blockGroup s x).still x.cur.gang = s.still x.cur.gang := by
  unfold blockGroup; split
  · rfl
  · exact State.still_modSlices _ _ _ _ fun _ => rfl

theorem State.still_raiseTrap (s : State) (x : Cx) (t : TrapReq) :
    (raiseTrap s x t).still x.cur.gang = s.still x.cur.gang := by
  unfold raiseTrap; dsimp only
  exact (State.still_ctx _ _ _ _).trans (State.still_pushRec _ _ _ _)

/-- Finishing a word changes nothing but the control state of its gang, whatever the word's meaning answered. -/
theorem finish_still (x : Cx) (r : Res) : (finish x r).still x.cur.gang = r.state.still x.cur.gang := by
  cases r with
  | done s => exact (State.still_completeWord _ x true).trans (State.still_unblock s x)
  | ctl s => exact State.still_completeWord s x false
  | trap s t => exact (State.still_raiseTrap _ x t).trans (State.still_unblock s x)
  | hold s => rfl
  | block s => exact (State.still_completeWord _ x true).trans (State.still_blockGroup s x)

/-! ### The gang of the issuing context, and words that write registers only -/

theorem cx_gang (s : State) (x : Cx) (h : s.cx = some x) : s.gang x.cur.gang = some x.gang := by
  unfold State.cx at h
  split at h
  · cases h
  · split at h
    · cases h
    · split at h
      · cases h
      · split at h
        · cases h
        · cases h; assumption

theorem State.gang_still (s : State) (gk k : Nat) :
    (s.still gk).gang k = if k = gk then (s.gang k).map Gang.still else s.gang k := smFind_smModify _ _ _ _

theorem State.rest_still (s : State) (gk : Nat) : (s.still gk).rest = s.rest := rfl

theorem State.rest_modGang (s : State) (gk : Nat) (f : Gang → Gang) : (s.modGang gk f).rest = s.rest := rfl

/-- A state that differs from a register write only in what completion places. -/
theorem onlyRegs_of (s t : State) (x : Cx) (f : Regs → Regs) (hx : s.cx = some x)
    (h : t.still x.cur.gang = (s.modRegs x f).still x.cur.gang) : OnlyRegs s t x (f x.gang.r) := by
  have hg := cx_gang s x hx
  have hk : ∀ k, (t.still x.cur.gang).gang k = ((s.modRegs x f).still x.cur.gang).gang k := fun k => by rw [h]
  refine ⟨?_, fun k hne => ?_, ?_⟩
  · rw [← State.rest_still t x.cur.gang, h]; rfl
  · have := hk k
    simpa [State.gang_still, State.gang_modRegs, hne] using this
  · have := hk x.cur.gang
    simp only [State.gang_still, State.gang_modRegs, if_true, hg, Option.map_some] at this
    cases ht : t.gang x.cur.gang with
    | none => simp [ht] at this
    | some g =>
      refine ⟨g, rfl, ?_⟩
      simpa [ht, Gang.still] using this

/-- A word whose meaning is `vecOp`. -/
theorem doesV_vecOp (s : State) (x : Cx) (i : Instr) (d : Fin 64) (f : Cx → Nat → Word) (h : Issues s x i)
    (he : exec i s = issue i s (vecOp d f)) : DoesV s x i (x.oneV d.val (f x)) := by
  refine ⟨finish x (vecOp d f s x), (x.gang.r.putV (x.lanes.map (fun l => (vkey d.val l, f x l)))),
    he.trans (issue_of i s x _ h), onlyRegs_of s _ x (fun r => r.putV (x.lanes.map (fun l => (vkey d.val l, f x l))))
      h.ctx (finish_still x _), fun r l hl => ?_, rfl⟩
  rw [Regs.rdV_putV _ _ _ _ _ _ hl x.lanes_lt]
  unfold Cx.oneV; split <;> rfl

/-- A word whose meaning is `vecOp2`. -/
theorem doesV_vecOp2 (s : State) (x : Cx) (i : Instr) (d : Fin 64) (f : Cx → Nat → DWord) (h : Issues s x i)
    (he : exec i s = issue i s (vecOp2 d f)) : DoesV s x i (x.twoV d.val (f x)) := by
  refine ⟨finish x (vecOp2 d f s x), ((x.gang.r.putV (x.lanes.map (fun l => (vkey d.val l, loW (f x l))))).putV
      (x.lanes.map (fun l => (vkey (d.val + 1) l, hiW (f x l))))),
    he.trans (issue_of i s x _ h), ?_, fun r l hl => ?_, rfl⟩
  · refine onlyRegs_of s _ x (fun r => (r.putV (x.lanes.map (fun l => (vkey d.val l, loW (f x l))))).putV
      (x.lanes.map (fun l => (vkey (d.val + 1) l, hiW (f x l))))) h.ctx ((finish_still x _).trans ?_)
    have : (vecOp2 d f s x).state = s.modRegs x (fun r => (r.putV (x.lanes.map (fun l => (vkey d.val l, loW (f x l))))).putV
      (x.lanes.map (fun l => (vkey (d.val + 1) l, hiW (f x l))))) := by
      unfold vecOp2 Res.state State.putV State.modRegs State.modGang
      simp only [smModify_smModify]; rfl
    rw [this]
  · rw [Regs.rdV_putV _ _ _ _ _ _ hl x.lanes_lt, Regs.rdV_putV _ _ _ _ _ _ hl x.lanes_lt]
    unfold Cx.twoV loW hiW
    by_cases hm : l ∈ x.lanes
    · by_cases h1 : r = d.val
      · subst h1; simp [hm]
      · by_cases h2 : r = d.val + 1
        · subst h2; simp [hm]
        · simp [h1, h2]
    · simp [hm]

/-- A word whose meaning is `cmpOp`. -/
theorem doesM_cmpOp (s : State) (x : Cx) (i : Instr) (k : Fin 8) (p : Cx → Nat → Bool) (h : Issues s x i)
    (he : exec i s = issue i s (cmpOp k p)) : DoesM s x i k.val (p x) := by
  refine ⟨finish x (cmpOp k p s x), x.gang.r.wrM k.val (maskResult (x.gang.r.rdM k.val) x.lanes (p x)),
    he.trans (issue_of i s x _ h),
    onlyRegs_of s _ x (fun r => r.wrM k.val (maskResult (r.rdM k.val) x.lanes (p x))) h.ctx (finish_still x _),
    fun j l hl => ?_, by unfold Regs.wrM; split <;> rfl⟩
  rw [Regs.rdM_wrM]
  by_cases hj0 : j = 0
  · subst hj0
    have : ¬ (0 = k.val ∧ k.val ≠ 0 ∧ l ∈ x.lanes) := by rintro ⟨a, b, _⟩; exact b a.symm
    rw [if_neg this]; simp [Regs.rdM]
  · rw [if_neg hj0]
    by_cases hj : j = k.val
    · subst hj; rw [if_pos rfl, getLsbD_maskResult _ _ _ _ hl]
      by_cases hm : l ∈ x.lanes <;> simp [hm, hj0]
    · simp [hj]

/-- Scalar registers written one after another, as reads see them. -/
theorem Regs.rdS_wrS_other (g : Regs) (h : Bool) (n k : Nat) (v : Word) (hk : 56 ≤ k) :
    (g.wrS h n v).rdS (!h) k = g.rdS (!h) k := by
  cases h
  · simp only [Regs.wrS, Regs.rdS, Bool.false_and, Bool.not_false, Bool.true_and, hk, decide_true, if_true]; rfl
  · simp only [Regs.wrS, Regs.rdS, Bool.true_and, Bool.not_true, Bool.false_and]
    by_cases hn : 56 ≤ n
    · simp [hn]
    · have : k ≠ n := by omega
      simp [hn, smGet_smPut, this]

/-- A word whose meaning is `scaOp`. -/
theorem doesS_scaOp (s : State) (x : Cx) (i : Instr) (d : Fin 64) (f : Cx → Word) (h : Issues s x i)
    (he : exec i s = issue i s (scaOp d f)) : DoesS s x i (oneS d.val (f x)) := by
  refine ⟨finish x (scaOp d f s x), x.gang.r.wrS x.hnd d.val (f x), he.trans (issue_of i s x _ h),
    onlyRegs_of s _ x (fun r => r.wrS x.hnd d.val (f x)) h.ctx (finish_still x _), fun n => ?_,
    fun n hn => Regs.rdS_wrS_other _ _ _ _ _ hn, by unfold Regs.wrS; split <;> rfl⟩
  rw [Regs.rdS_wrS]; unfold oneS; split <;> rfl

end Sys2Proof.Machine
end

