-- ==== Sys2Proof/Laws/Path.lean ====
section
/-! SUPPORT. What the operations of the memory path can change: those of the L1s and of fills touch the path and the
running gangs only; a recall, a push and an engine's write touch the bytes they name besides. -/

namespace Sys2Proof.Machine
open Sys2Proof

/-- The state without the memory path, the gangs and their outstanding instructions. -/
def State.offPath (s : State) : State :=
  { s with coh := {}, work.gangs := [], work.outs := [], work.next := 0 }

/-- The same without the storage. -/
def State.offMem (s : State) : State := { s.offPath with mem := [], poison := [] }

theorem State.offMem_of_offPath {s t : State} (h : t.offPath = s.offPath) : t.offMem = s.offMem := by
  unfold State.offMem; rw [h]

theorem State.mem_of_offPath {s t : State} (h : t.offPath = s.offPath) : t.mem = s.mem :=
  congrArg (fun u => u.mem) (show t.offPath = s.offPath from h)
theorem State.poison_of_offPath {s t : State} (h : t.offPath = s.offPath) : t.poison = s.poison :=
  congrArg (fun u => u.poison) (show t.offPath = s.offPath from h)

/-- What each step of a fold keeps, the fold keeps. -/
theorem foldl_keeps_of {α β : Type} (f : State → α → State) (k : State → β) (l : List α) (h : ∀ s, ∀ a ∈ l, k (f s a) = k s)
    (s : State) : k (l.foldl f s) = k s := by
  induction l generalizing s with
  | nil => rfl
  | cons a l ih =>
    exact (ih (fun s b hb => h s b (List.mem_cons_of_mem _ hb)) _).trans (h s a List.mem_cons_self)

theorem foldl_keeps {α β : Type} (f : State → α → State) (k : State → β) (h : ∀ s a, k (f s a) = k s) (l : List α)
    (s : State) : k (l.foldl f s) = k s := foldl_keeps_of f k l (fun s a _ => h s a) s

/-! ### L1s, requests, fills -/

theorem putL1_offPath (s : State) (c l : Nat) (e : L1Line) : (s.putL1 c l e).offPath = s.offPath := rfl
theorem mapL1_offPath (s : State) (c : Nat) (f : Nat → L1Line → L1Line) : (s.mapL1 c f).offPath = s.offPath := rfl
theorem putDir_offPath (s : State) (l : Nat) (e : DirEnt) : (s.putDir l e).offPath = s.offPath := rfl
theorem post_offPath (s : State) (q : ReqX) : (post s q).offPath = s.offPath := rfl
theorem modGang_offPath (s : State) (g : Nat) (f : Gang → Gang) : (s.modGang g f).offPath = s.offPath := rfl
theorem addLate_offPath (s : State) (gk : Nat) (pc : Word) (e : Err) : (addLate s gk pc e).offPath = s.offPath := rfl
theorem dropFillsOf_offPath (s : State) (c : Nat) (f : Req → Bool) : (dropFillsOf s c f).offPath = s.offPath := rfl
theorem writeOut_offPath (s : State) (o : Out) : (writeOut s o).offPath = s.offPath := rfl

theorem acquire_offPath (s : State) (c : Nat) (w : Bool) : (acquire s c w).offPath = s.offPath := by
  unfold acquire; split <;> rfl

theorem pushLine_offPath (s : State) (c g dom l : Nat) (ws : BitVec 16) (ev : Bool) :
    (pushLine s c g dom l ws ev).offPath = s.offPath := by
  unfold pushLine; simp only; split <;> rfl

theorem writebackLine_offPath (s : State) (c dom l : Nat) (ws : BitVec 16) :
    (writebackLine s c dom l ws).offPath = s.offPath := by
  unfold writebackLine; simp only; split <;> rfl

/-- A line that leaves an L1 sends its words on their way home; no storage changes yet. -/
theorem evictLine_offPath (s : State) (c g dom l : Nat) : (evictLine s c g dom l).offPath = s.offPath := by
  unfold evictLine
  rw [putL1_offPath, writebackLine_offPath, pushLine_offPath]

theorem makeRoom_offPath (s : State) (c g dom l : Nat) : (makeRoom s c g dom l).offPath = s.offPath := by
  unfold makeRoom; simp only
  split
  · rfl
  · split
    · rfl
    · exact evictLine_offPath ..

theorem closeOut_offPath (s : State) (id : Nat) : (closeOut s id).offPath = s.offPath := by
  unfold closeOut; split <;> rfl

theorem putStruct_offPath (s : State) (gk : Nat) (hnd : Bool) (d : Nat) (ws : List Word) :
    (putStruct s gk hnd d ws).offPath = s.offPath := rfl

/-- An outstanding load, atomic or store that completes changes registers and windows. -/
theorem closeIfDone_offPath (s : State) (id : Nat) : (closeIfDone s id).offPath = s.offPath := by
  unfold closeIfDone
  split
  · rfl
  · rename_i o _
    split
    · rfl
    · simp only
      have ha : (match o.acq with
          | some wide => acquire s ((((s.gang o.gang).bind (fun g => s.crew g.crew)).bind (fun w => w.core?)).getD 0) wide
          | none => s).offPath = s.offPath := by
        split
        · exact acquire_offPath ..
        · rfl
      split
      · split
        · exact (closeOut_offPath ..).trans ha
        · exact (closeOut_offPath ..).trans ha
      · refine (closeOut_offPath ..).trans ?_
        split
        · exact ha
        · exact ha

theorem bring_offPath (s : State) (r : Req) (d : BitVec 512) (po : BitVec 16) (c : Option Cause) :
    (bring s r d po c).offPath = s.offPath := by
  unfold bring
  split
  · rfl
  · exact closeIfDone_offPath _ _

/-- Data that reaches its core changes L1s, registers and windows only. -/
theorem takeData_offPath (s : State) (p : Reply) : (takeData s p).offPath = s.offPath := by
  unfold takeData; simp only
  split <;> split <;> simp only [bring_offPath, putL1_offPath, makeRoom_offPath]

theorem settleFills_offPath (s : State) (l : Nat) : (settleFills s l).offPath = s.offPath := by
  unfold settleFills; simp only
  rw [foldl_keeps _ State.offPath takeData_offPath]; rfl

theorem invalidateSharers_offPath (s : State) (l : Nat) (k : Option Nat) : (invalidateSharers s l k).offPath = s.offPath := by
  unfold invalidateSharers; simp only
  rw [putDir_offPath, foldl_keeps _ State.offPath (fun s c => putL1_offPath s c l _)]

/-! ### Engines' writes -/

theorem putWord_offMem (s : State) (a : Nat) (v : Word) (bm : BitVec 4) (po : Bool) : (s.putWord a v bm po).offMem = s.offMem := rfl

/-- A recall changes the path and the words it returns. -/
theorem recallWords_offMem (s : State) (l : Nat) (ws : BitVec 16) : (recallWords s l ws).offMem = s.offMem := by
  unfold recallWords
  rw [foldl_keeps _ State.offMem ?_, State.offMem_of_offPath (settleFills_offPath s l)]
  intro s w; split <;> rfl

/-- A recall leaves the bytes outside its words alone. -/
theorem getByte_recallWords_out (s : State) (l : Nat) (ws : BitVec 16) (b : Nat)
    (h : ∀ w, w < 16 → ws.getLsbD w = true → b < 64 * l + 4 * w ∨ 64 * l + 4 * w + 3 < b) :
    getByte (recallWords s l ws).mem b = getByte s.mem b := by
  unfold recallWords
  rw [foldl_keeps_of _ (fun s => getByte s.mem b) _ ?_, State.mem_of_offPath (settleFills_offPath s l)]
  intro s w hw
  simp only [wordsOf, List.mem_filter, List.mem_range] at hw
  split
  · rfl
  · exact getByte_setWordMasked_out s.mem _ _ (cohWord s (64 * l + 4 * w)).1 0xF (h w hw.1 hw.2)

theorem applyLine_offMem (s : State) (l : Nat) (wm : BitVec 64) (wd : BitVec 512) (po : BitVec 16) :
    (applyLine s l wm wd po).offMem = s.offMem := by
  unfold applyLine
  refine foldl_keeps _ State.offMem ?_ _ _
  intro s w; split
  · rfl
  · exact putWord_offMem ..

/-- A masked line leaves the bytes outside its words alone. -/
theorem getByte_applyLine_out (s : State) (l : Nat) (wm : BitVec 64) (wd : BitVec 512) (po : BitVec 16) (b : Nat)
    (h : ∀ w, w < 16 → maskOf wm w ≠ 0 → b < 64 * l + 4 * w ∨ 64 * l + 4 * w + 3 < b) :
    getByte (applyLine s l wm wd po).mem b = getByte s.mem b := by
  unfold applyLine
  refine foldl_keeps_of _ (fun s => getByte s.mem b) _ ?_ s
  intro s w hw
  split
  · rfl
  · exact getByte_setWordMasked_out s.mem _ _ _ _ (h w (List.mem_range.1 hw) ‹_›)

/-- An engine's write changes the path and the words of its line. -/
theorem engineWrite_offMem (s : State) (c l : Nat) (wm : BitVec 64) (wd : BitVec 512) (po : BitVec 16) :
    (engineWrite s c l wm wd po).offMem = s.offMem := by
  unfold engineWrite; simp only
  rw [State.offMem_of_offPath (dropFillsOf_offPath ..), State.offMem_of_offPath (putL1_offPath ..)]
  split
  · exact applyLine_offMem ..
  · rw [State.offMem_of_offPath (invalidateSharers_offPath ..), applyLine_offMem, recallWords_offMem]

/-- The storage after an engine's write. -/
theorem engineWrite_mem (s : State) (c l : Nat) (wm : BitVec 64) (wd : BitVec 512) (po : BitVec 16) :
    (engineWrite s c l wm wd po).mem =
      (applyLine (if lineHost l then s else recallWords s l (touched wm)) l wm wd po).mem := by
  unfold engineWrite; simp only
  rw [State.mem_of_offPath (dropFillsOf_offPath ..), State.mem_of_offPath (putL1_offPath ..)]
  split
  · rfl
  · exact State.mem_of_offPath (invalidateSharers_offPath ..)

/-- The mask of one word in its line. -/
theorem maskOf_maskAt (w k : Nat) (bm : BitVec 4) (hw : w < 16) (hk : k < 16) :
    maskOf (maskAt w bm) k = if k = w then bm else 0 := by
  unfold maskOf maskAt
  split
  · subst k
    refine BitVec.eq_of_getLsbD_eq fun i hi => ?_
    simp only [BitVec.getLsbD_extractLsb', BitVec.getLsbD_shiftLeft, BitVec.truncate_eq_setWidth, BitVec.getLsbD_setWidth, hi, decide_true, Bool.true_and]
    simp only [show 4 * w + i < 64 by omega, show ¬(4 * w + i < 4 * w) by omega, show 4 * w + i - 4 * w = i by omega, show i < 64 by omega, decide_true, decide_false, Bool.not_false, Bool.true_and]
  · refine BitVec.eq_of_getLsbD_eq fun i hi => ?_
    simp only [BitVec.getLsbD_extractLsb', BitVec.getLsbD_shiftLeft, BitVec.truncate_eq_setWidth, BitVec.getLsbD_setWidth, hi, decide_true, Bool.true_and, BitVec.getLsbD_zero, BitVec.ofNat_eq_ofNat]
    by_cases h : 4 * k + i < 4 * w
    · simp [h]
    · rw [BitVec.getLsbD_of_ge bm _ (by omega)]; simp

/-- The words that a mask of one word touches. -/
theorem touched_maskAt (w k : Nat) (hw : w < 16) (bm : BitVec 4) :
    (touched (maskAt w bm)).getLsbD k = true → k = w := by
  unfold touched bitsTo16
  have key : ∀ (l : List Nat) (m : BitVec 16), (∀ j ∈ l, j < 16) → (m.getLsbD k = true → k = w) →
      (l.foldl (fun m w' => if decide (maskOf (maskAt w bm) w' ≠ 0) then m ||| wordBit w' else m) m).getLsbD k = true → k = w := by
    intro l
    induction l with
    | nil => intro m _ h; exact h
    | cons j l ih =>
      intro m hl h
      refine ih _ (fun v hv => hl v (List.mem_cons_of_mem _ hv)) ?_
      beta_reduce
      split
      · rename_i hj
        have hj := of_decide_eq_true hj
        intro hb
        rw [BitVec.getLsbD_or, Bool.or_eq_true] at hb
        rcases hb with hb | hb
        · exact h hb
        · have hjw : j = w := by
            by_contra hne
            rw [maskOf_maskAt w j bm hw (hl j List.mem_cons_self), if_neg hne] at hj
            exact hj rfl
          subst hjw
          unfold wordBit at hb
          rw [BitVec.getLsbD_shiftLeft] at hb
          simp only [Bool.and_eq_true, Bool.not_eq_true', decide_eq_true_eq, decide_eq_false_iff_not] at hb
          obtain ⟨⟨h1, h2⟩, h3⟩ := hb
          by_contra hne
          have : (1#16).getLsbD (k - j) = false := by
            rw [BitVec.getLsbD_one]; simp; omega
          exact absurd h3 (by simpa using this)
      · exact h
  exact key _ _ (fun j hj => List.mem_range.1 hj) (by simp)

theorem engineWord_offMem (s : State) (c a : Nat) (v : Word) (bm : BitVec 4) (po : Bool) :
    (engineWord s c a v bm po).offMem = s.offMem := by
  unfold engineWord; split
  · exact engineWrite_offMem ..
  · rfl

/-- An engine's write of a word leaves the bytes outside it alone. -/
theorem getByte_engineWord_out (s : State) (c a : Nat) (v : Word) (bm : BitVec 4) (po : Bool) (b : Nat) (ha : a % 4 = 0)
    (h : b < a ∨ a + 3 < b) : getByte (engineWord s c a v bm po).mem b = getByte s.mem b := by
  unfold engineWord
  split
  · have hw : wordIx a < 16 := Nat.mod_lt _ (by decide)
    have hb : 64 * lineOf a + 4 * wordIx a = a := by unfold lineOf wordIx; omega
    rw [engineWrite_mem, getByte_applyLine_out]
    · split
      · rfl
      · refine getByte_recallWords_out _ _ _ _ fun k hk ht => ?_
        have := touched_maskAt _ _ hw _ ht
        subst this; omega
    · intro k hk hm
      by_cases hkw : k = wordIx a
      · subst hkw; omega
      · rw [maskOf_maskAt _ _ _ hw hk, if_neg hkw] at hm; exact absurd rfl hm
  · exact getByte_setWordMasked_out _ _ _ _ _ h

/-- A line masked to one word is that word's store. -/
theorem applyLine_maskAt (s : State) (l w : Nat) (bm : BitVec 4) (wd : BitVec 512) (po : BitVec 16) (hw : w < 16) (hb : bm ≠ 0) :
    applyLine s l (maskAt w bm) wd po = s.putWord (64 * l + 4 * w) (lineWord wd w) bm (po.getLsbD w) := by
  unfold applyLine
  have key : ∀ (ks : List Nat), (∀ k ∈ ks, k < 16) → ∀ (s : State),
      ks.foldl (fun s k => if maskOf (maskAt w bm) k = 0 then s
        else s.putWord (64 * l + 4 * k) (lineWord wd k) (maskOf (maskAt w bm) k) (po.getLsbD k)) s =
      ks.foldl (fun s k => if k = w then s.putWord (64 * l + 4 * w) (lineWord wd w) bm (po.getLsbD w) else s) s := by
    intro ks
    induction ks with
    | nil => intro _ _; rfl
    | cons k ks ih =>
      intro hk s
      rw [List.foldl_cons, List.foldl_cons, ih (fun v hv => hk v (List.mem_cons_of_mem _ hv))]
      congr 1
      rw [maskOf_maskAt w k bm hw (hk k List.mem_cons_self)]
      by_cases h : k = w
      · subst h; rw [if_pos rfl, if_neg hb, if_pos rfl]
      · rw [if_neg h, if_pos rfl, if_neg h]
  rw [key _ (fun k hk => List.mem_range.1 hk)]
  interval_cases w <;> rfl

/-- The word set in a line is read back. -/
theorem lineWord_lineSet (w : Nat) (v : Word) (hw : w < 16) : lineWord (lineSetMasked 0 w v 0xF) w = v := by
  unfold lineWord lineSetMasked lineWord
  refine BitVec.eq_of_getLsbD_eq fun i hi => ?_
  have h : 32 * w + i < 512 := by omega
  simp [hi, h, show ∀ k, k + i - k = i from fun k => by omega]
  intro _
  rw [← BitVec.getLsbD_eq_getElem, BitVec.getLsbD_ofNat, show 4294967295 = 2 ^ 32 - 1 by rfl, Nat.testBit_two_pow_sub_one]
  simp [hi]; omega

/-- The storage after an engine's write of a whole word: that word reads as written. -/
theorem getWord_engineWord (s : State) (c a : Nat) (v : Word) (po : Bool) (ha : a % 4 = 0) :
    getWord (engineWord s c a v 0xF po).mem a = v := by
  unfold engineWord
  split
  · have hw : wordIx a < 16 := Nat.mod_lt _ (by decide)
    have hb : 64 * lineOf a + 4 * wordIx a = a := by unfold lineOf wordIx; omega
    rw [engineWrite_mem, applyLine_maskAt _ _ _ _ _ _ hw (by decide), hb, lineWord_lineSet _ _ hw]
    exact getWord_setWord ..
  · exact getWord_setWord ..

end Sys2Proof.Machine
end

