-- ==== Sys2Proof/Laws/PerInstr.lean ====
section
/-! SUPPORT. One lemma for every instruction: its word, where it has one, fits in 32 bits (R25). -/

namespace Sys2Proof.Laws
open Sys2Proof

/-- The instruction's word, where it has one, is a 32-bit number. -/
def Fits.Statement (i : Instr) : Prop := ∀ w, encode i = some w → w < 2 ^ 32

/-- A chain bit's weight is 0 or 2 ^ 31. -/
theorem Fits.chain_le (c : Bool) : chainVal c ≤ 2147483648 := by cases c <;> decide

/-- A step that has no word. -/
theorem Fits.of_none {i : Instr} (h : encode i = none) : Fits.Statement i := by
  intro w hw; rw [h] at hw; cases hw

/-- A word below 2 ^ 32. -/
theorem Fits.of_lt {i : Instr} {n : Nat} (h : encode i = some n) (hn : n < 2 ^ 32) : Fits.Statement i := by
  intro w hw; rw [h] at hw; cases hw; exact hn

theorem Fits.nop (c : Bool) : Fits.Statement (.nop c) :=
  Fits.of_lt rfl (by have := Fits.chain_le c; omega)
theorem Fits.bra (o : Fin 4194304) : Fits.Statement (.bra o) :=
  Fits.of_lt rfl (by omega)
theorem Fits.br (m : Fin 8) (n : Fin 2) (k : Fin 4) (o : Fin 65536) : Fits.Statement (.br m n k o) :=
  Fits.of_lt rfl (by omega)
theorem Fits.brx (a : Fin 64) : Fits.Statement (.brx a) :=
  Fits.of_lt rfl (by omega)
theorem Fits.call (o : Fin 4194304) : Fits.Statement (.call o) :=
  Fits.of_lt rfl (by omega)
theorem Fits.ret : Fits.Statement .ret := Fits.of_lt rfl (by omega)
theorem Fits.loopS (d : Fin 64) (l : Fin 65536) : Fits.Statement (.loopS d l) :=
  Fits.of_lt rfl (by omega)
theorem Fits.loopi (n : Fin 4096) (l : Fin 1024) : Fits.Statement (.loopi n l) :=
  Fits.of_lt rfl (by omega)
theorem Fits.lbrk : Fits.Statement .lbrk := Fits.of_lt rfl (by omega)
theorem Fits.rep (n : Fin 64) (d a b e : Fin 4) : Fits.Statement (.rep n d a b e) :=
  Fits.of_lt rfl (by omega)
theorem Fits.setx (c : Bool) (m : Fin 8) : Fits.Statement (.setx c m) :=
  Fits.of_lt rfl (by have := Fits.chain_le c; omega)
theorem Fits.andx (c : Bool) (m : Fin 8) : Fits.Statement (.andx c m) :=
  Fits.of_lt rfl (by have := Fits.chain_le c; omega)
theorem Fits.orx (c : Bool) (m : Fin 8) : Fits.Statement (.orx c m) :=
  Fits.of_lt rfl (by have := Fits.chain_le c; omega)
theorem Fits.regang (c : Bool) (i : Fin 65536) : Fits.Statement (.regang c i) :=
  Fits.of_lt rfl (by have := Fits.chain_le c; omega)
theorem Fits.yield : Fits.Statement .yield := Fits.of_lt rfl (by omega)
theorem Fits.exit : Fits.Statement .exit := Fits.of_lt rfl (by omega)
theorem Fits.waitla (c : Bool) : Fits.Statement (.waitla c) :=
  Fits.of_lt rfl (by have := Fits.chain_le c; omega)
theorem Fits.trap (i : Fin 65536) : Fits.Statement (.trap i) :=
  Fits.of_lt rfl (by omega)
theorem Fits.softi (c : Bool) (a : Fin 64) : Fits.Statement (.softi c a) :=
  Fits.of_lt rfl (by have := Fits.chain_le c; omega)
theorem Fits.mfsr (c : Bool) (d : Fin 64) (r : Fin 1024) : Fits.Statement (.mfsr c d r) :=
  Fits.of_lt rfl (by have := Fits.chain_le c; omega)
theorem Fits.mtsr (c : Bool) (d : Fin 64) (r : Fin 1024) : Fits.Statement (.mtsr c d r) :=
  Fits.of_lt rfl (by have := Fits.chain_le c; omega)
theorem Fits.segld (c : Bool) (g : Fin 8) (a : Fin 64) : Fits.Statement (.segld c g a) :=
  Fits.of_lt rfl (by have := Fits.chain_le c; omega)
theorem Fits.segrd (c : Bool) (d : Fin 64) (g : Fin 8) : Fits.Statement (.segrd c d g) :=
  Fits.of_lt rfl (by have := Fits.chain_le c; omega)
theorem Fits.scopew (c : Bool) (d : Fin 64) (i : Fin 32) : Fits.Statement (.scopew c d i) :=
  Fits.of_lt rfl (by have := Fits.chain_le c; omega)
theorem Fits.eret : Fits.Statement .eret := Fits.of_lt rfl (by omega)
theorem Fits.bkpt (i : Fin 65536) : Fits.Statement (.bkpt i) :=
  Fits.of_lt rfl (by omega)
theorem Fits.time (c : Bool) (d : Fin 64) : Fits.Statement (.time c d) :=
  Fits.of_lt rfl (by have := Fits.chain_le c; omega)
theorem Fits.icinv (c : Bool) : Fits.Statement (.icinv c) :=
  Fits.of_lt rfl (by have := Fits.chain_le c; omega)
theorem Fits.ctxsv (c : Bool) (a : Fin 64) : Fits.Statement (.ctxsv c a) :=
  Fits.of_lt rfl (by have := Fits.chain_le c; omega)
theorem Fits.ctxld (c : Bool) (a : Fin 64) : Fits.Statement (.ctxld c a) :=
  Fits.of_lt rfl (by have := Fits.chain_le c; omega)
theorem Fits.iadd (c : Bool) (d a b : Fin 64) (s : Fin 4) : Fits.Statement (.iadd c d a b s) :=
  Fits.of_lt rfl (by have := Fits.chain_le c; omega)
theorem Fits.isub (c : Bool) (d a b : Fin 64) (s : Fin 4) : Fits.Statement (.isub c d a b s) :=
  Fits.of_lt rfl (by have := Fits.chain_le c; omega)
theorem Fits.imul (c : Bool) (d a b : Fin 64) (s : Fin 4) : Fits.Statement (.imul c d a b s) :=
  Fits.of_lt rfl (by have := Fits.chain_le c; omega)
theorem Fits.imulhI (c : Bool) (d a b : Fin 64) (s : Fin 4) : Fits.Statement (.imulhI c d a b s) :=
  Fits.of_lt rfl (by have := Fits.chain_le c; omega)
theorem Fits.imulhN (c : Bool) (d a b : Fin 64) (s : Fin 4) : Fits.Statement (.imulhN c d a b s) :=
  Fits.of_lt rfl (by have := Fits.chain_le c; omega)
theorem Fits.imad (c : Bool) (d a b : Fin 64) (s : Fin 4) : Fits.Statement (.imad c d a b s) :=
  Fits.of_lt rfl (by have := Fits.chain_le c; omega)
theorem Fits.iminI (c : Bool) (d a b : Fin 64) (s : Fin 4) : Fits.Statement (.iminI c d a b s) :=
  Fits.of_lt rfl (by have := Fits.chain_le c; omega)
theorem Fits.iminN (c : Bool) (d a b : Fin 64) (s : Fin 4) : Fits.Statement (.iminN c d a b s) :=
  Fits.of_lt rfl (by have := Fits.chain_le c; omega)
theorem Fits.imaxI (c : Bool) (d a b : Fin 64) (s : Fin 4) : Fits.Statement (.imaxI c d a b s) :=
  Fits.of_lt rfl (by have := Fits.chain_le c; omega)
theorem Fits.imaxN (c : Bool) (d a b : Fin 64) (s : Fin 4) : Fits.Statement (.imaxN c d a b s) :=
  Fits.of_lt rfl (by have := Fits.chain_le c; omega)
theorem Fits.iabs (c : Bool) (d a : Fin 64) : Fits.Statement (.iabs c d a) :=
  Fits.of_lt rfl (by have := Fits.chain_le c; omega)
theorem Fits.andV (c : Bool) (d a b : Fin 64) (s : Fin 4) : Fits.Statement (.andV c d a b s) :=
  Fits.of_lt rfl (by have := Fits.chain_le c; omega)
theorem Fits.orV (c : Bool) (d a b : Fin 64) (s : Fin 4) : Fits.Statement (.orV c d a b s) :=
  Fits.of_lt rfl (by have := Fits.chain_le c; omega)
theorem Fits.xorV (c : Bool) (d a b : Fin 64) (s : Fin 4) : Fits.Statement (.xorV c d a b s) :=
  Fits.of_lt rfl (by have := Fits.chain_le c; omega)
theorem Fits.andn (c : Bool) (d a b : Fin 64) (s : Fin 4) : Fits.Statement (.andn c d a b s) :=
  Fits.of_lt rfl (by have := Fits.chain_le c; omega)
theorem Fits.shl (c : Bool) (d a b : Fin 64) (s : Fin 4) : Fits.Statement (.shl c d a b s) :=
  Fits.of_lt rfl (by have := Fits.chain_le c; omega)
theorem Fits.shr (c : Bool) (d a b : Fin 64) (s : Fin 4) : Fits.Statement (.shr c d a b s) :=
  Fits.of_lt rfl (by have := Fits.chain_le c; omega)
theorem Fits.sar (c : Bool) (d a b : Fin 64) (s : Fin 4) : Fits.Statement (.sar c d a b s) :=
  Fits.of_lt rfl (by have := Fits.chain_le c; omega)
theorem Fits.fsl (c : Bool) (d a b : Fin 64) (s : Fin 4) : Fits.Statement (.fsl c d a b s) :=
  Fits.of_lt rfl (by have := Fits.chain_le c; omega)
theorem Fits.fsr (c : Bool) (d a b : Fin 64) (s : Fin 4) : Fits.Statement (.fsr c d a b s) :=
  Fits.of_lt rfl (by have := Fits.chain_le c; omega)
theorem Fits.popc (c : Bool) (d a : Fin 64) : Fits.Statement (.popc c d a) :=
  Fits.of_lt rfl (by have := Fits.chain_le c; omega)
theorem Fits.clz (c : Bool) (d a : Fin 64) : Fits.Statement (.clz c d a) :=
  Fits.of_lt rfl (by have := Fits.chain_le c; omega)
theorem Fits.brev (c : Bool) (d a : Fin 64) : Fits.Statement (.brev c d a) :=
  Fits.of_lt rfl (by have := Fits.chain_le c; omega)
theorem Fits.bfxI (c : Bool) (d a b : Fin 64) (s : Fin 4) : Fits.Statement (.bfxI c d a b s) :=
  Fits.of_lt rfl (by have := Fits.chain_le c; omega)
theorem Fits.bfxN (c : Bool) (d a b : Fin 64) (s : Fin 4) : Fits.Statement (.bfxN c d a b s) :=
  Fits.of_lt rfl (by have := Fits.chain_le c; omega)
theorem Fits.bfi (c : Bool) (d a b : Fin 64) (s : Fin 4) : Fits.Statement (.bfi c d a b s) :=
  Fits.of_lt rfl (by have := Fits.chain_le c; omega)
theorem Fits.prm (c : Bool) (d a b : Fin 64) (s : Fin 4) : Fits.Statement (.prm c d a b s) :=
  Fits.of_lt rfl (by have := Fits.chain_le c; omega)
theorem Fits.icmpEq (c : Bool) (m : Fin 8) (a b : Fin 64) (s : Fin 4) : Fits.Statement (.icmpEq c m a b s) :=
  Fits.of_lt rfl (by have := Fits.chain_le c; omega)
theorem Fits.icmpNe (c : Bool) (m : Fin 8) (a b : Fin 64) (s : Fin 4) : Fits.Statement (.icmpNe c m a b s) :=
  Fits.of_lt rfl (by have := Fits.chain_le c; omega)
theorem Fits.icmpLtI (c : Bool) (m : Fin 8) (a b : Fin 64) (s : Fin 4) : Fits.Statement (.icmpLtI c m a b s) :=
  Fits.of_lt rfl (by have := Fits.chain_le c; omega)
theorem Fits.icmpLtN (c : Bool) (m : Fin 8) (a b : Fin 64) (s : Fin 4) : Fits.Statement (.icmpLtN c m a b s) :=
  Fits.of_lt rfl (by have := Fits.chain_le c; omega)
theorem Fits.icmpLeI (c : Bool) (m : Fin 8) (a b : Fin 64) (s : Fin 4) : Fits.Statement (.icmpLeI c m a b s) :=
  Fits.of_lt rfl (by have := Fits.chain_le c; omega)
theorem Fits.icmpLeN (c : Bool) (m : Fin 8) (a b : Fin 64) (s : Fin 4) : Fits.Statement (.icmpLeN c m a b s) :=
  Fits.of_lt rfl (by have := Fits.chain_le c; omega)
theorem Fits.selM1 (c : Bool) (d a b : Fin 64) (s : Fin 4) : Fits.Statement (.selM1 c d a b s) :=
  Fits.of_lt rfl (by have := Fits.chain_le c; omega)
theorem Fits.selM2 (c : Bool) (d a b : Fin 64) (s : Fin 4) : Fits.Statement (.selM2 c d a b s) :=
  Fits.of_lt rfl (by have := Fits.chain_le c; omega)
theorem Fits.selM3 (c : Bool) (d a b : Fin 64) (s : Fin 4) : Fits.Statement (.selM3 c d a b s) :=
  Fits.of_lt rfl (by have := Fits.chain_le c; omega)
theorem Fits.selM4 (c : Bool) (d a b : Fin 64) (s : Fin 4) : Fits.Statement (.selM4 c d a b s) :=
  Fits.of_lt rfl (by have := Fits.chain_le c; omega)
theorem Fits.selM5 (c : Bool) (d a b : Fin 64) (s : Fin 4) : Fits.Statement (.selM5 c d a b s) :=
  Fits.of_lt rfl (by have := Fits.chain_le c; omega)
theorem Fits.selM6 (c : Bool) (d a b : Fin 64) (s : Fin 4) : Fits.Statement (.selM6 c d a b s) :=
  Fits.of_lt rfl (by have := Fits.chain_le c; omega)
theorem Fits.selM7 (c : Bool) (d a b : Fin 64) (s : Fin 4) : Fits.Statement (.selM7 c d a b s) :=
  Fits.of_lt rfl (by have := Fits.chain_le c; omega)
theorem Fits.shflIdx (c : Bool) (d a b : Fin 64) (s : Fin 4) : Fits.Statement (.shflIdx c d a b s) :=
  Fits.of_lt rfl (by have := Fits.chain_le c; omega)
theorem Fits.shflUp (c : Bool) (d a b : Fin 64) (s : Fin 4) : Fits.Statement (.shflUp c d a b s) :=
  Fits.of_lt rfl (by have := Fits.chain_le c; omega)
theorem Fits.shflDn (c : Bool) (d a b : Fin 64) (s : Fin 4) : Fits.Statement (.shflDn c d a b s) :=
  Fits.of_lt rfl (by have := Fits.chain_le c; omega)
theorem Fits.shflXor (c : Bool) (d a b : Fin 64) (s : Fin 4) : Fits.Statement (.shflXor c d a b s) :=
  Fits.of_lt rfl (by have := Fits.chain_le c; omega)
theorem Fits.mtov (c : Bool) (d : Fin 64) (m : Fin 8) : Fits.Statement (.mtov c d m) :=
  Fits.of_lt rfl (by have := Fits.chain_le c; omega)
theorem Fits.vtom (c : Bool) (m : Fin 8) (a : Fin 64) : Fits.Statement (.vtom c m a) :=
  Fits.of_lt rfl (by have := Fits.chain_le c; omega)
theorem Fits.iaddi (c : Bool) (d a : Fin 64) (i : Fin 2048) : Fits.Statement (.iaddi c d a i) :=
  Fits.of_lt rfl (by have := Fits.chain_le c; omega)
theorem Fits.andi (c : Bool) (d a : Fin 64) (i : Fin 2048) : Fits.Statement (.andi c d a i) :=
  Fits.of_lt rfl (by have := Fits.chain_le c; omega)
theorem Fits.ori (c : Bool) (d a : Fin 64) (i : Fin 2048) : Fits.Statement (.ori c d a i) :=
  Fits.of_lt rfl (by have := Fits.chain_le c; omega)
theorem Fits.xori (c : Bool) (d a : Fin 64) (i : Fin 2048) : Fits.Statement (.xori c d a i) :=
  Fits.of_lt rfl (by have := Fits.chain_le c; omega)
theorem Fits.shli (c : Bool) (d a : Fin 64) (n : Fin 32) : Fits.Statement (.shli c d a n) :=
  Fits.of_lt rfl (by have := Fits.chain_le c; omega)
theorem Fits.shri (c : Bool) (d a : Fin 64) (n : Fin 32) : Fits.Statement (.shri c d a n) :=
  Fits.of_lt rfl (by have := Fits.chain_le c; omega)
theorem Fits.sari (c : Bool) (d a : Fin 64) (n : Fin 32) : Fits.Statement (.sari c d a n) :=
  Fits.of_lt rfl (by have := Fits.chain_le c; omega)
theorem Fits.icmpiEq (c : Bool) (m : Fin 8) (a : Fin 64) (i : Fin 2048) : Fits.Statement (.icmpiEq c m a i) :=
  Fits.of_lt rfl (by have := Fits.chain_le c; omega)
theorem Fits.icmpiLtI (c : Bool) (m : Fin 8) (a : Fin 64) (i : Fin 2048) : Fits.Statement (.icmpiLtI c m a i) :=
  Fits.of_lt rfl (by have := Fits.chain_le c; omega)
theorem Fits.movi (c : Bool) (d : Fin 64) (i : Fin 2048) : Fits.Statement (.movi c d i) :=
  Fits.of_lt rfl (by have := Fits.chain_le c; omega)
theorem Fits.swz (c : Bool) (d a : Fin 64) (p : Fin 2048) : Fits.Statement (.swz c d a p) :=
  Fits.of_lt rfl (by have := Fits.chain_le c; omega)
theorem Fits.fsli (c : Bool) (d a : Fin 64) (n : Fin 32) : Fits.Statement (.fsli c d a n) :=
  Fits.of_lt rfl (by have := Fits.chain_le c; omega)
theorem Fits.fsri (c : Bool) (d a : Fin 64) (n : Fin 32) : Fits.Statement (.fsri c d a n) :=
  Fits.of_lt rfl (by have := Fits.chain_le c; omega)
theorem Fits.fadd (c : Bool) (d a b : Fin 64) (s : Fin 4) (z : Fin 2) : Fits.Statement (.fadd c d a b s z) :=
  Fits.of_lt rfl (by have := Fits.chain_le c; omega)
theorem Fits.fsub (c : Bool) (d a b : Fin 64) (s : Fin 4) (z : Fin 2) : Fits.Statement (.fsub c d a b s z) :=
  Fits.of_lt rfl (by have := Fits.chain_le c; omega)
theorem Fits.fmul (c : Bool) (d a b : Fin 64) (s : Fin 4) (z : Fin 2) : Fits.Statement (.fmul c d a b s z) :=
  Fits.of_lt rfl (by have := Fits.chain_le c; omega)
theorem Fits.fmin (c : Bool) (d a b : Fin 64) (s : Fin 4) (z : Fin 2) : Fits.Statement (.fmin c d a b s z) :=
  Fits.of_lt rfl (by have := Fits.chain_le c; omega)
theorem Fits.fmax (c : Bool) (d a b : Fin 64) (s : Fin 4) (z : Fin 2) : Fits.Statement (.fmax c d a b s z) :=
  Fits.of_lt rfl (by have := Fits.chain_le c; omega)
theorem Fits.fminn (c : Bool) (d a b : Fin 64) (s : Fin 4) (z : Fin 2) : Fits.Statement (.fminn c d a b s z) :=
  Fits.of_lt rfl (by have := Fits.chain_le c; omega)
theorem Fits.fmaxn (c : Bool) (d a b : Fin 64) (s : Fin 4) (z : Fin 2) : Fits.Statement (.fmaxn c d a b s z) :=
  Fits.of_lt rfl (by have := Fits.chain_le c; omega)
theorem Fits.famax (c : Bool) (d a b : Fin 64) (s : Fin 4) (z : Fin 2) : Fits.Statement (.famax c d a b s z) :=
  Fits.of_lt rfl (by have := Fits.chain_le c; omega)
theorem Fits.fcmpEq (c : Bool) (m : Fin 8) (a b : Fin 64) (s : Fin 4) (z : Fin 2) : Fits.Statement (.fcmpEq c m a b s z) :=
  Fits.of_lt rfl (by have := Fits.chain_le c; omega)
theorem Fits.fcmpNe (c : Bool) (m : Fin 8) (a b : Fin 64) (s : Fin 4) (z : Fin 2) : Fits.Statement (.fcmpNe c m a b s z) :=
  Fits.of_lt rfl (by have := Fits.chain_le c; omega)
theorem Fits.fcmpLt (c : Bool) (m : Fin 8) (a b : Fin 64) (s : Fin 4) (z : Fin 2) : Fits.Statement (.fcmpLt c m a b s z) :=
  Fits.of_lt rfl (by have := Fits.chain_le c; omega)
theorem Fits.fcmpLe (c : Bool) (m : Fin 8) (a b : Fin 64) (s : Fin 4) (z : Fin 2) : Fits.Statement (.fcmpLe c m a b s z) :=
  Fits.of_lt rfl (by have := Fits.chain_le c; omega)
theorem Fits.fcmpUn (c : Bool) (m : Fin 8) (a b : Fin 64) (s : Fin 4) (z : Fin 2) : Fits.Statement (.fcmpUn c m a b s z) :=
  Fits.of_lt rfl (by have := Fits.chain_le c; omega)
theorem Fits.frint (c : Bool) (d a : Fin 64) (r : Fin 8) (z : Fin 2) : Fits.Statement (.frint c d a r z) :=
  Fits.of_lt rfl (by have := Fits.chain_le c; omega)
theorem Fits.fscale (c : Bool) (d a b : Fin 64) (s : Fin 4) (z : Fin 2) : Fits.Statement (.fscale c d a b s z) :=
  Fits.of_lt rfl (by have := Fits.chain_le c; omega)
theorem Fits.fclass (c : Bool) (d a : Fin 64) (z : Fin 2) : Fits.Statement (.fclass c d a z) :=
  Fits.of_lt rfl (by have := Fits.chain_le c; omega)
theorem Fits.dadd (c : Bool) (d a b : Fin 64) (s : Fin 4) (z : Fin 2) : Fits.Statement (.dadd c d a b s z) :=
  Fits.of_lt rfl (by have := Fits.chain_le c; omega)
theorem Fits.dmul (c : Bool) (d a b : Fin 64) (s : Fin 4) (z : Fin 2) : Fits.Statement (.dmul c d a b s z) :=
  Fits.of_lt rfl (by have := Fits.chain_le c; omega)
theorem Fits.dmin (c : Bool) (d a b : Fin 64) (s : Fin 4) (z : Fin 2) : Fits.Statement (.dmin c d a b s z) :=
  Fits.of_lt rfl (by have := Fits.chain_le c; omega)
theorem Fits.dmax (c : Bool) (d a b : Fin 64) (s : Fin 4) (z : Fin 2) : Fits.Statement (.dmax c d a b s z) :=
  Fits.of_lt rfl (by have := Fits.chain_le c; omega)
theorem Fits.dcmpLt (c : Bool) (m : Fin 8) (a b : Fin 64) (s : Fin 4) (z : Fin 2) : Fits.Statement (.dcmpLt c m a b s z) :=
  Fits.of_lt rfl (by have := Fits.chain_le c; omega)
theorem Fits.cvt (c : Bool) (d a : Fin 64) (t : Fin 32) (r : Fin 8) (z : Fin 2) : Fits.Statement (.cvt c d a t r z) :=
  Fits.of_lt rfl (by have := Fits.chain_le c; omega)
theorem Fits.qnt (c : Bool) (d a : Fin 64) (t : Fin 32) (r : Fin 8) (z : Fin 2) : Fits.Statement (.qnt c d a t r z) :=
  Fits.of_lt rfl (by have := Fits.chain_le c; omega)
theorem Fits.dqnt (c : Bool) (d a : Fin 64) (t : Fin 32) (r : Fin 8) (z : Fin 2) : Fits.Statement (.dqnt c d a t r z) :=
  Fits.of_lt rfl (by have := Fits.chain_le c; omega)
theorem Fits.mxscl (c : Bool) (d a b : Fin 64) (s : Fin 4) (z : Fin 2) : Fits.Statement (.mxscl c d a b s z) :=
  Fits.of_lt rfl (by have := Fits.chain_le c; omega)
theorem Fits.pack2 (c : Bool) (d a b : Fin 64) (s : Fin 4) (z : Fin 2) : Fits.Statement (.pack2 c d a b s z) :=
  Fits.of_lt rfl (by have := Fits.chain_le c; omega)
theorem Fits.unpk (c : Bool) (d a : Fin 64) (t : Fin 32) (k : Fin 8) (z : Fin 2) : Fits.Statement (.unpk c d a t k z) :=
  Fits.of_lt rfl (by have := Fits.chain_le c; omega)
theorem Fits.frcp (c : Bool) (d a : Fin 64) (l : Fin 16) : Fits.Statement (.frcp c d a l) :=
  Fits.of_lt rfl (by have := Fits.chain_le c; omega)
theorem Fits.frsq (c : Bool) (d a : Fin 64) (l : Fin 16) : Fits.Statement (.frsq c d a l) :=
  Fits.of_lt rfl (by have := Fits.chain_le c; omega)
theorem Fits.fsqrt (c : Bool) (d a : Fin 64) (l : Fin 16) : Fits.Statement (.fsqrt c d a l) :=
  Fits.of_lt rfl (by have := Fits.chain_le c; omega)
theorem Fits.fex2 (c : Bool) (d a : Fin 64) (l : Fin 16) : Fits.Statement (.fex2 c d a l) :=
  Fits.of_lt rfl (by have := Fits.chain_le c; omega)
theorem Fits.flg2 (c : Bool) (d a : Fin 64) (l : Fin 16) : Fits.Statement (.flg2 c d a l) :=
  Fits.of_lt rfl (by have := Fits.chain_le c; omega)
theorem Fits.fsin (c : Bool) (d a : Fin 64) (l : Fin 16) : Fits.Statement (.fsin c d a l) :=
  Fits.of_lt rfl (by have := Fits.chain_le c; omega)
theorem Fits.fcos (c : Bool) (d a : Fin 64) (l : Fin 16) : Fits.Statement (.fcos c d a l) :=
  Fits.of_lt rfl (by have := Fits.chain_le c; omega)
theorem Fits.fdiv (c : Bool) (d a : Fin 64) (l : Fin 16) : Fits.Statement (.fdiv c d a l) :=
  Fits.of_lt rfl (by have := Fits.chain_le c; omega)
theorem Fits.ffma (c : Bool) (d a b g : Fin 64) : Fits.Statement (.ffma c d a b g) :=
  Fits.of_lt rfl (by have := Fits.chain_le c; omega)
theorem Fits.ffms (c : Bool) (d a b g : Fin 64) : Fits.Statement (.ffms c d a b g) :=
  Fits.of_lt rfl (by have := Fits.chain_le c; omega)
theorem Fits.ffnma (c : Bool) (d a b g : Fin 64) : Fits.Statement (.ffnma c d a b g) :=
  Fits.of_lt rfl (by have := Fits.chain_le c; omega)
theorem Fits.ffnms (c : Bool) (d a b g : Fin 64) : Fits.Statement (.ffnms c d a b g) :=
  Fits.of_lt rfl (by have := Fits.chain_le c; omega)
theorem Fits.dfma (c : Bool) (d a b g : Fin 64) : Fits.Statement (.dfma c d a b g) :=
  Fits.of_lt rfl (by have := Fits.chain_le c; omega)
theorem Fits.hfma2 (c : Bool) (d a b g : Fin 64) : Fits.Statement (.hfma2 c d a b g) :=
  Fits.of_lt rfl (by have := Fits.chain_le c; omega)
theorem Fits.bfma2 (c : Bool) (d a b g : Fin 64) : Fits.Statement (.bfma2 c d a b g) :=
  Fits.of_lt rfl (by have := Fits.chain_le c; omega)
theorem Fits.hdot2 (c : Bool) (d a b g : Fin 64) : Fits.Statement (.hdot2 c d a b g) :=
  Fits.of_lt rfl (by have := Fits.chain_le c; omega)
theorem Fits.bdot2 (c : Bool) (d a b g : Fin 64) : Fits.Statement (.bdot2 c d a b g) :=
  Fits.of_lt rfl (by have := Fits.chain_le c; omega)
theorem Fits.sadd (c : Bool) (d a b : Fin 64) : Fits.Statement (.sadd c d a b) :=
  Fits.of_lt rfl (by have := Fits.chain_le c; omega)
theorem Fits.ssub (c : Bool) (d a b : Fin 64) : Fits.Statement (.ssub c d a b) :=
  Fits.of_lt rfl (by have := Fits.chain_le c; omega)
theorem Fits.smul (c : Bool) (d a b : Fin 64) : Fits.Statement (.smul c d a b) :=
  Fits.of_lt rfl (by have := Fits.chain_le c; omega)
theorem Fits.sand (c : Bool) (d a b : Fin 64) : Fits.Statement (.sand c d a b) :=
  Fits.of_lt rfl (by have := Fits.chain_le c; omega)
theorem Fits.sor (c : Bool) (d a b : Fin 64) : Fits.Statement (.sor c d a b) :=
  Fits.of_lt rfl (by have := Fits.chain_le c; omega)
theorem Fits.sxor (c : Bool) (d a b : Fin 64) : Fits.Statement (.sxor c d a b) :=
  Fits.of_lt rfl (by have := Fits.chain_le c; omega)
theorem Fits.sshl (c : Bool) (d a b : Fin 64) : Fits.Statement (.sshl c d a b) :=
  Fits.of_lt rfl (by have := Fits.chain_le c; omega)
theorem Fits.sshr (c : Bool) (d a b : Fin 64) : Fits.Statement (.sshr c d a b) :=
  Fits.of_lt rfl (by have := Fits.chain_le c; omega)
theorem Fits.ssar (c : Bool) (d a b : Fin 64) : Fits.Statement (.ssar c d a b) :=
  Fits.of_lt rfl (by have := Fits.chain_le c; omega)
theorem Fits.scmpEq (c : Bool) (d a b : Fin 64) : Fits.Statement (.scmpEq c d a b) :=
  Fits.of_lt rfl (by have := Fits.chain_le c; omega)
theorem Fits.scmpLtI (c : Bool) (d a b : Fin 64) : Fits.Statement (.scmpLtI c d a b) :=
  Fits.of_lt rfl (by have := Fits.chain_le c; omega)
theorem Fits.scmpLtN (c : Bool) (d a b : Fin 64) : Fits.Statement (.scmpLtN c d a b) :=
  Fits.of_lt rfl (by have := Fits.chain_le c; omega)
theorem Fits.sminI (c : Bool) (d a b : Fin 64) : Fits.Statement (.sminI c d a b) :=
  Fits.of_lt rfl (by have := Fits.chain_le c; omega)
theorem Fits.smaxI (c : Bool) (d a b : Fin 64) : Fits.Statement (.smaxI c d a b) :=
  Fits.of_lt rfl (by have := Fits.chain_le c; omega)
theorem Fits.smov (c : Bool) (d a : Fin 64) : Fits.Statement (.smov c d a) :=
  Fits.of_lt rfl (by have := Fits.chain_le c; omega)
theorem Fits.ssel (c : Bool) (d a b : Fin 64) : Fits.Statement (.ssel c d a b) :=
  Fits.of_lt rfl (by have := Fits.chain_le c; omega)
theorem Fits.slil (c : Bool) (d : Fin 64) (i : Fin 65536) : Fits.Statement (.slil c d i) :=
  Fits.of_lt rfl (by have := Fits.chain_le c; omega)
theorem Fits.slih (c : Bool) (d : Fin 64) (i : Fin 65536) : Fits.Statement (.slih c d i) :=
  Fits.of_lt rfl (by have := Fits.chain_le c; omega)
theorem Fits.saddi (c : Bool) (d : Fin 64) (i : Fin 65536) : Fits.Statement (.saddi c d i) :=
  Fits.of_lt rfl (by have := Fits.chain_le c; omega)
theorem Fits.srdl (c : Bool) (d a b : Fin 64) : Fits.Statement (.srdl c d a b) :=
  Fits.of_lt rfl (by have := Fits.chain_le c; omega)
theorem Fits.sbal (c : Bool) (d a : Fin 64) : Fits.Statement (.sbal c d a) :=
  Fits.of_lt rfl (by have := Fits.chain_le c; omega)
theorem Fits.swrl (c : Bool) (d a b : Fin 64) : Fits.Statement (.swrl c d a b) :=
  Fits.of_lt rfl (by have := Fits.chain_le c; omega)
theorem Fits.lgt (c : Bool) (d a b : Fin 64) (t : Fin 256) : Fits.Statement (.lgt c d a b t) :=
  Fits.of_lt rfl (by have := Fits.chain_le c; omega)
theorem Fits.ld (c : Bool) (w : Fin 8) (p : Fin 4) (g : Fin 8) (d a : Fin 64) (l : Fin 16) (i : Fin 8) : Fits.Statement (.ld c w p g d a l i) :=
  Fits.of_lt rfl (by have := Fits.chain_le c; omega)
theorem Fits.ldu (c : Bool) (w : Fin 8) (p : Fin 4) (g : Fin 8) (d a : Fin 64) (l : Fin 16) (i : Fin 8) : Fits.Statement (.ldu c w p g d a l i) :=
  Fits.of_lt rfl (by have := Fits.chain_le c; omega)
theorem Fits.st (c : Bool) (w : Fin 8) (p : Fin 4) (g : Fin 8) (v a : Fin 64) (i : Fin 8) : Fits.Statement (.st c w p g v a i) :=
  Fits.of_lt rfl (by have := Fits.chain_le c; omega)
theorem Fits.stu (c : Bool) (w : Fin 8) (p : Fin 4) (g : Fin 8) (v a : Fin 64) (i : Fin 8) : Fits.Statement (.stu c w p g v a i) :=
  Fits.of_lt rfl (by have := Fits.chain_le c; omega)
theorem Fits.atomAdd (c : Bool) (o : Fin 4) (s : Fin 32) (d a : Fin 64) (g : Fin 4) (w : Fin 2) : Fits.Statement (.atomAdd c o s d a g w) :=
  Fits.of_lt rfl (by have := Fits.chain_le c; omega)
theorem Fits.atomMinI (c : Bool) (o : Fin 4) (s : Fin 32) (d a : Fin 64) (g : Fin 4) (w : Fin 2) : Fits.Statement (.atomMinI c o s d a g w) :=
  Fits.of_lt rfl (by have := Fits.chain_le c; omega)
theorem Fits.atomMinN (c : Bool) (o : Fin 4) (s : Fin 32) (d a : Fin 64) (g : Fin 4) (w : Fin 2) : Fits.Statement (.atomMinN c o s d a g w) :=
  Fits.of_lt rfl (by have := Fits.chain_le c; omega)
theorem Fits.atomMaxI (c : Bool) (o : Fin 4) (s : Fin 32) (d a : Fin 64) (g : Fin 4) (w : Fin 2) : Fits.Statement (.atomMaxI c o s d a g w) :=
  Fits.of_lt rfl (by have := Fits.chain_le c; omega)
theorem Fits.atomMaxN (c : Bool) (o : Fin 4) (s : Fin 32) (d a : Fin 64) (g : Fin 4) (w : Fin 2) : Fits.Statement (.atomMaxN c o s d a g w) :=
  Fits.of_lt rfl (by have := Fits.chain_le c; omega)
theorem Fits.atomAnd (c : Bool) (o : Fin 4) (s : Fin 32) (d a : Fin 64) (g : Fin 4) (w : Fin 2) : Fits.Statement (.atomAnd c o s d a g w) :=
  Fits.of_lt rfl (by have := Fits.chain_le c; omega)
theorem Fits.atomOr (c : Bool) (o : Fin 4) (s : Fin 32) (d a : Fin 64) (g : Fin 4) (w : Fin 2) : Fits.Statement (.atomOr c o s d a g w) :=
  Fits.of_lt rfl (by have := Fits.chain_le c; omega)
theorem Fits.atomXor (c : Bool) (o : Fin 4) (s : Fin 32) (d a : Fin 64) (g : Fin 4) (w : Fin 2) : Fits.Statement (.atomXor c o s d a g w) :=
  Fits.of_lt rfl (by have := Fits.chain_le c; omega)
theorem Fits.atomXchg (c : Bool) (o : Fin 4) (s : Fin 32) (d a : Fin 64) (g : Fin 4) (w : Fin 2) : Fits.Statement (.atomXchg c o s d a g w) :=
  Fits.of_lt rfl (by have := Fits.chain_le c; omega)
theorem Fits.acas (c : Bool) (o : Fin 4) (s : Fin 32) (d a : Fin 64) (g : Fin 4) (w : Fin 2) : Fits.Statement (.acas c o s d a g w) :=
  Fits.of_lt rfl (by have := Fits.chain_le c; omega)
theorem Fits.atomFadd (c : Bool) (o : Fin 4) (s : Fin 32) (d a : Fin 64) (g : Fin 4) (w : Fin 2) : Fits.Statement (.atomFadd c o s d a g w) :=
  Fits.of_lt rfl (by have := Fits.chain_le c; omega)
theorem Fits.atomFamax (c : Bool) (o : Fin 4) (s : Fin 32) (d a : Fin 64) (g : Fin 4) (w : Fin 2) : Fits.Statement (.atomFamax c o s d a g w) :=
  Fits.of_lt rfl (by have := Fits.chain_le c; omega)
theorem Fits.atomXrst (c : Bool) (o : Fin 4) (s : Fin 32) (d a : Fin 64) (g : Fin 4) (w : Fin 2) : Fits.Statement (.atomXrst c o s d a g w) :=
  Fits.of_lt rfl (by have := Fits.chain_le c; omega)
theorem Fits.ald (c : Bool) (o : Fin 4) (s : Fin 32) (d a : Fin 64) (g : Fin 4) (w : Fin 2) : Fits.Statement (.ald c o s d a g w) :=
  Fits.of_lt rfl (by have := Fits.chain_le c; omega)
theorem Fits.ast (c : Bool) (o : Fin 4) (s : Fin 32) (d a : Fin 64) (g : Fin 4) (w : Fin 2) : Fits.Statement (.ast c o s d a g w) :=
  Fits.of_lt rfl (by have := Fits.chain_le c; omega)
theorem Fits.fence (c : Bool) (k : Fin 16) (s : Fin 32) : Fits.Statement (.fence c k s) :=
  Fits.of_lt rfl (by have := Fits.chain_le c; omega)
theorem Fits.binit (c : Bool) (b : Fin 16) (x : Fin 64) : Fits.Statement (.binit c b x) :=
  Fits.of_lt rfl (by have := Fits.chain_le c; omega)
theorem Fits.binitMem (c : Bool) (s : Fin 32) (b x : Fin 64) : Fits.Statement (.binitMem c s b x) :=
  Fits.of_lt rfl (by have := Fits.chain_le c; omega)
theorem Fits.barr (c : Bool) (b : Fin 16) : Fits.Statement (.barr c b) :=
  Fits.of_lt rfl (by have := Fits.chain_le c; omega)
theorem Fits.barrMem (c : Bool) (b : Fin 64) : Fits.Statement (.barrMem c b) :=
  Fits.of_lt rfl (by have := Fits.chain_le c; omega)
theorem Fits.bard (c : Bool) (b : Fin 16) : Fits.Statement (.bard c b) :=
  Fits.of_lt rfl (by have := Fits.chain_le c; omega)
theorem Fits.bexp (c : Bool) (b : Fin 16) (x : Fin 64) : Fits.Statement (.bexp c b x) :=
  Fits.of_lt rfl (by have := Fits.chain_le c; omega)
theorem Fits.bwait (c : Bool) (b : Fin 16) (x : Fin 64) : Fits.Statement (.bwait c b x) :=
  Fits.of_lt rfl (by have := Fits.chain_le c; omega)
theorem Fits.bwaitMem (c : Bool) (b x : Fin 64) : Fits.Statement (.bwaitMem c b x) :=
  Fits.of_lt rfl (by have := Fits.chain_le c; omega)
theorem Fits.btest (c : Bool) (b : Fin 16) (x : Fin 64) : Fits.Statement (.btest c b x) :=
  Fits.of_lt rfl (by have := Fits.chain_le c; omega)
theorem Fits.btestMem (c : Bool) (b x : Fin 64) : Fits.Statement (.btestMem c b x) :=
  Fits.of_lt rfl (by have := Fits.chain_le c; omega)
theorem Fits.qinit (c : Bool) (q : Fin 16) (x y : Fin 64) : Fits.Statement (.qinit c q x y) :=
  Fits.of_lt rfl (by have := Fits.chain_le c; omega)
theorem Fits.qpush (c : Bool) (q : Fin 16) (x : Fin 64) : Fits.Statement (.qpush c q x) :=
  Fits.of_lt rfl (by have := Fits.chain_le c; omega)
theorem Fits.qpop (c : Bool) (q : Fin 16) (x : Fin 64) : Fits.Statement (.qpop c q x) :=
  Fits.of_lt rfl (by have := Fits.chain_le c; omega)
theorem Fits.qtry (c : Bool) (q : Fin 16) (x y : Fin 64) : Fits.Statement (.qtry c q x y) :=
  Fits.of_lt rfl (by have := Fits.chain_le c; omega)
theorem Fits.qalw (c : Bool) (q : Fin 16) (x y : Fin 64) : Fits.Statement (.qalw c q x y) :=
  Fits.of_lt rfl (by have := Fits.chain_le c; omega)
theorem Fits.slinit (c : Bool) (a b : Fin 64) (p : Fin 2) : Fits.Statement (.slinit c a b p) :=
  Fits.of_lt rfl (by have := Fits.chain_le c; omega)
theorem Fits.sle (c : Bool) (s : Fin 32) (a b : Fin 64) : Fits.Statement (.sle c s a b) :=
  Fits.of_lt rfl (by have := Fits.chain_le c; omega)
theorem Fits.slx (c : Bool) (s : Fin 32) (a : Fin 64) : Fits.Statement (.slx c s a) :=
  Fits.of_lt rfl (by have := Fits.chain_le c; omega)
theorem Fits.slclose (c : Bool) (a b : Fin 64) : Fits.Statement (.slclose c a b) :=
  Fits.of_lt rfl (by have := Fits.chain_le c; omega)
theorem Fits.slq (c : Bool) (a b : Fin 64) : Fits.Statement (.slq c a b) :=
  Fits.of_lt rfl (by have := Fits.chain_le c; omega)
theorem Fits.cflush (c : Bool) (s : Fin 32) (a b : Fin 64) (l : Fin 2) : Fits.Statement (.cflush c s a b l) :=
  Fits.of_lt rfl (by have := Fits.chain_le c; omega)
theorem Fits.cinv (c : Bool) (s : Fin 32) (a b : Fin 64) (l : Fin 2) : Fits.Statement (.cinv c s a b l) :=
  Fits.of_lt rfl (by have := Fits.chain_le c; omega)
theorem Fits.scbwait (c : Bool) (a b : Fin 64) (l : Fin 2) : Fits.Statement (.scbwait c a b l) :=
  Fits.of_lt rfl (by have := Fits.chain_le c; omega)
theorem Fits.cp (c : Bool) (z : Fin 4) (s d : Fin 8) (a b : Fin 64) (r : Fin 16) : Fits.Statement (.cp c z s d a b r) :=
  Fits.of_lt rfl (by have := Fits.chain_le c; omega)
theorem Fits.cpt (c : Bool) (s d : Fin 8) (a b : Fin 64) (r : Fin 16) : Fits.Statement (.cpt c s d a b r) :=
  Fits.of_lt rfl (by have := Fits.chain_le c; omega)
theorem Fits.cpx (c : Bool) (z s d : Fin 8) (a b : Fin 64) (r : Fin 16) : Fits.Statement (.cpx c z s d a b r) :=
  Fits.of_lt rfl (by have := Fits.chain_le c; omega)
theorem Fits.cpm (c : Bool) (z : Fin 4) (s d : Fin 8) (a b : Fin 64) (r : Fin 16) : Fits.Statement (.cpm c z s d a b r) :=
  Fits.of_lt rfl (by have := Fits.chain_le c; have hz : cpmSize z ≤ 67108864 := (by unfold cpmSize; split <;> omega) ; omega)
theorem Fits.cpe (c : Bool) (z s d : Fin 8) (a b : Fin 64) (r : Fin 16) : Fits.Statement (.cpe c z s d a b r) :=
  Fits.of_lt rfl (by have := Fits.chain_le c; omega)
theorem Fits.mma (c : Bool) (t : Fin 8) (a b : Fin 64) (f l : Fin 16) (z : Fin 2) : Fits.Statement (.mma c t a b f l z) :=
  Fits.of_lt rfl (by have := Fits.chain_le c; omega)
theorem Fits.mmz (c : Bool) (t : Fin 8) (f l : Fin 16) : Fits.Statement (.mmz c t f l) :=
  Fits.of_lt rfl (by have := Fits.chain_le c; omega)
theorem Fits.mdr (c : Bool) (t : Fin 8) (a b : Fin 64) (f l : Fin 16) (z : Fin 2) : Fits.Statement (.mdr c t a b f l z) :=
  Fits.of_lt rfl (by have := Fits.chain_le c; omega)
theorem Fits.mld (c : Bool) (t : Fin 8) (a : Fin 64) (f l : Fin 16) : Fits.Statement (.mld c t a f l) :=
  Fits.of_lt rfl (by have := Fits.chain_le c; omega)
theorem Fits.mfmt (c : Bool) (a : Fin 64) (f l : Fin 16) : Fits.Statement (.mfmt c a f l) :=
  Fits.of_lt rfl (by have := Fits.chain_le c; omega)
theorem Fits.mrq (c : Bool) (t : Fin 8) (a : Fin 64) (l : Fin 16) (z : Fin 2) : Fits.Statement (.mrq c t a l z) :=
  Fits.of_lt rfl (by have := Fits.chain_le c; omega)
theorem Fits.mqry (c : Bool) (a : Fin 64) (l : Fin 16) : Fits.Statement (.mqry c a l) :=
  Fits.of_lt rfl (by have := Fits.chain_le c; omega)
theorem Fits.dice (c : Bool) (a b : Fin 64) : Fits.Statement (.dice c a b) :=
  Fits.of_lt rfl (by have := Fits.chain_le c; omega)
theorem Fits.gsh (c : Bool) (d a : Fin 64) (l : Fin 16) : Fits.Statement (.gsh c d a l) :=
  Fits.of_lt rfl (by have := Fits.chain_le c; omega)
theorem Fits.gwb (c : Bool) (a b : Fin 64) : Fits.Statement (.gwb c a b) :=
  Fits.of_lt rfl (by have := Fits.chain_le c; omega)
theorem Fits.gemit (c : Bool) (a : Fin 64) : Fits.Statement (.gemit c a) :=
  Fits.of_lt rfl (by have := Fits.chain_le c; omega)
theorem Fits.stq (c : Bool) (d a b : Fin 64) (l : Fin 16) : Fits.Statement (.stq c d a b l) :=
  Fits.of_lt rfl (by have := Fits.chain_le c; omega)
theorem Fits.bknext (c : Bool) (d : Fin 64) (l : Fin 16) : Fits.Statement (.bknext c d l) :=
  Fits.of_lt rfl (by have := Fits.chain_le c; omega)
theorem Fits.bkdone (c : Bool) (a : Fin 64) : Fits.Statement (.bkdone c a) :=
  Fits.of_lt rfl (by have := Fits.chain_le c; omega)
theorem Fits.bkspl (c : Bool) (a : Fin 64) : Fits.Statement (.bkspl c a) :=
  Fits.of_lt rfl (by have := Fits.chain_le c; omega)
theorem Fits.ray (c : Bool) (a b : Fin 64) : Fits.Statement (.ray c a b) :=
  Fits.of_lt rfl (by have := Fits.chain_le c; omega)
theorem Fits.rayw (c : Bool) (d a : Fin 64) (l : Fin 16) : Fits.Statement (.rayw c d a l) :=
  Fits.of_lt rfl (by have := Fits.chain_le c; omega)
theorem Fits.rays (c : Bool) (d a : Fin 64) (l : Fin 16) : Fits.Statement (.rays c d a l) :=
  Fits.of_lt rfl (by have := Fits.chain_le c; omega)
theorem Fits.tspawn (c : Bool) (a b : Fin 64) : Fits.Statement (.tspawn c a b) :=
  Fits.of_lt rfl (by have := Fits.chain_le c; omega)
theorem Fits.tsucc (c : Bool) (a : Fin 64) : Fits.Statement (.tsucc c a) :=
  Fits.of_lt rfl (by have := Fits.chain_le c; omega)
theorem Fits.tdone : Fits.Statement .tdone := Fits.of_lt rfl (by omega)
theorem Fits.ageBoost : Fits.Statement .ageBoost := Fits.of_none rfl
theorem Fits.softiNotice : Fits.Statement .softiNotice := Fits.of_none rfl
theorem Fits.sfuResult : Fits.Statement .sfuResult := Fits.of_none rfl
theorem Fits.stagingQueue : Fits.Statement .stagingQueue := Fits.of_none rfl
theorem Fits.lsuAgeBoost : Fits.Statement .lsuAgeBoost := Fits.of_none rfl
theorem Fits.pageWalk : Fits.Statement .pageWalk := Fits.of_none rfl
theorem Fits.rdThr : Fits.Statement .rdThr := Fits.of_none rfl
theorem Fits.rdSis : Fits.Statement .rdSis := Fits.of_none rfl
theorem Fits.rdWis : Fits.Statement .rdWis := Fits.of_none rfl
theorem Fits.rdOwn : Fits.Statement .rdOwn := Fits.of_none rfl
theorem Fits.wrThr : Fits.Statement .wrThr := Fits.of_none rfl
theorem Fits.wrWis : Fits.Statement .wrWis := Fits.of_none rfl
theorem Fits.pushWr : Fits.Statement .pushWr := Fits.of_none rfl
theorem Fits.writeback : Fits.Statement .writeback := Fits.of_none rfl
theorem Fits.atomicAtHome : Fits.Statement .atomicAtHome := Fits.of_none rfl
theorem Fits.recall : Fits.Statement .recall := Fits.of_none rfl
theorem Fits.fwdRd : Fits.Statement .fwdRd := Fits.of_none rfl
theorem Fits.invalidation : Fits.Statement .invalidation := Fits.of_none rfl
theorem Fits.invalidationAck : Fits.Statement .invalidationAck := Fits.of_none rfl
theorem Fits.loadReply : Fits.Statement .loadReply := Fits.of_none rfl
theorem Fits.storeAck : Fits.Statement .storeAck := Fits.of_none rfl
theorem Fits.errorReply : Fits.Statement .errorReply := Fits.of_none rfl
theorem Fits.eccL1 : Fits.Statement .eccL1 := Fits.of_none rfl
theorem Fits.eccReg : Fits.Statement .eccReg := Fits.of_none rfl
theorem Fits.barrierUnit : Fits.Statement .barrierUnit := Fits.of_none rfl
theorem Fits.barrierWaitRetry : Fits.Statement .barrierWaitRetry := Fits.of_none rfl
theorem Fits.sluiceRequest : Fits.Statement .sluiceRequest := Fits.of_none rfl
theorem Fits.sluiceGrant : Fits.Statement .sluiceGrant := Fits.of_none rfl
theorem Fits.sluiceRelease : Fits.Statement .sluiceRelease := Fits.of_none rfl
theorem Fits.sluiceBufferRetry : Fits.Statement .sluiceBufferRetry := Fits.of_none rfl
theorem Fits.slTimeout : Fits.Statement .slTimeout := Fits.of_none rfl
theorem Fits.releaseResend : Fits.Statement .releaseResend := Fits.of_none rfl
theorem Fits.copyLineLand : Fits.Statement .copyLineLand := Fits.of_none rfl
theorem Fits.copyComplete : Fits.Statement .copyComplete := Fits.of_none rfl
theorem Fits.cpmLineRequest : Fits.Statement .cpmLineRequest := Fits.of_none rfl
theorem Fits.mergeWindow : Fits.Statement .mergeWindow := Fits.of_none rfl
theorem Fits.mergeEntryFree : Fits.Statement .mergeEntryFree := Fits.of_none rfl
theorem Fits.cpeEnqueue : Fits.Statement .cpeEnqueue := Fits.of_none rfl
theorem Fits.followOnPost : Fits.Statement .followOnPost := Fits.of_none rfl
theorem Fits.reservationAccept : Fits.Statement .reservationAccept := Fits.of_none rfl
theorem Fits.passGrant : Fits.Statement .passGrant := Fits.of_none rfl
theorem Fits.tilePathGrant : Fits.Statement .tilePathGrant := Fits.of_none rfl
theorem Fits.matrixAgeBoost : Fits.Statement .matrixAgeBoost := Fits.of_none rfl
theorem Fits.requestFinish : Fits.Statement .requestFinish := Fits.of_none rfl
theorem Fits.mxRsv : Fits.Statement .mxRsv := Fits.of_none rfl
theorem Fits.binner : Fits.Statement .binner := Fits.of_none rfl
theorem Fits.bucketDistributor : Fits.Statement .bucketDistributor := Fits.of_none rfl
theorem Fits.bucketSetup : Fits.Statement .bucketSetup := Fits.of_none rfl
theorem Fits.dicerJob : Fits.Statement .dicerJob := Fits.of_none rfl
theorem Fits.writeBackJob : Fits.Statement .writeBackJob := Fits.of_none rfl
theorem Fits.stuJob : Fits.Statement .stuJob := Fits.of_none rfl
theorem Fits.gridForward : Fits.Statement .gridForward := Fits.of_none rfl
theorem Fits.bucketClose : Fits.Statement .bucketClose := Fits.of_none rfl
theorem Fits.park : Fits.Statement .park := Fits.of_none rfl
theorem Fits.bucketReload : Fits.Statement .bucketReload := Fits.of_none rfl
theorem Fits.query : Fits.Statement .query := Fits.of_none rfl
theorem Fits.spawn : Fits.Statement .spawn := Fits.of_none rfl
theorem Fits.doorbell : Fits.Statement .doorbell := Fits.of_none rfl
theorem Fits.frontEndTake : Fits.Statement .frontEndTake := Fits.of_none rfl
theorem Fits.steal : Fits.Statement .steal := Fits.of_none rfl
theorem Fits.dispatch : Fits.Statement .dispatch := Fits.of_none rfl
theorem Fits.crewEnd : Fits.Statement .crewEnd := Fits.of_none rfl
theorem Fits.taskCompletion : Fits.Statement .taskCompletion := Fits.of_none rfl
theorem Fits.slotTableWrite : Fits.Statement .slotTableWrite := Fits.of_none rfl
theorem Fits.eviction : Fits.Statement .eviction := Fits.of_none rfl
theorem Fits.swapOut : Fits.Statement .swapOut := Fits.of_none rfl
theorem Fits.resume : Fits.Statement .resume := Fits.of_none rfl
theorem Fits.handlerEntry : Fits.Statement .handlerEntry := Fits.of_none rfl
theorem Fits.serviceDelivery : Fits.Statement .serviceDelivery := Fits.of_none rfl
theorem Fits.fatalPath : Fits.Statement .fatalPath := Fits.of_none rfl
theorem Fits.watchdog : Fits.Statement .watchdog := Fits.of_none rfl
theorem Fits.timeLimit : Fits.Statement .timeLimit := Fits.of_none rfl
theorem Fits.dbgHalt : Fits.Statement .dbgHalt := Fits.of_none rfl
theorem Fits.flitReceive : Fits.Statement .flitReceive := Fits.of_none rfl
theorem Fits.replay : Fits.Statement .replay := Fits.of_none rfl
theorem Fits.homeTimeout : Fits.Statement .homeTimeout := Fits.of_none rfl
theorem Fits.fabUncorr : Fits.Statement .fabUncorr := Fits.of_none rfl
theorem Fits.completionTimeout : Fits.Statement .completionTimeout := Fits.of_none rfl
theorem Fits.faultFence : Fits.Statement .faultFence := Fits.of_none rfl
theorem Fits.heartbeatTimeout : Fits.Statement .heartbeatTimeout := Fits.of_none rfl
theorem Fits.fenceQuiesce : Fits.Statement .fenceQuiesce := Fits.of_none rfl
theorem Fits.selfRefreshTimeout : Fits.Statement .selfRefreshTimeout := Fits.of_none rfl
theorem Fits.retrain : Fits.Statement .retrain := Fits.of_none rfl
theorem Fits.reAdmission : Fits.Statement .reAdmission := Fits.of_none rfl
theorem Fits.domainSet : Fits.Statement .domainSet := Fits.of_none rfl
theorem Fits.xlFlush : Fits.Statement .xlFlush := Fits.of_none rfl
theorem Fits.queueSet : Fits.Statement .queueSet := Fits.of_none rfl
theorem Fits.queueRestart : Fits.Statement .queueRestart := Fits.of_none rfl
theorem Fits.queueShare : Fits.Statement .queueShare := Fits.of_none rfl
theorem Fits.noticeAnswer : Fits.Statement .noticeAnswer := Fits.of_none rfl
theorem Fits.domainKill : Fits.Statement .domainKill := Fits.of_none rfl
theorem Fits.warmReset : Fits.Statement .warmReset := Fits.of_none rfl
theorem Fits.clearLost : Fits.Statement .clearLost := Fits.of_none rfl
theorem Fits.imageLoad : Fits.Statement .imageLoad := Fits.of_none rfl
theorem Fits.mailboxComplete : Fits.Statement .mailboxComplete := Fits.of_none rfl
theorem Fits.notice : Fits.Statement .notice := Fits.of_none rfl
theorem Fits.bar2Write : Fits.Statement .bar2Write := Fits.of_none rfl
theorem Fits.bar2Read : Fits.Statement .bar2Read := Fits.of_none rfl
theorem Fits.registerWrite : Fits.Statement .registerWrite := Fits.of_none rfl
theorem Fits.hostDown : Fits.Statement .hostDown := Fits.of_none rfl
theorem Fits.d3hot : Fits.Statement .d3hot := Fits.of_none rfl
theorem Fits.coldReset : Fits.Statement .coldReset := Fits.of_none rfl
theorem Fits.entdaa : Fits.Statement .entdaa := Fits.of_none rfl
theorem Fits.powerLimit : Fits.Statement .powerLimit := Fits.of_none rfl
theorem Fits.boardInputPower : Fits.Statement .boardInputPower := Fits.of_none rfl
theorem Fits.boardInputAbsent : Fits.Statement .boardInputAbsent := Fits.of_none rfl
theorem Fits.mgmtKill : Fits.Statement .mgmtKill := Fits.of_none rfl
theorem Fits.telemetryRefresh : Fits.Statement .telemetryRefresh := Fits.of_none rfl
theorem Fits.powerThrottle : Fits.Statement .powerThrottle := Fits.of_none rfl
theorem Fits.thermalKill : Fits.Statement .thermalKill := Fits.of_none rfl
theorem Fits.resident10usElapsed : Fits.Statement .resident10usElapsed := Fits.of_none rfl
theorem Fits.lockhouseFault : Fits.Statement .lockhouseFault := Fits.of_none rfl
theorem Fits.d3cold : Fits.Statement .d3cold := Fits.of_none rfl
theorem Fits.correctedSoftError : Fits.Statement .correctedSoftError := Fits.of_none rfl
theorem Fits.sluiceEntryFree : Fits.Statement .sluiceEntryFree := Fits.of_none rfl

end Sys2Proof.Laws
end

