-- ==== Sys2Proof/Laws/Tick.lean ====
section
/-! SUPPORT. What the time of a step changes: ages and windows of slices, registers that a BKNEXT fills, times of crews,
sluice requests and matrix requests, and the buckets' items; everything else stands. -/

namespace Sys2Proof.Machine
open Sys2Proof

/-- What a tick leaves alone: `t` has the storage, the memory path, the scheduler, the fabric, the host side and the
management of `s`. -/
structure SameBeside (s t : State) : Prop where
  mem : t.mem = s.mem
  poison : t.poison = s.poison
  coh : t.coh = s.coh
  sched : t.sched = s.sched
  fab : t.fab = s.fab
  host : t.host = s.host
  mgmt : t.mgmt = s.mgmt
  frees : t.frees = s.frees
  picks : t.picks = s.picks
  evt : t.evt = s.evt
  next : t.work.next = s.work.next
  engs : t.work.engs = s.work.engs
  tasks : t.work.tasks = s.work.tasks

theorem SameBeside.refl (s : State) : SameBeside s s := ⟨rfl, rfl, rfl, rfl, rfl, rfl, rfl, rfl, rfl, rfl, rfl, rfl, rfl⟩

theorem SameBeside.trans {s t u : State} (h : SameBeside s t) (k : SameBeside t u) : SameBeside s u :=
  ⟨k.mem.trans h.mem, k.poison.trans h.poison, k.coh.trans h.coh, k.sched.trans h.sched, k.fab.trans h.fab,
   k.host.trans h.host, k.mgmt.trans h.mgmt, k.frees.trans h.frees, k.picks.trans h.picks, k.evt.trans h.evt,
   k.next.trans h.next, k.engs.trans h.engs, k.tasks.trans h.tasks⟩

/-- An outstanding instruction that closes changes its gang's windows and the list of outstanding instructions only. -/
theorem closeOut_beside (s : State) (id : Nat) : SameBeside s (closeOut s id) := by
  unfold closeOut
  split
  · exact .refl s
  · exact ⟨rfl, rfl, rfl, rfl, rfl, rfl, rfl, rfl, rfl, rfl, rfl, rfl, rfl⟩

/-- The register writes of an outstanding instruction change its gang's registers only. -/
theorem writeOut_beside (s : State) (o : Out) : SameBeside s (writeOut s o) :=
  ⟨rfl, rfl, rfl, rfl, rfl, rfl, rfl, rfl, rfl, rfl, rfl, rfl, rfl⟩

/-- A change of a bucket is one of the micropolygon path. -/
theorem modBkt_beside (s : State) (b : Nat) (f : Bucket → Bucket) : SameBeside s (s.modBkt b f) :=
  ⟨rfl, rfl, rfl, rfl, rfl, rfl, rfl, rfl, rfl, rfl, rfl, rfl, rfl⟩

/-- An item handed to an outstanding BKNEXT. -/
theorem takeNext_beside (s : State) (id : Nat) (o : Out) : SameBeside s (takeNext s id o) := by
  unfold takeNext
  split
  · exact (writeOut_beside ..).trans (closeOut_beside ..)
  · split
    · exact .refl s
    · exact ((modBkt_beside ..).trans (writeOut_beside ..)).trans (closeOut_beside ..)

/-- The items of a step's time. -/
theorem tickNext_beside (s : State) : SameBeside s (tickNext s) := by
  unfold tickNext
  generalize s.work.outs.filter _ = l
  induction l generalizing s with
  | nil => exact .refl s
  | cons p l ih => exact (takeNext_beside s p.1 p.2).trans (ih _)

/-- The time of a step leaves everything beside the running work alone. -/
theorem tick_beside (s : State) : SameBeside s (tick s) := by
  refine SameBeside.trans ?_ (tickNext_beside _)
  exact ⟨rfl, rfl, rfl, rfl, rfl, rfl, rfl, rfl, rfl, rfl, rfl, rfl, rfl⟩

theorem tick_mem (s : State) : (tick s).mem = s.mem := (tick_beside s).mem
theorem tick_picks (s : State) : (tick s).picks = s.picks := (tick_beside s).picks

end Sys2Proof.Machine
end

