-- ==== Sys2Proof/Tests/Slice0.lean ====
section
/-! SUPPORT. Words written out from the encoding tables and what they decode to; for every statement a state (or operands)
that meets its hypotheses; ill-formed instructions that are refused; single steps on small states. Expected results are
hand calculations from the cited rules. -/

namespace Sys2Proof.Tests
open Sys2Proof Sys2Proof.Machine

/-! ### Words of every family -/

theorem test_decode_int :
    ([0x9009E430, 0x10370ED8, 0x105BEA40, 0x107B0E78, 0x10990CE0, 0x10B2EA94, 0x10D3AE6C, 0x10F79844, 0x110D7FB2, 0x913D5D30, 0x116F9534, 0x9195F324, 0x11A7EAAA, 0x11DF6A2C, 0x11F45764, 0x921D105A, 0x92240F3C, 0x92526360, 0x9276AA72, 0x12EDC884, 0x131965F8, 0x133CE718, 0x9351EB6C, 0x942EA650, 0x144EBA0A, 0x1470C800, 0x9497D084, 0x14BD6592, 0x94C6FB98, 0x14E435C0, 0x15158C68, 0x15265C18, 0x15582702, 0x957E1E72, 0x915EFA00, 0x92852400, 0x12B5C200, 0x92CA0400, 0x1362A41C, 0x9380C370, 0x93A1D4E4, 0x13C1E6E8, 0x93E2861A, 0x94023162, 0x95960A00, 0x15A35C00] : List Word).map decode =
    [.ok (.iadd true 19 50 6 0), .ok (.isub false 46 7 27 0), .ok (.imul false 55 53 8 0), .ok (.imulhI false 54 7 15 0), .ok (.imulhN false 50 6 28 0), .ok (.imad false 37 53 18 2), .ok (.iminI false 39 23 13 2), .ok (.iminN false 47 12 8 2), .ok (.imaxI false 26 63 54 1), .ok (.imaxN true 58 46 38 0), .ok (.andV false 31 10 38 2), .ok (.orV true 43 57 36 2), .ok (.xorV false 15 53 21 1), .ok (.andn false 62 53 5 2), .ok (.shl false 40 43 44 2), .ok (.shr true 58 8 11 1), .ok (.sar true 8 7 39 2), .ok (.fsl true 36 49 44 0), .ok (.fsr true 45 21 14 1), .ok (.bfxI false 27 36 16 2), .ok (.bfxN false 50 50 63 0), .ok (.bfi false 57 51 35 0), .ok (.prm true 35 53 45 2), .ok (.selM1 true 29 19 10 0), .ok (.selM2 false 29 29 1 1), .ok (.selM3 false 33 36 0 0), .ok (.selM4 true 47 40 16 2), .ok (.selM5 false 58 50 50 1), .ok (.selM6 true 13 61 51 0), .ok (.selM7 false 8 26 56 0), .ok (.shflIdx false 43 6 13 0), .ok (.shflUp false 12 46 3 0), .ok (.shflDn false 48 19 32 1), .ok (.shflXor true 60 15 14 1), .ok (.iabs true 61 61), .ok (.popc true 10 18), .ok (.clz false 43 33), .ok (.brev true 20 2), .ok (.icmpEq false 5 18 3 2), .ok (.icmpNe true 1 33 46 0), .ok (.icmpLtI true 3 42 28 2), .ok (.icmpLtN false 3 51 29 0), .ok (.icmpLeI true 5 3 3 1), .ok (.icmpLeN true 4 24 44 1), .ok (.mtov true 44 5), .ok (.vtom false 6 46)] := by
  decide

theorem test_decode_imm :
    ([0x18386BA1, 0x98B35B45, 0x9901ED81, 0x199F8B30, 0x9A2DB815, 0x1AE5D819, 0x1B28A808, 0x1DA7D809, 0x9E589808, 0x1B806A3A, 0x9C06D872, 0x9CC00367, 0x1D4AF01B] : List Word).map decode =
    [.ok (.iaddi false 28 13 929), .ok (.andi true 25 43 837), .ok (.ori true 0 61 1409), .ok (.xori false 15 49 816), .ok (.shli true 22 55 21), .ok (.shri false 50 59 25), .ok (.sari false 20 21 8), .ok (.fsli false 19 59 9), .ok (.fsri true 44 19 8), .ok (.icmpiEq false 0 13 570), .ok (.icmpiLtI true 3 27 114), .ok (.movi true 32 871), .ok (.swz false 37 30 27)] := by
  decide

theorem test_decode_fpa :
    ([0xA010EA81, 0xA03AA09C, 0xA04B8098, 0xA0678F4D, 0x2083BEC2, 0x20BC8643, 0x20D1F3EC, 0xA0ECF28A, 0xA1DC504C, 0xA304B730, 0xA329408A, 0x21037CA4, 0x2123675A, 0xA1429771, 0xA163858B, 0x2180BA69, 0xA2022D11, 0xA23925F2, 0xA2432DB1, 0x22654050, 0xA2819463, 0xA1A39207, 0x21E39201, 0x22A41415, 0xA2C41638, 0xA2E416A0, 0xA3441634, 0xA607F400, 0xA63AC480, 0x264F1CA0, 0xA6632EC0, 0xA693B520, 0xA6AB4560, 0x26D00800, 0x26EC78E0] : List Word).map decode =
    [.ok (.fadd true 33 53 16 0 1), .ok (.fsub true 53 16 19 2 0), .ok (.fmul true 23 0 19 0 0), .ok (.fmin true 15 7 41 2 1), .ok (.fmax false 7 31 24 1 0), .ok (.fminn false 57 3 8 1 1), .ok (.fmaxn false 35 57 61 2 0), .ok (.famax true 25 57 17 1 0), .ok (.fscale true 56 40 9 2 0), .ok (.mxscl true 9 27 38 0 0), .ok (.pack2 true 18 32 17 1 0), .ok (.fcmpEq false 6 62 20 2 0), .ok (.fcmpNe false 6 51 43 1 0), .ok (.fcmpLt true 5 11 46 0 1), .ok (.fcmpLe true 7 2 49 1 1), .ok (.fcmpUn false 1 29 13 0 1), .ok (.dadd true 4 22 34 0 1), .ok (.dmul true 50 18 62 1 0), .ok (.dmin true 6 22 54 0 1), .ok (.dmax false 10 32 10 0 0), .ok (.dcmpLt true 3 10 12 1 1), .ok (.frint true 7 9 3 1), .ok (.fclass false 7 9 1), .ok (.cvt false 8 10 1 2 1), .ok (.qnt true 8 11 3 4 0), .ok (.dqnt true 8 11 10 0 0), .ok (.unpk true 8 11 3 2 0), .ok (.frcp true 15 58 0), .ok (.frsq true 53 34 4), .ok (.fsqrt false 30 14 5), .ok (.fex2 true 6 23 6), .ok (.flg2 true 39 26 9), .ok (.fsin true 22 34 11), .ok (.fcos false 32 4 0), .ok (.fdiv false 24 60 7)] := by
  decide

theorem test_decode_fma :
    ([0xA8336FB2, 0xA969CA98, 0x2ACAC190, 0x2B220D94, 0x2C2B091E, 0xB017A5D4, 0xB1E4086E, 0xB2A5F127, 0x33B5702A] : List Word).map decode =
    [.ok (.ffma true 12 54 62 50), .ok (.ffms true 26 28 42 24), .ok (.ffnma false 50 44 6 16), .ok (.ffnms false 8 32 54 20), .ok (.dfma false 10 48 36 30), .ok (.hfma2 true 5 58 23 20), .ok (.bfma2 true 57 0 33 46), .ok (.hdot2 true 41 31 4 39), .ok (.bdot2 false 45 23 0 42)] := by
  decide

theorem test_decode_sca :
    ([0xB80AF230, 0x385F00B0, 0xB88B4B30, 0x38F20A60, 0xB91D2930, 0xB969FD30, 0xB9921760, 0x39C274A0, 0x3A0546E0, 0x3A70E460, 0x3A9FFA10, 0x3AFA20B0, 0x3B3C8090, 0xBB5E69D0, 0xBBBFC000, 0xBBE41590, 0x3CD2AA00, 0xBD5107D0, 0xBD072400, 0x3C3E899C, 0x3C5BFAAE, 0xBCA4EDE8] : List Word).map decode =
    [.ok (.sadd true 10 60 35), .ok (.ssub false 31 0 11), .ok (.smul true 11 18 51), .ok (.sand false 50 2 38), .ok (.sor true 29 10 19), .ok (.sxor true 41 63 19), .ok (.sshl true 18 5 54), .ok (.sshr false 2 29 10), .ok (.ssar false 5 17 46), .ok (.scmpEq false 48 57 6), .ok (.scmpLtI false 31 62 33), .ok (.scmpLtN false 58 8 11), .ok (.sminI false 60 32 9), .ok (.smaxI true 30 26 29), .ok (.smov true 63 48), .ok (.ssel true 36 5 25), .ok (.srdl false 18 42 32), .ok (.swrl true 17 1 61), .ok (.sbal true 7 9), .ok (.slil false 62 35228), .ok (.slih false 27 64174), .ok (.saddi true 36 60904)] := by
  decide

theorem test_decode_lgt :
    ([0xF8BE432C] : List Word).map decode =
    [.ok (.lgt true 5 60 33 150)] := by
  decide

theorem test_decode_mem :
    ([0xC241263B, 0x4609467D, 0xCC810601, 0xCD192606] : List Word).map decode =
    [.ok (.ld true 2 1 0 9 12 7 3), .ok (.ldu false 6 0 1 10 12 15 5), .ok (.st true 4 2 0 8 12 1), .ok (.stu true 5 0 3 9 12 6)] := by
  decide

theorem test_decode_atm :
    ([0xD0676241, 0x50DD2389, 0x51242109, 0x51C7B1CD, 0xD20A03CD, 0xD2BAB308, 0xD314A300, 0x53D0B08D, 0x545B8048, 0x54C9720D, 0x555B0304, 0x55FC424C, 0x563ED289, 0xD699724D, 0x570A218C] : List Word).map decode =
    [.ok (.atomAdd true 3 7 24 36 0 1), .ok (.atomMinI false 2 29 8 56 2 1), .ok (.atomMinN false 1 4 8 16 2 1), .ok (.atomMaxI false 2 7 44 28 3 1), .ok (.atomMaxN true 0 10 0 60 3 1), .ok (.atomAnd true 1 26 44 48 2 0), .ok (.atomOr true 0 20 40 48 0 0), .ok (.atomXor false 2 16 44 8 3 1), .ok (.atomXchg false 2 27 32 4 2 0), .ok (.acas false 2 9 28 32 3 1), .ok (.atomFadd false 2 27 0 48 1 0), .ok (.atomFamax false 3 28 16 36 3 0), .ok (.atomXrst false 1 30 52 40 2 1), .ok (.ald true 0 25 28 36 3 1), .ok (.ast false 0 10 8 24 3 0)] := by
  decide

theorem test_decode_cpy :
    ([0xE108A36C, 0xE408A32C, 0x6408A325, 0x6208A366, 0xE408A326, 0xE208A363] : List Word).map decode =
    [.ok (.cp true 1 0 2 10 13 11), .ok (.cpt true 0 2 10 12 11), .ok (.cpx false 4 0 2 10 12 9), .ok (.cpm false 2 0 2 10 13 9), .ok (.cpm true 3 0 2 10 12 9), .ok (.cpe true 2 0 2 10 13 8)] := by
  decide

theorem test_decode_mtx :
    ([0xE86A44B3, 0x696000B2, 0xEAEA44B2, 0xEBCA00B2, 0xEC0A01E4, 0xED4A8007, 0xEE0A8006] : List Word).map decode =
    [.ok (.mma true 3 20 34 5 9 1), .ok (.mmz false 3 5 9), .ok (.mdr true 7 20 34 5 9 0), .ok (.mld true 6 20 5 9), .ok (.mfmt true 20 15 2), .ok (.mrq true 2 21 3 1), .ok (.mqry true 21 3)] := by
  decide

theorem test_decode_ctl :
    ([0x80000000, 0x007FFFFC, 0x00AEFFFA, 0x00C08800, 0x01000123, 0x01400000, 0x01A103E8, 0x01FFFEBC, 0x02000000, 0x027F6C00, 0x82801400, 0x02C01800, 0x83001C00, 0x83409C40, 0x03800000, 0x03C00000, 0x84000000] : List Word).map decode =
    [.ok (.nop true), .ok (.bra 4194300), .ok (.br 5 1 2 65530), .ok (.brx 34), .ok (.call 291), .ok (.ret), .ok (.loopS 33 1000), .ok (.loopi 4095 700), .ok (.lbrk), .ok (.rep 63 1 2 3 0), .ok (.setx true 5), .ok (.andx false 6), .ok (.orx true 7), .ok (.regang true 40000), .ok (.yield), .ok (.exit), .ok (.waitla true)] := by
  decide

theorem test_decode_sys :
    ([0x08001234, 0x88408400, 0x88A10027, 0x08E10010, 0x89068000, 0x89600C00, 0x89A0001F, 0x09C00000, 0x0A001234, 0x8A620000, 0x8A800000, 0x8AC08800, 0x8B008800] : List Word).map decode =
    [.ok (.trap 4660), .ok (.softi true 33), .ok (.mfsr true 33 39), .ok (.mtsr false 33 16), .ok (.segld true 6 32), .ok (.segrd true 32 3), .ok (.scopew true 32 31), .ok (.eret), .ok (.bkpt 4660), .ok (.time true 34), .ok (.icinv true), .ok (.ctxsv true 34), .ok (.ctxld true 34)] := by
  decide

theorem test_decode_syn :
    ([0xD81E6000, 0xD8402610, 0xD8738A10, 0xD8802400, 0xD8A08800, 0xD8C02400, 0xD9002610, 0xD9402610, 0xD9608A10, 0xD9802610, 0xD9A08A10, 0xD9E61B00, 0xDA261000, 0xDA661000, 0xDAA61B00, 0xDAE61B00, 0xDB010D90, 0xDB670D80, 0xDBA70800, 0xDBC10D80, 0xDC010D80, 0xDC671580, 0xDCA60010, 0xDCC10D80] : List Word).map decode =
    [.ok (.fence true 7 19), .ok (.binit true 9 33), .ok (.binitMem true 19 34 33), .ok (.barr true 9), .ok (.barrMem true 34), .ok (.bard true 9), .ok (.bexp true 9 33), .ok (.bwait true 9 33), .ok (.bwaitMem true 34 33), .ok (.btest true 9 33), .ok (.btestMem true 34 33), .ok (.qinit true 9 33 44), .ok (.qpush true 9 33), .ok (.qpop true 9 33), .ok (.qtry true 9 33 44), .ok (.qalw true 9 33 44), .ok (.slinit true 33 44 1), .ok (.sle true 19 33 44), .ok (.slx true 19 33), .ok (.slclose true 33 44), .ok (.slq true 33 44), .ok (.cflush true 19 34 44 0), .ok (.cinv true 19 0 0 1), .ok (.scbwait true 33 44 0)] := by
  decide

theorem test_decode_gfx :
    ([0xF0008AD0, 0xF058B409, 0xF08062D0, 0xF0C0B400, 0xF118B6E9, 0xF16D0009, 0xF180B400, 0xF1C0B400, 0xF20062D0, 0xF258B409, 0xF2AD8809, 0xF2C08AD0, 0xF3008800, 0x73400000] : List Word).map decode =
    [.ok (.dice true 34 45), .ok (.gsh true 24 45 9), .ok (.gwb true 24 45), .ok (.gemit true 45), .ok (.stq true 24 45 46 9), .ok (.bknext true 45 9), .ok (.bkdone true 45), .ok (.bkspl true 45), .ok (.ray true 24 45), .ok (.rayw true 24 45 9), .ok (.rays true 45 34 9), .ok (.tspawn true 34 45), .ok (.tsucc true 34), .ok (.tdone)] := by
  decide


/-! ### States the tests stand on -/

/-- A loaded kernel whose word is about to issue, its gang and its state changed by `g` and `f`. -/
def ready (g : Gang → Gang := id) (f : State → State := id) : State :=
  (f ((placeWord State.reset 0).modGang 16 g)).at_ { gang := 16, grp := 1 } 0 0

/-- Scalar registers, vector registers (register, lane, value) and segments of a test's gang. -/
def withRegs (s : List (Nat × Word)) (v : List (Nat × Nat × Word) := []) (sg : List (Nat × Seg) := []) (g : Gang) : Gang :=
  { g with r := { g.r with s := s, v := smPuts 0 [] (v.map (fun p => (vkey p.1 p.2.1, p.2.2))), seg := smPuts {} g.r.seg sg } }

/-- The word may issue, and the context meets `p`: as a check that evaluates. -/
def meets (s : State) (i : Instr) (p : Cx → Bool) : Bool :=
  match s.cx with
  | none => false
  | some x => (checkIssue x i).isNone && decide (loopCut x = 0) && (x.cur.retry || !mustHold s x i) && p x

theorem issues_of_meets {s : State} {i : Instr} {p : Cx → Bool} (h : meets s i p = true) :
    ∃ x, Issues s x i ∧ p x = true := by
  unfold meets at h
  split at h
  · cases h
  · rename_i x hx
    simp only [Bool.and_eq_true, Option.isNone_iff_eq_none, decide_eq_true_eq, Bool.or_eq_true] at h
    refine ⟨x, ⟨hx, h.1.1.1, h.1.1.2, fun hr => ?_⟩, h.2⟩
    simpa [hr] using h.1.2

/-- A context in which the word may issue and that meets `P`. -/
theorem issues_with {s : State} {i : Instr} (P : Cx → Prop) [DecidablePred P] (h : meets s i (fun x => decide (P x)) = true) :
    ∃ x, Issues s x i ∧ P x := by
  obtain ⟨x, hi, hp⟩ := issues_of_meets h
  exact ⟨x, hi, of_decide_eq_true hp⟩

/-- Every instruction of a list may issue in a state. -/
theorem issues_all {s : State} {is : List Instr} (h : is.all (fun i => meets s i (fun _ => true)) = true) :
    ∀ i ∈ is, ∃ x, Issues s x i := by
  intro i hi
  obtain ⟨x, hx, -⟩ := issues_of_meets (List.all_eq_true.mp h i hi)
  exact ⟨x, hx⟩

/-- Words with given bits exist. -/
theorem exists_bits (p : Nat → Nat → Bool) : ∃ f : Nat → Word, ∀ l k, k < 32 → (f l).getLsbD k = p l k := by
  refine ⟨fun l => BitVec.ofNat 32 (Nat.ofBits (fun i : Fin 32 => p l i)), fun l k hk => ?_⟩
  rw [BitVec.getLsbD_ofNat, Nat.testBit_ofBits_lt _ _ hk]; simp [hk]

/-! ### Compute words -/

theorem witness_IntegerResults : ∀ i ∈ ([.iadd true 1 2 3 0, .isub true 1 2 3 1, .imul true 1 2 3 2, .imulhI true 1 2 3 0,
    .imulhN true 1 2 3 0, .imad true 1 2 3 0, .iminI true 1 2 3 0, .iminN true 1 2 3 0, .imaxI true 1 2 3 0, .imaxN true 1 2 3 0,
    .iabs true 1 2, .andV true 1 2 3 0, .orV true 1 2 3 0, .xorV true 1 2 3 0, .andn true 1 2 3 0, .shl true 1 2 3 0,
    .shr true 1 2 3 0, .sar true 1 2 3 0, .fsl true 1 2 3 0, .fsr true 63 63 63 0] : List Instr), ∃ x, Issues (ready) x i :=
  issues_all (by decide)

theorem witness_BitFieldResults : ∀ i ∈ ([.popc true 1 2, .clz true 1 2, .brev true 1 2, .bfxN true 1 2 3 0, .bfxI true 1 2 3 0,
    .bfi true 1 2 3 0, .prm true 1 2 3 0, .lgt true 1 2 3 255] : List Instr), ∃ x, Issues (ready) x i :=
  issues_all (by decide)

theorem witness_SelectAndMoveResults : ∀ i ∈ ([.icmpEq true 1 2 3 0, .icmpNe true 1 2 3 0, .icmpLtI true 0 2 3 0,
    .icmpLtN true 1 2 3 0, .icmpLeI true 1 2 3 0, .icmpLeN true 7 2 3 0, .vtom true 1 2, .mtov true 1 2, .selM1 true 1 2 3 0,
    .selM2 true 1 2 3 0, .selM3 true 1 2 3 0, .selM4 true 1 2 3 0, .selM5 true 1 2 3 0, .selM6 true 1 2 3 0,
    .selM7 true 1 2 3 0, .shflIdx true 1 2 3 0, .shflUp true 1 2 3 0, .shflDn true 1 2 3 0, .shflXor true 1 2 3 0,
    .swz true 1 2 255, .swz true 1 2 512] : List Instr), ∃ x, Issues (ready) x i :=
  issues_all (by decide)

theorem witness_ImmediateResults : ∀ i ∈ ([.iaddi true 1 2 1024, .andi true 1 2 3, .ori true 1 2 3, .xori true 1 2 3,
    .shli true 1 2 31, .shri true 1 2 3, .sari true 1 2 3, .fsli true 1 2 3, .fsri true 1 2 3, .movi true 1 3,
    .icmpiEq true 1 2 2047, .icmpiLtI true 1 2 3] : List Instr), ∃ x, Issues (ready) x i :=
  issues_all (by decide)

theorem witness_ScalarResults : ∀ i ∈ ([.sadd true 1 2 3, .ssub true 1 2 3, .smul true 1 2 3, .sand true 1 2 3, .sor true 1 2 3,
    .sxor true 1 2 3, .sshl true 1 2 3, .sshr true 1 2 3, .ssar true 1 2 3, .scmpEq true 1 2 3, .scmpLtI true 1 2 3,
    .scmpLtN true 1 2 3, .sminI true 1 2 3, .smaxI true 1 2 3, .smov true 1 2, .ssel true 1 2 3, .slil true 1 65535,
    .slih true 1 2, .saddi true 1 32768, .srdl true 1 2 3, .sbal true 1 2, .swrl true 1 2 3] : List Instr),
    ∃ x, Issues (ready) x i :=
  issues_all (by decide)

theorem witness_FormatsAndRounding : (0 : Int) < 1 ∧ 0x3C00 < 2 ^ (Fmt.f16).bits ∧ val .f16 0x3C00 ≠ .nan := by decide

theorem witness_Float32Results : ∀ i ∈ ([.fadd true 1 2 3 0 1, .fsub true 1 2 3 0 0, .fmul true 1 2 3 0 0, .fmin true 1 2 3 0 0,
    .fmax true 1 2 3 0 0, .fminn true 1 2 3 0 0, .fmaxn true 1 2 3 0 0, .famax true 1 2 3 0 0, .fcmpEq true 1 2 3 0 0,
    .fcmpNe true 1 2 3 0 0, .fcmpLt true 1 2 3 0 0, .fcmpLe true 1 2 3 0 0, .fcmpUn true 1 2 3 0 0, .frint true 1 2 3 0,
    .fscale true 1 2 3 0 0, .fclass true 1 2 0] : List Instr), ∃ x, Issues (ready) x i :=
  issues_all (by decide)

theorem witness_Float64AndFusedResults : ∀ i ∈ ([.dadd true 2 4 6 0 1, .dmul true 2 4 6 1 0, .dmin true 2 4 6 0 0,
    .dmax true 2 4 6 0 0, .dcmpLt true 1 4 6 0 0, .dfma true 2 4 6 8, .ffma true 1 2 3 4, .ffms true 1 2 3 4,
    .ffnma true 1 2 3 4, .ffnms true 1 2 3 4, .hfma2 true 1 2 3 4, .bfma2 true 1 2 3 4, .hdot2 true 1 2 3 4,
    .bdot2 true 1 2 3 4] : List Instr), ∃ x, Issues (ready) x i :=
  issues_all (by decide)

theorem witness_ConversionResults : ∀ i ∈ ([.cvt true 2 4 0 0 0, .cvt true 2 4 1 0 0, .cvt true 2 4 2 0 0, .cvt true 2 4 3 3 0,
    .cvt true 2 4 4 0 0, .cvt true 2 4 5 0 0, .cvt true 2 4 6 0 0, .cvt true 2 4 7 0 0, .cvt true 2 4 8 1 0, .cvt true 2 4 9 1 0,
    .cvt true 2 4 10 0 0, .cvt true 2 4 11 1 0, .cvt true 2 4 12 0 0, .cvt true 2 4 13 1 0, .cvt true 2 4 14 0 0,
    .cvt true 2 4 15 1 0, .qnt true 2 4 3 0 0, .qnt true 2 4 9 4 0, .dqnt true 2 4 3 0 0,
    .dqnt true 2 4 10 0 0, .mxscl true 2 4 3 2 0, .pack2 true 2 4 6 0 0, .unpk true 2 4 1 1 0, .unpk true 2 4 7 3 0,
    .unpk true 2 4 3 3 0] : List Instr), ∃ x, Issues (ready) x i :=
  issues_all (by decide)

theorem witness_SpecialFunctionResults : ∀ i ∈ ([.frcp true 1 2 0, .frsq true 1 2 3, .fsqrt true 1 2 3, .fex2 true 1 2 3,
    .flg2 true 1 2 3, .fsin true 1 2 3, .fcos true 1 2 15, .fdiv true 1 2 3] : List Instr), ∃ x, Issues (ready) x i :=
  issues_all (by decide)

theorem witness_SpecialFunctionResults_cases : val .f32 0x7FC00000 = .nan ∧ (∃ e, val .f32 0 = .fin false 0 e) ∧
    val .f32 0xFF800000 = .inf true ∧ (∃ m e, 0 < m ∧ val .f32 0xBF800000 = .fin true m e) ∧
    ∃ m e, 0 < m ∧ val .f32 0x3F800000 = .fin false m e :=
  ⟨by decide, ⟨-149, by decide⟩, by decide, ⟨2 ^ 23, -23, by decide, by decide⟩, 2 ^ 23, -23, by decide, by decide⟩

/-- An outstanding special function of the loaded kernel. -/
def sfuState : State :=
  { ready with work.outs := [(9, { kind := .sfu, gang := 16, grp := 1, wrV := [(vkey 1 0, 5)] })], evt := [9] }

theorem witness_SpecialFunctionResults_completes : ∃ o g, smFind sfuState.work.outs (sfuState.op 0) = some o ∧ o.kind = .sfu ∧
    o.wrS = [] ∧ sfuState.gang o.gang = some g :=
  ⟨_, _, rfl, rfl, rfl, rfl⟩

/-! ### Control flow, traps and the system words -/

/-- A slice inside a loop over words 2 to 5. -/
def inLoop (n : Word) : Slice := { live := true, grp := 1, pc := 5, loops := [{ start := 2, stop := 5, count := n }] }

theorem witness_LoopsAndRepeats_advance : ({} : Slice).loops = [] ∧
    (∃ e es, (inLoop 3).loops = e :: es ∧ e.stop ≠ 4) ∧ (∃ e es, (inLoop 3).loops = e :: es ∧ e.stop = 5 ∧ e.count ≠ 1) ∧
    (∃ e es, (inLoop 1).loops = e :: es ∧ e.stop = 5 ∧ e.count = 1) ∧
    (∃ e es, (inLoop 3).loops = e :: es ∧ ¬ (e.start ≤ 6 ∧ (6 : Word) ≤ e.stop)) ∧
    (∃ e es, (inLoop 3).loops = e :: es ∧ (e.start ≤ 2 ∧ (2 : Word) ≤ e.stop) ∧ e.start ≤ 5 ∧ (5 : Word) ≤ e.stop) ∧
    ∃ e es, (inLoop 3).loops = e :: es ∧ (e.start ≤ 5 ∧ (5 : Word) ≤ e.stop) ∧ ¬ (e.start ≤ 6 ∧ (6 : Word) ≤ e.stop) :=
  ⟨rfl, ⟨_, _, rfl, by decide⟩, ⟨_, _, rfl, by decide⟩, ⟨_, _, rfl, by decide⟩, ⟨_, _, rfl, by decide⟩,
   ⟨_, _, rfl, by decide⟩, _, _, rfl, by decide⟩

/-- LOOP and LOOPI in a gang without loops: a body that ends at the last word of the code segment. -/
theorem witness_LoopsAndRepeats_loop : ∀ p ∈ ([(5, .loopS 1 16383), (0, .loopS 1 16383), (5, .loopi 7 1), (5, .loopi 0 1)] :
    List (Word × Instr)), ∃ x, Issues (ready (withRegs [(1, p.1)])) x p.2 ∧ x.s 1 = p.1 ∧
      x.cur.pc.toNat + 16383 < (x.code (ready (withRegs [(1, p.1)]))).limit.toNat / 4 ∧
      ∀ j ∈ grpSlices x.cur.grp, (x.src.slice j).loops = [] := by
  intro p hp
  simp only [List.mem_cons, List.not_mem_nil, or_false] at hp
  rcases hp with rfl | rfl | rfl | rfl <;> exact issues_with _ (by decide)

/-- The same code segment seen from a state whose word 1 holds an IADD. -/
def repState : State := { ready with mem := setWord ready.mem 0x10004 0x10000000 }

theorem witness_LoopsAndRepeats_rep : ∃ x tw, Issues repState x (.rep 63 1 0 0 0) ∧
    fetchWord repState x.core x.dom (x.code repState) (x.cur.pc + 1) = .ok tw ∧ chainBit tw.toNat = false ∧
    repeatable (fld tw.toNat 27 4) = true ∧ stepsBad x.cur.word.toNat tw.toNat = false ∧
    ∀ j ∈ grpSlices x.cur.grp, (x.src.slice j).loops = [] := by
  obtain ⟨x, hx, h⟩ := issues_with (s := repState) (i := .rep 63 1 0 0 0) (fun x =>
    fetchWord repState x.core x.dom (x.code repState) (x.cur.pc + 1) = .ok 0x10000000 ∧
    stepsBad x.cur.word.toNat 0x10000000 = false ∧ ∀ j ∈ grpSlices x.cur.grp, (x.src.slice j).loops = []) (by decide)
  exact ⟨x, _, hx, h.1, by decide, by decide, h.2.1, h.2.2⟩

theorem witness_LoopsAndRepeats_boost : ∃ g, ({ ready with evt := [16, 1] } : State).gang
    (({ ready with evt := [16, 1] } : State).op 0) = some g ∧
    BitVec.ofNat 8 (({ ready with evt := [16, 1] } : State).op 1) ∈ liveGroups g := ⟨_, rfl, by decide⟩

theorem witness_ControlResults : ∀ i ∈ ([.nop true, .bra 4194303, .call 1, .setx true 1, .andx true 1, .orx true 7,
    .regang true 5, .yield] : List Instr), ∃ x, Issues (ready) x i := issues_all (by decide)

theorem witness_ControlResults_br : ∀ k ∈ ([0, 1, 2] : List (Fin 4)), ∃ x, Issues (ready) x (.br 0 0 k 5) ∧
    ∀ j ∈ grpSlices x.cur.grp, (brTaken x 0 0 k j).isSome = true := by
  intro k hk
  simp only [List.mem_cons, List.not_mem_nil, or_false] at hk
  rcases hk with rfl | rfl | rfl <;> exact issues_with _ (by decide)

theorem witness_ControlResults_brx : ∃ x, Issues (ready (withRegs [(2, 0x20), (62, 0x40)])) x (.brx 2) ∧ (x.s2 2).toNat % 4 = 0 :=
  issues_with _ (by decide)

theorem witness_ControlResults_ret : ∃ x, Issues (ready (withRegs [(2, 0x20), (62, 0x40)])) x .ret ∧ (x.s2 62).toNat % 4 = 0 :=
  issues_with _ (by decide)

theorem witness_ControlResults_lbrk : ∃ x, Issues (ready (fun g => { g with slices := [{ inLoop 3 with x := 15 }] })) x .lbrk ∧
    ∀ j ∈ grpSlices x.cur.grp, (x.src.slice j).loops ≠ [] := issues_with _ (by decide)

theorem witness_ControlResults_waitla : ∃ x, Issues (ready) x (.waitla true) ∧ noOuts x.gang x.cur.grp = true ∧
    x.cur.pc = x.cur.last := issues_with _ (by decide)

/-- Two slices, of which the first waits in a join at word 3, the second as given; the crew's other state as loaded. -/
def joined (sl : Slice) : State :=
  ready (fun g => { g with nsl := 2, slices := [{ live := true, grp := 1, pc := 3, join := some 5, block := some { pc := 3, last := 3 } }, sl] })

theorem witness_ControlResults_join : ∀ p ∈ ([({ live := true, grp := 2 }, false, false), ({ live := true, grp := 2, pc := 3, join := some 5, joinAt := 7, block := some { pc := 3, last := 3 } }, true, true),
      ({ live := true, grp := 2, join := some 6, block := some { pc := 9, last := 9 } }, true, false)] : List (Slice × Bool × Bool)),
    ∃ g w, (joined p.1).gang 16 = some g ∧ g.slices.length ≤ 8 ∧ (joined p.1).crew g.crew = some w ∧ g.ss = false ∧ g.liveSlices = [0, 1] ∧
      (g.slice 1).join.isSome = p.2.1 ∧
      decide (((g.slice 1).join, (g.slice 1).block.map (fun b => b.pc), (g.slice 1).loops) =
        ((g.slice 0).join, (g.slice 0).block.map (fun b => b.pc), (g.slice 0).loops)) = p.2.2 := by
  intro p hp
  simp only [List.mem_cons, List.not_mem_nil, or_false] at hp
  rcases hp with rfl | rfl | rfl <;> exact ⟨_, _, rfl, by decide, rfl, rfl, by decide, by decide, by decide⟩

theorem witness_ControlTraps : ∀ i ∈ ([.trap 65535, .bkpt 7] : List Instr), ∃ x, Issues (ready) x i := issues_all (by decide)

theorem witness_ControlTraps_brx : ∃ x, Issues (ready (withRegs [(2, 0x21)])) x (.brx 2) ∧ (x.s2 2).toNat % 4 ≠ 0 :=
  issues_with _ (by decide)

theorem witness_ControlTraps_ret : ∃ x, Issues (ready (withRegs [(62, 3)])) x .ret ∧ (x.s2 62).toNat % 4 ≠ 0 :=
  issues_with _ (by decide)

theorem witness_ControlTraps_br : ∃ x, Issues (ready (fun g => { g with r := { g.r with m := [(1, 1)] } })) x (.br 1 0 0 5) ∧
    ∃ j ∈ grpSlices x.cur.grp, brTaken x 1 0 0 j = none := issues_with _ (by decide)

/-- A loop without a body, one past the code segment, one that leaves the body of the loop that encloses it, a fifth loop. -/
theorem witness_ControlTraps_loop : (∃ x, Issues ready x (.loopi 7 0)) ∧
    (∃ x, Issues ready x (.loopS 1 65535) ∧ (x.code ready).limit.toNat / 4 ≤ x.cur.pc.toNat + 65535) ∧
    (∃ x, Issues (ready (fun g => { g with slices := [{ inLoop 3 with pc := 0, loops := [{ start := 0, stop := 5, count := 3 }] }] })) x (.loopi 7 6) ∧
      ∃ e es, (x.src.slice 0).loops = e :: es ∧ e.start ≤ x.cur.pc ∧ x.cur.pc ≤ e.stop ∧ e.stop.toNat < x.cur.pc.toNat + 6) ∧
    ∃ x, Issues (ready (fun g => { g with slices := [{ live := true, grp := 1, loops := List.replicate 4 { start := 2, stop := 9, count := 2 } }] })) x
      (.loopi 7 5) ∧ 4 ≤ (x.src.slice 0).loops.length ∧ (x.code ready).limit.toNat / 4 > x.cur.pc.toNat + 5 :=
  ⟨issues_all (is := [.loopi 7 0]) (by decide) _ (by decide), issues_with _ (by decide),
   (issues_with (fun x => (x.src.slice 0).loops = [{ start := 0, stop := 5, count := 3 }] ∧ x.cur.pc = 0) (by decide)).elim
     fun x h => ⟨x, h.1, _, _, h.2.1, by rw [h.2.2]; decide⟩,
   issues_with _ (by decide)⟩

theorem witness_ControlTraps_lbrk : ∃ x, Issues ready x .lbrk ∧ ∃ j ∈ grpSlices x.cur.grp, (x.src.slice j).loops = [] :=
  issues_with _ (by decide)

/-- A REP before a word that may not repeat (zeros), and one that is the last word of a loop's body. -/
theorem witness_ControlTraps_rep : (∃ x, Issues ready x (.rep 63 1 0 0 0) ∧
      fetchWord ready x.core x.dom (x.code ready) (x.cur.pc + 1) = .ok 0 ∧ repeatable (fld (0 : Word).toNat 27 4) = false) ∧
    ∃ x, Issues (repState.modGang 16 (fun g => { g with slices := [{ live := true, grp := 1, loops := [{ start := 0, stop := 0, count := 3 }] }] })) x
        (.rep 63 1 0 0 0) ∧ fetchWord repState x.core x.dom (x.code repState) (x.cur.pc + 1) = .ok 0x10000000 ∧
      stepsBad x.cur.word.toNat 0x10000000 = false ∧ (x.src.slice 0).loops.head?.map (fun e => e.stop) = some x.cur.pc :=
  ⟨issues_with _ (by decide), issues_with _ (by decide)⟩

/-- The context of the next word, and of a repetition of a word. -/
theorem witness_ControlTraps_record : ∀ r ∈ ([none, some 3] : List (Option Nat)), ∃ x,
    ({ ready with work.cur := some { gang := 16, grp := 1, rep := r } } : State).cx = some x ∧
    ({ ready with work.cur := some { gang := 16, grp := 1, rep := r } } : State).gang x.cur.gang = some x.gang ∧
    x.cur.retry = false ∧ x.cur.rep = r := by
  intro r hr
  simp only [List.mem_cons, List.not_mem_nil, or_false] at hr
  rcases hr with rfl | rfl <;> exact ⟨_, rfl, rfl, rfl, rfl⟩

/-- A gang with a record to handle, and the same gang in its handler. -/
def trapped (cur : Bool) (sa : Bool := false) : State :=
  { ready (fun g => { g with recs := [{ w0 := 0x01000000, ex := 0xF }], cur := cur, sa := sa,
                             slices := [{ live := true, x := 0xF, grp := 1, stopped := !cur, hnd := cur }] }) with evt := [16] }

theorem witness_HandlerEntryAndReturn_entry : ∀ sa ∈ [false, true], ∃ g w r rs, (trapped false sa).gang ((trapped false sa).op 0) = some g ∧
    g.recs = r :: rs ∧ g.cur = false ∧ r.disp = 0 ∧ g.sa = sa ∧ (trapped false sa).crew g.crew = some w ∧
    w.core?.isSome = true ∧ w.leaving = none ∧ frozenNow (trapped false sa) ((trapped false sa).op 0) g r.grp = false ∧
    r.grp.getLsbD 0 = true := by
  intro sa hs
  simp only [List.mem_cons, List.not_mem_nil, or_false] at hs
  rcases hs with rfl | rfl <;> exact ⟨_, _, _, _, rfl, rfl, rfl, rfl, rfl, rfl, rfl, rfl, by decide, by decide⟩

theorem witness_HandlerEntryAndReturn_leaves : ∃ g r rs, (trapped true).gang 16 = some g ∧ g.recs = r :: rs := ⟨_, _, _, rfl, rfl⟩

theorem witness_HandlerEntryAndReturn_eret : ∃ x, Issues (trapped true) x .eret ∧ noOuts x.gang x.cur.grp = true ∧
    x.gang.recs.length = 1 := issues_with _ (by decide)

theorem witness_SpecialRegisters : ∀ n ∈ ([0, 1, 2, 3, 4, 5, 6, 7, 8, 16, 17, 18, 32, 33, 34, 35, 36, 37, 38, 39, 40, 41, 42] : List (Fin 1024)),
    ∃ x, Issues (ready (fun g => { g with prv := true })) x (.mfsr true 1 n) ∧ x.gang.cur = false := by
  intro n hn
  simp only [List.mem_cons, List.not_mem_nil, or_false] at hn
  rcases hn with rfl | rfl | rfl | rfl | rfl | rfl | rfl | rfl | rfl | rfl | rfl | rfl | rfl | rfl | rfl | rfl | rfl | rfl | rfl | rfl | rfl |
    rfl | rfl <;> exact issues_with _ (by decide)

theorem witness_SpecialRegisters_current : ∀ n ∈ ([32, 33, 34, 35, 36, 37, 38, 39, 40, 41, 42] : List (Fin 1024)),
    ∃ x, Issues (trapped true) x (.mfsr true 1 n) ∧ x.gang.cur = true ∧ x.gang.recs.length = 1 := by
  intro n hn
  simp only [List.mem_cons, List.not_mem_nil, or_false] at hn
  rcases hn with rfl | rfl | rfl | rfl | rfl | rfl | rfl | rfl | rfl | rfl | rfl <;> exact issues_with _ (by decide)

theorem witness_SpecialRegisters_written : ∀ i ∈ ([.mtsr true 1 16, .mtsr true 1 17, .mtsr true 1 34, .mtsr true 1 39] : List Instr),
    ∃ x, Issues (trapped true) x i := issues_all (by decide)

/-- A privileged gang: a segment descriptor in s0 to s3, a scope mask in s8 to s13. -/
def firmware : State := ready (fun g => withRegs [(0, 0x1000), (2, 0x1000), (8, 1)] [] [] { g with prv := true })

/-- A notice to the host that needs no queue, and a target that no notice has. -/
theorem witness_SystemResults_softi : (∃ x, Issues (ready (withRegs [(1, 0x40000000)])) x (.softi true 1) ∧ (x.s 1).toNat = 2 ^ 30) ∧
    ∃ x, Issues (ready (withRegs [(1, 0x80000000)])) x (.softi true 1) ∧ 2 ≤ (x.s 1).toNat / 2 ^ 30 :=
  ⟨issues_with _ (by decide), issues_with _ (by decide)⟩

/-- A window of 4 KiB at 0x1000 for segment 0, and for the Basin of a task that holds none; the first with a load of the gang
outstanding. -/
theorem witness_SystemResults_segld : (∃ x, Issues firmware x (.segld true 0 0) ∧ (∀ sl ∈ x.gang.slices, sl.wins = []) ∧ x.held = [] ∧
      [(x.s2 0).toNat, (x.s2 2).toNat] = [0x1000, 0x1000]) ∧
    (∃ x, Issues firmware x (.segld true 3 0) ∧ (∀ sl ∈ x.gang.slices, sl.wins = []) ∧ x.held = [] ∧
      (smFind firmware.work.tasks x.crew.task).isNone = true) ∧
    ∃ x, Issues (firmware.modGang 16 (fun g => { g with slices := [{ live := true, x := 15, grp := 1, wins := [(9, 3)] }] })) x (.segld true 0 0) ∧
      x.held = [] ∧ ¬ ∀ sl ∈ x.gang.slices, sl.wins = [] :=
  ⟨issues_with _ (by decide), issues_with _ (by decide), issues_with _ (by decide)⟩

theorem witness_SystemResults_segrd : ∃ x, Issues (ready) x (.segrd true 4 0) ∧ x.hnd = false :=
  issues_with _ (by decide)

theorem witness_SystemResults_scopew : (∃ x, Issues firmware x (.scopew true 8 31) ∧ scopeMask x 8 ≠ 0) ∧
    (∃ x, Issues firmware x (.scopew true 8 3)) ∧ ∃ x, Issues firmware x (.scopew true 20 4) ∧ scopeMask x 20 = 0 :=
  ⟨issues_with _ (by decide), issues_all (is := [.scopew true 8 3]) (by decide) _ (by decide), issues_with _ (by decide)⟩

theorem witness_SystemResults : ∀ i ∈ ([.time true 2, .icinv true] : List Instr), ∃ x, Issues (ready) x i :=
  issues_all (by decide)

/-- A crew whose slice waits, at a time past every limit of its domain. -/
def overdue : State :=
  { ready (fun g => { g with slices := [{ live := true, x := 0xF, grp := 1, block := some { wait := true } }] })
      (fun s => (s.modCrew 1 (fun w => { w with blockedAt := some 0 })).modDomain 0 (fun d =>
        { d with set_ := { d.set_ with blocked := 10000, run := 1000000 } })) with time := 2000000, evt := [1, 7] }

theorem witness_ImposedStops : ∃ w, overdue.crew (overdue.op 0) = some w ∧ w.core?.isSome = true ∧ w.leaving = none ∧
    crewLives overdue (overdue.op 0) = true ∧ w.blockedAt = some 0 ∧ crewBlocked overdue (overdue.op 0) = true ∧
    (overdue.domain w.dom).set_.blocked ≠ 0 ∧ (overdue.domain w.dom).set_.blocked < overdue.time - 0 ∧
    (overdue.domain w.dom).set_.run ≠ 0 ∧ (overdue.domain w.dom).set_.run < w.ran + (overdue.time - w.since) ∧
    ∃ g, overdue.gang 16 = some g ∧ g.crew = overdue.op 0 ∧ 1 ∈ liveGroups g ∧ (g.slice (firstSlice 1)).stopped = false ∧
      frozenNow overdue 16 g 1 = false :=
  ⟨_, rfl, by decide, rfl, by decide, rfl, by decide, by decide, by decide, by decide, by decide, _, rfl, rfl, by decide,
   by decide, by decide⟩

/-! ### The memory path -/

/-- A gang with segments over a global page, its Pound and its Basin, v4 (and the pairs at 6) stepping four bytes a lane. -/
def memGang (f : State → State := id) : State :=
  ready (withRegs [(8, 0xFFC)] ((List.range 4).flatMap (fun j => [(4, j, BitVec.ofNat 32 (4 * j)), (6, j, BitVec.ofNat 32 (4 * j))]))
    [(0, { limit := 0x10000 }), (1, { limit := 0x1000 }), (3, { limit := 0x1000 })]) f

theorem witness_NearLoadsAndStores : ∀ i ∈ ([.ld true 5 0 1 1 4 3 0, .st true 5 0 1 2 4 0] : List Instr), ∃ x, Issues memGang x i ∧
    ∀ j ∈ x.lanes, checkAddr memGang x 1 j (laneOff x 1 4 0 j) 4 .read 0 = .ok (poundAddr 0 (4 * j)) ∧
      checkAddr memGang x 1 j (laneOff x 1 4 0 j) 4 .write 0 = .ok (poundAddr 0 (4 * j)) ∧
      reachAway memGang x.core x.crew 1 (laneOff x 1 4 0 j) = false ∧
      scoreHit memGang (poundAddr 0 (4 * j)) 4 = false ∧ isPoison memGang.poison (poundAddr 0 (4 * j)) = false := by
  intro i hi
  simp only [List.mem_cons, List.not_mem_nil, or_false] at hi
  rcases hi with rfl | rfl <;> exact issues_with _ (by decide)

/-- The last word of the Pound segment. -/
theorem witness_NearLoadsAndStores_once : ∀ i ∈ ([.ldu true 5 0 1 1 8 3 0, .stu true 5 0 1 2 8 0] : List Instr), ∃ x,
    Issues memGang x i ∧ checkAddr memGang x 1 0 (onceOff x 1 8 0) 4 .read 0 = .ok (poundAddr 0 0xFFC) ∧
      checkAddr memGang x 1 0 (onceOff x 1 8 0) 4 .write 0 = .ok (poundAddr 0 0xFFC) ∧
      reachAway memGang x.core x.crew 1 (onceOff x 1 8 0) = false := by
  intro i hi
  simp only [List.mem_cons, List.not_mem_nil, or_false] at hi
  rcases hi with rfl | rfl <;> exact issues_with _ (by decide)

/-- A line the L1 holds as copies. -/
def heldLine : State := memGang (fun s => s.putL1 0 0x400 { st := [.v, .v, .v, .v], data := 5 })

theorem witness_CachedLoadsAndStores_served : ∃ x, Issues heldLine x (.ld true 5 2 0 1 6 3 0) ∧
    (∀ r ∈ laneChecks heldLine x 0 6 0 4 .read 2, r.2.2 = .ok (0x10000 + 4 * r.1)) ∧
    let rs := laneChecks heldLine x 0 6 0 4 .read 2
    let u := fillTlbs heldLine x 0 (passed heldLine x 0 rs)
    ∀ q ∈ loadAccs 4 (fun j k => vkey (1 + k) j) (passed heldLine x 0 rs), accWaits u x 2 q = false ∧ accAct u x 2 q = .hit ∧
      (u.l1 x.core (lineOf q.pa)).po.getLsbD (wordIx q.pa) = false := issues_with _ (by decide)

theorem witness_CachedLoadsAndStores_once : ∃ x, Issues heldLine x (.ldu true 5 2 0 1 10 3 0) ∧
    (onceCheck heldLine x 0 10 0 4 .read 2).2.2 = .ok 0x10000 ∧
    let rs := [onceCheck heldLine x 0 10 0 4 .read 2]
    let u := fillTlbs heldLine x 0 (passed heldLine x 0 rs)
    ∀ q ∈ loadAccs 4 (fun _ k => 1 + k) (passed heldLine x 0 rs), accWaits u x 2 q = false ∧ accAct u x 2 q = .hit ∧
      (u.l1 x.core (lineOf q.pa)).po.getLsbD (wordIx q.pa) = false := issues_with _ (by decide)

theorem witness_CachedLoadsAndStores_missed : ∃ x, Issues memGang x (.ld true 5 1 0 1 6 3 0) ∧
    (∀ r ∈ laneChecks memGang x 0 6 0 4 .read 1, r.2.2 = .ok (0x10000 + 4 * r.1)) ∧
    let rs := laneChecks memGang x 0 6 0 4 .read 1
    let u := fillTlbs memGang x 0 (passed memGang x 0 rs)
    let as := loadAccs 4 (fun j k => vkey (1 + k) j) (passed memGang x 0 rs)
    as ≠ [] ∧ ∀ q ∈ as, accWaits u x 1 q = false ∧ accAct u x 1 q = .send .rdThr := issues_with _ (by decide)

theorem witness_CachedLoadsAndStores_stored : ∃ x, Issues memGang x (.st true 5 1 0 2 6 0) ∧
    (∀ r ∈ laneChecks memGang x 0 6 0 4 .write 1, r.2.2 = .ok (0x10000 + 4 * r.1)) ∧
    let rs := laneChecks memGang x 0 6 0 4 .write 1
    let u := fillTlbs memGang x 0 (passed memGang x 0 rs)
    let ws := storeWords 4 (fun j k => x.v (2 + k) j) (passed memGang x 0 rs)
    ∀ m ∈ (ws.map (fun q => lineOf q.pa)).dedup, (∀ k ∈ wordsOf (touched (lineStore ws m).1),
      stWaits u x 1 m (lineStore ws m).1 k = false) ∧ stSet u x 1 m (lineStore ws m).1 .push = 0 := issues_with _ (by decide)

/-- The first byte past the Pound segment. -/
def pastEnd : State := ready (withRegs [(8, 0x1000)] ((List.range 4).map (fun j => (4, j, 0x1000))) [(1, { limit := 0x1000 })])

theorem witness_AccessTraps : ∀ i ∈ ([.ld true 5 0 1 1 4 3 0, .st true 5 0 1 2 4 0, .ldu true 5 0 1 1 8 3 0, .stu true 5 0 1 2 8 0] :
    List Instr), ∃ x, Issues pastEnd x i ∧ (lanesFail 0 (laneChecks pastEnd x 1 4 0 4 .read 0)).isSome = true ∧
      (lanesFail 0 (laneChecks pastEnd x 1 4 0 4 .write 0)).isSome = true ∧
      (checkAddr pastEnd x 1 0 (onceOff x 1 8 0) 4 .read 0).isOk = false ∧
      (checkAddr pastEnd x 1 0 (onceOff x 1 8 0) 4 .write 0).isOk = false := by
  intro i hi
  simp only [List.mem_cons, List.not_mem_nil, or_false] at hi
  rcases hi with rfl | rfl | rfl | rfl <;> exact issues_with _ (by decide)

/-- A request of core 0 for words of line 0x400, on its way. -/
def asked (k : ReqKind) (words : BitVec 16 := 0xF) (wm : BitVec 64 := 0) : ReqX :=
  { r := { id := 7, kind := k, core := 0, gang := 16, line := 0x400, words := words, wm := wm, tinc := 1, out := 9 } }

/-- The state in which pending item 0 is the one given, two microseconds after reset. -/
def pending (q : List ReqX := []) (p : List Reply := []) (m : List Snoop := []) (a : List Ack := []) : State :=
  { ready with coh.reqs := q, coh.replies := p, coh.snoops := m, coh.acks := a, evt := [0], time := 2000 }

theorem witness_RequestAndReplySteps_staged : ∃ q, (pending [{ asked .rdThr with staged := true }]).coh.reqs[(0 : Nat)]? = some q ∧
    q.staged = true ∧ lsuRoom (pending [{ asked .rdThr with staged := true }]) q.r.core (bankOf q.r.line) = true ∧
    (∀ p ∈ (pending [{ asked .rdThr with staged := true }]).coh.reqs, p.staged = true → p.r.core = q.r.core → q.r.id ≤ p.r.id) ∧
    q.begun = false ∧ 4096 ≤ clocksSince (pending [{ asked .rdThr with staged := true }]) q.at_ ∧
    (pending [{ asked .rdThr with staged := true }]).op 0 < 192 :=
  ⟨_, rfl, by decide, by decide, by decide, by decide, by decide, by decide⟩

theorem witness_RequestAndReplySteps_replies : ∀ k ∈ ([.data, .ack, .done, .error .cohLost] : List ReplyKind),
    ∃ p, (pending [] [{ kind := k, r := { (asked .rdThr).r with out := 0 } }]).arriving
        ((pending [] [{ kind := k, r := { (asked .rdThr).r with out := 0 } }]).op 0) = some p ∧ p.kind = k ∧
      p.r.kind = .rdThr ∧ p.r.out = 0 := by
  intro k hk
  simp only [List.mem_cons, List.not_mem_nil, or_false] at hk
  rcases hk with rfl | rfl | rfl | rfl <;> exact ⟨_, rfl, rfl, rfl, rfl⟩

/-- A load that waits for one reply. -/
def loading : State :=
  { pending [] [{ kind := .data, r := (asked .rdThr).r }] with
    work.outs := [(9, { kind := .load, gang := 16, grp := 1, left := 1, accs := [{ pa := 0x10000, dst := vkey 1 0 }] })] }

theorem witness_RequestAndReplySteps_load : ∃ p o g, loading.arriving (loading.op 0) = some p ∧ p.kind = .data ∧
    p.r.kind = .rdThr ∧ p.r.wm = 0 ∧ smFind loading.work.outs p.r.out = some o ∧ p.r.out ≠ 0 ∧ o.kind = .load ∧ o.left = 1 ∧
    o.err = none ∧ o.acq = none ∧ o.wrV = [] ∧ o.wrS = [] ∧ p.po = 0 ∧ loading.gang o.gang = some g ∧
    (∀ a ∈ o.accs, lineOf a.pa = p.r.line ∧ p.r.words.getLsbD (wordIx a.pa) = true) ∧ o.hits = [] :=
  ⟨_, _, _, rfl, rfl, rfl, rfl, rfl, by decide, rfl, rfl, rfl, rfl, rfl, rfl, rfl, rfl, by decide, rfl⟩

theorem witness_RequestAndReplySteps_host : ∃ q, (pending [{ r := { (asked .rdThr).r with line := 2 ^ 46 } }]).coh.reqs[(0 : Nat)]? = some q ∧
    lineHost q.r.line = true ∧ q.begun = false ∧ q.r.kind = .rdThr := ⟨_, rfl, by decide, rfl, rfl⟩

theorem witness_HomeSteps_reads : ∀ k ∈ ([.rdThr, .rdSis, .rdWis, .rdOwn] : List ReqKind),
    ∃ q, takeReq (pending [asked k]) 0 k = some q ∧ refusal (pending [asked k]) q = none ∧ q.begun = false ∧
      firstMsgs (pending [asked k]) q = [] ∧ dirFull (pending [asked k]) q.r.line = false ∧ lineHost q.r.line = false ∧ q.r.words ≠ 0 := by
  intro k hk
  simp only [List.mem_cons, List.not_mem_nil, or_false] at hk
  rcases hk with rfl | rfl | rfl | rfl <;> exact ⟨_, rfl, by decide, rfl, by decide, by decide, by decide, by decide⟩

theorem witness_HomeSteps_writes : ∀ k ∈ ([.wrThr, .wrWis, .push] : List ReqKind),
    ∃ q, takeReq (pending [asked k 0 0xF00F]) 0 k = some q ∧ refusal (pending [asked k 0 0xF00F]) q = none ∧ q.begun = false ∧
      firstMsgs (pending [asked k 0 0xF00F]) q = [] ∧ ((pending [asked k 0 0xF00F]).dirOf q.r.line).sharers = 0 := by
  intro k hk
  simp only [List.mem_cons, List.not_mem_nil, or_false] at hk
  rcases hk with rfl | rfl | rfl <;> exact ⟨_, rfl, by decide, rfl, by decide, by decide⟩

theorem witness_HomeSteps_writeback : ∃ q, (pending [asked .writeback 3 0xFF]).coh.reqs[(0 : Nat)]? = some q ∧ q.r.kind = .writeback ∧
    q.lost = false := ⟨_, rfl, rfl, rfl⟩

/-- Core or cluster `d` has a message for line 0x400, of whose words core `d` owns word 1, dirty. -/
def snooped (k : SnoopKind) (d : Nat) : State :=
  (pending [] [] [{ kind := k, dest := d, line := 0x400, words := 0xF, req := 7 }]).putL1 d 0x400 { st := [.v, .v, .v, .v], om := 2, dm := 2 }

theorem witness_SnoopSteps : ∀ k ∈ ([.recall, .fwdRd, .inv] : List SnoopKind), ∀ d ∈ ([0, 47] : List Nat),
    ∃ m, (snooped k d).snoopAt ((snooped k d).op 0) = some m ∧ m.kind = k ∧
      coreAnswers (snooped k d) m.dest = true ∧ coreAnswers (snooped k d) (4 * m.dest) = true ∧
      (∀ c, dataComing (snooped k d) c m.line = false) ∧ ((m.words &&& ((snooped k d).l1 d m.line).om) &&& ((snooped k d).l1 d m.line).dm) = 2 ∧
      (∀ q ∈ (snooped k d).coh.reqs, q.r.id ≠ m.req) ∧ m.dest < 48 ∧ m.line < 2 ^ 60 := by
  intro k hk d hd
  simp only [List.mem_cons, List.not_mem_nil, or_false] at hk hd
  rcases hk with rfl | rfl | rfl <;> rcases hd with rfl | rfl <;>
    exact ⟨_, rfl, rfl, by decide, by decide, fun _ => rfl, by decide, by decide, by decide, by decide⟩

/-- A write that has been applied, its last invalidation answered. -/
def answered : State := pending [{ asked .wrWis 0 0xF with begun := true, applied := true }] [] [] [{ req := 7, inc := 1 }]

theorem witness_SnoopSteps_ack : ∃ a q, answered.ackAt (answered.op 0) = some a ∧
    answered.coh.reqs.find? (fun q => decide (q.r.id = a.req)) = some q ∧ q.applied = true ∧ q.r.kind ≠ .atomic ∧ q.r.kind ≠ .evict ∧
    msgsOut { answered with coh.acks := dropAt answered.coh.acks (answered.op 0) } a.req = false :=
  ⟨_, _, rfl, rfl, rfl, by decide, by decide, by decide⟩

/-! ### Atomics, barriers and fences -/

theorem witness_AtomicOperations : (2 ^ 32 - 1 < 2 ^ 32 ∧ 0 < 2 ^ 32) ∧ (2 ^ 64 - 1 < 2 ^ 64 ∧ (0 : Nat) < 2 ^ 64) := by decide

/-- One lane active. -/
def oneLane (f : State → State := id) : State :=
  ready (fun g => { withRegs [] [] [(0, { limit := 0x10000 }), (1, { limit := 0x1000 }), (3, { limit := 0x1000 })] g with
    slices := [{ live := true, x := 1, grp := 1 }] }) f

/-- Every atomic in the Basin, as one lane and with no order asked for. -/
theorem witness_AtomicWords : ∀ p ∈ atomForms, ∃ x, Issues oneLane x (p.2 true 0 0 2 4 3 0) ∧
    x.scopeSet oneLane 0 = some 1 ∧ x.lanes = [0] ∧
    (∀ r ∈ atomChecks oneLane x p.1 3 4 4, r.2.2.isOk = true ∧ reachAway oneLane x.core x.crew 3 r.2.1 = false) ∧
    (∀ l ∈ atLanes x p.1 2 false (passed oneLane x 3 (atomChecks oneLane x p.1 3 4 4)), scoreHit oneLane l.pa 4 = false) ∧
    checkAddr oneLane x 3 0 (laneOff x 3 4 0 0) 4 .atomic 1 = .ok (basinAddr 0 0) ∧
    isPoison oneLane.poison (basinAddr 0 0) = false := by
  intro p hp
  simp only [atomForms, List.mem_cons, List.not_mem_nil, or_false] at hp
  rcases hp with rfl | rfl | rfl | rfl | rfl | rfl | rfl | rfl | rfl | rfl | rfl | rfl | rfl | rfl | rfl <;>
    exact issues_with _ (by decide)

/-- No lane active, in the global segment. -/
def noLane : State :=
  ready (fun g => { withRegs [] [] [(0, { limit := 0x10000 })] g with slices := [{ live := true, x := 0, grp := 1 }] })

theorem witness_AtomicWords_none : ∀ p ∈ atomForms, ∃ x, Issues noLane x (p.2 true 0 0 2 4 0 0) ∧ x.scopeSet noLane 0 = some 1 ∧
    atLanes x p.1 2 false (passed noLane x 0 (atomChecks noLane x p.1 0 4 4)) = [] := by
  intro p hp
  simp only [atomForms, List.mem_cons, List.not_mem_nil, or_false] at hp
  rcases hp with rfl | rfl | rfl | rfl | rfl | rfl | rfl | rfl | rfl | rfl | rfl | rfl | rfl | rfl | rfl <;>
    exact issues_with _ (by decide)

/-- The same in the global segment. -/
theorem witness_AtomicWords_global : ∀ p ∈ atomForms, ∃ x, Issues oneLane x (p.2 true 0 0 2 4 0 0) ∧
    x.scopeSet oneLane 0 = some 1 ∧ (∀ r ∈ atomChecks oneLane x p.1 0 4 4, r.2.2.isOk = true) ∧
    let cs := passed oneLane x 0 (atomChecks oneLane x p.1 0 4 4)
    let u := fillTlbs oneLane x 0 cs
    atLanes x p.1 2 false cs ≠ [] ∧ ∀ b ∈ (atLanes x p.1 2 false cs).flatMap (fun l => atomWords 32 l.pa),
      mustWait u x (lineOf b) (wordBit (wordIx b)) true false true = false ∧ (u.l1 x.core (lineOf b)).loose (wordIx b) = false := by
  intro p hp
  simp only [atomForms, List.mem_cons, List.not_mem_nil, or_false] at hp
  rcases hp with rfl | rfl | rfl | rfl | rfl | rfl | rfl | rfl | rfl | rfl | rfl | rfl | rfl | rfl | rfl <;>
    exact issues_with _ (by decide)

def adding : State := pending [{ asked .atomic 1 with op := 0, ats := [{ pa := 0x10000, v := 5, dst := vkey 2 0 }] }]

theorem witness_AtomicAtHome : ∃ q l, takeReq adding (adding.op 0) .atomic = some q ∧ refusal adding q = none ∧ q.begun = false ∧
    firstMsgs adding q = [] ∧ (adding.dirOf q.r.line).sharers = 0 ∧ q.wide = false ∧ q.ats = [l] ∧
    isPoison adding.poison l.pa = false ∧ q.op ≤ 14 ∧ q.op ≠ 14 :=
  ⟨_, _, rfl, by decide, rfl, by decide, by decide, rfl, rfl, by decide, by decide, by decide⟩

/-- A crew whose barrier register 15 is as given. -/
def barState (b : Barrier) (w : Word) : State :=
  ready (withRegs [(1, w)] [] [(0, { limit := 0x10000 })]) (fun s => s.modCeng 1 (fun e => { e with bars := [(15, b)] }))

theorem witness_BarrierRegisterWords_phase : (∃ v : Barrier, v.i = true ∧ v.p = false ∧ v.arr = 0 ∧ v.dp = 0 ∧ v.txb = 0) ∧
    ∃ v : Barrier, ¬ (v.i = true ∧ v.p = false ∧ v.arr = 0 ∧ v.dp = 0 ∧ v.txb = 0) :=
  ⟨⟨{ i := true }, by decide⟩, {}, by decide⟩

theorem witness_BarrierRegisterWords_binit : ∃ x, Issues (barState {} 0x3FFF) x (.binit true 15 1) ∧ (x.s 1).toNat % 4096 ≠ 0 ∧
    ((x.s 1).getLsbD 12 = true → (x.s 1).getLsbD 13 = true) := issues_with _ (by decide)

theorem witness_BarrierRegisterWords_arrive : ∀ i ∈ ([.barr true 15, .bard true 15, .btest true 15 1] : List Instr), ∃ x,
    Issues (barState { i := true, arr := 1, exp := 1 } 0) x i ∧ (grpSlices x.cur.grp).length ≤ 1 ∧
    ((barState { i := true, arr := 1, exp := 1 } 0).ceng x.crewNo).bar 15 = { i := true, arr := 1, exp := 1 } ∧
    (Barrier.room { i := true, arr := 1, exp := 1 }) = 1 ∧
    smGet 0 ((barState { i := true, arr := 1, exp := 1 } 0).ceng x.crewNo).unbound (ubKey x.gang.ix 15) = 0 ∧
    chainBound (barState { i := true, arr := 1, exp := 1 } 0) x 15 = 0 ∧
    bindsOf (barState { i := true, arr := 1, exp := 1 } 0) x.crewNo x.gang.ix 15 < 4 := by
  intro i hi
  simp only [List.mem_cons, List.not_mem_nil, or_false] at hi
  rcases hi with rfl | rfl | rfl <;> exact issues_with _ (by decide)

/-- A copy of the gang that BARD has not bound yet. -/
def unboundCopy : State := (barState { i := true, arr := 1 } 0).modCeng 1 (fun e => { e with unbound := [(ubKey 0 15, 1)] })

theorem witness_BarrierRegisterWords_bard : ∃ x, Issues unboundCopy x (.bard true 15) ∧ (unboundCopy.ceng x.crewNo).bar 15 = { i := true, arr := 1 } ∧
    chainBound unboundCopy x 15 < smGet 0 (unboundCopy.ceng x.crewNo).unbound (ubKey x.gang.ix 15) ∧
    bindsOf unboundCopy x.crewNo x.gang.ix 15 < 4 := issues_with _ (by decide)

/-- No store of the gang is on its way, so that a release goes on at once. -/
theorem witness_BarrierRegisterWords_release : release (barState { i := true } 0) 16 0 0 1 false = .ok := by rfl

theorem witness_BarrierRegisterWords_bexp : ∃ x, Issues (barState { i := true, bc := true, arr := 1 } 8388607) x (.bexp true 15 1) ∧
    ((barState { i := true, bc := true, arr := 1 } 8388607).ceng x.crewNo).bar 15 = { i := true, bc := true, arr := 1 } ∧
    0 + (x.s 1).toNat ≤ 8388607 := issues_with _ (by decide)

/-- A phase that has ended, and one that has not. -/
theorem witness_BarrierRegisterWords_bwait : ∀ w ∈ ([4, 5] : List Word), ∃ x, Issues (barState { i := true, arr := 1, ph := 5 } w) x (.bwait true 15 1) ∧
    x.cur.retry = false ∧ ((barState { i := true, arr := 1, ph := 5 } w).ceng x.crewNo).bar 15 = { i := true, arr := 1, ph := 5 } ∧
    (({ i := true, arr := 1, ph := 5 } : Barrier).ce) = 0 ∧
    (x.s 1).extractLsb' 0 8 = w.extractLsb' 0 8 := by
  intro w hw
  simp only [List.mem_cons, List.not_mem_nil, or_false] at hw
  rcases hw with rfl | rfl <;> exact issues_with _ (by decide)

theorem witness_UnitTraps : (∃ x, Issues (barState {} 0x3000) x (.binit true 15 1) ∧ (x.s 1).toNat % 4096 = 0) ∧
    (∃ x, Issues (barState {} 0) x (.barr true 15)) ∧ (∃ x, Issues (barState { i := true, p := true } 0) x (.bard true 15)) ∧
    (∃ x, Issues (barState { i := true } 0) x (.bard true 15) ∧ Barrier.room { i := true } < (grpSlices x.cur.grp).length) ∧
    (∃ x, Issues (barState { i := true, bc := true } 8388608) x (.bexp true 15 1) ∧ 8388607 < 0 + (x.s 1).toNat) ∧
    ∃ x, Issues (barState {} 0) x (.bwait true 15 1) ∧ x.cur.retry = false :=
  ⟨issues_with _ (by decide), issues_all (is := [.barr true 15]) (by decide) _ (by decide),
   issues_all (is := [.bard true 15]) (by decide) _ (by decide), issues_with _ (by decide), issues_with _ (by decide),
   issues_with _ (by decide)⟩

/-- BEXP of a barrier without I, without BC, poisoned; BWAIT of a poisoned one and of one with an error recorded. -/
theorem witness_UnitTraps_states : ∀ p ∈ ([({}, .bexp true 15 1), ({ i := true }, .bexp true 15 1), ({ i := true, bc := true, p := true }, .bexp true 15 1),
      ({ i := true, p := true }, .bwait true 15 1), ({ i := true, ce := 63 }, .bwait true 15 1)] : List (Barrier × Instr)),
    ∃ x, Issues (barState p.1 0) x p.2 ∧ x.cur.retry = false ∧ ((barState p.1 0).ceng x.crewNo).bar 15 = p.1 := by
  intro p hp
  simp only [List.mem_cons, List.not_mem_nil, or_false] at hp
  rcases hp with rfl | rfl | rfl | rfl | rfl <;> exact issues_with _ (by decide)

theorem witness_UnitTraps_recorded : causeOf (63 : Word).toNat ≠ none := by decide

/-- The samples of four lanes against a record in the Pound. -/
def stqState : State := ready (withRegs [] [] [(1, { limit := 0x1000 })])

theorem witness_UnitTraps_stq : ∃ x, Issues stqState x (.stq true 2 4 6 3) ∧ stqBad stqState x 4 (x.s 6) = 0 ∧
    let pa := poundAddr x.core ((segOf stqState x.dom x.hnd x.src.r 1).base.toNat + (x.s 6).toNat)
    scoreHit stqState pa 112 = false ∧ ∀ k, k < 28 → isPoison stqState.poison (pa + 4 * k) = false := issues_with _ (by decide)

theorem witness_UnitTraps_bucket : ∀ e ∈ ([none, some { cause := .gxSpillFull }] : List (Option AErr)), ∀ i ∈ ([.bkdone true 1, .bkspl true 1] : List Instr),
    ∃ x, Issues (ready id (fun s => s.modCeng 1 (fun v => { v with bkt := { err := e } }))) x i ∧ x.cur.retry = false ∧
      ((ready id (fun s => s.modCeng 1 (fun v => { v with bkt := { err := e } }))).ceng x.crewNo).bkt = { err := e } := by
  intro e he i hi
  simp only [List.mem_cons, List.not_mem_nil, or_false] at he hi
  rcases he with rfl | rfl <;> rcases hi with rfl | rfl <;> exact issues_with _ (by decide)

/-- A record at which STQ's offset is not aligned. -/
theorem witness_UnitTraps_stqBad : ∃ x, Issues (ready (withRegs [(6, 4)] [] [(1, { limit := 0x1000 })])) x (.stq true 2 4 6 3) ∧
    stqBad (ready (withRegs [(6, 4)] [] [(1, { limit := 0x1000 })])) x 4 (x.s 6) ≠ 0 := issues_with _ (by decide)

/-- A memory barrier object at the first bytes of the global page. -/
theorem witness_BarrierMemoryWords : ∀ i ∈ ([.binitMem true 0 4 1, .barrMem true 4, .bwaitMem true 4 1, .btestMem true 4 1] : List Instr),
    ∃ x, Issues (barState {} 1) x i ∧ x.cur.retry = false ∧ objCheck (barState {} 1) x (x.s2 4) = .ok 0x10000 ∧
      mustWait (barState {} 1) x 0x400 0xFF true false true = false ∧ (∀ a ∈ [0x10000, 0x10000 + 16],
        ((barState {} 1).l1 x.core (lineOf a)).looseWords &&& secBits (wordIx a / 4) = 0) ∧
      x.scopeSet (barState {} 1) 0 = some 1 ∧ (x.s 1).toNat % 4096 ≠ 0 := by
  intro i hi
  simp only [List.mem_cons, List.not_mem_nil, or_false] at hi
  rcases hi with rfl | rfl | rfl | rfl <;> exact issues_with _ (by decide)

theorem witness_BarrierMemoryWords_release : release (barState {} 1) 16 0 0 1 false = .ok ∧ release (barState {} 1) 16 0 0 1 true = .ok :=
  ⟨rfl, rfl⟩

/-- The same words, waiting, with the barrier unit's answer. -/
def barAnswered : State :=
  { barState {} 1 with coh.replies := [{ kind := .data, r := { (asked .barrier).r with lanes := 0xF }, res := [(0, 3)] }],
                       work.cur := some { gang := 16, grp := 1, retry := true } }

theorem witness_BarrierMemoryWords_answer : ∀ i ∈ ([.binitMem true 0 4 1, .barrMem true 4, .bwaitMem true 4 1, .btestMem true 4 1] : List Instr),
    ∃ x, Issues barAnswered x i ∧ x.cur.retry = true ∧
      (myBarReply barAnswered x).map (fun p => (p.1, p.2.kind, p.2.bad)) = some (0, .data, none) := by
  intro i hi
  simp only [List.mem_cons, List.not_mem_nil, or_false] at hi
  rcases hi with rfl | rfl | rfl | rfl <;> exact issues_with _ (by decide)

theorem witness_BarrierMemoryWords_arrived : ∃ p, barAnswered.arriving 0 = some p ∧ p.kind = .data ∧ p.bad = none := ⟨_, rfl, rfl, rfl⟩

/-- An object of two arrivals, of which one or two come. -/
def arriving (k : Nat) : State :=
  { pending [{ asked .barrier 0xFF with bar := [1, k, 0, 0, 1] }] with
    mem := setWord (setWord ready.mem 0x10000 (objLo 2 2 7)) 0x10004 0x80000000 }

theorem witness_BarrierUnitSteps : ∀ k ∈ ([1, 2] : List Nat), ∃ q, takeReq (arriving k) ((arriving k).op 0) .barrier = some q ∧
    refusal (arriving k) q = none ∧ q.begun = false ∧ firstMsgs (arriving k) q = [] ∧ ((arriving k).dirOf q.r.line).sharers = 0 ∧
    q.bar = 1 :: k :: [0, 0, 1] ∧ (∀ j, j < 8 → isPoison (arriving k).poison (objAddr q + 4 * j) = false) ∧
    (objOf (getWords (arriving k).mem (objAddr q) 8)).i = true ∧ (objOf (getWords (arriving k).mem (objAddr q) 8)).b = false ∧
    k ≤ (objOf (getWords (arriving k).mem (objAddr q) 8)).arr := by
  intro k hk
  simp only [List.mem_cons, List.not_mem_nil, or_false] at hk
  rcases hk with rfl | rfl <;>
    exact ⟨_, rfl, by decide, rfl, by decide, by decide, rfl, by decide, by decide, by decide, by decide⟩

/-- The same object as a fence of die 1 has found it, with core 48 in its mask. -/
def breaking : State := { arriving 1 with coh.breaks := [(0x10000, getWords (arriving 1).mem 0x10000 8)] }

theorem witness_BarrierUnitSteps_break : ∃ q, takeReq breaking (breaking.op 0) .barrier = some q ∧ refusal breaking q = none ∧ q.begun = false ∧
    firstMsgs breaking q = [] ∧ (breaking.dirOf q.r.line).sharers = 0 ∧ q.bar = 1 :: 1 :: [0, 0, 1] ∧
    (objOf (getWords breaking.mem (objAddr q) 8)).i = true ∧
    smFind breaking.coh.breaks (objAddr q) = some (getWords breaking.mem (objAddr q) 8) :=
  ⟨_, rfl, by decide, rfl, by decide, by decide, rfl, by decide, by decide⟩

theorem witness_BarrierUnitSteps_retry : ∃ w, ({ pending with coh.waits := [{ repeats := true }] } : State).coh.waits[(0 : Nat)]? = some w ∧
    w.repeats = true ∧ 256 ≤ clocksSince { pending with coh.waits := [{ repeats := true }] } w.at_ := ⟨_, rfl, rfl, by decide⟩

theorem witness_FenceAndMaintenanceWords_fence : ∀ k ∈ ([1, 2, 3, 7] : List (Fin 16)), ∃ x, Issues memGang x (.fence true k 0) ∧
    x.held = [] ∧ x.scopeSet memGang 0 = some 1 ∧ heldSet memGang x 0 = some 1 ∧ noOuts x.gang x.cur.grp = true := by
  intro k hk
  simp only [List.mem_cons, List.not_mem_nil, or_false] at hk
  rcases hk with rfl | rfl | rfl | rfl <;> exact issues_with _ (by decide)

/-- A load of the group is outstanding. -/
def waiting : State := ready (fun g => { g with slices := [{ live := true, x := 15, grp := 1, wins := [(9, 3)] }] })

theorem witness_FenceAndMaintenanceWords_wait : ∃ x, Issues waiting x (.fence true 3 0) ∧ heldSet waiting x 0 = some 1 ∧
    noOuts x.gang x.cur.grp = false := issues_with _ (by decide)

theorem witness_FenceAndMaintenanceWords_scope : ∃ x, Issues memGang x (.fence true 3 31) ∧ heldSet memGang x 31 = none :=
  issues_with _ (by decide)

theorem witness_FenceAndMaintenanceWords_lines : ∀ i ∈ ([.cinv true 0 10 12 1, .cflush true 0 10 12 1, .scbwait true 10 12 1,
    .scbwait true 10 12 0] : List Instr), ∃ x, Issues memGang x i ∧ x.cur.retry = false ∧
      rangeCheck memGang x 0 10 12 true = .ok (1, none) ∧
      (flushBad memGang 1 none true).isNone = true ∧ flushBusy memGang 1 none = false ∧
      (x.s 10).toNat + (x.s 12).toNat ≤ 0x1000 ∧ scoreMeets memGang x.core 0 0x1000 (chainCopies memGang x) = false := by
  intro i hi
  simp only [List.mem_cons, List.not_mem_nil, or_false] at hi
  rcases hi with rfl | rfl | rfl | rfl <;> exact issues_with _ (by decide)

/-- The group waits at its word, which has kept `as`. -/
def waitsWith (as : List Nat) (s : State) : State :=
  { s.modGang 16 (fun g => g.modSlices 1 (fun sl => { sl with block := some { args := as } })) with
    work.cur := some { gang := 16, grp := 1, retry := true } }

/-- A push of the gang's core on its way, and a copy that writes to its Pound. -/
def busy : State :=
  memGang (fun s => { s with coh.reqs := [{ r := { id := 7, kind := .push, core := 0, line := 0x400 } }],
                             eng.copies := [(5, { ranges := [(0, 0, 64)] })] })

theorem witness_FenceAndMaintenanceWords_busy : ∃ x, Issues busy x (.cflush true 0 10 12 1) ∧ x.cur.retry = false ∧
    rangeCheck busy x 0 10 12 true = .ok (1, none) ∧ flushBusy busy 1 none = true := issues_with _ (by decide)

theorem witness_FenceAndMaintenanceWords_held : ∃ x, Issues (waitsWith (packRange 1 none) memGang) x (.cflush true 0 10 12 1) ∧
    x.held = packRange 1 none ∧ flushBusy (waitsWith (packRange 1 none) memGang) 1 none = false ∧
    (flushBad (waitsWith (packRange 1 none) memGang) 1 none true).isNone = true := issues_with _ (by decide)

theorem witness_FenceAndMaintenanceWords_scoreboard :
    (∃ x, Issues (waitsWith [0, 64] memGang) x (.scbwait true 10 12 0) ∧ x.held = [0, 64] ∧
      scoreMeets (waitsWith [0, 64] memGang) x.core 0 64 [] = false) ∧
    ∃ x, Issues busy x (.scbwait true 10 8 0) ∧ x.cur.retry = false ∧ (x.s 8).toNat = 0xFFC ∧
      (x.s 10).toNat + (x.s 8).toNat ≤ (x.src.r.rdSeg 1).limit.toNat ∧
      scoreMeets busy x.core ((x.src.r.rdSeg 1).base.toNat + (x.s 10).toNat) ((x.src.r.rdSeg 1).base.toNat + (x.s 10).toNat + 0xFFC)
        (chainCopies busy x) = true :=
  ⟨issues_with _ (by decide), issues_with _ (by decide)⟩

/-- A BWAIT that has waited for phase 4, which has ended, and one whose barrier has been poisoned meanwhile. -/
theorem witness_BarrierRegisterWords_waited : ∃ x, Issues (waitsWith [4] (barState { i := true, arr := 1, ph := 5 } 0)) x (.bwait true 15 1) ∧
    x.cur.retry = true ∧ x.held = [4] ∧ ((waitsWith [4] (barState { i := true, arr := 1, ph := 5 } 0)).ceng x.crewNo).bar 15 =
      { i := true, arr := 1, ph := 5 } ∧
    ∀ k ∈ grpSlices x.cur.grp, ((x.gang.slice k).block.any (fun w => w.burst)) = false := issues_with _ (by decide)

theorem witness_UnitTraps_poisoned : ∃ x, Issues (waitsWith [4] (barState { i := true, p := true } 0)) x (.bwait true 15 1) ∧ x.cur.retry = true ∧
    (((waitsWith [4] (barState { i := true, p := true } 0)).ceng x.crewNo).bar 15).p = true := issues_with _ (by decide)

/-! ### Queues and sluices -/

/-- A crew with queue 15 as given, s1 = `a`, s2 = `b`, and its Pound segment. -/
def queState (v : PQueue) (a b : Word) : State :=
  ready (withRegs [(1, a), (2, b)] [] [(1, { limit := 0x1000 })]) (fun s => s.modCeng 1 (fun e => { e with qs := [(15, v)] }))

/-- A ring of all 1,024 words of the segment, and a pool at its end. -/
theorem witness_QueueWords_qinit : ∃ x, Issues (queState {} 0 1024) x (.qinit true 15 1 2) ∧ (x.s 1).toNat % 4 = 0 ∧
    (x.s 2).getLsbD 31 = false ∧ (x.s 2).toNat % 4096 ≠ 0 ∧
    (x.s 1).toNat + 4 * ((x.s 2).toNat % 4096) ≤ (x.src.r.rdSeg 1).limit.toNat := issues_with _ (by decide)

theorem witness_QueueWords_pool : ∃ x, Issues (queState {} 0xC00 0x80000100) x (.qinit true 0 1 2) ∧ (x.s 1).toNat % 4 = 0 ∧
    (x.s 2).getLsbD 31 = true ∧ (x.s 2).toNat % 512 ≤ 256 ∧ ((queState {} 0xC00 0x80000100).ceng x.crewNo).lentPool = [] ∧
    (x.s 1).toNat + 4 * ((x.s 2).toNat % 512) ≤ (x.src.r.rdSeg 1).limit.toNat := issues_with _ (by decide)

/-- A queue of one entry, empty or full, its producer allowed. -/
def oneEntry (n : Nat) : PQueue := { i := true, cap := 1, cnt := n, allow := [(0, 1)] }

theorem witness_QueueWords_push : ∃ x, Issues (queState (oneEntry 0) 5 1) x (.qpush true 15 1) ∧ x.cur.retry = false ∧
    canPush (queState (oneEntry 0) 5 1) x.crewNo 15 x.producer = true := issues_with _ (by decide)

/-- The controller: an entry that goes to the ring, one that goes to the pool, heads with and without a lent handle. -/
theorem witness_QueueWords_controller :
    let full := (queState (oneEntry 1) 5 1).modCeng 1 (fun e => { e with spn := 64 })
    let lent := queState { oneEntry 1 with cnt := 2, lent := [63] } 5 1
    canPush (queState (oneEntry 0) 5 1) 1 15 0 = true ∧ canPush full 1 15 0 = true ∧ ((full.ceng 1).que 15).cnt = 1 ∧
      poolSlot (full.ceng 1) ((full.ceng 1).que 15) = some 0 ∧ ((lent.ceng 1).que 15).lent = 63 :: [] ∧
      ∀ p ∈ (lent.ceng 1).qs, p.2.pushW = [] ∧ p.2.popW = [] := by decide

theorem witness_QueueWords_full : ∃ x, Issues (queState (oneEntry 1) 5 1) x (.qpush true 15 1) ∧ x.cur.retry = false ∧
    canPush (queState (oneEntry 1) 5 1) x.crewNo 15 x.producer = false := issues_with _ (by decide)

theorem witness_QueueWords_pop : ∀ n ∈ ([0, 1] : List Nat), ∃ x, Issues (queState (oneEntry n) 5 0) x (.qpop true 15 1) ∧
    (((queState (oneEntry n) 5 0).ceng x.crewNo).que 15) = oneEntry n ∧ (oneEntry n).own = x.gang.ix ∧
    (queState (oneEntry n) 5 0).gang x.cur.gang = some x.gang := by
  intro n hn
  simp only [List.mem_cons, List.not_mem_nil, or_false] at hn
  rcases hn with rfl | rfl <;> exact issues_with _ (by decide)

/-- QTRY: an entry or none to pop; no allowance, a full queue, room to push. -/
theorem witness_QueueWords_qtry : ∀ p ∈ ([(oneEntry 1, 0), (oneEntry 0, 0), ({ oneEntry 0 with allow := [] }, 1), (oneEntry 1, 1),
    (oneEntry 0, 1)] : List (PQueue × Word)), ∃ x, Issues (queState p.1 5 p.2) x (.qtry true 15 1 2) ∧
    (((queState p.1 5 p.2).ceng x.crewNo).que 15) = p.1 ∧ p.1.own = x.gang.ix ∧ (x.s 2).getLsbD 0 = p.2.getLsbD 0 ∧
    (p.1.cnt = 1 → queRoom ((queState p.1 5 p.2).ceng x.crewNo) p.1 = false) ∧
    (p.1.cnt = 0 → p.1.allow ≠ [] → canPush (queState p.1 5 p.2) x.crewNo 15 x.producer = true) := by
  intro p hp
  simp only [List.mem_cons, List.not_mem_nil, or_false] at hp
  rcases hp with rfl | rfl | rfl | rfl | rfl <;> exact issues_with _ (by decide)

theorem witness_QueueWords_release : release (queState (oneEntry 0) 5 1) 16 0 0 1 false = .ok := by rfl

theorem witness_QueueWords_qalw : ∀ n ∈ ([4095, 0xFFFFFFFF] : List Word), ∃ x, Issues (queState (oneEntry 0) n 0) x (.qalw true 15 1 2) ∧
    (oneEntry 0).own = x.gang.ix ∧ 0 ≤ ((oneEntry 0).allowance ((x.s 2).toNat % 64) : Int) + (x.s 1).toInt := by
  intro n hn
  simp only [List.mem_cons, List.not_mem_nil, or_false] at hn
  rcases hn with rfl | rfl <;> exact issues_with _ (by decide)

/-- QINIT: an offset that is no multiple of 4, no entries, a ring past the segment, a pool of 257 words, a pool past the segment. -/
theorem witness_UnitTraps_qinit : ∀ p ∈ ([(2, 1, 2, false), (0, 0, 0, false), (4, 1024, 0, false), (0, 0x80000101, 0, true), (0xC04, 0x80000100, 0, true)] :
      List (Word × Word × Nat × Bool)), ∃ x, Issues (queState {} p.1 p.2.1) x (.qinit true 0 1 2) ∧ (x.s 1).toNat % 4 = p.2.2.1 ∧
      decide (2 ^ 31 ≤ (x.s 2).toNat) = p.2.2.2 ∧ x.s 1 = p.1 ∧ x.s 2 = p.2.1 ∧ (x.src.r.rdSeg 1).limit.toNat = 0x1000 ∧
      ((queState {} p.1 p.2.1).ceng x.crewNo).lentPool = [] := by
  intro p hp
  simp only [List.mem_cons, List.not_mem_nil, or_false] at hp
  rcases hp with rfl | rfl | rfl | rfl | rfl <;> exact issues_with _ (by decide)

/-- Words of a queue that is not declared, and of one that another gang owns. -/
theorem witness_UnitTraps_queue : ∀ v ∈ ([{}, { oneEntry 1 with own := 1 }] : List PQueue),
    ∀ i ∈ ([.qpush true 15 1, .qpop true 15 1, .qtry true 15 1 2, .qalw true 15 1 2] : List Instr),
    ∃ x, Issues (queState v 5 0) x i ∧ ((queState v 5 0).ceng x.crewNo).que 15 = v ∧ (v.i = true → v.own ≠ x.gang.ix) ∧
      x.held = [] ∧ (x.s 2).toNat % 2 = 0 := by
  intro v hv i hi
  simp only [List.mem_cons, List.not_mem_nil, or_false] at hv hi
  rcases hv with rfl | rfl <;> rcases hi with rfl | rfl | rfl | rfl <;> exact issues_with _ (by decide)

theorem witness_UnitTraps_qalw : ∃ x, Issues (queState (oneEntry 0) 0xFFFFFFFE 0) x (.qalw true 15 1 2) ∧
    ((queState (oneEntry 0) 0xFFFFFFFE 0).ceng x.crewNo).que 15 = oneEntry 0 ∧ (oneEntry 0).own = x.gang.ix ∧
    ((oneEntry 0).allowance ((x.s 2).toNat % 64) : Int) + (x.s 1).toInt < 0 := issues_with _ (by decide)

/-- A group whose sluice requests have been granted, waiting at its word. -/
def sluiced (retry : Bool) : State :=
  { ready with eng.slreqs := if retry then [{ gang := 16, pc := 0, lanes := 0xF, registered := true, granted := true }] else [],
               work.cur := some { gang := 16, grp := 1, retry := retry } }

theorem witness_SluiceWords : ∀ r ∈ ([true, false] : List Bool), ∀ i ∈ ([.sle true 0 2 4, .slinit true 2 4 1, .slclose true 2 4] : List Instr),
    ∃ x, Issues (sluiced r) x i ∧ x.scopeSet (sluiced r) 0 = some 1 ∧ x.cur.retry = r ∧ slxPending (sluiced r) x = false ∧
      x.lanes ≠ [] ∧ ∀ q ∈ (sluiced r).eng.slreqs.filter (mySl x), q.granted = true ∧ q.fail = none := by
  intro r hr i hi
  simp only [List.mem_cons, List.not_mem_nil, or_false] at hr hi
  rcases hr with rfl | rfl <;> rcases hi with rfl | rfl | rfl <;> exact issues_with _ (by decide)

/-- No lane active. -/
theorem witness_SluiceWords_none : ∀ i ∈ ([.sle true 0 2 4, .slinit true 2 4 0, .slclose true 2 4] : List Instr),
    ∃ x, Issues (ready (fun g => { g with slices := [{ live := true, x := 0, grp := 1 }] })) x i ∧ x.cur.retry = false ∧ x.lanes = [] := by
  intro i hi
  simp only [List.mem_cons, List.not_mem_nil, or_false] at hi
  rcases hi with rfl | rfl | rfl <;> exact issues_with _ (by decide)

theorem witness_SluiceWords_sle : ∃ x, Issues (ready) x (.sle true 0 2 4) ∧ ∀ l ∈ slLanes x 2 4,
    (x.src.slice (l.lane / 4)).hold.length < 2 ∧ (firstHeld (x.src.slice (l.lane / 4)) l.lane).isNone = true := issues_with _ (by decide)

/-- Lane 0 alone, whose batch is a run of one. -/
theorem witness_SluiceWords_run : ∃ x, Issues oneLane x (.sle true 0 2 4) ∧ ∀ l ∈ slLanes x 2 4,
    runsOk (batchOf (slLanes x 2 4) l.key) = true := issues_with _ (by decide)

theorem witness_SluiceWords_scope : ∀ i ∈ ([.sle true 31 2 4, .slx true 31 2] : List Instr), ∃ x, Issues ready x i ∧ x.scopeSet ready 31 = none ∧
    x.cur.retry = false := by
  intro i hi
  simp only [List.mem_cons, List.not_mem_nil, or_false] at hi
  rcases hi with rfl | rfl <;> exact issues_with _ (by decide)

/-- A gang whose slice holds the levels given, of four equal keys each. -/
def holding (ks : List Word) : State :=
  ready (fun g => { g with slices := [{ live := true, x := 0xF, grp := 1, hold := ks.map (fun k => { keys := [k, k, k, k], lanes := 0xF }) }] })

/-- The hold stack is full; key 0 does not come after key 5. -/
theorem witness_SluiceWords_order : ∀ ks ∈ ([[6, 5], [5]] : List (List Word)), ∃ x, Issues (holding ks) x (.sle true 0 2 4) ∧
    x.scopeSet (holding ks) 0 = some 1 ∧ x.cur.retry = false ∧ slxPending (holding ks) x = false ∧
    ∀ l ∈ slLanes x 2 4, (decide (2 ≤ (x.src.slice (l.lane / 4)).hold.length) = decide (ks.length = 2)) ∧
      (firstHeld (x.src.slice (l.lane / 4)) l.lane).any (fun k => decide (l.key ≤ k)) = true := by
  intro ks hk
  simp only [List.mem_cons, List.not_mem_nil, or_false] at hk
  rcases hk with rfl | rfl <;> exact issues_with _ (by decide)

/-- Four lanes with one key and one sequence number. -/
theorem witness_SluiceWords_gap : ∃ x, Issues ready x (.sle true 0 2 4) ∧ x.scopeSet ready 0 = some 1 ∧ x.cur.retry = false ∧ slxPending ready x = false ∧
    ∃ l ∈ slLanes x 2 4, runsOk (batchOf (slLanes x 2 4) l.key) = false := issues_with _ (by decide)

/-- SLX with an empty stack, and with another key than the lanes name. -/
theorem witness_SluiceWords_notheld : ∀ ks ∈ ([[], [5]] : List (List Word)), ∃ x, Issues (holding ks) x (.slx true 0 2) ∧
    x.scopeSet (holding ks) 0 = some 1 ∧ ((x.src.slice 0).hold.head?.map (fun h => h.keys)) = ks.head?.map (fun k => [k, k, k, k]) ∧
    x.v 2 0 = 0 := by
  intro ks hk
  simp only [List.mem_cons, List.not_mem_nil, or_false] at hk
  rcases hk with rfl | rfl <;> exact issues_with _ (by decide)

theorem witness_SluiceWords_release : release (holding []) 16 0 0 1 false = .ok ∧ release (holding [5]) 16 0 0 1 false = .ok := ⟨rfl, rfl⟩

/-- One batch granted, another refused for its sequence. -/
def partFailed : State :=
  { sluiced true with eng.slreqs := [{ gang := 16, pc := 0, lanes := 0x3, registered := true, granted := true },
      { gang := 16, pc := 0, lanes := 0xC, registered := true, fail := some .slStale }] }

theorem witness_SluiceWords_failed : ∃ x, Issues partFailed x (.sle true 0 2 4) ∧ x.cur.retry = true ∧
    (partFailed.eng.slreqs.filter (mySl x)).map (fun q => (q.granted, q.fail)) = [(true, none), (false, some .slStale)] := issues_with _ (by decide)

theorem witness_SluiceWords_fenced : ∃ x, Issues (ready.modDie 0 (fun d => { d with st := .fenced })) x (.slq true 2 4) ∧ x.lanes ≠ [] ∧
    ∀ l ∈ x.lanes, keyFenced (ready.modDie 0 (fun d => { d with st := .fenced })) x.dom 0 (x.v 2 l) = true := issues_with _ (by decide)

theorem witness_SluiceWords_slx : ∃ x, Issues (ready (fun g => { g with slices :=
      [{ live := true, x := 0xF, grp := 1, hold := [{ keys := [0, 0, 0, 0], lanes := 0xF }] }] })) x (.slx true 0 2) ∧
    ∀ k ∈ grpSlices x.cur.grp, (x.src.slice k).hold = [{ keys := [0, 0, 0, 0], lanes := 0xF }] ∧
      ∀ p ∈ Hold.pairs { keys := [0, 0, 0, 0], lanes := 0xF } k, x.v 2 p.1 = p.2 := issues_with _ (by decide)

theorem witness_SluiceWords_slq : ∃ x, Issues (ready) x (.slq true 2 4) ∧
    ∀ l ∈ x.lanes, keyFenced (ready) x.dom 0 (x.v 2 l) = false := issues_with _ (by decide)

/-- A sluice's home with one request, one release and one key. -/
def sluiceHome (r : SlReq) (l : SlRel := {}) (v : SlKey := {}) : State :=
  { ready with eng.slreqs := [r], eng.slrels := [l], eng.keys := [(0, v)], evt := [0], time := 2000000 }

theorem witness_SluiceHomeSteps_request : ∀ n ∈ ([512, 513] : List Nat), ∃ r,
    (sluiceHome { n := n, at_ := 1 }).eng.slreqs[(0 : Nat)]? = some r ∧ r.registered = false ∧ r.fail = none ∧ r.granted = false ∧
      keyFenced (sluiceHome { n := n, at_ := 1 }) r.dom r.ns r.key = false ∧
      buffered (sluiceHome { n := n, at_ := 1 }) (numSlice r.num) + r.n = n ∧ r.at_ ≠ 0 ∧
      256 ≤ clocksSince (sluiceHome { n := n, at_ := 1 }) r.at_ := by
  intro n hn
  simp only [List.mem_cons, List.not_mem_nil, or_false] at hn
  rcases hn with rfl | rfl <;> exact ⟨_, rfl, rfl, rfl, rfl, by decide, by decide, by decide, by decide⟩

/-- A request sent before its home's die came back. -/
theorem witness_SluiceHomeSteps_refused : ∃ r, (sluiceHome { n := 1, route := [0], tinc := 5 }).eng.slreqs[(0 : Nat)]? = some r ∧ r.registered = false ∧
    r.fail = none ∧ r.granted = false ∧ keyFenced (sluiceHome { n := 1, route := [0], tinc := 5 }) r.dom r.ns r.key = false ∧ r.route ≠ [] ∧
    ((sluiceHome { n := 1, route := [0], tinc := 5 }).die (numSlice r.num / 24)).inc ≠ r.tinc :=
  ⟨_, rfl, rfl, rfl, rfl, by decide, by decide, by decide⟩

/-- The sequence has come, has passed; the key is broken. -/
theorem witness_SluiceHomeSteps_grant : ∀ v ∈ ([{ ne := 7 }, { ne := 8 }, { brk := true }] : List SlKey), ∃ r,
    (sluiceHome { n := 1, first := 7, registered := true, timer := 1000001 } {} v).eng.slreqs[(0 : Nat)]? = some r ∧ r.waits = true ∧ r.mark = false ∧
      keyFenced (sluiceHome { n := 1, first := 7, registered := true, timer := 1000001 } {} v) r.dom r.ns r.key = false ∧ r.kind = .enter ∧
      smFind (sluiceHome { n := 1, first := 7, registered := true, timer := 1000001 } {} v).eng.keys r.num = some v ∧
      r.first = 7 ∧ ((sluiceHome { n := 1, first := 7, registered := true, timer := 1000001 } {} v).domain r.dom).set_.slTimeout < r.timer := by
  intro v hv
  simp only [List.mem_cons, List.not_mem_nil, or_false] at hv
  rcases hv with rfl | rfl | rfl <;> exact ⟨_, rfl, by decide, rfl, by decide, rfl, rfl, rfl, by decide⟩

/-- The sequence has not come when the time is over. -/
theorem witness_SluiceHomeSteps_timeout : let s := sluiceHome { n := 1, first := 7, registered := true, timer := 1000001 } {} { ne := 6 }
    ∃ r, s.eng.slreqs[(0 : Nat)]? = some r ∧ r.waits = true ∧ r.mark = false ∧ slStuck s r = true ∧
      (s.domain r.dom).set_.slTimeout < r.timer :=
  ⟨_, rfl, rfl, rfl, by decide, by decide⟩

theorem witness_SluiceHomeSteps_passed : passedSeq 8 7 = true ∧ passedSeq 7 7 = false := by decide

/-- A part of a batch released, and the last of it. -/
theorem witness_SluiceHomeSteps_release : ∀ n ∈ ([1, 2] : List Nat), ∃ l,
    (sluiceHome {} { n := n } { hld := true, hn := 2 }).eng.slrels[(0 : Nat)]? = some l ∧ l.kept = false ∧
      keyFenced (sluiceHome {} { n := n } { hld := true, hn := 2 }) l.dom l.ns l.key = false ∧
      (sluiceHome {} { n := n } { hld := true, hn := 2 }).slKey (slNum l.dom l.ns l.key) = { hld := true, hn := 2 } ∧ l.n = n ∧ l.kill = false ∧
      ∀ q ∈ (sluiceHome {} { n := n } { hld := true, hn := 2 }).eng.slreqs, q.mark = false := by
  intro n hn
  simp only [List.mem_cons, List.not_mem_nil, or_false] at hn
  rcases hn with rfl | rfl <;> exact ⟨_, rfl, rfl, by decide, rfl, rfl, rfl, by decide⟩

/-- The home of key 0 fenced. -/
def sluiceFenced : State := (sluiceHome {} { n := 1 }).modDie 0 (fun d => { d with st := .fenced })

theorem witness_SluiceHomeSteps_fenced : ∃ l, sluiceFenced.eng.slrels[(0 : Nat)]? = some l ∧ l.kept = false ∧
    keyFenced sluiceFenced l.dom l.ns l.key = true := ⟨_, rfl, rfl, by decide⟩

theorem witness_SluiceHomeSteps_resend : ∃ l p, (sluiceHome {} { kept := true }).eng.slrels[(0 : Nat)]? = some l ∧ l.kept = true ∧
    keyFenced (sluiceHome {} { kept := true }) l.dom l.ns l.key = false ∧
    (sluiceHome {} { kept := true }).eng.keys[(0 : Nat)]? = some p ∧ { p.2 with used := 0, ovf := false, ix := 0 } = ({} : SlKey) :=
  ⟨_, _, rfl, rfl, by decide, rfl, rfl⟩

/-! ### Copies -/

/-- A gang that may copy 16 bytes of its Pound to its Pound as a tile, or four bytes a lane. -/
def copyGang (v : CopyX → CopyX := id) : State :=
  ready (withRegs [(7, 0x10010), (14, 1), (60, 1)] ((List.range 4).flatMap (fun j => [(2, j, BitVec.ofNat 32 (4 * j)), (8, j, BitVec.ofNat 32 (4 * j))]))
    [(0, { limit := 0x10000 }), (1, { limit := 0x1000 }), (2, { base := 0xF, limit := 0x1000 }), (3, { limit := 0x1000 })])
    (fun s => { s with eng.copies := [(99, v {})] })

/-- A CP from Pound to Pound, a CPX, and a CPM from global. -/
theorem witness_CopyWords : ∀ p ∈ ([(1, .cp true 0 1 1 2 4 15), (1, .cpx true 0 1 1 2 4 15), (0, .cpm true 0 0 1 8 4 15)] : List (Fin 8 × Instr)),
    ∃ x, Issues copyGang x p.2 ∧ spacesBad p.1 1 (if p.1 = 0 then 2 else 0) = false ∧
      (copyLaneChecks copyGang x 4 p.1 1 (if p.1 = 0 then 8 else 2) 4).isNone = true ∧
      wordAway copyGang x false p.1 1 (if p.1 = 0 then 8 else 2) 4 (tileD x (if p.1 = 0 then 8 else 2)) (tileD x 4) = false ∧
      (∀ q ∈ cpRanges 1 (laneParts copyGang x 4 p.1 1 (if p.1 = 0 then 8 else 2) 4), scoreUsed copyGang q.1 < 32) ∧
      x.gang.latch.copies.length < 8 ∧ maskBad x (x.s2 60) = false := by
  intro p hp
  simp only [List.mem_cons, List.not_mem_nil, or_false] at hp
  rcases hp with rfl | rfl | rfl <;> exact issues_with _ (by decide)

/-- A tile of one row of 16 bytes. -/
theorem witness_CopyWords_tile : ∃ x, Issues copyGang x (.cpt true 1 1 4 8 15) ∧ spacesBad 1 1 0 = false ∧
    (tileChecks copyGang x 1 1 (tileD x 4) (tileD x 8)).isNone = true ∧
    wordAway copyGang x true 1 1 4 8 (tileD x 4) (tileD x 8) = false ∧
    ∀ q ∈ cpRanges 1 (tileParts copyGang x 1 1 (tileD x 4) (tileD x 8)), scoreUsed copyGang q.1 < 32 := issues_with _ (by decide)

/-- A CPE whose target, queue 0 of the crew itself, is declared: its core's team is one member. -/
def cpeState : State :=
  { copyGang with work.crews := smModify copyGang.work.crews 1 (fun w => { w with kw := w.kw ||| 0x10000 }) }

theorem witness_CopyWords_cpe : ∃ x, Issues cpeState x (.cpe true 0 1 1 2 4 15) ∧ spacesBad 1 1 3 = false ∧
    (copyLaneChecks cpeState x 4 1 1 2 4).isNone = true ∧ wordAway cpeState x false 1 1 2 4 (tileD x 2) (tileD x 4) = false ∧
    enqBad x = false ∧ (enqTarget cpeState x).isSome = true ∧
    (partTrap x false (partChecks cpeState x 1 1 (x.lanes.zip (laneParts cpeState x 4 1 1 2 4)))).isNone = true := issues_with _ (by decide)

/-- Copies that trap: a space that may not be read, a CPM of no size, a tile of no rows, a CPM without a mask, lanes past the segment. -/
theorem witness_CopyWords_traps : (∃ x, Issues copyGang x (.cp true 0 5 1 2 4 15) ∧ spacesBad 5 1 0 = true) ∧
    (∃ x, Issues copyGang x (.cpm true 3 0 1 8 4 15) ∧ spacesBad 0 1 2 = false ∧ cpBytes 3 = 0) ∧
    (∃ x, Issues copyGang x (.cpt true 1 1 0 8 15) ∧ (tileChecks copyGang x 1 1 (tileD x 0) (tileD x 8)).isSome = true) ∧
    (∃ x, Issues pastEnd x (.cpm true 0 0 1 4 4 15) ∧ maskBad x (x.s2 60) = true) ∧
    ∃ x, Issues pastEnd x (.cp true 0 1 1 4 4 15) ∧ (copyLaneChecks pastEnd x 4 1 1 4 4).isSome = true :=
  ⟨issues_with _ (by decide), issues_with _ (by decide), issues_with _ (by decide), issues_with _ (by decide), issues_with _ (by decide)⟩

/-- A CPE whose target word has a bit that none may have; one whose source page is not mapped. -/
def cpeBad (t : Word) : State :=
  ready (withRegs [(61, t)] ((List.range 4).map (fun j => (2, j, BitVec.ofNat 32 (0x10000 + 4 * j))))
    [(0, { limit := 0x20000 }), (1, { limit := 0x1000 }), (2, { base := 0xF, limit := 0x1000 })])

theorem witness_CopyWords_cpeTraps : (∃ x, Issues (cpeBad 0x40) x (.cpe true 0 0 1 2 4 15) ∧ enqBad x = true ∧
      (copyLaneChecks (cpeBad 0x40) x 4 0 1 2 4).isNone = true) ∧
    ∃ x, Issues (cpeBad 0) x (.cpe true 0 0 1 2 4 15) ∧ enqBad x = false ∧ (copyLaneChecks (cpeBad 0) x 4 0 1 2 4).isNone = true ∧
      (partTrap x false (partChecks (cpeBad 0) x 0 1 (x.lanes.zip (laneParts (cpeBad 0) x 4 0 1 2 4)))).isSome = true :=
  ⟨issues_with _ (by decide), issues_with _ (by decide)⟩

/-- A tile copy of 16 bytes of core 0's Pound in flight. -/
def copying (c : CopyX) (m : MergeEnt := {}) : State :=
  { ready with eng.copies := [(0, c)], eng.merges := [m], evt := [0, 0], time := 2000 }

def inPound : CopyX :=
  { c := { gang := 16, tile := true, sps := 1, spd := 1, need := [poundAddr 0 64 / 64], lines := [[{ dst := poundAddr 0 0, src := poundAddr 0 64, n := 16 }]] } }

theorem witness_CopySteps_line : ∃ p ps q, smFind (copying inPound).eng.copies ((copying inPound).op 0) = some p ∧
    p.c.lines[(copying inPound).op 1]? = some ps ∧ ¬ (p.c.flg = 2 ∧ (p.c.need ≠ [] ∨ inMerge (copying inPound) ((copying inPound).op 0) = true)) ∧
    copyBefore (copying inPound) ((copying inPound).op 0) p.c
      ((sharers (copying inPound) 0 p.c ((copying inPound).op 1) ps).flatMap (fun i => p.c.lines.getD i [])) = false ∧
    (∀ b ∈ toRead p.c ps, blockReady (copying inPound) ((copying inPound).op 0) p.c p.c.sps b .read = true) ∧
    blockReady (copying inPound) ((copying inPound).op 0) p.c p.c.spd ((ps.headD {}).dst / 64) .write = true ∧
    ps = [q] ∧ p.c.tile = true ∧ q.n = 16 ∧ q.lane < 32 ∧ q.src / 64 ∈ p.c.need ∧ p.c.bad = [] ∧ p.c.sps = 1 ∧ p.c.spd = 1 ∧
    (let ls := (toRead p.c ps).flatMap (fun b => blockLine (copying inPound) p.c p.c.sps b .read) ++
       blockLine (copying inPound) p.c p.c.spd ((ps.headD {}).dst / 64) .write
     unsent (copying inPound) 0 p.c.core ls = [] ∧ ∀ l ∈ ls, (pktOf (copying inPound) 0 l).isNone = true) :=
  ⟨_, _, _, rfl, rfl, by decide, by decide, by decide, by decide, rfl, rfl, rfl, by decide, by decide, rfl, rfl, rfl, by decide, by decide⟩

/-- A copy of core 48, on die 1, from the loaded page of die 0 to its Pound. -/
def fromAfar : CopyX :=
  { c := { gang := 16, core := 48, tile := true, spd := 1, need := [0], lines := [[{ dst := poundAddr 48 0, src := 0, n := 16 }]] } }

theorem witness_CopySteps_send : ∃ p ps, smFind (copying fromAfar).eng.copies ((copying fromAfar).op 0) = some p ∧
    p.c.lines[(copying fromAfar).op 1]? = some ps ∧
    unsent (copying fromAfar) 0 p.c.core ((toRead p.c ps).flatMap (fun b => blockLine (copying fromAfar) p.c p.c.sps b .read) ++
       blockLine (copying fromAfar) p.c p.c.spd ((ps.headD {}).dst / 64) .write) ≠ [] := ⟨_, _, rfl, rfl, by decide⟩

theorem witness_CopySteps_complete : ∃ p, smFind (copying { c := { gang := 16 } }).eng.copies ((copying { c := { gang := 16 } }).op 0) = some p ∧
    p.c.lines = [] ∧ p.enq = none ∧ forkPending (copying { c := { gang := 16 } }) 0 p.c.gang p.c.core = false := ⟨_, rfl, rfl, rfl, by decide⟩

theorem witness_CopySteps_multicast : ∃ p b, smFind (copying { c := { gang := 16, flg := 2, need := [0x400] } }).eng.copies 0 = some p ∧
    p.c.flg = 2 ∧ p.c.need[(0 : Nat)]? = some b ∧
    blockReady (copying { c := { gang := 16, flg := 2, need := [0x400] } }) 0 p.c p.c.sps b .read = true ∧
    unsent (copying { c := { gang := 16, flg := 2, need := [0x400] } }) 0 p.c.core
      (blockLine (copying { c := { gang := 16, flg := 2, need := [0x400] } }) p.c p.c.sps b .read) = [] := ⟨_, _, rfl, rfl, rfl, by decide, by decide⟩

theorem witness_CopySteps_merge : ∀ b ∈ ([false, true] : List Bool), ∃ m, (copying {} { sent := b }).eng.merges[(0 : Nat)]? = some m ∧
    m.sent = b ∧ lineBusy (copying {} { sent := b }) m.line = false ∧
    ((copying {} { sent := b }).domain m.dom).set_.window ≤ clocksSince (copying {} { sent := b }) m.at_ ∧
    4096 ≤ clocksSince (copying {} { sent := b }) m.at_ := by
  intro b hb
  simp only [List.mem_cons, List.not_mem_nil, or_false] at hb
  rcases hb with rfl | rfl <;> exact ⟨_, rfl, rfl, by decide, by decide, by decide⟩

/-- A landed copy whose handle is to enter queue 15 of crew 1; one that has failed. -/
def enqueuing (f : Option Err) : State :=
  { queState (oneEntry 0) 0 0 with eng.copies := [(0, { c := { gang := 16, flg := 3, fail := f }, enq := some (5, 1, 15, 0) })], evt := [0] }

theorem witness_CopySteps_enqueue : ∃ p w, smFind (enqueuing none).eng.copies ((enqueuing none).op 0) = some p ∧ p.enq = some (5, 1, 15, 0) ∧
    p.c.lines = [] ∧ p.enqDone = false ∧ p.c.fail = none ∧ (enqueuing none).crew 1 = some w ∧ w.place = .on 0 ∧
    bgRelease (enqueuing none) 0 p.c.gang p.c.core p.c.dom = .done false ∧ (((enqueuing none).ceng 1).que 15).i = true ∧
    canPush (enqueuing none) 1 15 0 = true :=
  ⟨_, _, rfl, rfl, rfl, rfl, rfl, rfl, rfl, rfl, rfl, by decide⟩

/-- The same with a word still to push to a fenced die. -/
def enqFenced : State := ((enqueuing none).modDie 1 (fun d => { d with st := .fenced })).putL1 0 (lineOf (devAddr 1 0)) { st := [.v, .v, .v, .v], dm := 1 }

theorem witness_CopySteps_released : ∃ p w, smFind enqFenced.eng.copies (enqFenced.op 0) = some p ∧ p.enq = some (5, 1, 15, 0) ∧
    p.c.lines = [] ∧ p.enqDone = false ∧ p.c.fail = none ∧ enqFenced.crew 1 = some w ∧ w.place = .on 0 ∧
    (match bgRelease enqFenced 0 p.c.gang p.c.core p.c.dom with
     | .done b => b
     | .wait _ _ => false) = true := ⟨_, _, rfl, rfl, rfl, rfl, rfl, rfl, rfl, by decide⟩

theorem witness_CopySteps_refused : ∃ p e, smFind (enqueuing (some {})).eng.copies ((enqueuing (some {})).op 0) = some p ∧
    p.enq = some (5, 1, 15, 0) ∧ p.c.lines = [] ∧ p.enqDone = false ∧ p.c.fail = some e := ⟨_, _, rfl, rfl, rfl, rfl, rfl⟩

/-! ### The matrix engine -/

/-- Format descriptor of two 16-bit floating inputs, a 32-bit accumulator and 16-bit elements in memory. -/
def mxFd : DWord := 0x100080021

/-- A gang whose crew has 64 KiB of Pound and slot 3 set; an A descriptor in s8, a memory descriptor in s12, B in s16. -/
def mxState (f : Gang → Gang := id) (mx : List (Nat × MxReqX) := []) (e : CrewEng → CrewEng := id) : State :=
  ready (fun g => f (withRegs [(2, 0x80021), (3, 1), (4, 31), (9, 128), (14, 0x10080)] [] [] g)) (fun s =>
    { (s.modCrew 1 (fun w => { w with rw := w.rw ||| 0x10000 })).modCeng 1 (fun v => e { v with fds := [(3, mxFd)] }) with
      eng.mx := mx, evt := [0, 0], time := 2000001, work.next := 40 })

/-- The last tile. -/
theorem witness_MatrixWords : ∀ p ∈ ([(MxKind.mma, [0, 128, 0, 0], .mma true 7 8 16 3 1 1), (.mmz, [], .mmz true 7 3 1),
    (.mdr, [0, 0, 0x10080, 0], .mdr true 7 12 16 3 1 0), (.mld, [0, 0, 0x10080, 0], .mld true 7 12 3 1)] : List (MxKind × List Word × Instr)),
    ∃ x, Issues mxState x p.2.2 ∧ x.gang.mxerr = none ∧ x.s4 8 = [0, 128, 0, 0] ∧ x.s4 12 = [0, 0, 0x10080, 0] ∧
      (mxChecks mxState x p.1 7 3 p.2.1 (if p.1 = .mma ∨ p.1 = .mdr then [0, 0] else [])).isNone = true ∧
      x.gang.latch.armed = false ∧ postCount mxState x.core (x.gang.slot / 4) < 4 := by
  intro p hp
  simp only [List.mem_cons, List.not_mem_nil, or_false] at hp
  rcases hp with rfl | rfl | rfl | rfl <;> exact issues_with _ (by decide)

/-- A format slot that nothing has set. -/
theorem witness_MatrixWords_traps : ∀ p ∈ ([(MxKind.mma, [0, 128, 0, 0], .mma true 7 8 16 5 1 1), (.mmz, [], .mmz true 7 5 1),
    (.mdr, [0, 0, 0x10080, 0], .mdr true 7 12 16 5 1 0), (.mld, [0, 0, 0x10080, 0], .mld true 7 12 5 1)] : List (MxKind × List Word × Instr)),
    ∃ x, Issues mxState x p.2.2 ∧ x.gang.mxerr = none ∧ x.s4 8 = [0, 128, 0, 0] ∧ x.s4 12 = [0, 0, 0x10080, 0] ∧
      (mxChecks mxState x p.1 7 5 p.2.1 (if p.1 = .mma ∨ p.1 = .mdr then [0, 0] else [])).isSome = true := by
  intro p hp
  simp only [List.mem_cons, List.not_mem_nil, or_false] at hp
  rcases hp with rfl | rfl | rfl | rfl <;> exact issues_with _ (by decide)

theorem witness_MatrixWords_captured : ∃ x, Issues (mxState (fun g => { g with latch := { armed := true } })) x (.mmz true 7 3 1) ∧
    x.gang.mxerr = none ∧ x.gang.latch.armed = true ∧ followCount (mxState (fun g => { g with latch := { armed := true } })) x.core < 16 ∧
    (mxChecks (mxState (fun g => { g with latch := { armed := true } })) x .mmz 7 3 [] []).isNone = true := issues_with _ (by decide)

theorem witness_MatrixWords_mfmt : (∃ x, Issues mxState x (.mfmt true 2 15 1) ∧ x.gang.mxerr = none ∧ fdOk (x.s2 2) = true) ∧
    ∃ x, Issues mxState x (.mfmt true 4 15 1) ∧ x.gang.mxerr = none ∧ fdOk (x.s2 4) = false :=
  ⟨issues_with _ (by decide), issues_with _ (by decide)⟩

theorem witness_MatrixWords_mrq : (∃ x, Issues mxState x (.mrq true 7 2 1 1) ∧ x.gang.mxerr = none ∧ 7 < rwNt x.crew.rw ∧ mxState.eng.mx = []) ∧
    (∃ x, Issues (mxState id [(5, { q := { gang := 16, tile := 7 } })]) x (.mrq true 7 2 1 0) ∧ x.gang.mxerr = none ∧ 7 < rwNt x.crew.rw ∧
      ∃ e ∈ (mxState id [(5, { q := { gang := 16, tile := 7 } })]).eng.mx, e.2.q.tile = 7 ∧ e.2.q.gang = x.cur.gang) ∧
    ∃ x, Issues mxState x (.mqry true 2 1) ∧ x.gang.mxerr = none :=
  ⟨issues_with _ (by decide), issues_with _ (by decide), issues_with _ (by decide)⟩

theorem witness_MatrixWords_pending : ∀ i ∈ ([.mma true 7 8 16 3 1 1, .mmz true 7 3 1, .mdr true 7 12 16 3 1 0, .mld true 7 12 3 1,
    .mfmt true 2 3 1, .mrq true 7 2 1 0, .mqry true 2 1] : List Instr),
    ∃ x, Issues (mxState (fun g => { g with mxerr := some {} })) x i ∧ x.gang.mxerr = some {} := by
  intro i hi
  simp only [List.mem_cons, List.not_mem_nil, or_false] at hi
  rcases hi with rfl | rfl | rfl | rfl | rfl | rfl | rfl <;> exact issues_with _ (by decide)

/-- A request of the gang for tile 7. -/
def mxReq (k : MxKind) (st : MxSt) (a : List Word := []) : MxReqX :=
  { q := { kind := k, gang := 16, tile := 7, a := a, b := [0, 0], fd := mxFd, st := st }, elig := some 0 }

theorem witness_MatrixSteps_accept : ∃ p, (mxIn (mxState id [(5, mxReq .mmz .post)]) 0 MxReqX.inTable).length < 16 ∧
    followReady (mxState id [(5, mxReq .mmz .post)]) 0 = false ∧
    postHead (mxState id [(5, mxReq .mmz .post)]) 0 ((smGet 3 (mxState id [(5, mxReq .mmz .post)]).eng.mxLast 0 + 1) % 4) = some (5, p) ∧
    mxOfGang (mxState id [(5, mxReq .mmz .post)]) p.q.gang < 8 := ⟨_, by decide, by decide, rfl, by decide⟩

/-- A pass that can be granted. -/
def passing : State := mxState id [(5, mxReq .mma .table [0, 128, 0, 0])]

theorem witness_MatrixSteps_pass : ∃ p sh, grantPick passing 0 (fun k => decide (k = .mma)) = some (5, p) ∧
    (passing.ceng p.q.crew).tileP.getLsbD p.q.tile = false ∧ passShape (fdAf p.q.fd) (fdBf p.q.fd) = some sh ∧
    passPoison passing 0 p.q sh = false ∧ passing.op 1 = 0 := ⟨_, _, rfl, by decide, rfl, by decide +kernel, rfl⟩

/-- A zeroing, a drain and a load of the Pound that can be granted. -/
theorem witness_MatrixSteps_tile : ∀ k ∈ ([.mmz, .mdr, .mld] : List MxKind), ∃ p,
    tilePathFree (mxState id [(5, mxReq k .table [0, 0, 0x10080, 0])]) 0 = true ∧
    grantPick (mxState id [(5, mxReq k .table [0, 0, 0x10080, 0])]) 0 (fun k => decide (k ≠ .mma)) = some (5, p) ∧ p.q.kind = k ∧
    mdReady (mxState id [(5, mxReq k .table [0, 0, 0x10080, 0])]) 0 5 p.q = true ∧
    ((mxState id [(5, mxReq k .table [0, 0, 0x10080, 0])]).ceng p.q.crew).tileP.getLsbD p.q.tile = false ∧ mdSp p.q.a = 1 ∧
    fdAos p.q.fd = false ∧ fdMxs p.q.fd = false ∧ fdAmx p.q.fd = false ∧
    ∀ a, isPoison (mxState id [(5, mxReq k .table [0, 0, 0x10080, 0])]).poison a = false := by
  intro k hk
  simp only [List.mem_cons, List.not_mem_nil, or_false] at hk
  rcases hk with rfl | rfl | rfl <;>
    exact ⟨_, by decide, rfl, rfl, by decide, by decide, by decide, by decide, by decide, by decide, fun _ => rfl⟩

/-- A drain to the global space of a crew on core 48, whose page is homed on die 0. -/
def draining : State :=
  { (mxState id [(5, mxReq .mdr .table [0, 0, 0x80, 0])]).modCrew 1 (fun w => { w with place := .on 48 }) with evt := [48, 0] }

theorem witness_MatrixSteps_send : ∃ p, tilePathFree draining 48 = true ∧ grantPick draining 48 (fun k => decide (k ≠ .mma)) = some (5, p) ∧
    p.q.kind = .mdr ∧ unsent draining 5 48 ((mdLines p.q).flatMap (mdHome draining 48 p.q)) ≠ [] :=
  ⟨_, by decide, rfl, rfl, by decide +kernel⟩

theorem witness_MatrixSteps_late : ∃ p w, smFind (mxState id [(0, mxReq .mmz .table)]).eng.mx 0 = some p ∧ p.elig = some 0 ∧
    4096 ≤ clocksSince (mxState id [(0, mxReq .mmz .table)]) 0 ∧ (mxState id [(0, mxReq .mmz .table)]).crew p.q.crew = some w ∧
    p.q.st = .table ∧ w.core?.isSome = true ∧ p.fail = none ∧
    ((mxState id [(0, mxReq .mmz .table)]).domain w.dom).set_.mxTimeout < p.waited + ((mxState id [(0, mxReq .mmz .table)]).time - p.since) :=
  ⟨_, _, rfl, rfl, by decide, rfl, rfl, by decide, rfl, by decide⟩

/-- A request that has run and failed, with an arrival at barrier 15 to make. -/
def mxDone : State :=
  mxState id [(0, { q := { gang := 16, fd := 0x3E00000, st := .running }, fail := some {} })] (fun e => { e with bars := [(15, { i := true, arr := 2 })] })

theorem witness_MatrixSteps_finish : ∃ p g, smFind mxDone.eng.mx 0 = some p ∧ p.q.st = .running ∧ owesAmax p = false ∧ p.fail = some {} ∧
    mxDone.gang p.q.gang = some g ∧ g.mxerr = none ∧ fdCbe p.q.fd = true ∧ ((mxDone.ceng p.q.crew).bar (fdCb p.q.fd)).i = true ∧
    ((mxDone.ceng p.q.crew).bar (fdCb p.q.fd)).p = false ∧ 1 < ((mxDone.ceng p.q.crew).bar (fdCb p.q.fd)).arr ∧
    forkPending mxDone 0 p.q.gang 0 = false ∧ (mxDone.crew p.q.crew).bind Crew.holds? = some 0 :=
  ⟨_, _, rfl, rfl, by decide, rfl, rfl, rfl, by decide, by decide, by decide, by decide, by decide, by decide⟩

theorem witness_MatrixSteps_follow : ∀ d ∈ ([false, true] : List Bool), ∃ p g,
    smFind (mxState id [(0, { q := { gang := 16, st := .follow, dropped := d } })]).eng.mx 0 = some p ∧ p.q.st = .follow ∧ p.q.copies = [] ∧
    p.q.dropped = d ∧ mxCore (mxState id [(0, { q := { gang := 16, st := .follow, dropped := d } })]) p.q = some 0 ∧
    (mxIn (mxState id [(0, { q := { gang := 16, st := .follow, dropped := d } })]) 0 MxReqX.inTable).length < 16 ∧
    mxOfGang (mxState id [(0, { q := { gang := 16, st := .follow, dropped := d } })]) p.q.gang < 8 ∧
    (mxState id [(0, { q := { gang := 16, st := .follow, dropped := d } })]).gang p.q.gang = some g ∧ g.mxerr = none := by
  intro d hd
  simp only [List.mem_cons, List.not_mem_nil, or_false] at hd
  rcases hd with rfl | rfl <;> exact ⟨_, _, rfl, rfl, rfl, rfl, rfl, by decide, by decide, rfl, rfl⟩

/-! ### Buckets -/

/-- A crew with bucket 3; s2 holds a reference to patch slot 5, s4 the handle of grid 5 in its first generation. -/
def bktState (v : Bucket) : State :=
  ready (withRegs [(2, 5), (3, 0x40000000), (4, 0x10005)])
    (fun s => { s.modCeng 1 (fun e => { e with bkt := { cur := some 3 } }) with gfx.buckets := [(3, v)], evt := [3], work.next := 40 })

/-- A bucket with a patch and a shaded grid of one micropolygon. -/
def fullBkt : Bucket := { st := .resident, slots := [(5, {})], grids := [(5, { gen := 1 })] }

theorem witness_BucketWords_dice : ∃ x, Issues (bktState fullBkt) x (.dice true 2 6) ∧ ((bktState fullBkt).ceng x.crewNo).bkt.cur = some 3 ∧
    (bktState fullBkt).bkt 3 = some fullBkt ∧ ((bktState fullBkt).ceng x.crewNo).bkt.err = none ∧ refBroken fullBkt (x.s2 2) = false ∧
    (x.s 6).toNat % 32 = 0 ∧ (x.s 6).toNat / 256 % 32 = 0 ∧ (x.s2 2).toNat / 2 ^ 62 = 1 ∧
    smFind fullBkt.slots ((x.s2 2).toNat % 65536) = some {} := issues_with _ (by decide)

theorem witness_BucketWords_grid : ∀ i ∈ ([.gsh true 8 4 1, .gwb true 16 4, .gemit true 4] : List Instr), ∃ x, Issues (bktState fullBkt) x i ∧
    liveGrid fullBkt (x.s 4) = some (5, { gen := 1 }) ∧ ∀ i ∈ x.lanes, (x.v (16 + 9) i).getLsbD 15 = false ∧
      (x.v (16 + 9) i).toNat % 512 < ({ gen := 1 } : Grid).verts ∧ outBad {} (outRec x 16 i) = false := by
  intro i hi
  simp only [List.mem_cons, List.not_mem_nil, or_false] at hi
  rcases hi with rfl | rfl | rfl <;> exact issues_with _ (by decide +kernel)

theorem witness_BucketWords_bknext : (∃ x, Issues (bktState fullBkt) x (.bknext true 8 0) ∧ (nextItem (bktState fullBkt) 3 fullBkt).isSome = true) ∧
    ∀ l ∈ ([0, 3] : List (Fin 16)),
      ∃ x, Issues (bktState { inP := [{}] }) x (.bknext true 8 l) ∧ (nextItem (bktState { inP := [{}] }) 3 { inP := [{}] }).isNone = true := by
  refine ⟨issues_with _ (by decide), fun l hl => ?_⟩
  simp only [List.mem_cons, List.not_mem_nil, or_false] at hl
  rcases hl with rfl | rfl <;> exact issues_with _ (by decide)

/-- A split bucket, a closed one that takes no samples, and one that is not closed. -/
theorem witness_BucketWords_bkdone : ∀ v ∈ ([{ cnt := { split := true } }, { st := .closed, cnt := { dead := true } }, {}] : List Bucket),
    ∃ x, Issues (bktState v) x (.bkdone true 6) ∧ x.s 6 = v.name := by
  intro v hv
  simp only [List.mem_cons, List.not_mem_nil, or_false] at hv
  rcases hv with rfl | rfl | rfl <;> exact issues_with _ (by decide)

/-- The name read at the issue, kept while the word waits; a name that is not the bucket's. -/
theorem witness_BucketWords_named : ∀ i ∈ ([.bkdone true 2, .bkspl true 2] : List Instr),
    (∃ x, Issues (waitsWith [0] (bktState {})) x i ∧ x.held = [0] ∧ (waitsWith [0] (bktState {})).bkt 3 = some {} ∧ Bucket.name {} = 0 ∧ x.s 2 ≠ 0) ∧
    ∃ x, Issues (bktState {}) x i ∧ x.held = [] ∧ x.s 2 ≠ Bucket.name {} := by
  intro i hi
  simp only [List.mem_cons, List.not_mem_nil, or_false] at hi
  rcases hi with rfl | rfl <;> exact ⟨issues_with _ (by decide), issues_with _ (by decide)⟩

/-- A bucket already split, one of 32 pixels, one of 8. -/
theorem witness_BucketWords_bkspl : ∀ v ∈ ([{ cnt := { split := true } }, {}, { id := { bw := 8 } }] : List Bucket),
    ∃ x, Issues (bktState v) x (.bkspl true 6) ∧ x.s 6 = v.name ∧ v.cnt.handedGrid = false ∧ dicing (bktState v) 3 = false := by
  intro v hv
  simp only [List.mem_cons, List.not_mem_nil, or_false] at hv
  rcases hv with rfl | rfl | rfl <;> exact issues_with _ (by decide)

/-- A bucket whose patches a dicer still works on. -/
def diced : State := { bktState {} with gfx.dicers := [{ bucket := 3 }] }

theorem witness_BucketWords_dicing : ∃ x, Issues diced x (.bkspl true 6) ∧ diced.bkt 3 = some {} ∧ x.s 6 = Bucket.name {} ∧
    dicing diced 3 = true := issues_with _ (by decide)

/-- Words of the loaded kernel's page, by their offset. -/
def page (ws : List (Nat × Word)) (s : State) : State := { s with mem := ws.foldl (fun m p => setWord m (0x10000 + p.1) p.2) s.mem }

/-- A frame record of one patch: its descriptor at 0x40, its patch array at 0x80, its patch at 0x100. -/
def frameState (f : Frame → Frame) (s : State → State := id) : State :=
  s (page [(0x50, 0x200020), (0x54, 0x400000), (0x80, 0x100), (0x100, 1), (0x104, 1)] { ready with evt := [0], work.next := 40, gfx.frames :=
    [f { task := 7, record := { arg := 0x80, inl := [0x40, 0, 1, 0, 0, 0] }, fdAddr := 0x40 }] })

theorem witness_GraphicsSteps_descriptor : (frameState id).gfx.frames.map (fun f => f.desc) = [none] ∧
    ((readDesc (frameState id) 0 0x40).toOption.map (fun ws => ws.getD 4 0)) = some 0x200020 := by decide +kernel

def frameDesc : FrameDesc := { fw := 32, fh := 32, quo := 64 }

/-- What a read of words came to. -/
def ERd.words : ERd → Option (List Word)
  | .ok ws => some ws
  | _ => none

theorem witness_GraphicsSteps_patch : ∃ f d, (frameState (fun f => { f with desc := some frameDesc })).gfx.frames[(0 : Nat)]? = some f ∧
    f.desc = some d ∧ f.made = none ∧ f.next < (f.record.inl.getD 2 0).toNat ∧ (f.record.arg + BitVec.ofNat 64 (8 * f.next)).toNat % 8 = 0 ∧
    (ERd.words (engWords (frameState id) f.dom (f.record.arg + BitVec.ofNat 64 (8 * f.next)) 2)) = some [0x100, 0] ∧
    (ERd.words (engWords (frameState id) f.dom 0x100 1)) = some [1] ∧
    ((ERd.words (engWords (frameState id) f.dom 0x100 (patchLen 1))).map (fun ws => (Patch.mk ws 0).ok)) = some true :=
  ⟨_, _, rfl, rfl, rfl, by decide, by decide, by decide +kernel, by decide +kernel, by decide +kernel⟩

/-- Its one bucket made, and waiting in a deque of die 0. -/
def bucketed (v : Bucket) (u : List (Nat × Bucket) := []) : State :=
  frameState (fun f => { f with desc := some frameDesc, made := some 3, next := 1 }) (fun s =>
    { s with gfx.buckets := [(3, v)] ++ u, sched.slots := [(16, 0x80000000)], sched.deques := [(0, [{ bucket := some (if u = [] then 3 else 4) }])],
             evt := [0, 0, 0] })

def setBkt : Bucket := { id := { fdAddr := 0x40, order := [1] }, desc := frameDesc }

theorem witness_GraphicsSteps_distribute : ∃ f d v, (bucketed setBkt).gfx.frames[(0 : Nat)]? = some f ∧ f.desc = some d ∧ f.made = some 3 ∧
    (bucketed setBkt).bkt (3 + f.placed) = some v ∧ f.placed < bktCount d.fw * bktCount d.fh ∧
    dqFull (bucketed setBkt) 1 (dqKey (f.placed % 4) f.dom f.que) = false := ⟨_, _, _, rfl, rfl, rfl, rfl, by decide, by decide⟩

theorem witness_GraphicsSteps_setup : ∃ e v, (looseEnts (bucketed setBkt) 0 0 0).head? = some e ∧ e.bucket = some 3 ∧
    (bucketed setBkt).bkt 3 = some v ∧ v.st = .waiting ∧ dieWorks (bucketed setBkt) 0 = true ∧ dieFits (bucketed setBkt) 0 e = true ∧
    storeRoom (bucketed setBkt) 0 v.quota = true ∧ (setupCheck (bucketed setBkt) v).isSome = true :=
  ⟨_, _, rfl, rfl, rfl, rfl, by decide, by decide, by decide, by decide +kernel⟩

/-- A dicer job and a write-back job of the bucket. -/
def jobs : State := { bktState fullBkt with gfx.dicers := [{ bucket := 3, patch := some { w := [1, 1] } }], gfx.wbs := [{ bucket := 3, grid := 5 }], evt := [0] }

theorem witness_GraphicsSteps_jobs : ∃ j w p v g, jobs.gfx.dicers[(0 : Nat)]? = some j ∧ jobs.gfx.wbs[(0 : Nat)]? = some w ∧
    jobs.bkt j.bucket = some v ∧ j.patch = some p ∧ p.ok = true ∧ jobs.bkt w.bucket = some v ∧ smFind v.grids w.grid = some g :=
  ⟨_, _, _, _, _, rfl, rfl, rfl, rfl, by decide +kernel, rfl, rfl⟩

/-- A shaded grid whose turn at tile 0 has come. -/
def sampling : State :=
  { bktState { setBkt with grids := [(5, { rank := some 0, vout := [(0, []), (1, []), (2, []), (3, [])] })] } with
    gfx.stus := [{ bucket := 3, grid := 5 }], eng.keys := [(slNum 0 1 0, {})], evt := [0] }

theorem witness_GraphicsSteps_stu : ∃ j v g key e, sampling.gfx.stus[(0 : Nat)]? = some j ∧ sampling.bkt j.bucket = some v ∧
    smFind v.grids j.grid = some g ∧ g.verts ≤ g.vout.length ∧ (∀ w ∈ sampling.gfx.wbs, w.bucket = j.bucket → w.grid ≠ j.grid) ∧
    v.keys[j.tiles]? = some key ∧ g.rank = some 0 ∧
    keyFenced sampling v.id.dom 1 key = false ∧ smFind sampling.eng.keys (slNum v.id.dom 1 key) = some e ∧ e.brk = false ∧ e.hld = false ∧
    e.ne = BitVec.ofNat 32 0 := ⟨_, _, _, _, _, rfl, rfl, rfl, by decide, by decide, rfl, rfl, by decide, rfl, rfl, rfl, rfl⟩

theorem witness_GraphicsSteps_forward : ∃ v, (bktState { st := .resident, inP := [{}] }).bkt 3 = some v ∧ v.st = .resident ∧ v.inP = {} :: [] :=
  ⟨_, rfl, rfl, rfl⟩

theorem witness_GraphicsSteps_close : ∃ v, (bktState { st := .resident, cnt := { done := true } }).bkt 3 = some v ∧ v.st = .resident ∧
    forwarded (bktState { st := .resident, cnt := { done := true } }) 3 v = true ∧
    earlierDone (bktState { st := .resident, cnt := { done := true } }) v = true := ⟨_, rfl, rfl, by decide, by decide⟩

/-- A bucket done with its own work, an earlier one ready whose quota finds no room. -/
def parking : State :=
  (bucketed { setBkt with st := .resident } [(4, { desc := { frameDesc with quo := 32767 }, id := { order := [0] } })]).modDomain 0
    (fun d => { d with set_ := { d.set_ with fen := 1 } })

theorem witness_GraphicsSteps_park : ∃ v, parking.bkt 3 = some v ∧ v.st = .resident ∧ v.cnt.split = false ∧ ownDone parking 3 v = true ∧
    earlierDone parking v = false ∧ fenRoom parking v.id.dom v.baseBytes = true ∧
    earlierReady parking v.die v (fun _ u => decide (u.st = .waiting) && !storeRoom parking v.die u.quota) = true :=
  ⟨_, rfl, rfl, rfl, by decide, by decide, by decide, by decide⟩

theorem witness_GraphicsSteps_reload : ∃ v, (bktState { setBkt with st := .parked }).bkt 3 = some v ∧ v.st = .parked ∧
    earlierDone (bktState { setBkt with st := .parked }) v = true ∧ storeRoom (bktState { setBkt with st := .parked }) v.die v.quota = true ∧
    dieWorks (bktState { setBkt with st := .parked }) v.die = true := ⟨_, rfl, rfl, by decide, by decide, by decide⟩

/-! ### Rays and tasks -/

/-- A gang with a structure register, lane 0 to 3's ray slots 31, 0, 1, 2 under the base in s6. -/
def rayState (rs : List (Nat × RaySlot)) (st : Option (List Word) := some []) (f : State → State := id) : State :=
  ready (fun g => withRegs [(6, 31)] [] [(0, { limit := 0x10000 })] { g with struct := st })
    (fun s => f { s with gfx.rays := rs, evt := [512], work.next := 40 })

theorem witness_RayWords_ray : ∃ x, Issues (rayState []) x (.ray true 8 6) ∧ x.gang.struct = some [] ∧ (x.s 6).toNat < 32 ∧
    ∀ i ∈ x.lanes, (smFind (rayState []).gfx.rays (rayKey x (x.s 6) i)).isNone = true := issues_with _ (by decide)

/-- Four queries that have ended. -/
def rayDone : State := rayState ([512, 513, 514, 543].map (fun k => (k, { done := some (.fin 1) })))

theorem witness_RayWords_rayw : ∃ x, Issues rayDone x (.rayw true 8 6 3) ∧ (x.s 6).toNat < 32 ∧
    ∀ i ∈ x.lanes, smFind rayDone.gfx.rays (rayKey x (x.s 6) i) = some { done := some (.fin 1) } := issues_with _ (by decide)

/-- A structure descriptor in a line that the L1 holds. -/
def raysLine : L1Line := { st := [.v, .v, .v, .v], data := (0x40000000 : BitVec 512) <<< 96 }

theorem witness_RayWords_rays : ∃ x, Issues (rayState [] none (fun s => s.putL1 0 0x400 raysLine)) x (.rays true 8 10 3) ∧
    (x.s2 10).toNat % 64 = 0 ∧ checkAddr (rayState [] none (fun s => s.putL1 0 0x400 raysLine)) x 0 0 (x.s2 10) 64 .read 1 = .ok 0x10000 :=
  issues_with _ (by decide)

theorem witness_RayWords_structure : structOk ((List.range 16).map (fun k => lineWord raysLine.data k)) = true ∧
    (List.range 16).all (fun k => decide (ldAct raysLine 2 k = .hit)) = true := by decide +kernel

/-- RAY without a structure, with a base of 32, with a slot in use; RAYW with a base of 32, with a free slot. -/
theorem witness_RayWords_traps : (∃ x, Issues (rayState [] none) x (.ray true 8 6) ∧ x.gang.struct = none) ∧
    (∃ x, Issues ((rayState []).modGang 16 (withRegs [(6, 32)])) x (.ray true 8 6) ∧ x.gang.struct = some [] ∧ 32 ≤ (x.s 6).toNat) ∧
    (∃ x, Issues rayDone x (.ray true 8 6) ∧ x.gang.struct = some [] ∧ (x.s 6).toNat < 32 ∧
      ∃ i ∈ x.lanes, (smFind rayDone.gfx.rays (rayKey x (x.s 6) i)).isSome = true) ∧
    (∃ x, Issues ((rayState []).modGang 16 (withRegs [(6, 32)])) x (.rayw true 8 6 3) ∧ 32 ≤ (x.s 6).toNat) ∧
    ∃ x, Issues (rayState []) x (.rayw true 8 6 3) ∧ (x.s 6).toNat < 32 ∧ ∃ i ∈ x.lanes, (smFind (rayState []).gfx.rays (rayKey x (x.s 6) i)).isNone = true :=
  ⟨issues_with _ (by decide), issues_with _ (by decide), issues_with _ (by decide), issues_with _ (by decide), issues_with _ (by decide)⟩

/-- Four queries, of which one has failed. -/
def rayFailed : State := rayState ([512, 513, 514].map (fun k => (k, { done := some (.fin 1) })) ++ [(543, { done := some (.fail {}) })])

theorem witness_RayWords_failed : ∃ x, Issues rayFailed x (.rayw true 8 6 3) ∧ (x.s 6).toNat < 32 ∧
    (∀ j ∈ x.lanes, ((smFind rayFailed.gfx.rays (rayKey x (x.s 6) j)).bind (fun r => r.done)).isSome = true) ∧
    (rayFails rayFailed x (x.s 6)).length = 1 := issues_with _ (by decide)

/-- RAYS of an address that is no multiple of 64, and of one past the segment. -/
theorem witness_RayWords_raysTraps : (∃ x, Issues ((rayState []).modGang 16 (withRegs [(10, 32)] [] [])) x (.rays true 8 10 3) ∧ (x.s2 10).toNat % 64 ≠ 0) ∧
    ∃ x, Issues ((rayState []).modGang 16 (withRegs [(10, 0x10000)] [] [])) x (.rays true 8 10 3) ∧ (x.s2 10).toNat % 64 = 0 ∧
      (checkAddr ((rayState []).modGang 16 (withRegs [(10, 0x10000)] [] [])) x 0 0 (x.s2 10) 64 .read 1).isOk = false :=
  ⟨issues_with _ (by decide), issues_with _ (by decide)⟩

/-- Rays before their root is pushed, with an invalid and a valid ray; with nothing on the stack; with a child to visit. -/
theorem witness_RayWords_query : ∀ r ∈ ([{ ray := [0x7F800000] }, { ray := [0, 0, 0, 0x3F800000], desc := [0, 0, 1, 0x40000000] }, { begun := true },
    { begun := true, stack := [(0x40000000, 0)] }] : List RaySlot), ∃ q, smFind (rayState [(512, r)]).gfx.rays ((rayState [(512, r)]).op 0) = some q ∧
      gangCore (rayState [(512, r)]) ((rayState [(512, r)]).op 0 / 32) = some (0, 0, false) ∧ q.done = none ∧
      ∃ g, (rayState [(512, r)]).gang ((rayState [(512, r)]).op 0 / 32) = some g ∧ g.liveSlices ≠ [] := by
  intro r hr
  simp only [List.mem_cons, List.not_mem_nil, or_false] at hr
  rcases hr with rfl | rfl | rfl | rfl <;> exact ⟨_, rfl, rfl, rfl, _, rfl, by decide⟩

theorem witness_RayWords_begin : RaySlot.invalid { ray := [0x7F800000] } = true ∧
    RaySlot.invalid { ray := [0, 0, 0, 0x3F800000, 0, 0, 0, 0x3F800000], desc := [0, 0, 1, 0x40000000] } = false ∧
    refBad { desc := [0, 0, 1, 0x40000000] } 0x40000000 = none := by decide +kernel

/-- A gang of domain 0 whose queue 0 is enabled, with a pair of zeros in s10. -/
def taskState (f : Gang → Gang := id) (on : Bool := true) (s : State → State := id) : State :=
  ready (fun g => f (withRegs [] [] [(0, { limit := 0x10000 })] g)) (fun u => s (u.modQueue 0 0 (fun v => { v with enabled := on })))

theorem witness_TaskWords_tspawn : ∀ b ∈ ([true, false] : List Bool), ∃ x, Issues (taskState id b) x (.tspawn true 10 12) ∧ x.gang.tkerr = none ∧
    (x.s2 10).toNat % 64 = 0 ∧ checkAddr (taskState id b) x 0 0 (x.s2 10) 64 .read 1 = .ok 0x10000 ∧
    ((taskState id b).queue x.dom ((x.s 12).toNat % 64)).enabled = b := by
  intro b hb
  simp only [List.mem_cons, List.not_mem_nil, or_false] at hb
  rcases hb with rfl | rfl <;> exact issues_with _ (by decide)

/-- What TSUCC's step gave: the count before it. -/
def countOf : Except Cause (Nat × Word × DWord × State) → Nat
  | .ok p => p.1
  | .error _ => 0

/-- A successor object that stands at 2. -/
theorem witness_TaskWords_tsucc : ∃ x, Issues (taskState id true (page [(0, 2)])) x (.tsucc true 10) ∧ x.gang.tkerr = none ∧ (x.s2 10).toNat % 32 = 0 ∧
    checkAddr (taskState id true (page [(0, 2)])) x 0 0 (x.s2 10) 32 .atomic 1 = .ok 0x10000 ∧
    countOf (succStep (taskState id true (page [(0, 2)])) x.core 0x10000) = 2 := issues_with _ (by decide +kernel)

/-- The same at 1: the record that it names, at the same place, is placed. -/
def lastOne : State := taskState id true (page [(0, 1), (32, 2)])

theorem witness_TaskWords_spawns : ∃ x, Issues lastOne x (.tsucc true 10) ∧ x.gang.tkerr = none ∧ (x.s2 10).toNat % 32 = 0 ∧
    engineReady lastOne lastOne.work.next x.cur.gang x.core 0x400 = true ∧
    match succStep lastOne x.core 0x10000 with
    | .ok (n, qs, ra, t) => n = 1 ∧ ra.toNat % 64 = 0 ∧ (t.queue x.dom (qs.toNat % 64)).enabled = true ∧
        checkAddr t x 0 0 ra 64 .read 1 = .ok 0x10000 ∧ (succPlace t x.dom (qs.toNat % 64) 0x10000 0 (coreDie x.core)).toOption.isSome = true
    | .error _ => False := by
  obtain ⟨x, hx, h⟩ := issues_with (s := lastOne) (i := .tsucc true 10) (fun x => x.gang.tkerr = none ∧ (x.s2 10).toNat % 32 = 0 ∧
    engineReady lastOne lastOne.work.next x.cur.gang x.core 0x400 = true ∧
    (match succStep lastOne x.core 0x10000 with
     | .ok (n, qs, ra, t) => decide (n = 1 ∧ ra.toNat % 64 = 0 ∧ (t.queue x.dom (qs.toNat % 64)).enabled = true ∧
        checkAddr t x 0 0 ra 64 .read 1 = .ok 0x10000 ∧ (succPlace t x.dom (qs.toNat % 64) 0x10000 0 (coreDie x.core)).toOption.isSome = true)
     | .error _ => false) = true) (by decide +kernel)
  refine ⟨x, hx, h.1, h.2.1, h.2.2.1, ?_⟩
  have h' := h.2.2.2
  split at h' <;> simp_all

theorem witness_TaskWords_align : ∀ i ∈ ([.tspawn true 10 12, .tsucc true 10] : List Instr),
    ∃ x, Issues (taskState (withRegs [(10, 4)])) x i ∧ x.gang.tkerr = none ∧ (x.s2 10).toNat % 32 ≠ 0 := by
  intro i hi
  simp only [List.mem_cons, List.not_mem_nil, or_false] at hi
  rcases hi with rfl | rfl <;> exact issues_with _ (by decide)

theorem witness_TaskWords_pending : ∀ i ∈ ([.tspawn true 10 12, .tsucc true 10] : List Instr),
    ∃ x, Issues (taskState (fun g => { g with tkerr := some {} })) x i ∧ x.gang.tkerr = some {} := by
  intro i hi
  simp only [List.mem_cons, List.not_mem_nil, or_false] at hi
  rcases hi with rfl | rfl <;> exact issues_with _ (by decide)

theorem witness_TaskWords_end : ∀ i ∈ ([.exit, .tdone] : List Instr), ∃ x, Issues taskState x i ∧ noOuts x.gang x.cur.grp = true ∧
    lateOf taskState x.cur.gang x.cur.grp = none ∧ x.gang.mxerr = none ∧ x.gang.tkerr = none ∧ (taskState.ceng x.crewNo).bkt.err = none := by
  intro i hi
  simp only [List.mem_cons, List.not_mem_nil, or_false] at hi
  rcases hi with rfl | rfl <;> exact issues_with _ (by decide)

/-- A load of the group's first slice is outstanding, one of both its slices. -/
def leavingOne (w : List (Nat × Nat)) : State :=
  ready (fun g => { g with nsl := 2, slices := [{ live := true, x := 15, grp := 3, wins := [(9, 3)] }, { live := true, x := 15, grp := 3, wins := w }] })
    (fun s => { s with work.cur := some { gang := 16, grp := 3 } })

theorem witness_TaskWords_exit :
    (∃ x, Issues ({ leavingOne [(9, 3)] with work.cur := some { gang := 16, grp := 3 } }) x .exit ∧ noOuts x.gang x.cur.grp = false ∧
      quietSlices x = 0) ∧
    ∃ x, Issues ({ leavingOne [] with work.cur := some { gang := 16, grp := 3 } }) x .exit ∧ noOuts x.gang x.cur.grp = false ∧
      quietSlices x ≠ 0 ∧ (lateOf (leavingOne []) x.cur.gang x.cur.grp).isNone = true :=
  ⟨issues_with _ (by decide), issues_with _ (by decide)⟩

/-! ### The scheduler -/

/-- Queue 0 of domain 0, with a ring of 64 records at the kernel's page. -/
def ringState (v : HostQueue) (evt : List Nat) (s : State → State := id) : State :=
  s { (ready).modDomain 0 (fun d => { d with queues := [(0, v)] }) with evt := evt, time := 2000 }

/-- A full ring, and one record too many. -/
theorem witness_SchedulerSteps_doorbell : ∀ n ∈ ([64, 65] : List Nat), ((ringState { enabled := true } [0, 0, n]).queue 0 0).enabled = true ∧
    ((ringState { enabled := true } [0, 0, n]).queue 0 0).stop = false ∧
    (BitVec.ofNat 32 ((ringState { enabled := true } [0, 0, n]).op 2) - ((ringState { enabled := true } [0, 0, n]).queue 0 0).head).toNat = n := by
  intro n hn
  simp only [List.mem_cons, List.not_mem_nil, or_false] at hn
  rcases hn with rfl | rfl <;> exact ⟨rfl, rfl, by decide⟩

/-- A valid TASK record: KIND 2, its entry at word 0. -/
def front (kw : Word) : State := ringState { enabled := true, tail := 1 } [0, 0] (page [(32, kw)])

theorem witness_SchedulerSteps_front : ∀ p ∈ ([(2, none), (0, some .tkRecord)] : List (Word × Option Cause)),
    ((front p.1).queue 0 0).enabled = true ∧ ((front p.1).queue 0 0).stop = false ∧ ((front p.1).queue 0 0).head ≠ ((front p.1).queue 0 0).tail ∧
    binning (front p.1) 0 0 = false ∧ (engXl (front p.1) 0 (slotVa ((front p.1).queue 0 0) ((front p.1).queue 0 0).head) .read).toOption = some 0x10000 ∧
    lineBusy (front p.1) (lineOf 0x10000) = false ∧
    (readRec (front p.1) 0x10000).toOption.map (fun ws => (recBad (front p.1) 0 (recOf ws), (recOf ws).isFrame,
      recFull (front p.1) 0 0 (recOf ws) 0)) = some (p.2, false, false) := by
  intro p hp
  simp only [List.mem_cons, List.not_mem_nil, or_false] at hp
  rcases hp with rfl | rfl <;> exact ⟨rfl, rfl, by decide, rfl, by decide +kernel, rfl, by decide +kernel⟩

/-- A ring whose memory is a fenced die's. -/
theorem witness_SchedulerSteps_unreadable :
    ((readRec ((front 2).modDie 0 (fun d => { d with st := .fenced })) 0x10000).toOption).isNone = true := by decide +kernel

/-- A spawn thread before and after it has read its record. -/
def spawning (ws : Option (List Word)) : State :=
  ringState { enabled := true } [0] (fun s => page [(32, 2)] { s with sched.spawns := [{ gang := 16, addr := 0x10000, words := ws }] })

theorem witness_SchedulerSteps_spawn : ∃ p, (spawning none).sched.spawns[(0 : Nat)]? = some p ∧ p.words = none ∧
    unsent (spawning none) p.num p.core [lineOf p.addr] = [] ∧ pktOf (spawning none) p.num (lineOf p.addr) = none ∧
    engineReady (spawning none) p.num p.gang p.core (lineOf p.addr) = true ∧ threadFail (spawning none) p.num (lineOf p.addr) = none ∧
    threadPo (spawning none) p.num (lineOf p.addr) = 0 ∧ recFull (spawning none) p.dom p.que (recOf (readWords (spawning none) p.addr 16)) (coreDie p.core) = false ∧
    recBad (spawning none) p.dom (recOf (readWords (spawning none) p.addr 16)) = none ∧ anyPoison (spawning none) p.addr 16 = false :=
  ⟨_, rfl, rfl, by decide, rfl, by decide, by decide, by decide, by decide +kernel, by decide +kernel, by decide +kernel⟩

/-- The same of a core on die 1, whose record is homed on die 0. -/
theorem witness_SchedulerSteps_send : ∃ p, ({ spawning none with sched.spawns := [{ gang := 16, core := 48, addr := 0x10000 }] } : State).sched.spawns[(0 : Nat)]? = some p ∧
    p.words = none ∧ unsent { spawning none with sched.spawns := [{ gang := 16, core := 48, addr := 0x10000 }] } p.num p.core [lineOf p.addr] ≠ [] :=
  ⟨_, rfl, rfl, by decide⟩

theorem witness_SchedulerSteps_spawned : ∃ p ws, (spawning (some [])).sched.spawns[(0 : Nat)]? = some p ∧ p.words = some ws ∧ p.bad = false ∧
    bgRelease (spawning (some [])) p.num p.gang p.core p.dom = .done false ∧
    recFull (spawning (some [])) p.dom p.que (recOf ws) (coreDie p.core) = false :=
  ⟨_, _, rfl, rfl, rfl, rfl, by decide +kernel⟩

/-- An entry on die 0, and a free slot on die 1. -/
def stealing : State :=
  { ringState { enabled := true } [1, 0, 0] with
    sched.deques := [(0, [{}])], sched.slots := [(16 * 48, 0x80000000)] }

theorem witness_SchedulerSteps_steal : ∃ e ix, dieWorks stealing 1 = true ∧ longestOther stealing 1 0 0 ≠ 1 ∧ looseEnts stealing 1 0 0 = [] ∧
    newestEnt stealing (dqKey (longestOther stealing 1 0 0) 0 0) = some (e, ix) ∧ dieFits stealing 1 e = true ∧
    dqKey (longestOther stealing 1 0 0) 0 0 ≠ dqKey 1 0 0 ∧ dqFull stealing 1 (dqKey 1 0 0) = false :=
  ⟨_, _, by decide, by decide, by decide, rfl, by decide +kernel, by decide, by decide⟩

theorem witness_SchedulerSteps_reserve : ({ ready with evt := [191, 16, 5] } : State).op 0 < 192 ∧ 16 ≤ ({ ready with evt := [191, 16, 5] } : State).op 1 := by decide

/-- A task whose crews have ended, without and with a successor. -/
def taskEnding (succ : DWord) : State :=
  ringState { enabled := true } [7] (fun s => page [(0, 2)] { s with work.tasks := [(7, { succ := succ })], sched.ending := [7] })

theorem witness_SchedulerSteps_task : ∃ k, smFind (taskEnding 0).work.tasks ((taskEnding 0).op 0) = some k ∧ (taskEnding 0).op 0 ∈ (taskEnding 0).sched.ending ∧
    taskStores (taskEnding 0) k = false ∧ k.succ = 0 ∧ k.parent = none ∧ taskRelease (taskEnding 0) k k.cores = .done false :=
  ⟨_, rfl, by decide, by decide, rfl, rfl, rfl⟩

theorem witness_SchedulerSteps_successor : ∃ k, smFind (taskEnding 0x8000).work.tasks ((taskEnding 0x8000).op 0) = some k ∧ k.succ ≠ 0 ∧
    taskRelease (taskEnding 0x8000) k k.cores = .done false := ⟨_, rfl, by decide, rfl⟩

theorem witness_SchedulerSteps_succeeded : ((taskSucc (page [(0x8000, 2)] (taskEnding 0x8000)) { succ := 0x8000 }).map (fun r => r.toOption.isSome)) = some true := by
  decide +kernel

/-- An entry that core 1 can start. -/
def starting : State :=
  { ringState { enabled := true } [1] with sched.deques := [(0, [{ record := { kw := 2 } }])], sched.slots := [(16, 0x80000000)], work.next := 40 }

theorem witness_CrewStartAndEnd : ∃ cd e f b, bestCand starting (starting.op 0) = some cd ∧ cd.crew = none ∧ (starting.deque cd.dq)[cd.ix]? = some e ∧
    fit starting (starting.op 0) e.dom e.que e.record.kw e.record.rw = some f ∧
    basinFit starting e.task (coreDie (starting.op 0)) (kwBsn e.record.kw) = some b :=
  ⟨{}, { record := { kw := 2 } }, { slots := [0], pbase := 0, rsv := false }, (0, 0), by decide +kernel, rfl, rfl, by decide +kernel, rfl⟩

/-- A crew all of whose slices have ended. -/
def ending : State := { (ready (fun g => { g with slices := [{}] })).modCrew 1 (fun w => { w with place := .ended (some 0) }) with evt := [1] }

theorem witness_CrewStartAndEnd_end : ∃ w, ending.crew (ending.op 0) = some w ∧ w.place = .ended (some 0) ∧ crewBusy ending (ending.op 0) w = false :=
  ⟨_, rfl, rfl, by decide⟩

/-! ### Leaving a core -/

/-- The loaded crew, as asked, in a domain with one context slot on die 0, on a machine with one open slot on core 0. -/
def leaving (w : Crew → Crew) (g : Gang → Gang := id) (f : State → State := id) : State :=
  f { ((ready g).modCrew 1 (fun v => w { v with kw := 2, rw := 0 })).modDomain 0 (fun d => { d with set_ := { d.set_ with ctx := [(0, 0x1000000)] } }) with
    evt := [1, 0], time := 20000, sched.slots := [(0, 0x80020000)] }

theorem witness_EvictionAndResume_begins : ∃ w, (leaving id).crew ((leaving id).op 0) = some w ∧ w.core? = some 0 ∧ w.leaving = none ∧
    evictWhy (leaving id) ((leaving id).op 0) w 0 = true := ⟨_, rfl, rfl, rfl, by decide⟩

/-- A drain is over. -/
def isOver : Drain → Bool
  | .over _ => true
  | .wait _ => false

theorem witness_EvictionAndResume_saves : ∃ w, (leaving (fun w => { w with leaving := some .preempt })).crew 1 = some w ∧ w.core? = some 0 ∧
    w.leaving = some .preempt ∧ isOver (drain (leaving (fun w => { w with leaving := some .preempt })) 1 w 0) = true ∧
    freeCtx (leaving (fun w => { w with leaving := some .preempt })) w.dom (coreDie 0) = some (0, (0, 0x1000000)) ∧
    (readySaves (readySave (leaving (fun w => { w with leaving := some .preempt })) 1) 0).head? = some 1 :=
  ⟨_, rfl, rfl, rfl, by decide, by decide, by decide⟩

/-- A record of a software trap that only the host can answer. -/
def hostRec : TrapRec := { w0 := 0x0100040D }

/-- The loaded crew leaving its core for that record. -/
def serving : State := leaving (fun w => { w with leaving := some .swTrap }) (fun g => { g with recs := [hostRec] })

theorem witness_EvictionAndResume_service : ∃ w g, serving.crew 1 = some w ∧ w.core? = some 0 ∧ w.leaving = some .swTrap ∧
    serviceGang serving 1 = some (16, g, hostRec) ∧
    hostRec.cause ≠ Cause.homeFenced.code ∧ hostRec.cause ≠ Cause.incarnation.code ∧
    isOver (drain serving 1 w 0) = true ∧ (readySaves (readySave serving 1) 0).head? = some 1 :=
  ⟨_, _, rfl, rfl, rfl, rfl, by decide, by decide, by decide, by decide⟩

theorem witness_EvictionAndResume_grace : ∃ w, (leaving (fun w => { w with resumed := true })).crew 1 = some w ∧ w.core? = some 0 ∧ w.resumed = true ∧
    10000 ≤ (leaving (fun w => { w with resumed := true })).time - w.since := ⟨_, rfl, rfl, rfl, by decide⟩

/-- The record waits, its crew still on the core. -/
def recWaits : State := leaving id (fun g => { g with recs := [hostRec] }) (fun s => { s with evt := [16] })

theorem witness_EvictionAndResume_delivery : ∃ g, recWaits.op 0 = 16 ∧ recWaits.gang 16 = some g ∧
    serviceRec g = some hostRec ∧ crewStays recWaits g = true ∧ causeOf hostRec.cause = some .swTrap :=
  ⟨_, rfl, rfl, rfl, by decide, by decide⟩

/-- A crew that waits, its context saved, with a free slot on core 0. -/
def waitingCrew : State :=
  leaving (fun w => { w with place := .waiting 0 }) (fun g => { g with slices := [] })
    (fun s => s.modDomain 0 (fun d => { d with set_ := { d.set_ with ctxUse := [(0, 1)] } }))

theorem witness_EvictionAndResume_resume : ∃ w f, waitingCrew.crew (waitingCrew.op 0) = some w ∧ w.place = .waiting 0 ∧ waitingCrew.op 1 < 192 ∧
    resumable waitingCrew (waitingCrew.op 1) (waitingCrew.op 0) 0 = true ∧ outTeam waitingCrew (waitingCrew.op 0) = [waitingCrew.op 0] ∧
    savedAt waitingCrew (waitingCrew.op 0) = some 0x1000000 ∧
    fit waitingCrew (teamCore w (waitingCrew.op 1)) w.dom w.que w.kw w.rw = some f :=
  ⟨_, { slots := [0], pbase := 0, rsv := false }, rfl, rfl, by decide, by decide, by decide, by decide, by decide⟩

/-! ### The context transfers -/

/-- Privileged code with an image's address in s10 (s12: one that is not a multiple of 4,096), the first GiB mapped, its
translation in the core's TLB. -/
def transfers (hdr : List (Nat × Word) := []) : State :=
  ready (fun g => withRegs [(10, 0x1000000), (12, 8)] [] [(0, { limit := 0x40000000 })] { g with prv := true })
    (fun s => (({ s with mem := hdr.foldl (fun m p => setWord m (0x1000000 + p.1) p.2) s.mem, coh.tlb1 := [(0, { size := 0x40000000, leaf := leafPtr 0 })] } : State)).modCrew 1
      (fun w => { w with kw := 2, rw := 0 }))

theorem witness_ContextTransfers_misaligned : ∀ i ∈ ([.ctxsv true 12, .ctxld true 12] : List Instr), ∃ x, Issues (transfers) x i ∧
    x.cur.retry = false ∧ (x.s2 12).toNat % 4096 ≠ 0 := by
  intro i hi
  simp only [List.mem_cons, List.not_mem_nil, or_false] at hi
  rcases hi with rfl | rfl <;> exact issues_with _ (by decide)

/-- What a drain leaves holds nothing on its way, no owner, no poison, and every die admitted. -/
def still : Drain → Bool
  | .over u => u.coh.reqs.isEmpty && u.work.outs.isEmpty && u.coh.dir.isEmpty && u.poison.isEmpty && decide (u.fab = State.reset.fab)
  | .wait _ => false

theorem still_quiet {u : State} (h : still (.over u) = true) :
    (∀ g, u.work.outs.any (fun p => decide (p.2.gang / 16 = g)) = false) ∧ (∀ l, lineBusy u l = false) ∧ (∀ l, homeFail u l = none) ∧
      ∀ a, (readWord u a).2 = false := by
  simp only [still, Bool.and_eq_true, List.isEmpty_iff, decide_eq_true_eq] at h
  obtain ⟨⟨⟨⟨hr, ho⟩, hd⟩, hp⟩, hf⟩ := h
  have fx : ∀ d, (State.reset.die d).st = .admitted ∧ (State.reset.die d).lost = [] := by
    intro d
    by_cases h : d < 5
    · interval_cases d <;> decide
    · have : smFind State.reset.fab.dies d = none := by
        have hm : ∀ p ∈ State.reset.fab.dies, p.1 < 5 := by decide
        revert hm
        generalize State.reset.fab.dies = m
        intro hm
        induction m with
        | nil => rfl
        | cons p m ih =>
          have := hm p (by simp)
          rw [smFind, if_neg (by omega)]
          exact ih (fun q hq => hm q (by simp [hq]))
      simp [State.die, smGet, this]
  have die : ∀ d, (u.die d).st = .admitted ∧ (u.die d).lost = [] := fun d => by
    unfold State.die; rw [hf]; exact fx d
  refine ⟨fun g => by rw [ho]; rfl, fun l => by unfold lineBusy; rw [hr]; rfl, fun l => ?_, fun a => ?_⟩
  · unfold homeFail fenced; rw [(die _).1, (die _).2]; simp [smFind]
  · have hq : isPoison u.poison a = false := by rw [hp]; rfl
    unfold readWord cohWord State.dirOf; rw [hd]
    split
    · simp [smGet, smFind, DirEnt.owner, hq]
    · exact hq

/-- The drain is over, and the image's header is (`b`) or is not one of another crew. -/
def header (b : Bool) (x : Cx) : Drain → Bool
  | .over u => headerBad x.crew ((List.range 12).map (fun k => (readWord u (ctxPlace u x (x.s2 10) .read (4 * k))).1)) == b
  | .wait _ => false

/-- What the transfers ask of the state, as a check that evaluates. -/
def moves (s : State) (k : AccKind) (b : Bool) (x : Cx) : Bool :=
  decide ((x.s2 10).toNat % 4096 = 0) && (ctxCheck s x (x.s2 10) k).isNone && (ctxWalk s x (x.s2 10) k).isNone &&
    !saHolds s x.crewNo && still (drain (freezeOthers s x true) x.crewNo x.crew x.core) &&
    header b x (drain (freezeOthers s x true) x.crewNo x.crew x.core)

theorem moves_spec {s : State} {k : AccKind} {b : Bool} {x : Cx} (h : moves s k b x = true) : (x.s2 10).toNat % 4096 = 0 ∧
    ctxCheck s x (x.s2 10) k = none ∧ ctxWalk s x (x.s2 10) k = none ∧ saHolds s x.crewNo = false ∧
    ∃ u, drain (freezeOthers s x true) x.crewNo x.crew x.core = .over u ∧
      u.work.outs.any (fun p => decide (p.2.gang / 16 = x.crewNo)) = false ∧
      (∀ o, lineBusy u (lineOf (ctxPlace u x (x.s2 10) k o)) = false) ∧
      ctxFail u x (x.s2 10) k plainOff (imageOffs x.crew) = none ∧
      headerBad x.crew ((List.range 12).map (fun k => (readWord u (ctxPlace u x (x.s2 10) .read (4 * k))).1)) = b := by
  simp only [moves, Bool.and_eq_true, decide_eq_true_eq, Option.isNone_iff_eq_none, Bool.not_eq_true'] at h
  obtain ⟨⟨⟨⟨⟨h1, h2⟩, h3⟩, h4⟩, h5⟩, h6⟩ := h
  refine ⟨h1, h2, h3, h4, ?_⟩
  revert h6 h5
  match drain (freezeOthers s x true) x.crewNo x.crew x.core with
  | .wait u => intro _ h; cases h
  | .over u =>
    intro h6 h
    obtain ⟨ho, hb, hf, hp⟩ := still_quiet h
    refine ⟨u, rfl, ho _, fun o => hb _, ?_, by simpa [header] using h6⟩
    unfold ctxFail
    rw [List.findSome?_eq_none_iff]
    intro o _
    simp only [hf, hp, Bool.and_false, Bool.false_eq_true, if_false]

theorem witness_ContextTransfers_save : ∃ x, Issues (transfers) x (.ctxsv true 10) ∧ moves (transfers) .write true x = true :=
  issues_of_meets (by decide +kernel)

theorem witness_ContextTransfers_badHeader : ∃ x, Issues (transfers) x (.ctxld true 10) ∧ moves (transfers) .read true x = true :=
  issues_of_meets (by decide +kernel)

/-- The header of an image of the loaded crew. -/
def goodHeader : List (Nat × Word) := [(0, 0x00010001), (4, 0)]

theorem witness_ContextTransfers_load : ∃ x, Issues (transfers goodHeader) x (.ctxld true 10) ∧
    moves (transfers goodHeader) .read false x = true :=
  issues_of_meets (by decide +kernel)

/-! ### The fatal path, notices, the package -/

/-- The loaded machine with given operands of an event. -/
def given (ops : List Nat) (f : State → State := id) : State := f { ready with evt := ops }

theorem witness_FatalPath : (∃ k, causeOf ((given [0, 90, 7, 4]).op 1) = some k ∧ k.cls = .fatal) ∧ (given [0, 90, 7, 4]).op 0 < 8 ∧
    (given [0, 90, 7, 4]).op 3 ≤ 4 ∧ (∃ w, (given [1]).crew ((given [1]).op 0) = some w ∧ w.core? = some 0) ∧ 110 ≤ (given [110]).op 0 :=
  ⟨⟨_, rfl, by decide⟩, by decide, by decide, ⟨_, rfl, rfl⟩, by decide⟩

/-- A ring of sixteen records for domain 0. -/
def withRing (s : State) : State := s.modRing 0 (fun r => { r with base := 0x8000, k := 4 })

theorem witness_NoticeSteps_softi : ∀ w ∈ ([0x00ABCD05, 0x40ABCD02] : List Word), ∃ q,
    (given [0] (fun s => withRing { s with sched.softis := [{ gang := 16, word := w }] })).sched.softis[0]? = some q ∧
    bgRelease (given [0] (fun s => withRing { s with sched.softis := [{ gang := 16, word := w }] })) q.mark q.gang q.core q.dom = .done false ∧
    mailBusy (given [0] (fun s => withRing { s with sched.softis := [{ gang := 16, word := w }] })) q.dom q.word = false ∧
    ((given [0] (fun s => withRing { s with sched.softis := [{ gang := 16, word := w }] })).ring q.dom).fits 0 = true := by
  intro w hw
  simp only [List.mem_cons, List.not_mem_nil, or_false] at hw
  rcases hw with rfl | rfl <;> exact ⟨_, rfl, rfl, by decide, by decide⟩

/-- Domain 0's wake mailboxes at 0x8000 of die 0, with a word for core 2 to take. -/
def mailed (ops : List Nat) : State :=
  given ops (fun s => { s.modDomain 0 (fun d => { d with mail := [(2, { put := 1, woken := true })], set_ := { d.set_ with mailAt := some (0, 0x8000) } }) with
    sched.softis := [{ gang := 16, word := 0x40ABCD02 }] })

theorem witness_NoticeSteps_mail : (∃ q, (mailed [0]).sched.softis[(0 : Nat)]? = some q ∧ mailBusy (mailed [0]) q.dom q.word = false ∧
      bgRelease (mailed [0]) q.mark q.gang q.core q.dom = .done false ∧ mailPlace (mailed [0]) q.dom 2 = some 0x8084) ∧
    (mailed [3]).sched.softis.length ≤ (mailed [3]).op 0 ∧ smFind ((mailed [3]).domain 0).mail 2 = some { put := 1, woken := true } :=
  ⟨⟨_, rfl, by decide, rfl, by decide⟩, by decide, by decide⟩

/-- Without a ring no notice fits. -/
theorem witness_NoticeSteps_full : ((given [0]).ring 0).fits (waitingNotices (given [0]) 0) = false := by decide

theorem witness_NoticeSteps_sent : ∃ n, (given [0] (fun s => withRing { s with host.notices := [{ kind := 1 }] })).host.notices.find?
      (fun n => decide (n.dom = 0)) = some n ∧
    ((given [0] (fun s => withRing { s with host.notices := [{ kind := 1 }] })).ring 0).fits 0 = true := ⟨_, rfl, by decide⟩

theorem witness_NoticeSteps_mailbox : ∃ r, (given [] (fun s => { s with host.mbox := { busy := true, fin := some 3 } })).host.mbox.fin = some r ∧
    (given [] (fun s => { s with host.mbox := { busy := true, fin := some 3 } })).host.mbox.busy = true ∧
    (given [] (fun s => { s with host.mbox := { busy := true, fin := some 3 } })).host.mbox.flush = none := ⟨_, rfl, rfl, rfl⟩

theorem witness_FabricSteps_flit : ∃ v, smFind (given [0, 0, 5, 0, 7]).fab.dirs 0 = some v ∧ linkUp (given [0, 0, 5, 0, 7]) v.src v.dst = true ∧
    v.wire = [] ∧ v.pend = [] ∧ v.buffer = [] ∧ v.replay = false ∧ v.seqTx = v.seqRx ∧ v.seqTx < 4096 ∧ v.src < 5 ∧
    ((given [0, 0, 5, 0, 7]).die v.dst).table[v.src]? = some ((given [0, 0, 5, 0, 7]).die v.src).inc :=
  ⟨_, rfl, by decide, rfl, rfl, rfl, rfl, rfl, by decide, by decide, by decide⟩

/-- A packet's second flit is still to go out, while a replay is asked for. -/
def packetHalf : State := modDir (given [0]) 0 (fun v => { v with pend := [{ data := true }], replay := true })

theorem witness_FabricSteps_packet : ∃ v p ps, smFind packetHalf.fab.dirs 0 = some v ∧ linkUp packetHalf v.src v.dst = true ∧ v.wire = [] ∧
    v.pend = p :: ps ∧ v.replay = true ∧ v.buffer.length < 256 := ⟨_, _, _, rfl, by decide, rfl, rfl, rfl, by decide⟩

/-- Die 0 re-admitted under another incarnation number, which its neighbours have not yet learned. -/
def stale : State := given [0, 0, 5, 0, 0] (fun s => s.modDie 0 (fun d => { d with inc := 2 }))

theorem witness_FabricSteps_stale : ∃ v, smFind stale.fab.dirs 0 = some v ∧ linkUp stale v.src v.dst = true ∧ v.wire = [] ∧ v.pend = [] ∧ v.buffer = [] ∧
    (stale.die v.dst).table[0]? ≠ some (stale.die 0).inc := ⟨_, rfl, by decide, rfl, rfl, rfl, by decide⟩

/-- A flit of zeros, or of zeros but for its K bit, on its way after `n` bad ones, which the event's operand damages. -/
def damaged (n : Nat) (f : BitVec 512) : State := given [0, 1] (fun s => modDir s 0 (fun v => { v with fails := n, wire := [{ f := f }] }))

theorem witness_FabricSteps_damaged : ∀ p ∈ ([(0, 0), (3, 1 <<< 463)] : List (Nat × BitVec 512)), ∃ v, smFind (damaged p.1 p.2).fab.dirs 0 = some v ∧
    linkUp (damaged p.1 p.2) v.src v.dst = true ∧ v.wire = [{ f := p.2 }] ∧ v.fails = p.1 ∧
    flitOk (p.2 ^^^ BitVec.ofNat 512 ((damaged p.1 p.2).op 1)) = false ∧ flitData p.2 = decide (p.1 = 3) := by
  intro p hp
  simp only [List.mem_cons, List.not_mem_nil, or_false] at hp
  rcases hp with rfl | rfl <;> exact ⟨_, rfl, by decide, rfl, rfl, by decide +kernel, by decide +kernel⟩

theorem witness_FabricSteps_replay : ∃ v, smFind (modDir (given [0]) 0 (fun v => { v with replay := true })).fab.dirs 0 = some v ∧
    v.replay = true := ⟨_, rfl, rfl⟩

/-- A load of line 0 that its home has taken 100,001 ns ago, with a recall out. -/
def stuckLoad : State :=
  given [0] (fun s => { s with time := 100001, coh.reqs := [{ r := { id := 3, core := 1, gang := 16 }, begun := true }],
                               coh.acks := [{ req := 3 }] })

theorem witness_FabricSteps_timeout : ∃ q, stuckLoad.coh.reqs[stuckLoad.op 0]? = some q ∧ q.begun = true ∧ msgsOut stuckLoad q.r.id = true ∧
    100000 < stuckLoad.time - q.at_ ∧ q.r.kind ≠ .evict ∧ lineHost q.r.line = false ∧ isLost stuckLoad q.r.line = false ∧
    (stuckLoad.die (lineDie q.r.line)).lost.length < 4096 :=
  ⟨_, rfl, rfl, by decide, by decide, by decide, by decide, by decide, by decide⟩

/-- A request that crosses the link from die 0 to die 1, which is down. -/
def unanswered : State :=
  given [0] (fun s => { setLink s 0 1 false with time := 100001, coh.reqs := [{ r := { route := [1] } }] })

theorem witness_FabricSteps_unanswered : ∃ q, unanswered.coh.reqs[0]? = some q ∧
    q.staged = false ∧ q.begun = false ∧ q.r.kind ≠ .evict ∧ q.r.kind ≠ .writeback ∧ q.r.kind ≠ .push ∧ q.r.kind ≠ .barrier ∧ q.r.out = 0 ∧
    100000 < unanswered.time - q.r.made ∧ lostLink unanswered (coreDie q.r.core) q.r.route q.lost = some (0, 1) :=
  ⟨_, rfl, rfl, rfl, by decide, by decide, by decide, by decide, rfl, by decide, by decide⟩

/-- The same for a packet of an engine, whose own flits were lost. -/
theorem witness_FabricSteps_engine : let s := given [0] (fun s => { s with time := 100001, eng.pkts := [{ route := [1], lost := true }] })
    ∃ p, s.eng.pkts[(0 : Nat)]? = some p ∧ s.op 0 = s.coh.reqs.length + s.coh.replies.length + 0 ∧ p.fail = none ∧
      100000 < s.time - p.made ∧ lostLink s (coreDie p.core) p.route p.lost = some (0, 1) := ⟨_, rfl, by decide, rfl, by decide, by decide⟩

/-- Core 0 owns word 1 of line 0x400. -/
theorem witness_FabricSteps_errors : (given [0, 0]).op 0 < 4 ∧ (given [3, 3, 0x10004]).op 0 < 4 ∧ isHost 0x10004 = false ∧ isDev 0x10004 = true ∧
    ((given [0, 0x10007] (fun s => s.putL1 0 0x400 { st := [.v, .v, .v, .v], om := 2 })).l1 0 (lineOf 0x10004)).owned (wordIx 0x10004) = true := by
  decide

/-! ### Fences -/

/-- A fence of die 2 at a step. -/
def fencing (k : Nat) (ops : List Nat := [2, 0]) (fault : Bool := false) : State :=
  given ops (fun s => { s with time := 2000000, fab.fences := [{ die := 2, step := k, fault := fault }] })

theorem witness_FenceSteps_begin : (given [2]).op 0 < 4 ∧ (given [2]).fab.fences.find? (fun f => decide (f.die = 2)) = none ∧
    ∀ k, k < 8 → crewOn (given [2]) k 2 = false ∧ bktOn (given [2]) k 2 = false ∧ basinOn (given [2]) k 2 = false := by decide

theorem witness_FenceSteps_orderly : (∃ f, (fencing 0).fab.fences.find? (fun f => decide (f.die = 2)) = some f ∧ f.step = 0) ∧
    (∀ p ∈ (fencing 0).work.crews, p.2.holds?.any (fun c => decide (coreDie c = 2)) = false) ∧
    ∀ k, k < 8 → bktOn (fencing 0) k 2 = false ∧ basinOn (fencing 0) k 2 = false := ⟨⟨_, rfl, rfl⟩, by decide, by decide⟩

theorem witness_FenceSteps_quiesce : ∀ k ∈ [1, 2, 3, 5, 6], (fencing k).fab.fences.find? (fun f => decide (f.die = 2)) = some { die := 2, step := k } ∧
    (fencing k).op 1 = 0 ∧ heldReqs (fencing k) 2 = [] ∧ ownedLines (fencing k) 2 = [] ∧ awayLines (fencing k) 2 = [] ∧ inFlight (fencing k) 2 = false ∧
    (∀ p ∈ (fencing k).coh.dir, lineDie p.1 ≠ 2 → ∀ o ∈ p.2.owners, coreDie o.2 ≠ 2) ∧ (∀ p ∈ (fencing k).eng.keys, p.2.ovf = true ∨ numSlice p.1 / 24 ≠ 2) := by decide

/-- Core 0 owns a word of die 2's first line: step 2 has it recalled, or, where a fault fence finds no path, lost. -/
def owning (lose : Nat) : State :=
  { fencing 2 [2, lose, 0] (decide (lose = 1)) with coh.dir := [(lineOf (devAddr 2 0), { owners := [(1, 0)] })] }

theorem witness_FenceSteps_owned : ∀ k ∈ [0, 1], ∃ f, (owning k).fab.fences.find? (fun f => decide (f.die = 2)) = some f ∧ f.step = 2 ∧
    f.fault = decide (k = 1) ∧ 100000 < (owning k).time - f.at_ ∧ (ownedLines (owning k) 2)[(owning k).op 2]? = some (lineOf (devAddr 2 0)) ∧
    lineHost (lineOf (devAddr 2 0)) = false ∧ (owning k).op 1 = k ∧ ((owning k).die 2).lost.length + (ownedLines (owning k) 2).length ≤ 4096 ∧
    ∀ p ∈ (owning k).eng.keys, p.2.ovf = true ∨ numSlice p.1 / 24 ≠ 2 := by
  intro k hk
  simp only [List.mem_cons, List.not_mem_nil, or_false] at hk
  rcases hk with rfl | rfl <;> exact ⟨_, rfl, rfl, rfl, by decide, by decide, by decide, rfl, by decide, by decide⟩

/-- A crew on core 96 at the reset of its die. -/
theorem witness_FenceSteps_cleared : let s := ((fencing 5).modCeng 1 (fun e => { e with acc := [(0, 1)] })).modCrew 1 (fun w => { w with place := .on 96 })
    ∃ f w, s.fab.fences.find? (fun f => decide (f.die = 2)) = some f ∧ f.step = 5 ∧ s.crew 1 = some w ∧ w.holds? = some 96 ∧ coreDie 96 = 2 ∧
      inFlight s 2 = false ∧ (smFind s.work.engs 1).isSome = true := ⟨_, _, rfl, rfl, rfl, rfl, by decide, by decide, by decide⟩

theorem witness_FenceSteps_refresh : ∃ f, (fencing 4 [2] true).fab.fences.find? (fun f => decide (f.die = 2)) = some f ∧ f.fault = true ∧
    1 ≤ f.step ∧ f.step < 5 ∧ 1000000 < (fencing 4 [2] true).time - f.since ∧ heldReqs (fencing 4 [2] true) 2 = [] ∧
    ownedLines (fencing 4 [2] true) 2 = [] ∧ awayLines (fencing 4 [2] true) 2 = [] :=
  ⟨_, rfl, rfl, by decide, by decide, by decide, by decide, by decide, by decide⟩

theorem witness_FenceSteps_admitted : ∃ f, (fencing 7).fab.fences.find? (fun f => decide (f.die = 2)) = some f ∧ f.step = 7 ∧
    ∀ v ∈ (fencing 7).host.services, v.firm = true → v.rcd.die ≠ 2 := ⟨_, rfl, rfl, by decide⟩

/-! ### The host -/

/-- A running mailbox command. -/
def commanded (c : Word) (args : List Word) (f : State → State := id) : State :=
  given [0, 0] (fun s => f { s with host.mbox := { cmd := c, args := args, busy := true } })

/-- A settings block at host address 0: both timeouts 10,000 ns. -/
def withSettings (s : State) : State := { s with mem := setEntry (setEntry s.mem (hostAddr 184) 10000) (hostAddr 192) 10000 }

theorem witness_MailboxCommands_settings : running (commanded 1 [7, 0, 0] withSettings) 1 = true ∧
    settingsBad (commanded 1 [7, 0, 0] withSettings) = false ∧ settingsBad (commanded 1 [7, 0, 0]) = true ∧
    ((commanded 1 [7, 0, 0] withSettings).domain 7).set_.ctxUse = [] ∧
    ((commanded 1 [0, 0, 0] (fun s => (withSettings s).modDomain 0 (fun d => { d with set_.ctxUse := [(0, 1)] }))).domain 0).set_.ctxUse ≠ [] := by
  decide +kernel

theorem witness_MailboxCommands_codes : ∀ c ∈ [2, 3, 4, 5, 6, 7, 8, 9], running (commanded (BitVec.ofNat 32 c) [0, 0, 1, 0, 0, 6]) c = true := by decide

theorem witness_MailboxCommands_image : running (commanded 10 [] (fun s => { s with mgmt.power := .recovery })) 10 = true := by decide

/-- A QUEUE_SHARE of domain 0's queue 0 that its floors let pass or do not, or that asks for slots that no core has open. -/
def sharing (rsv df : Nat) : State :=
  commanded 5 [0, 0, BitVec.ofNat 32 rsv, 100, BitVec.ofNat 32 df, 15] (fun s => (s.modDomain 0 (fun d => { d with queues := [(0, {}), (1, { ff := 1 })] })))

theorem witness_MailboxCommands_share : ∀ p ∈ [(4, 100), (4, 160)], let s := sharing p.1 p.2
    let u := s.modQueue 0 0 (fun v => { v with rsv := mArg s 2, df := mArg s 3, ff := mArg s 4, dmask := BitVec.ofNat 4 (mArg s 5) })
    running s 5 = true ∧ mArg s 2 = 4 ∧ mArg s 3 = 100 ∧ mArg s 4 = p.2 ∧ mArg s 5 = 15 ∧
      decide (queueSum u (fun v => v.df) > 160 ∨ queueSum u (fun v => v.ff) > 160) = decide (p.2 = 160) ∧
      ∀ c ∈ [0, 191], rsvFits s c 0 0 (shareAt s c) = true := by decide

/-- Slots beyond those that a reserve leaves: a reserve of more than a core has. -/
theorem witness_MailboxCommands_over : let s := { sharing 4 100 with sched.reserve := [(3, 0x1FFFFFFF)] }
    rsvFits s 3 0 0 (shareAt s 3) = false := by decide

theorem witness_MailboxCommands_enabled : ((commanded 4 [0, 0] (fun s => s.modDomain 0 (fun d =>
    { d with queues := [(0, { enabled := true, stop := true })] }))).queue 0 0).enabled = true := by decide

/-- A crew out for service, its context in slot 0 of die 0. -/
def serviced (a : Word) : State :=
  commanded 6 [0, 5, a] (fun s => { (s.modCrew 1 (fun w => { w with place := .serviced 0 })).modDomain 0
    (fun d => { d with set_ := { d.set_ with ctx := [(0, 0x1000000)], ctxUse := [(0, 1)] } }) with
    host.services := [{ seq := 5, crew := 1, gang := 16 }] })

theorem witness_MailboxCommands_answer : ∃ v w, (serviced 0).host.services.find? (fun v => decide (v.dom = 0) && decide (v.seq.toNat = 5) && !v.firm) =
    some v ∧ (serviced 0).crew v.crew = some w ∧ savedAt (serviced 0) v.crew = some 0x1000000 := ⟨_, _, rfl, rfl, by decide⟩

theorem witness_MailboxCommands_reset : (∀ f ∈ (commanded 8 [3, 1]).fab.fences, f.mailbox = false) ∧ ((commanded 8 [3, 1]).die 3).st = .admitted ∧
    ∃ f ∈ (commanded 8 [3] (fun s => { s with fab.fences := [{ die := 0 }] })).fab.fences, f.fault = false :=
  ⟨by decide, by decide, _, List.mem_singleton.mpr rfl, rfl⟩

theorem witness_HostAccesses_recovery : let s := given [0x1000, 9] (fun s => { s with mgmt.power := .recovery })
    s.mgmt.power = .recovery ∧ s.op 0 = 0x1000 ∧ s.host.mbox.busy = false ∧ 1 ≤ s.op 1 ∧ s.op 1 < 10 := by decide

theorem witness_HostAccesses_config : (BitVec.ofNat 32 ((given [0x100000, 16]).op 1)).toNat = 16 ∧ (given [0x100000, 16]).op 0 = 2 ^ 20 ∧
    (given [0x100004, 1]).op 0 = 2 ^ 20 + 4 ∧ (given [0x100004, 1]).mgmt.power = .d0 := by decide

theorem witness_HostAccesses : (given [0x1000, 10]).mgmt.power = .d0 ∧ (given [0x1000, 10]).op 0 = 0x1000 ∧
    (commanded 3 []).host.mbox.busy = true ∧ ((given [0x10000, 2] (fun s => s.modDomain 0 (fun d => { d with
      queues := [(0, { enabled := true, k := 6, tail := 1 })] }))).queue 0 0).enabled = true := by decide

/-- BAR2's first entry on: the first GiB of die 3, or the gibibyte that the usable memory ends in. -/
def opened (k : Nat) (o : Nat) : State :=
  given [o, 0xAABBCCDD, 5] (fun s => { s with host.aper := [(0, BitVec.ofNat 64 (2 ^ 63 + 3 * 2 ^ 48 + k * 2 ^ 30))] })

theorem witness_HostAccesses_window : let s := opened 0 0x10003
    (smGet 0 s.host.aper (s.op 0 / 2 ^ 30)).getLsbD 63 = true ∧ (smGet 0 s.host.aper (s.op 0 / 2 ^ 30)).toNat / 2 ^ 48 % 8 = 3 ∧
    s.op 0 < 2 ^ s.host.bar2 ∧ homeFail s (lineOf (devAddr 3 0x10000)) = none ∧ lineBusy s (lineOf (devAddr 3 0x10000)) = false ∧
    (s.dirOf (lineOf (devAddr 3 0x10000))).owners = [] ∧ isPoison s.poison (devAddr 3 0x10000) = false := by decide

theorem witness_HostAccesses_absent : (smGet 0 (opened 0x3FFFF 0).host.aper 0).getLsbD 63 = true ∧
    (opened 0x3FFFF 0).usable < 0x3FFFF * 2 ^ 30 + 4 := by decide

theorem witness_HostAccesses_abort : homeFail ((opened 0 0).modDie 3 (fun d => { d with st := .fenced })) (lineOf (devAddr 3 0)) =
    some .homeFenced := by decide

theorem witness_PowerAndManagement : (given [0]).op 0 = 0 ∧ (given [0]).mgmt.power = .d0 ∧ (given [8]).op 0 < 128 ∧ (given [8]).mgmt.i3c = none ∧
    300 ≤ (given [1500]).op 0 ∧ (given [1500]).op 0 ≤ 1500 ∧ 1500 < (given [1501]).op 0 ∧ 50 < (given []).mgmt.clock := by decide

theorem witness_PowerAndManagement_boot : let s := given [] (fun s => { s with mgmt := { s.mgmt with lim := { is4P := true }, flash := [true, true], boards := [some (900, 990), none] } })
    s.mgmt.lim.is4P = true ∧ s.mgmt.flash.getD 0 false = true ∧ s.mgmt.boards.getD 0 none = some (900, 990) ∧ boardOk (900, 990) = true := by decide

theorem witness_PowerAndManagement_sideband : ({ State.reset with mgmt.i3c := some 8 } : State).mgmt.i3c.isSome = true := rfl

theorem witness_PowerAndManagement_board : ∃ w u, (given [] (fun s => { s with time := 10000000, mgmt.lim := { is4P := true, boardPower := some (1600, 0) } })).mgmt.lim.boardPower =
    some (w, u) ∧ 10000000 ≤ 10000000 - u := ⟨_, _, rfl, by decide⟩

/-! ### The whole machine -/

/-- A word that fails one check at issue and none before it: what the check sees. -/
theorem witness_IssueChecks : (∃ x, ready.cx = some x ∧ fieldBad x (.iadd true 63 0 0 0) = false ∧ regBad { x.crew with rw := 0 } (.iadd true 63 0 0 0) = true) ∧
    (∃ x, ready.cx = some x ∧ fieldBad x (.mtsr true 0 16) = false ∧ regBad x.crew (.mtsr true 0 16) = false ∧ x.prv = false) ∧
    (∃ x, ready.cx = some x ∧ regBad x.crew .eret = false ∧ x.hnd = false) ∧ State.reset.cx = none ∧
    ∃ x, (ready (withRegs [(2, 0x80000000)])).cx = some x ∧ fieldBad x (.qinit true 1 1 2) = true :=
  ⟨⟨_, rfl, by decide, by decide⟩, ⟨_, rfl, by decide, by decide, by decide⟩, ⟨_, rfl, by decide, by decide⟩, by decide, _, rfl, by decide⟩

theorem witness_IssueChecks_segpol : ∃ x, ready.cx = some x ∧ Instr.segpol (.ld true 5 1 1 1 4 3 0) = true ∧
    fieldBad x (.ld true 5 1 1 1 4 3 0) = false ∧ regBad x.crew (.ld true 5 1 1 1 4 3 0) = false ∧ privBad x (.ld true 5 1 1 1 4 3 0) = false :=
  ⟨_, rfl, by decide, by decide, by decide, by decide⟩

/-- A line of words still to push: the transfers wait for the drain. -/
def dirty : State := (transfers).putL1 0 0x400 { st := [.v, .v, .v, .v], dm := 1 }

theorem witness_ContextTransfers_wait : ∃ x, Issues dirty x (.ctxsv true 10) ∧ (x.s2 10).toNat % 4096 = 0 ∧
    (ctxCheck dirty x (x.s2 10) .write).isNone = true ∧ (ctxWalk dirty x (x.s2 10) .write).isNone = true ∧
    saHolds dirty x.crewNo = false ∧ isOver (drain (freezeOthers dirty x true) x.crewNo x.crew x.core) = false := issues_with _ (by decide +kernel)

/-- A kernel placed from reset with `w` as its first word, the step of its group picked. -/
def placed (w : Word) (g : Gang → Gang := id) : State := (placeWord State.reset w).modGang 16 g

theorem witness_StepRunsDecoded_word : let s := placed 0x18386BA1
    let u := { tick s with picks := [] }
    s.picks = [.issue 16 1] ∧ mayIssue u 16 1 = true ∧ (∃ g w, u.gang 16 = some g ∧ u.crew g.crew = some w ∧ w.core? = some 0 ∧
      (g.slice (firstSlice 1)).again = [] ∧ (g.slice (firstSlice 1)).block = none ∧ (g.slice (firstSlice 1)).rep = none ∧ lateOf u 16 1 = none ∧
      (fetchWord { u with work.issued := .done, evt := [] } 0 w.dom (segOf u w.dom (g.slice 0).hnd g.r 7) (g.slice 0).pc).toOption =
        some 0x18386BA1) ∧ chainBit (0x18386BA1 : Word).toNat = false ∧ decode 0x18386BA1 = .ok (.iaddi false 28 13 929) :=
  ⟨rfl, by decide, ⟨_, _, rfl, rfl, rfl, rfl, rfl, rfl, by decide, by decide⟩, by decide, by decide⟩

theorem witness_StepRunsDecoded_waiting : ∃ b, ((placed 0x0B800000 (fun g => g.modSlices 1 (fun sl => { sl with block := some {} }))).gang 16).bind
    (fun g => (g.slice 0).block) = some b := ⟨_, rfl⟩

/-- A BKNEXT of word 0 to issue again; a QINIT of the pool that names queue 1, by its encoding; the context of both. -/
theorem witness_StepRunsDecoded_again : ∃ g, (placed 0 (fun g => g.modSlices 1 (fun sl => { sl with again := [(0, false)] }))).gang 16 = some g ∧
    (g.slice 0).again = [(0, false)] := ⟨_, rfl, rfl⟩

theorem witness_StepRunsDecoded_field : ∃ w x, encode (.qinit true 1 1 2) = some w ∧ decode w = .ok (.qinit true 1 1 2) ∧
    ((placed w (withRegs [(2, 0x80000000)])).at_ { gang := 16, grp := 1 } 0 w).cx = some x ∧ fieldBad x (.qinit true 1 1 2) = true :=
  ⟨_, _, rfl, by decide, rfl, by decide⟩

/-- A deferred fault of the group, at its chain boundary. -/
theorem witness_AccessTraps_deferred : let s := { placed 0 with coh.late := [{ gang := 16, err := { cause := .poisonRd, lanes := 0xF } }] }
    let u := { tick s with picks := [] }
    s.picks = [.issue 16 1] ∧ mayIssue u 16 1 = true ∧ (∃ g w, u.gang 16 = some g ∧ u.crew g.crew = some w ∧ w.core? = some 0 ∧
      (g.slice (firstSlice 1)).again = [] ∧ (g.slice (firstSlice 1)).block = none) ∧ (lateOf u 16 1).isSome = true :=
  ⟨rfl, by decide, ⟨_, _, rfl, rfl, rfl, rfl, rfl⟩, by decide⟩

theorem witness_StepRunsDecoded_event : ({ ready with picks := [.event .d3cold []] } : State).picks = [.event .d3cold []] ∧ encode .d3cold = none := by
  decide

theorem witness_EncodeRoundTrip : (Instr.iaddi false 28 13 929).wf = true ∧ encode (.iaddi false 28 13 929) = some 0x18386BA1 ∧
    decode 0x18386BA1 = .ok (.iaddi false 28 13 929) := by decide

theorem witness_MemoryCanonical : Memory.wf (placed 0x80000000).mem ∧ (match step (placed 0x80000000) with
    | .next _ => true
    | _ => false) = true := by decide +kernel

/-! ### Ill-formed instructions are refused -/

theorem test_wf_operands : ([.iadd true 1 2 3 3, .dadd true 2 4 6 2 0, .br 1 0 3 0, .mfsr true 1 9, .mfsr true 1 43, .mtsr true 1 18,
    .swz true 1 2 256, .swz true 1 2 513, .frint true 1 2 4 0, .cvt true 2 4 16 0 0, .cvt true 2 4 1 4 0, .qnt true 2 4 10 0 0,
    .qnt true 2 4 3 5 0, .dqnt true 2 4 2 0 0, .dqnt true 2 4 3 4 0, .unpk true 2 4 0 0 0, .unpk true 2 4 1 2 0, .unpk true 2 4 10 0 0] :
    List Instr).map Instr.wf = List.replicate 18 false := by decide

theorem test_wf_memory : ([.ld true 5 0 0 1 2 3 0, .ld true 0 0 7 1 2 3 0, .ldu true 4 0 0 1 2 3 0, .ldu true 5 0 4 1 2 3 0,
    .st true 5 0 0 1 2 0, .st true 0 0 7 1 2 0, .stu true 4 0 0 1 2 0, .stu true 5 0 7 1 2 0, .fence true 0 0, .fence true 4 0,
    .cflush true 0 1 0 1, .cinv true 0 0 1 1, .scbwait true 1 0 1, .cp true 3 0 0 1 2 3, .cpx true 3 0 0 1 2 3, .cpe true 5 0 0 1 2 3] :
    List Instr).map Instr.wf = List.replicate 16 false := by decide

/-- Reserved bits, unassigned codes, reserved field values and a chain bit where none may stand. -/
theorem test_decode_refuses : ([0x04400000, 0x24000000, 0x00000001, 0x90000000 + 3 * 2, 0x80400000] : List Word).map decode =
    [.illEnc, .illEnc, .illField, .illField, .illChain] := by decide

/-! ### Single steps -/

/-- What word `w` leaves in the kernel placed with registers set by `g`: `f` of the gang after one step. -/
def after {α : Type} (w : Word) (f : Gang → α) (g : Gang → Gang := id) : Option α :=
  match step (placed w g) with
  | .next t => (t.gang 16).map f
  | _ => none

/-- What word `w` leaves in vector register `r`, lane 0. -/
def vOf (w : Word) (r : Nat) (v : List (Nat × Nat × Word)) : Option Word := after w (fun g => g.r.rdV r 0) (withRegs [] v)

/-- What word `w` leaves in scalar register `r`. -/
def sOf (w : Word) (r : Nat) (s : List (Nat × Word)) : Option Word := after w (fun g => g.r.rdS false r) (fun g => withRegs s [] [] g)

/-- 0xFFFFFFFF + 2 = 1 modulo 2^32 (R110). -/
theorem test_iadd_wraps : vOf 0x10008418 1 [(2, 0, 0xffffffff), (3, 0, 2)] = some 1 := by decide +kernel

/-- 3 - 5 = -2 (R110). -/
theorem test_isub_negative : vOf 0x10208418 1 [(2, 0, 3), (3, 0, 5)] = some 0xfffffffe := by decide +kernel

/-- -1 times 2^31 - 1 has the high word -1 (R110). -/
theorem test_imulh_signed : vOf 0x10608418 1 [(2, 0, 0xffffffff), (3, 0, 0x7fffffff)] = some 0xffffffff := by decide +kernel

/-- (2^32 - 1)(2^31 - 1) has the high word 2^31 - 2 (R110). -/
theorem test_imulh_unsigned : vOf 0x10808418 1 [(2, 0, 0xffffffff), (3, 0, 0x7fffffff)] = some 0x7ffffffe := by decide +kernel

/-- -1 is less than 1 (R111). -/
theorem test_imin_signed : vOf 0x10C08418 1 [(2, 0, 0xffffffff), (3, 0, 1)] = some 0xffffffff := by decide +kernel

/-- 2^32 - 1 is greater than 1 (R111). -/
theorem test_imax_unsigned : vOf 0x11208418 1 [(2, 0, 1), (3, 0, 0xffffffff)] = some 0xffffffff := by decide +kernel

/-- an arithmetic shift copies the sign (R113). -/
theorem test_sar_sign : vOf 0x12208418 1 [(2, 0, 0x80000000), (3, 0, 4)] = some 0xf8000000 := by decide +kernel

/-- bit 0 to bit 31 (R114). -/
theorem test_brev : vOf 0x12C08400 1 [(2, 0, 3)] = some 0xc0000000 := by decide +kernel

/-- no bit set (R114). -/
theorem test_clz_zero : vOf 0x12A08400 1 [] = some 32 := by decide +kernel

/-- 1.0 + 2.0 = 3.0. -/
theorem test_fadd : vOf 0x20008418 1 [(2, 0, 0x3f800000), (3, 0, 0x40000000)] = some 0x40400000 := by decide +kernel

/-- (1 + 2^-23)^2 rounds to 1 + 2^-22. -/
theorem test_fmul_rounds_even : vOf 0x20408418 1 [(2, 0, 0x3f800001), (3, 0, 0x3f800001)] = some 0x3f800002 := by decide +kernel

/-- 2 · 3 + 1 = 7. -/
theorem test_ffma :
    vOf (0x28000000 + 1 * 2 ^ 18 + 2 * 2 ^ 12 + 3 * 2 ^ 6 + 4) 1 [(2, 0, 0x40000000), (3, 0, 0x40400000), (4, 0, 0x3F800000)] =
      some 0x40E00000 := by decide +kernel

/-- SADDI's immediate is signed, SLIL's is not (04_integer.md, the scalar words). -/
theorem test_saddi_signed : sOf 0x3C81FFFF 1 [(1, 5)] = some 4 ∧ sOf 0x3C01FFFF 1 [] = some 0xFFFF := by decide +kernel

/-- BRA's offset counts words from the branch word itself (R85). -/
theorem test_bra_target : after 0x00400005 (fun g => (g.slice 0).pc) = some 5 := by decide +kernel

/-- EXIT ends the slice. -/
theorem test_exit : after 0x03C00000 (fun g => (g.slice 0).live) = some false := by decide +kernel

/-- TRAP 4660 leaves a record of SW_TRAP (13) at word 0 that resumes after it; the slice stops. -/
theorem test_trap : after 0x08001234 (fun g => (g.recs.map (fun r => (r.cause, r.epc, r.edetail)), (g.slice 0).stopped)) =
    some ([(13, 0, 4660)], true) := by decide +kernel

/-- MTSR DBGCTL in unprivileged code leaves a record of PRIV (5). -/
theorem test_priv : after 0x08E10011 (fun g => g.recs.map (fun r => (r.cause, r.epc))) = some [(5, 0)] := by decide +kernel

end Sys2Proof.Tests
end

section
/-! PROOFS. Loops, repeats and the age of a waiting group (O11): Advance and Jump by the cases of the loop stack, the loop
words and REP where nothing refuses them. -/

namespace Sys2Proof.ControlProofs
open Sys2Proof Sys2Proof.Machine

/-! ### The answer of a word that may issue -/

/-- A word that may issue is finished with what its meaning answers: the shape of `Does`, `Waits` and `Traps`. -/
theorem exec_of_issues {i : Instr} {s : State} {x : Cx} {body : State → Cx → Res} {r : Res} (h : Issues s x i)
    (he : exec i s = issue i s body) (hb : body s x = r) : exec i s = .next (finish x r) := by
  rw [he, issue_of i s x body h, hb]

/-! ### Advance and Jump (Table 3-2, R76, R77) -/

theorem inBody_iff (e : LoopEntry) (p : Word) : inBody e p = true ↔ e.start ≤ p ∧ p ≤ e.stop := by
  simp [inBody]

theorem Slice.advance_of_no_loop {sl : Slice} (w : Word) (h : sl.loops = []) :
    sl.advance w = { sl with pc := w + 1, loops := [] } := by
  simp [Slice.advance, h, advanceLoops]

theorem Slice.advance_of_not_end {sl : Slice} {e : LoopEntry} {es : List LoopEntry} {w : Word} (h : sl.loops = e :: es)
    (hw : e.stop ≠ w) : sl.advance w = { sl with pc := w + 1, loops := e :: es } := by
  simp [Slice.advance, h, advanceLoops, hw]

theorem Slice.advance_of_more_passes {sl : Slice} {e : LoopEntry} {es : List LoopEntry} {w : Word}
    (h : sl.loops = e :: es) (hw : e.stop = w) (hc : e.count ≠ 1) :
    sl.advance w = { sl with pc := e.start, loops := { e with count := e.count - 1 } :: es } := by
  have hc' : e.count - 1 ≠ 0 := fun h0 => hc (by bv_omega)
  simp only [Slice.advance, h, advanceLoops, if_pos hw, if_pos hc']

theorem Slice.advance_of_last_pass {sl : Slice} {e : LoopEntry} {es : List LoopEntry} {w : Word}
    (h : sl.loops = e :: es) (hw : e.stop = w) (hc : e.count = 1) :
    sl.advance w = { sl with loops := es }.advance w := by
  simp [Slice.advance, h, advanceLoops, hw, hc]

@[simp] theorem Slice.jump_pc (sl : Slice) (w t : Word) : (sl.jump w t).pc = t := by
  unfold Slice.jump
  split
  · rfl
  · split <;> rfl

theorem Slice.jump_loops_of_no_loop {sl : Slice} (w t : Word) (h : sl.loops = []) : (sl.jump w t).loops = [] := by
  simp [Slice.jump, h]

theorem Slice.jump_loops_of_outside {sl : Slice} {e : LoopEntry} {es : List LoopEntry} {w : Word} (t : Word)
    (h : sl.loops = e :: es) (hw : inBody e w = false) : (sl.jump w t).loops = e :: es := by
  simp [Slice.jump, h, hw]

theorem Slice.jump_loops_of_inside {sl : Slice} {e : LoopEntry} {es : List LoopEntry} {w : Word} (t : Word)
    (h : sl.loops = e :: es) (hw : inBody e w = true) : (sl.jump w t).loops = unwind (e :: es) t := by
  simp [Slice.jump, h, hw]

theorem unwind_of_inside {e : LoopEntry} {t : Word} (es : List LoopEntry) (h : inBody e t = true) :
    unwind (e :: es) t = e :: es := by
  simp [unwind, h]

theorem unwind_of_outside {e : LoopEntry} {t : Word} (es : List LoopEntry) (h : inBody e t = false) :
    unwind (e :: es) t = unwind es t := by
  simp [unwind, h]

/-! ### The start of a loop and of a repeat (R78, R79, R88, R90) -/

/-- No lane is named where no slice of the group has the property. -/
theorem slicesLanes_eq_zero {x : Cx} {p : Nat → Bool} (h : ∀ j ∈ grpSlices x.cur.grp, p j = false) :
    slicesLanes x p = 0 := by
  have : (grpSlices x.cur.grp).filter p = [] := List.filter_eq_nil_iff.2 fun j hj => by simp [h j hj]
  rw [slicesLanes, this]
  decide

/-- The body has a word, ends inside the code segment, and inside the body of the loop around it. -/
theorem loopBad_eq_false {limit bl : Nat} {w : Word} {sl : Slice} (hbl : bl ≠ 0) (hlim : w.toNat + bl < limit)
    (hin : ∀ e es, sl.loops = e :: es → (e.start ≤ w ∧ w ≤ e.stop) → w.toNat + bl ≤ e.stop.toNat) :
    loopBad limit w bl sl = false := by
  simp only [loopBad, Bool.or_eq_false_iff, decide_eq_false_iff_not, Nat.not_le]
  refine ⟨⟨hbl, hlim⟩, ?_⟩
  cases hl : sl.loops with
  | nil => rfl
  | cons e es =>
    by_cases hw : inBody e w = true
    · have := hin e es hl ((inBody_iff e w).1 hw)
      simpa [hw] using this
    · simp [hw]

/-- A loop that neither leaves its surroundings nor overflows a stack begins, or is passed over where its count is 0. -/
theorem loopBody_eq_ctl {n : Word} {bl : Nat} {s : State} {x : Cx}
    (hfit : ∀ j ∈ grpSlices x.cur.grp, loopBad (codeLimit (x.code s)) x.cur.pc bl (x.src.slice j) = false)
    (hroom : n ≠ 0 → ∀ j ∈ grpSlices x.cur.grp, (x.src.slice j).loops.length < 4) :
    loopBody n bl s x = .ctl (s.modSl x (fun _ sl =>
      if n = 0 then sl.advance (x.cur.pc + BitVec.ofNat 32 bl)
      else { sl with loops := { start := x.cur.pc + 1, stop := x.cur.pc + BitVec.ofNat 32 bl, count := n } :: sl.loops,
                     pc := x.cur.pc + 1 })) := by
  have hfull : slicesLanes x (fun j => decide (n ≠ 0) && decide (4 ≤ (x.src.slice j).loops.length)) = 0 :=
    slicesLanes_eq_zero fun j hj => by
      by_cases hn : n = 0
      · simp [hn]
      · simp [hroom hn j hj]
  simp only [loopBody, slicesLanes_eq_zero hfit, hfull, ne_eq, not_true_eq_false, if_false]

theorem loopBody_of_count {n : Word} {bl : Nat} {s : State} {x : Cx}
    (hfit : ∀ j ∈ grpSlices x.cur.grp, loopBad (codeLimit (x.code s)) x.cur.pc bl (x.src.slice j) = false)
    (hroom : ∀ j ∈ grpSlices x.cur.grp, (x.src.slice j).loops.length < 4) (hn : n ≠ 0) :
    loopBody n bl s x = .ctl (s.modSl x (fun _ sl =>
      { sl with loops := { start := x.cur.pc + 1, stop := x.cur.pc + BitVec.ofNat 32 bl, count := n } :: sl.loops,
                pc := x.cur.pc + 1 })) := by
  simp only [loopBody_eq_ctl hfit (fun _ => hroom), if_neg hn]

theorem loopBody_of_zero {bl : Nat} {s : State} {x : Cx}
    (hfit : ∀ j ∈ grpSlices x.cur.grp, loopBad (codeLimit (x.code s)) x.cur.pc bl (x.src.slice j) = false) :
    loopBody 0 bl s x = .ctl (s.modSl x (fun _ sl => sl.advance (x.cur.pc + BitVec.ofNat 32 bl))) := by
  simp only [loopBody_eq_ctl hfit (fun h => absurd rfl h), if_true]

/-- A repeatable word after a REP that ends no loop of its group is repeated. -/
theorem repBody_eq_ctl {s : State} {x : Cx} {tw : Word}
    (hf : fetchWord s x.core x.dom (x.code s) (x.cur.pc + 1) = .ok tw) (hc : chainBit tw.toNat = false)
    (hr : repeatable (fld tw.toNat 27 4) = true) (hb : stepsBad x.cur.word.toNat tw.toNat = false)
    (hl : ∀ j ∈ grpSlices x.cur.grp, ∀ e es, (x.src.slice j).loops = e :: es → e.stop ≠ x.cur.pc) :
    repBody s x = .ctl (startRepeat s x) := by
  have hend := slicesLanes_eq_zero (x := x) (p := fun j => match (x.src.slice j).loops with
      | e :: _ => decide (e.stop = x.cur.pc)
      | [] => false) fun j hj => by
    cases h : (x.src.slice j).loops with
    | nil => rfl
    | cons e es => simpa using hl j hj e es h
  simp only [repBody, hf, hc, hr, hb, Bool.not_true, Bool.or_self, Bool.false_eq_true, if_false]
  exact if_neg (not_not_intro hend)

/-! ### The slices of a gang (R61) -/

theorem Gang.slice_modSlices (g : Gang) (m : BitVec 8) (f : Slice → Slice) {k : Nat} (hk : k < g.slices.length) :
    (g.modSlices m f).slice k = if m.getLsbD k then f (g.slice k) else g.slice k := by
  simp [Gang.slice, Gang.modSlices, List.getD_eq_getElem?_getD, hk]

/-- AGE_BOOST raises the slices of a live group that have waited 4,096 clocks. -/
theorem exec_ageBoost_gang {s : State} {g : Gang} (hg : s.gang (s.op 0) = some g)
    (hm : BitVec.ofNat 8 (s.op 1) ∈ liveGroups g) :
    ∃ t, exec .ageBoost s = .next t ∧ t.gang (s.op 0) = some (g.modSlices (BitVec.ofNat 8 (s.op 1))
      (fun sl => if 4096 ≤ sl.age then { sl with boost := true } else sl)) := by
  refine ⟨_, rfl, ?_⟩
  rw [State.gang_modGang, if_pos rfl, hg, Option.map_some, if_pos (List.contains_iff_mem.2 hm)]

/-- Settles O11: Advance and Jump by the cases of the loop stack, then the loop words, REP and AGE_BOOST. -/
theorem loopsAndRepeats : Obligations.LoopsAndRepeats := by
  unfold Obligations.LoopsAndRepeats
  refine ⟨fun sl e es w t => ?_, fun s x d l n k => ?_, fun s x n d a b e tw h hf hc hr hb hl => ?_, fun s g hg hm => ?_⟩
  · refine ⟨fun h => ?_, fun h hw => ?_, fun h hw hc => ?_, fun h hw hc => ?_, fun _ => Slice.jump_pc sl w t,
      fun h hw => ?_, fun h hw ht => ?_, fun h hw ht => ?_⟩
    · rw [Slice.advance_of_no_loop w h]
      exact ⟨rfl, rfl, Slice.jump_pc sl w t, Slice.jump_loops_of_no_loop w t h⟩
    · rw [Slice.advance_of_not_end h hw]
      exact ⟨rfl, rfl⟩
    · rw [Slice.advance_of_more_passes h hw hc]
      exact ⟨rfl, rfl⟩
    · rw [Slice.advance_of_last_pass h hw hc]
      exact ⟨rfl, rfl⟩
    · exact Slice.jump_loops_of_outside t h (Bool.eq_false_iff.2 fun hb => hw ((inBody_iff e w).1 hb))
    · rw [Slice.jump_loops_of_inside t h ((inBody_iff e w).2 hw), unwind_of_inside es ((inBody_iff e t).2 ht)]
    · rw [Slice.jump_loops_of_inside t h ((inBody_iff e w).2 hw),
        unwind_of_outside es (Bool.eq_false_iff.2 fun hb => ht ((inBody_iff e t).1 hb))]
      rfl
  · refine ⟨fun h hfit hroom hn => ?_, fun h hfit hn => ?_, fun h hfit hroom hn => ?_, fun h hfit hn => ?_⟩ <;>
      obtain ⟨hbl, hlim, hin⟩ := hfit
    · exact exec_of_issues (body := fun st x => loopBody (x.s d) l st x) h rfl
        (loopBody_of_count (fun j hj => loopBad_eq_false hbl hlim (hin j hj)) hroom hn)
    · refine exec_of_issues (body := fun st x => loopBody (x.s d) l st x) h rfl
        (Eq.trans ?_ (loopBody_of_zero fun j hj => loopBad_eq_false hbl hlim (hin j hj)))
      rw [hn]
    · have hn' : BitVec.ofNat 32 n.val ≠ 0 := fun h0 => hn (by bv_omega)
      exact exec_of_issues h rfl (loopBody_of_count (fun j hj => loopBad_eq_false hbl hlim (hin j hj)) hroom hn')
    · refine exec_of_issues h rfl (Eq.trans ?_ (loopBody_of_zero fun j hj => loopBad_eq_false hbl hlim (hin j hj)))
      rw [hn]; rfl
  · exact exec_of_issues h rfl (repBody_eq_ctl hf hc hr hb hl)
  · obtain ⟨t, ht, hg'⟩ := exec_ageBoost_gang hg hm
    refine ⟨t, _, ht, hg', fun k hk => ?_⟩
    rw [Gang.slice_modSlices _ _ _ hk]
    cases (BitVec.ofNat 8 (s.op 1)).getLsbD k with
    | false => simp
    | true => by_cases ha : 4096 ≤ (g.slice k).age <;> simp [ha]

end Sys2Proof.ControlProofs
end

section
/-! PROOFS. The task words (O42): what completion, the sluices and the end of a crew leave alone, then the words. -/

namespace Sys2Proof.ControlProofs
open Sys2Proof Sys2Proof.Machine

/-! ### What the completion of a word leaves alone -/

/-- What a part of the state is after the completion, where the part does not depend on the control state. -/
theorem finish_keeps {β : Type} (k : State → β) (hk : ∀ s gk, k (s.still gk) = k s) (x : Cx) (r : Res) :
    k (finish x r) = k r.state := by
  rw [← hk _ x.cur.gang, finish_still, hk]

@[simp] theorem finish_mem (x : Cx) (r : Res) : (finish x r).mem = r.state.mem := finish_keeps State.mem (fun _ _ => rfl) x r

@[simp] theorem finish_sched (x : Cx) (r : Res) : (finish x r).sched = r.state.sched :=
  finish_keeps State.sched (fun _ _ => rfl) x r

@[simp] theorem finish_crew (x : Cx) (r : Res) (c : Nat) : (finish x r).crew c = r.state.crew c :=
  finish_keeps (fun s => s.crew c) (fun _ _ => rfl) x r

/-- Every gang keeps all but its control state. -/
theorem finish_gang (x : Cx) (r : Res) (k : Nat) :
    ((finish x r).gang k).map Gang.still = (r.state.gang k).map Gang.still := by
  have h : ((finish x r).still x.cur.gang).gang k = (r.state.still x.cur.gang).gang k := by rw [finish_still]
  rw [State.gang_still, State.gang_still] at h
  by_cases hk : k = x.cur.gang
  · rwa [if_pos hk, if_pos hk] at h
  · rw [if_neg hk, if_neg hk] at h
    rw [h]

theorem Gang.slice_still (g : Gang) (j : Nat) : g.still.slice j = (g.slice j).still := by
  simp only [Gang.slice, Gang.still, List.getD_eq_getElem?_getD, List.getElem?_map]
  cases g.slices[j]? <;> rfl

/-- Gangs that differ in control state only have the same live slices. -/
theorem Gang.live_of_still {g g' : Gang} (h : g.still = g'.still) (j : Nat) : (g.slice j).live = (g'.slice j).live := by
  have := congrArg (fun v : Gang => (v.slice j).live) h
  rwa [Gang.slice_still, Gang.slice_still] at this

/-- The completion of a word ends no slice and revives none. -/
theorem finish_gang_of_gang {x : Cx} {r : Res} {k : Nat} {g : Gang} (hg : r.state.gang k = some g) :
    ∃ g', (finish x r).gang k = some g' ∧ ∀ j, (g'.slice j).live = (g.slice j).live := by
  have h := finish_gang x r k
  rw [hg, Option.map_some, Option.map_eq_some_iff] at h
  obtain ⟨g', hg', hs⟩ := h
  exact ⟨g', hg', Gang.live_of_still hs⟩

theorem gang_of_finish_gang {x : Cx} {r : Res} {k : Nat} {g : Gang} (hg : (finish x r).gang k = some g) :
    ∃ g', r.state.gang k = some g' ∧ g'.crew = g.crew ∧ ∀ j, (g'.slice j).live = (g.slice j).live := by
  have h := finish_gang x r k
  rw [hg, Option.map_some, eq_comm, Option.map_eq_some_iff] at h
  obtain ⟨g', hg', hs⟩ := h
  have hc := congrArg Gang.crew hs
  exact ⟨g', hg', hc, Gang.live_of_still hs⟩

/-- The crew of the issuing context, and the core that it is on. -/
theorem cx_crew {s : State} {x : Cx} (h : s.cx = some x) :
    s.crew x.crewNo = some x.crew ∧ x.crew.core? = some x.core := by
  unfold State.cx at h
  split at h
  · cases h
  · split at h
    · cases h
    · split at h
      · cases h
      · split at h
        · cases h
        · cases h; exact ⟨‹_›, ‹_›⟩

/-! ### The sluices leave the running work alone (R313, R320, R321) -/

@[simp] theorem putOvf_work (s : State) (dom ix : Nat) (ws : List Word) : (putOvf s dom ix ws).work = s.work := by
  unfold putOvf
  split
  · rfl
  · exact foldl_keeps _ State.work (fun _ _ => State.putWord_work ..) _ _

@[simp] theorem dropKey_work (s : State) (k : Nat) : (s.dropKey k).work = s.work := by
  unfold State.dropKey
  split
  · exact putOvf_work ..
  · rfl

@[simp] theorem putKey_work (s : State) (k : Nat) (v : SlKey) : (s.putKey k v).work = s.work := by
  have h (b : Bool) : (if b then s.dropKey k else s).work = s.work := by
    cases b
    · rfl
    · exact dropKey_work s k
  unfold State.putKey
  dsimp only
  split
  · exact (putOvf_work ..).trans (h _)
  · exact h _

@[simp] theorem failWaiters_work (s : State) (k : Nat) (c : Cause) : (failWaiters s k c).work = s.work := rfl

@[simp] theorem retireKey_work (s : State) (k : Nat) : (retireKey s k).work = s.work := dropKey_work s k

@[simp] theorem passMarks_work (n : Nat) (s : State) (k : Nat) : (passMarks n s k).work = s.work := by
  induction n generalizing s with
  | zero => rfl
  | succ n ih =>
    unfold passMarks
    dsimp only
    split
    · rfl
    · split
      · rfl
      · exact (ih _).trans (putKey_work ..)

@[simp] theorem settleKey_work (s : State) (k : Nat) : (settleKey s k).work = s.work := by
  unfold settleKey
  dsimp only
  split
  · exact (retireKey_work ..).trans (passMarks_work ..)
  · exact passMarks_work ..

@[simp] theorem releaseLanes_work (s : State) (k n : Nat) : (releaseLanes s k n).work = s.work := by
  unfold releaseLanes
  dsimp only
  split
  · rfl
  · split
    · exact putKey_work ..
    · exact (settleKey_work ..).trans (putKey_work ..)

theorem ensureKey_work {s t : State} {k : Nat} (h : ensureKey s k = some t) : t.work = s.work := by
  unfold ensureKey at h
  dsimp only at h
  split at h
  · cases h; rfl
  · split at h
    · cases h; exact putKey_work ..
    · split at h
      · cases h; exact (putKey_work ..).trans (putKey_work ..)
      · split at h
        · cases h; exact putKey_work ..
        · cases h

@[simp] theorem breakKey_work (s : State) (k : Nat) : (breakKey s k).work = s.work := by
  unfold breakKey
  split
  · rfl
  · rename_i t ht
    exact ((failWaiters_work ..).trans (putKey_work ..)).trans (ensureKey_work ht)

@[simp] theorem killHolder_work (s : State) (k n : Nat) : (killHolder s k n).work = s.work := by
  unfold killHolder
  dsimp only
  split
  · rfl
  · split
    · rfl
    · split
      · exact releaseLanes_work ..
      · exact breakKey_work ..

@[simp] theorem killWaiter_work (s : State) (r : SlReq) : (killWaiter s r).work = s.work := by
  unfold killWaiter
  dsimp only
  split
  · rfl
  · split
    · exact settleKey_work ..
    · exact breakKey_work ..

/-- The holds of a list of levels killed. -/
theorem killHolds_work (s : State) (dom k : Nat) (hs : List Hold) :
    (hs.foldl (fun s h => (h.counts k).foldl (fun s p => killHolder s (slNum dom 0 p.1) p.2) s) s).work = s.work :=
  foldl_keeps _ State.work (fun _ _ => foldl_keeps _ State.work (fun _ _ => killHolder_work ..) _ _) _ _

/-- A killed slice changes no crew. -/
@[simp] theorem killSlice_crews (s : State) (dom gk k : Nat) : (killSlice s dom gk k).work.crews = s.work.crews := by
  unfold killSlice
  split
  · rfl
  · rename_i g _
    have h := congrArg Work.crews (killHolds_work s dom k (g.slice k).hold)
    exact h

/-- A killed slice leaves every gang where it is. -/
theorem killSlice_gang_isSome (s : State) (dom gk k j : Nat) :
    ((killSlice s dom gk k).gang j).isSome = (s.gang j).isSome := by
  unfold killSlice
  split
  · rfl
  · rename_i g _
    have h := congrArg (fun w : Work => smFind w.gangs j) (killHolds_work s dom k (g.slice k).hold)
    dsimp only
    rw [State.gang_modGang]
    split
    · rw [Option.isSome_map]; exact congrArg Option.isSome h
    · exact congrArg Option.isSome h

@[simp] theorem killGangSl_crews (s : State) (dom gk : Nat) : (killGangSl s dom gk).work.crews = s.work.crews := by
  have h : ((List.range 8).foldl (fun s k => killSlice s dom gk k) s).work.crews = s.work.crews :=
    foldl_keeps _ (fun s => s.work.crews) (fun s k => killSlice_crews s dom gk k) _ _
  unfold killGangSl
  generalize (List.range 8).foldl (fun s k => killSlice s dom gk k) s = t at h ⊢
  refine (foldl_keeps killWaiter (fun s => s.work.crews)
    (fun s r => congrArg Work.crews (killWaiter_work s r)) _ _).trans ?_
  refine (foldl_keeps (fun s (r : SlReq) => killHolder s r.num r.n) (fun s => s.work.crews)
    (fun s r => congrArg Work.crews (killHolder_work s r.num r.n)) _ _).trans ?_
  exact h

/-! ### The end of slices and of a crew (R94, R374, R389) -/

/-- The entry read after every entry is changed in its place. -/
theorem smFind_map_of_keys {α : Type} (m : List (Nat × α)) {f : Nat × α → Nat × α} (hf : ∀ p, (f p).1 = p.1)
    (k : Nat) : smFind (m.map f) k = (smFind m k).map (fun v => (f (k, v)).2) := by
  induction m with
  | nil => rfl
  | cons p m ih =>
    obtain ⟨j, v⟩ := p
    by_cases hj : j = k
    · subst hj
      simp [smFind, hf]
    · simp [smFind, hf, hj, ih]

@[simp] theorem dropRays_work (s : State) (gk : Nat) : (dropRays s gk).work = s.work := by
  unfold dropRays
  split <;> rfl

/-- A gang's crew and its slices, which the end of a crew leaves as they are: it changes reach segments only (R199). -/
def Gang.crewSlices (g : Gang) : Nat × List Slice := (g.crew, g.slices)

theorem clearMember_gang (s : State) (c : Nat) (w : Crew) (k : Nat) :
    ((clearMember s c w).gang k).map Gang.crewSlices = (s.gang k).map Gang.crewSlices := by
  unfold State.gang clearMember
  dsimp only
  rw [smFind_map_of_keys, Option.map_map]
  · congr 1
    funext g
    dsimp only [Function.comp]
    split
    · rfl
    · split <;> rfl
  · intro p
    split
    · rfl
    · split <;> rfl

theorem endPlace_gang (s : State) (c k : Nat) :
    ((endPlace s c).gang k).map Gang.crewSlices = (s.gang k).map Gang.crewSlices := by
  unfold endPlace
  split
  · rfl
  · exact clearMember_gang ..

theorem endPlace_gang_of_gang {s : State} {k : Nat} {g : Gang} (c : Nat) (hg : s.gang k = some g) :
    ∃ g', (endPlace s c).gang k = some g' ∧ g'.slices = g.slices := by
  have h := endPlace_gang s c k
  rw [hg, Option.map_some, Option.map_eq_some_iff] at h
  obtain ⟨g', hg', hs⟩ := h
  exact ⟨g', hg', (Prod.mk.inj hs).2⟩

theorem gang_of_endPlace_gang {s : State} {c k : Nat} {g : Gang} (hg : (endPlace s c).gang k = some g) :
    ∃ g', s.gang k = some g' ∧ g'.crew = g.crew ∧ g'.slices = g.slices := by
  have h := endPlace_gang s c k
  rw [hg, Option.map_some, eq_comm, Option.map_eq_some_iff] at h
  obtain ⟨g', hg', hs⟩ := h
  exact ⟨g', hg', Prod.mk.inj hs⟩

theorem endPlace_crew {s : State} {c : Nat} {w : Crew} (h : s.crew c = some w) :
    (endPlace s c).crew c = some { w with place := .ended w.core?, leaving := none } := by
  have hm : (s.modCrew c (fun w => { w with place := .ended w.core?, leaving := none })).crew c =
      some { w with place := .ended w.core?, leaving := none } := by
    rw [State.crew_modCrew, if_pos rfl, h, Option.map_some]
  unfold endPlace
  rw [h]
  exact hm

theorem State.gang_modSl (s : State) (x : Cx) (f : Nat → Slice → Slice) (k : Nat) :
    (s.modSl x f).gang k = if k = x.cur.gang then (s.gang k).map (fun g =>
      { g with slices := g.slices.zipIdx.map (fun p => if x.cur.grp.getLsbD p.2 then f p.2 p.1 else p.1) })
    else s.gang k := State.gang_modGang ..

theorem mem_grpSlices {m : BitVec 8} {j : Nat} (h : j ∈ grpSlices m) : m.getLsbD j = true := by
  unfold grpSlices at h
  exact (List.mem_filter.1 h).2

/-- Where every slice of the list is dead, so is every slice of the gang, those that it does not have among them. -/
theorem Gang.live_of_dead {g : Gang} {j : Nat} (h : ∀ sl, g.slices[j]? = some sl → sl.live = false) :
    (g.slice j).live = false := by
  rw [Gang.slice, List.getD_eq_getElem?_getD]
  cases hj : g.slices[j]? with
  | none => rfl
  | some sl => exact h sl hj

theorem modSl_dead_gang {s : State} {x : Cx} {g : Gang} (f : Slice → Slice) (hg : s.gang x.cur.gang = some g) :
    ∃ g', (s.modSl x (fun k sl => if x.cur.grp.getLsbD k then sl.dead else f sl)).gang x.cur.gang = some g' ∧
      ∀ j ∈ grpSlices x.cur.grp, (g'.slice j).live = false := by
  rw [State.gang_modSl, if_pos rfl, hg, Option.map_some]
  refine ⟨_, rfl, fun j hj => Gang.live_of_dead fun sl hsl => ?_⟩
  simp only [List.getElem?_map, Option.map_eq_some_iff, List.getElem?_zipIdx] at hsl
  obtain ⟨-, ⟨a, -, rfl⟩, rfl⟩ := hsl
  simp [mem_grpSlices hj, Slice.dead]

theorem killSlices_gang {s : State} {dom gk : Nat} {g : Gang} (l : List Nat) (hg : s.gang gk = some g) :
    ∃ g', (l.foldl (fun s k => killSlice s dom gk k) s).gang gk = some g' := by
  rw [← Option.isSome_iff_exists]
  refine (foldl_keeps _ (fun s => (s.gang gk).isSome) (fun s k => killSlice_gang_isSome s dom gk k gk) l s).trans ?_
  rw [hg, Option.isSome_some]

/-- The slices of the group are dead once the group has ended. -/
theorem exitGroup_gang {s : State} {x : Cx} {g : Gang} (hg : s.gang x.cur.gang = some g) :
    ∃ g', (exitGroup s x).gang x.cur.gang = some g' ∧ ∀ j ∈ grpSlices x.cur.grp, (g'.slice j).live = false := by
  obtain ⟨g₁, hg₁⟩ := killSlices_gang (dom := x.dom) (grpSlices x.cur.grp) hg
  obtain ⟨g₂, hg₂, hdead⟩ := modSl_dead_gang (fun sl => { sl with grp := x.cur.grp &&& ~~~x.cur.grp }) hg₁
  unfold exitGroup exitSlices
  dsimp only
  generalize State.modSl _ x _ = t at hg₂ ⊢
  have hrays : (dropRays t x.cur.gang).gang x.cur.gang = some g₂ := by rw [State.gang, dropRays_work]; exact hg₂
  split
  · obtain ⟨g', hg', hs⟩ := endPlace_gang_of_gang x.crewNo hrays
    refine ⟨g', hg', fun j hj => ?_⟩
    rw [← hdead j hj, Gang.slice, hs, Gang.slice]
  · exact ⟨g₂, hrays, hdead⟩

theorem dropRaysOf_work (s : State) (l : List (Nat × Gang)) : (l.foldl (fun s p => dropRays s p.1) s).work = s.work :=
  foldl_keeps _ State.work (fun _ _ => dropRays_work ..) _ _

theorem killGangs_crews (s : State) (dom : Nat) (l : List (Nat × Gang)) :
    (l.foldl (fun s p => killGangSl s dom p.1) s).work.crews = s.work.crews :=
  foldl_keeps _ (fun s => s.work.crews) (fun s (p : Nat × Gang) => killGangSl_crews s dom p.1) _ _

/-- Before the crew itself ends, every slice of its gangs is dead (R389). -/
theorem endCrew_eq_endPlace {s : State} {c : Nat} {w : Crew} (h : s.crew c = some w) :
    ∃ t, endCrew s c = endPlace t c ∧ t.crew c = some w ∧
      ∀ k g, t.gang k = some g → g.crew = c → ∀ j, (g.slice j).live = false := by
  have hk := killGangs_crews s w.dom (s.gangsOf c)
  unfold endCrew
  rw [h]
  dsimp only
  generalize (s.gangsOf c).foldl (fun s p => killGangSl s w.dom p.1) s = u at hk ⊢
  refine ⟨_, rfl, ?_, fun k g hg hc j => ?_⟩
  · rw [State.crew, dropRaysOf_work]
    exact (congrArg (fun l => smFind l c) hk).trans h
  · rw [State.gang, dropRaysOf_work] at hg
    change smFind (u.work.gangs.map _) k = some g at hg
    rw [smFind_map_of_keys, Option.map_eq_some_iff] at hg
    · obtain ⟨v, -, rfl⟩ := hg
      by_cases hv : v.crew = c
      · refine Gang.live_of_dead fun sl hsl => ?_
        simp only [if_pos hv, List.getElem?_map, Option.map_eq_some_iff] at hsl
        obtain ⟨sl', -, rfl⟩ := hsl
        rfl
      · simp only [if_neg hv] at hc
        exact absurd hc hv
    · intro p
      split <;> rfl

theorem endCrew_crew {s : State} {c : Nat} {w : Crew} (h : s.crew c = some w) :
    (endCrew s c).crew c = some { w with place := .ended w.core?, leaving := none } := by
  obtain ⟨t, ht, hw, -⟩ := endCrew_eq_endPlace h
  rw [ht, endPlace_crew hw]

theorem endCrew_gang {s : State} {c k : Nat} {g : Gang} {w : Crew} (h : s.crew c = some w)
    (hg : (endCrew s c).gang k = some g) (hc : g.crew = c) (j : Nat) : (g.slice j).live = false := by
  obtain ⟨t, ht, -, hdead⟩ := endCrew_eq_endPlace h
  rw [ht] at hg
  obtain ⟨g', hg', hc', hs⟩ := gang_of_endPlace_gang hg
  rw [← hdead k g' hg' (hc'.trans hc) j, Gang.slice, Gang.slice, hs]

/-! ### The task words (R94, R383 to R389) -/

theorem fld_zero_six (n : Nat) : fld n 0 6 = n % 64 := by
  simp [fld]

theorem fillTlb_offPath (s : State) (core dom va : Nat) : (fillTlb s core dom va).offPath = s.offPath := by
  unfold fillTlb
  split
  · rfl
  · split <;> rfl

@[simp] theorem fillTlb_mem (s : State) (core dom va : Nat) : (fillTlb s core dom va).mem = s.mem :=
  State.mem_of_offPath (fillTlb_offPath s core dom va)

@[simp] theorem fillTlb_sched (s : State) (core dom va : Nat) : (fillTlb s core dom va).sched = s.sched := by
  have h := congrArg State.sched (fillTlb_offPath s core dom va)
  exact h

theorem afterRelease_of_ok {s : State} {x : Cx} {wide : Bool} (body : Res)
    (h : release s x.cur.gang x.core x.dom x.cur.grp wide = .ok) : afterRelease s x wide body = body := by
  simp only [afterRelease, h, ite_self]

theorem tkFirst_of_none {s : State} {x : Cx} (body : Res) (h : x.gang.tkerr = none) : tkFirst s x body = body := by
  simp only [tkFirst, h]

theorem tkFirst_of_some {s : State} {x : Cx} {e : AErr} (body : Res) (h : x.gang.tkerr = some e) :
    tkFirst s x body = .trap (s.modGang x.cur.gang (fun g => { g with tkerr := none }))
      { cause := e.cause, lanes := x.all, addr := e.addr, detail := e.info, kind := .async } := by
  simp only [tkFirst, h]

theorem bkFirst_of_none {s : State} {x : Cx} (body : Res) (h : (s.ceng x.crewNo).bkt.err = none) :
    bkFirst s x body = body := by
  simp only [bkFirst, h]

theorem lateFirst_of_none {s : State} {x : Cx} (body : Res) (h : lateOf s x.cur.gang x.cur.grp = none) :
    lateFirst s x body = body := by
  simp only [lateFirst, h]

/-- Where nothing is pending and nothing outstanding, EXIT ends its slices. -/
theorem exitBody_of_quiet {s : State} {x : Cx} (ho : noOuts x.gang x.cur.grp = true)
    (hl : lateOf s x.cur.gang x.cur.grp = none) (hm : x.gang.mxerr = none) (ht : x.gang.tkerr = none)
    (hb : (s.ceng x.crewNo).bkt.err = none) : exitBody s x = .ctl (exitGroup s x) := by
  simp only [exitBody, ho, lateFirst_of_none _ hl, bkFirst_of_none _ hb, hm, ht, Option.isSome_none, Bool.and_false,
    Bool.not_true, Bool.false_eq_true, if_false, ite_self]

theorem exitBody_of_none_quiet {s : State} {x : Cx} (ho : noOuts x.gang x.cur.grp = false) (hq : quietSlices x = 0) :
    exitBody s x = .block s := by
  simp only [exitBody, ho, hq, Bool.not_false, if_true]

theorem exitBody_of_some_quiet {s : State} {x : Cx} (ho : noOuts x.gang x.cur.grp = false) (hq : quietSlices x ≠ 0)
    (hl : lateOf s x.cur.gang x.cur.grp = none) :
    exitBody s x = .ctl (exitSlices (blockGroup s x) x (quietSlices x)) := by
  simp only [exitBody, ho, hq, lateFirst_of_none _ hl, Bool.not_false, if_true, if_false]

/-- The successor object's home step: it counts down, and where it was at 1 the spawn follows. -/
theorem tsuccHome_of_ok {s t : State} {x : Cx} {a pa n : Nat} {qs : Word} {ra : DWord}
    (hr : engineReady s s.work.next x.cur.gang x.core (lineOf pa) = true)
    (hs : succStep (enginePush s x.core (lineOf pa)) x.core pa = .ok (n, qs, ra, t)) :
    tsuccHome s x a pa = if n = 1 then succSpawn t x (qs.toNat % 64) ra else .done t := by
  simp only [tsuccHome, hr, hs, fld_zero_six, Bool.not_true, Bool.false_eq_true, if_false]

theorem succSpawn_of_ok {s t : State} {x : Cx} {q pa : Nat} {va : DWord} (ha : va.toNat % 64 = 0)
    (hc : checkAddr s x 0 0 va 64 .read 1 = .ok pa) (hq : (s.queue x.dom q).enabled = true)
    (hp : succPlace (enginePush s x.core (lineOf pa)) x.dom q pa ((segOf s x.dom x.hnd x.src.r 0).base + va)
      (coreDie x.core) = .ok t) : succSpawn s x q va = .done t := by
  simp only [succSpawn, ha, hc, hq, hp, ne_eq, not_true_eq_false, Bool.not_true, Bool.false_eq_true, if_false]

/-- TSUCC up to its home step: nothing pending, its object checked, its release performed. -/
theorem exec_tsucc {s : State} {x : Cx} {c : Bool} {a : Fin 64} {pa : Nat} {r : Res} (h : Issues s x (.tsucc c a))
    (hk : x.gang.tkerr = none) (ha : (x.s2 a).toNat % 32 = 0) (hc : checkAddr s x 0 0 (x.s2 a) 32 .atomic 1 = .ok pa)
    (hr : release (fillTlb s x.core x.dom ((segOf s x.dom x.hnd x.src.r 0).base + x.s2 a).toNat) x.cur.gang x.core x.dom
      x.cur.grp true = .ok)
    (hb : tsuccHome (fillTlb s x.core x.dom ((segOf s x.dom x.hnd x.src.r 0).base + x.s2 a).toNat) x a pa = r) :
    exec (.tsucc c a) s = .next (finish x r) := by
  refine exec_of_issues h (by rfl) ?_
  simp only [tkFirst_of_none _ hk, ha, hc, afterRelease_of_ok _ hr, hb, ne_eq, not_true_eq_false, if_false]

/-- TSPAWN's fork: the thread that it leaves behind. -/
theorem exec_tspawn {s : State} {x : Cx} {c : Bool} {a b : Fin 64} {pa : Nat} (h : Issues s x (.tspawn c a b))
    (hk : x.gang.tkerr = none) (ha : (x.s2 a).toNat % 64 = 0) (hc : checkAddr s x 0 0 (x.s2 a) 64 .read 1 = .ok pa)
    (hq : (s.queue x.dom ((x.s b).toNat % 64)).enabled = true) :
    let va := (segOf s x.dom x.hnd x.src.r 0).base + x.s2 a
    let u := fillTlb s x.core x.dom va.toNat
    exec (.tspawn c a b) s = .next (finish x (.done
      { u with work.next := u.work.next + 1,
               sched.spawns := u.sched.spawns ++
                 [{ num := u.work.next, gang := x.cur.gang, dom := x.dom, que := (x.s b).toNat % 64, addr := pa, va := va,
                    core := x.core }] })) := by
  refine exec_of_issues h (by rfl) ?_
  simp only [tkFirst_of_none _ hk, ha, hc, fld_zero_six, hq, ne_eq, not_true_eq_false, Bool.not_true, Bool.false_eq_true,
    if_false]

/-- Settles O42: each word's answer is its meaning's, and what stands beside the control state outlives the completion. -/
theorem taskWords : Obligations.TaskWords := by
  unfold Obligations.TaskWords
  intro s x c a b
  refine ⟨fun pa h hk ha hc hq => ?_, fun pa h hk ha hc hq => ?_, fun pa n qs ra t h hk ha hc hr he hs =>
    ⟨fun hn => ?_, fun ra' t' hn hra hc' hq hp => ?_⟩, fun i hi e h hk => ?_, fun h hk ha => ?_, fun h hk ha => ?_,
    fun h ho hl hm ht hb => ?_, fun h ho => ⟨fun hq => ?_, fun hq hl => ?_⟩, fun h ho hl ht hb => ?_⟩
  · refine ⟨_, exec_tspawn h hk ha hc hq, ?_, ?_⟩
    · rw [finish_mem]
      exact fillTlb_mem ..
    · have hf := fillTlb_sched s x.core x.dom ((segOf s x.dom x.hnd x.src.r 0).base + x.s2 a).toNat
      exact ⟨_, (congrArg Sched.spawns (finish_sched x _)).trans (congrArg (fun q : Sched => q.spawns ++ [_]) hf),
        rfl, rfl, rfl, rfl, rfl, rfl, rfl, rfl⟩
  · refine exec_of_issues h (by rfl) ?_
    simp only [tkFirst_of_none _ hk, ha, hc, fld_zero_six, hq, ne_eq, not_true_eq_false, Bool.not_false, if_true, if_false]
    rfl
  · exact exec_tsucc h hk ha hc hr ((tsuccHome_of_ok he hs).trans (if_neg hn))
  · exact exec_tsucc h hk ha hc hr ((tsuccHome_of_ok he hs).trans ((if_pos hn).trans (succSpawn_of_ok hra hc' hq hp)))
  · rcases hi with rfl | rfl <;> refine exec_of_issues h (by rfl) ?_ <;> exact tkFirst_of_some _ hk
  · refine exec_of_issues h (by rfl) ?_
    exact (tkFirst_of_none _ hk).trans (if_pos ha)
  · refine exec_of_issues h (by rfl) ?_
    exact (tkFirst_of_none _ hk).trans (if_pos ha)
  · have hx := exec_of_issues h rfl (exitBody_of_quiet ho hl hm ht hb)
    obtain ⟨g, hg, hdead⟩ := exitGroup_gang (cx_gang s x h.ctx)
    obtain ⟨g', hg', hlive⟩ := finish_gang_of_gang (x := x) (r := .ctl (exitGroup s x)) hg
    exact ⟨hx, _, g', hx, hg', fun j hj => (hlive j).trans (hdead j hj)⟩
  · exact exec_of_issues h rfl (exitBody_of_none_quiet ho hq)
  · exact exec_of_issues h rfl (exitBody_of_some_quiet ho hq hl)
  · obtain ⟨hcrew, hcore⟩ := cx_crew h.ctx
    have hx : exec .tdone s = .next (finish x (.ctl (endCrew s x.crewNo))) := by
      refine exec_of_issues h (by rfl) ?_
      simp only [ho, lateFirst_of_none _ hl, tkFirst_of_none _ ht, bkFirst_of_none _ hb, Bool.not_true, Bool.false_eq_true,
        if_false]
    refine ⟨_, _, hx, (finish_crew ..).trans (endCrew_crew hcrew), congrArg Place.ended hcore, fun k g hg hc j => ?_⟩
    obtain ⟨g', hg', hc', hlive⟩ := gang_of_finish_gang hg
    rw [← hlive j]
    exact endCrew_gang hcrew hg' (hc'.trans hc) j

end Sys2Proof.ControlProofs
end

section
/-! PROOFS. What the lane functions of chapter 4 compute, in exact arithmetic and bit by bit: the facts that the result
statements of the integer words turn on (O1 to O5). -/

namespace Sys2Proof.IntegerProofs
open Sys2Proof Sys2Proof.Machine

/-! ### Sums and products (R109) -/

theorem ofInt_toInt_add (a b : Word) : BitVec.ofInt 32 (a.toInt + b.toInt) = a + b := by
  rw [BitVec.ofInt_add, BitVec.ofInt_toInt, BitVec.ofInt_toInt]

theorem ofInt_toInt_sub (a b : Word) : BitVec.ofInt 32 (a.toInt - b.toInt) = a - b := by
  rw [Int.sub_eq_add_neg, BitVec.ofInt_add, BitVec.ofInt_neg, BitVec.ofInt_toInt, BitVec.ofInt_toInt,
    BitVec.sub_eq_add_neg]

theorem ofInt_toInt_mul (a b : Word) : BitVec.ofInt 32 (a.toInt * b.toInt) = a * b := by
  rw [BitVec.ofInt_mul, BitVec.ofInt_toInt, BitVec.ofInt_toInt]

theorem ofInt_toInt_mul_add (a b d : Word) : BitVec.ofInt 32 (a.toInt * b.toInt + d.toInt) = a * b + d := by
  rw [BitVec.ofInt_add, ofInt_toInt_mul, BitVec.ofInt_toInt]

/-- Bits 63:32 of a 64-bit word are its value over 2^32, cut to a word. -/
theorem extractLsb'_high_ofInt (z : Int) :
    (BitVec.ofInt 64 z).extractLsb' 32 32 = BitVec.ofInt 32 (z / 2 ^ 32) := by
  apply BitVec.eq_of_toNat_eq
  simp only [BitVec.extractLsb'_toNat, BitVec.toNat_ofInt, Nat.shiftRight_eq_div_pow]
  omega

theorem extractLsb'_high_ofNat (n : Nat) :
    (BitVec.ofNat 64 n).extractLsb' 32 32 = BitVec.ofNat 32 (n / 2 ^ 32) := by
  apply BitVec.eq_of_toNat_eq
  simp only [BitVec.extractLsb'_toNat, BitVec.toNat_ofNat, Nat.shiftRight_eq_div_pow]
  omega

theorem mulhI_eq (a b : Word) : mulhI a b = BitVec.ofInt 32 (a.toInt * b.toInt / 2 ^ 32) := by
  rw [mulhI, BitVec.signExtend, BitVec.signExtend, ← BitVec.ofInt_mul, extractLsb'_high_ofInt]

theorem mulhN_eq (a b : Word) : mulhN a b = BitVec.ofNat 32 (a.toNat * b.toNat / 2 ^ 32) := by
  have h : a.zeroExtend 64 * b.zeroExtend 64 = BitVec.ofNat 64 (a.toNat * b.toNat) := by
    rw [BitVec.ofNat_mul, BitVec.ofNat_toNat, BitVec.ofNat_toNat]
  rw [mulhN, h, extractLsb'_high_ofNat]

/-! ### Relations, minimum, maximum, absolute value (R110, R117, R124) -/

theorem relEq_eq (a b : Word) : relEq a b = decide (a.toNat = b.toNat) := by
  simp only [relEq, BitVec.toNat_inj]

theorem relNe_eq (a b : Word) : relNe a b = decide (a.toNat ≠ b.toNat) := by
  simp only [relNe, ne_eq, BitVec.toNat_inj]

theorem relEq_eq_toInt (a b : Word) : relEq a b = decide (a.toInt = b.toInt) := by
  simp only [relEq, BitVec.toInt_inj]

theorem relLtI_eq (a b : Word) : relLtI a b = decide (a.toInt < b.toInt) := BitVec.slt_eq_decide

theorem relLtN_eq (a b : Word) : relLtN a b = decide (a.toNat < b.toNat) := BitVec.ult_eq_decide

theorem relLeI_eq (a b : Word) : relLeI a b = decide (a.toInt ≤ b.toInt) := by
  simp only [relLeI, BitVec.slt_eq_decide, ← decide_not, Int.not_lt]

theorem relLeN_eq (a b : Word) : relLeN a b = decide (a.toNat ≤ b.toNat) := by
  simp only [relLeN, BitVec.ult_eq_decide, ← decide_not, Nat.not_lt]

theorem minBy_relLtI (a b : Word) : minBy relLtI a b = BitVec.ofInt 32 (min a.toInt b.toInt) := by
  rw [minBy, relLtI_eq, min_def]
  by_cases h : a.toInt ≤ b.toInt
  · simp [h, Int.not_lt.2 h]
  · simp [h, Int.not_le.1 h]

theorem maxBy_relLtI (a b : Word) : maxBy relLtI a b = BitVec.ofInt 32 (max a.toInt b.toInt) := by
  rw [maxBy, relLtI_eq, max_def_lt]
  by_cases h : a.toInt < b.toInt <;> simp [h]

theorem minBy_relLtN (a b : Word) : minBy relLtN a b = BitVec.ofNat 32 (min a.toNat b.toNat) := by
  rw [minBy, relLtN_eq, min_def]
  by_cases h : a.toNat ≤ b.toNat
  · simp [h, Nat.not_lt.2 h]
  · simp [h, Nat.not_le.1 h]

theorem maxBy_relLtN (a b : Word) : maxBy relLtN a b = BitVec.ofNat 32 (max a.toNat b.toNat) := by
  rw [maxBy, relLtN_eq, max_def_lt]
  by_cases h : a.toNat < b.toNat <;> simp [h]

theorem iabsW_eq (a : Word) : iabsW a = BitVec.ofNat 32 a.toInt.natAbs := by
  have hs : a.getLsbD 31 = decide (a.toInt < 0) := by
    rw [← BitVec.msb_eq_toInt, BitVec.msb_eq_getLsbD_last]
  rw [iabsW, hs]
  by_cases h : a.toInt < 0
  · have hn : ((a.toInt.natAbs : Nat) : Int) = -a.toInt := by omega
    rw [decide_eq_true h, if_pos rfl, ← BitVec.ofInt_natCast, hn, BitVec.ofInt_neg, BitVec.ofInt_toInt]
    exact BitVec.zero_sub a
  · have hn : ((a.toInt.natAbs : Nat) : Int) = a.toInt := by omega
    rw [decide_eq_false h, if_neg Bool.false_ne_true, ← BitVec.ofInt_natCast, hn, BitVec.ofInt_toInt]

/-! ### Shifts and funnel shifts (R112, R113) -/

theorem shiftLeft_eq_ofNat (a : Word) (n : Nat) : a <<< n = BitVec.ofNat 32 (a.toNat * 2 ^ n) :=
  BitVec.eq_of_toNat_eq (by rw [BitVec.toNat_shiftLeft, Nat.shiftLeft_eq, BitVec.toNat_ofNat])

theorem ushiftRight_eq_ofNat (a : Word) (n : Nat) : a >>> n = BitVec.ofNat 32 (a.toNat / 2 ^ n) := by
  rw [← Nat.shiftRight_eq_div_pow, ← BitVec.toNat_ushiftRight, BitVec.ofNat_toNat, BitVec.setWidth_eq]

theorem sshiftRight_eq_ofInt (a : Word) (n : Nat) : a.sshiftRight n = BitVec.ofInt 32 (a.toInt / 2 ^ n) := by
  have h : (a.sshiftRight n).toInt = a.toInt / 2 ^ n := by
    rw [BitVec.toInt_sshiftRight, Int.shiftRight_eq_div_pow, Nat.cast_pow, Nat.cast_ofNat]
  rw [← h, BitVec.ofInt_toInt]

/-- A shift by 31 or more leaves the sign in every bit. -/
theorem sshiftRight_of_le (a : Word) {n : Nat} (h : 31 ≤ n) : a.sshiftRight n = a.sshiftRight 31 := by
  have hb (k m : Nat) (hm : 31 ≤ m) : (a.sshiftRight m).getLsbD k = (!decide (32 ≤ k) && a.msb) := by
    rw [BitVec.getLsbD_sshiftRight]
    split
    · rw [BitVec.msb_eq_getLsbD_last, show m + k = 32 - 1 by omega]
    · rfl
  exact BitVec.eq_of_getLsbD_eq fun k _ => by rw [hb k n h, hb k 31 le_rfl]

theorem shlW_eq (a n : Word) : shlW a n = BitVec.ofNat 32 (a.toNat * 2 ^ n.toNat) := by
  rw [← shiftLeft_eq_ofNat, shlW]
  split
  · exact (BitVec.shiftLeft_eq_zero ‹_›).symm
  · rfl

theorem shrW_eq (a n : Word) : shrW a n = BitVec.ofNat 32 (a.toNat / 2 ^ n.toNat) := by
  rw [← ushiftRight_eq_ofNat, shrW]
  split
  · exact (BitVec.ushiftRight_eq_zero ‹_›).symm
  · rfl

theorem sarW_eq (a n : Word) : sarW a n = BitVec.ofInt 32 (a.toInt / 2 ^ n.toNat) := by
  rw [← sshiftRight_eq_ofInt, sarW]
  split
  · exact (sshiftRight_of_le a (by omega)).symm
  · rfl

theorem toNat_append_word (a d : Word) : (a ++ d).toNat = a.toNat * 2 ^ 32 + d.toNat := by
  rw [BitVec.toNat_append, ← Nat.shiftLeft_add_eq_or_of_lt d.isLt, Nat.shiftLeft_eq]

theorem fslW_eq (d a : Word) (n : Nat) :
    fslW d a n = BitVec.ofNat 32 ((a.toNat * 2 ^ 32 + d.toNat) * 2 ^ n / 2 ^ 32) := by
  have h : (a ++ d) <<< n = BitVec.ofNat 64 ((a.toNat * 2 ^ 32 + d.toNat) * 2 ^ n) :=
    BitVec.eq_of_toNat_eq (by
      rw [BitVec.toNat_shiftLeft, Nat.shiftLeft_eq, toNat_append_word, BitVec.toNat_ofNat])
  rw [fslW, h, extractLsb'_high_ofNat]

theorem fsrW_eq (d a : Word) (n : Nat) :
    fsrW d a n = BitVec.ofNat 32 ((d.toNat * 2 ^ 32 + a.toNat) / 2 ^ n) := by
  apply BitVec.eq_of_toNat_eq
  rw [fsrW, BitVec.extractLsb'_toNat, BitVec.toNat_ushiftRight, toNat_append_word, Nat.shiftRight_zero,
    Nat.shiftRight_eq_div_pow, BitVec.toNat_ofNat]

/-! ### Counts and the reversal (R114) -/

theorem popW_eq (a : Word) : popW a = BitVec.ofNat 32 ((List.range 32).countP (fun k => a.getLsbD k)) := by
  rw [popW, List.countP_eq_length_filter]

/-- The zeros above the leading one are counted up to it, from bit 31 down. -/
theorem findIdx_leading_one {a : Word} (h : a ≠ 0) :
    (List.range 32).findIdx (fun k => !!a.getLsbD (31 - k)) = 31 - a.toNat.log2 := by
  have h0 : a.toNat ≠ 0 := fun h' => h (BitVec.eq_of_toNat_eq h')
  have hlt : a.toNat.log2 < 32 := (Nat.log2_lt h0).2 a.isLt
  rw [List.findIdx_eq (by rw [List.length_range]; omega)]
  simp only [List.getElem_range, Bool.not_not]
  refine ⟨?_, fun k hk => ?_⟩
  · rw [show 31 - (31 - a.toNat.log2) = a.toNat.log2 by omega, ← BitVec.testBit_toNat]
    exact Nat.testBit_log2 h0
  · rw [← BitVec.testBit_toNat]
    exact Nat.testBit_lt_two_pow (lt_of_lt_of_le Nat.lt_log2_self (Nat.pow_le_pow_right (by omega) (by omega)))

theorem clzW_eq (a : Word) : clzW a = BitVec.ofNat 32 (if a = 0 then 32 else 31 - a.toNat.log2) := by
  rw [clzW]
  by_cases h : a = 0
  · have ht : (List.range 32).takeWhile (fun k => !a.getLsbD (31 - k)) = List.range 32 := by
      rw [List.takeWhile_eq_self_iff]
      intro k _
      rw [h]
      exact congrArg not BitVec.getLsbD_zero
    rw [if_pos h, ht, List.length_range]
  · rw [if_neg h, List.takeWhile_eq_take_findIdx_not, findIdx_leading_one h, List.length_take, List.length_range,
      min_eq_left (by omega)]

/-- A fold over the lanes' bits in another order is a fold over the places that they go to. -/
theorem brevW_eq_maskResult (a : Word) :
    brevW a = maskResult 0 ((List.range 32).map (31 - ·)) (fun k => a.getLsbD (31 - k)) := by
  rw [brevW, maskResult, List.foldl_map]
  refine List.foldl_ext _ _ _ fun r k hk => ?_
  rw [show 31 - (31 - k) = k by have := List.mem_range.1 hk; omega]

theorem getLsbD_brevW (a : Word) {k : Nat} (hk : k < 32) : (brevW a).getLsbD k = a.getLsbD (31 - k) := by
  rw [brevW_eq_maskResult, getLsbD_maskResult _ _ _ _ hk, if_pos]
  exact List.mem_map.2 ⟨31 - k, List.mem_range.2 (by omega), by omega⟩

/-! ### Fields, the byte permute, the logic table (R115, R116, R126) -/

theorem fld_zero (n w : Nat) : fld n 0 w = n % 2 ^ w := by
  rw [fld, pow_zero, Nat.div_one]

theorem fld_zero_five (n : Nat) : fld n 0 5 = n % 32 := fld_zero n 5

theorem testBit_fld (n lo w k : Nat) : (fld n lo w).testBit k = (decide (k < w) && n.testBit (lo + k)) := by
  rw [fld, Nat.testBit_mod_two_pow, Nat.testBit_div_two_pow, Nat.add_comm k]

theorem bfPos_eq (b : Word) : bfPos b = b.toNat % 32 := fld_zero_five b.toNat

theorem bfLen_eq (b : Word) : bfLen b = min (b.toNat / 256 % 64) (32 - b.toNat % 32) := by
  rw [bfLen, bfPos_eq]
  rfl

/-- A field read with a sign: past its top bit, which is repeated. -/
theorem getLsbD_sext_fld (n lo : Nat) {w k : Nat} (hw : w ≠ 0) (hk : k < 32) :
    (sext w (fld n lo w)).getLsbD k = n.testBit (lo + min k (w - 1)) := by
  have hb {j : Nat} (hj : j < w) : (BitVec.ofNat w (fld n lo w)).getLsbD j = n.testBit (lo + j) := by
    rw [BitVec.getLsbD_ofNat, testBit_fld]
    simp [hj]
  rw [sext, BitVec.getLsbD_signExtend, decide_eq_true hk, Bool.true_and]
  by_cases h : k < w
  · rw [if_pos h, hb h, min_eq_left (by omega)]
  · rw [if_neg h, BitVec.msb_eq_getLsbD_last, hb (by omega), min_eq_right (by omega)]

theorem getLsbD_bfxIW (a b : Word) {k : Nat} (hk : k < 32) :
    (bfxIW a b).getLsbD k = if bfLen b = 0 then false else a.getLsbD (bfPos b + min k (bfLen b - 1)) := by
  rw [bfxIW]
  split
  · exact BitVec.getLsbD_zero
  · rw [getLsbD_sext_fld _ _ ‹_› hk, BitVec.testBit_toNat]

theorem getLsbD_bfiW (d a b : Word) {k : Nat} (hk : k < 32) :
    (bfiW d a b).getLsbD k =
      if bfPos b ≤ k ∧ k < bfPos b + bfLen b then a.getLsbD (k - bfPos b) else d.getLsbD k := by
  have hm : (BitVec.ofNat 32 ((2 ^ bfLen b - 1) * 2 ^ bfPos b)).getLsbD k =
      decide (bfPos b ≤ k ∧ k < bfPos b + bfLen b) := by
    rw [BitVec.getLsbD_ofNat, Nat.testBit_mul_two_pow, Nat.testBit_two_pow_sub_one]
    simp only [hk, decide_true, Bool.true_and, ← Bool.decide_and, decide_eq_decide]
    omega
  simp only [bfiW, BitVec.getLsbD_or, BitVec.getLsbD_and, BitVec.getLsbD_not, BitVec.getLsbD_shiftLeft, hm, hk,
    decide_true, Bool.true_and]
  by_cases h : bfPos b ≤ k ∧ k < bfPos b + bfLen b
  · simp [h, Nat.not_lt.2 h.1]
  · simp [h]

/-- A result byte of PRM: the byte that its selector's low three bits name, or that byte's sign in every bit. -/
theorem getLsbD_prmByte (d a b : Word) (j : Nat) {i : Nat} (hi : i < 8) :
    (prmByte d a b j).getLsbD i =
      (let q := b.toNat / 2 ^ (4 * j) % 16
       (d ++ a).getLsbD (8 * (q % 8) + if q < 8 then i else 7)) := by
  have hq : (b.extractLsb' (4 * j) 4).toNat = b.toNat / 2 ^ (4 * j) % 16 := by
    rw [BitVec.extractLsb'_toNat, Nat.shiftRight_eq_div_pow]
  have hlow (q : BitVec 4) : (q.extractLsb' 0 3).toNat = q.toNat % 8 := by
    rw [BitVec.extractLsb'_toNat, Nat.shiftRight_zero]
  have hsign (q : BitVec 4) : q.getLsbD 3 = decide (¬ q.toNat < 8) := by
    revert q; decide
  dsimp only [prmByte]
  rw [hsign, hlow, hq]
  by_cases h : b.toNat / 2 ^ (4 * j) % 16 < 8
  · simp [h, hi]
  · simp only [h, not_false_eq_true, decide_true, if_true, if_false, BitVec.getLsbD_extractLsb']
    cases (d ++ a).getLsbD (8 * (b.toNat / 2 ^ (4 * j) % 16 % 8) + 7) with
    | false => simp
    | true => simpa using (by decide : ∀ i < 8, (0xFF : BitVec 8).getLsbD i = true) i hi

theorem getLsbD_prmW (d a b : Word) {k : Nat} (hk : k < 32) :
    (prmW d a b).getLsbD k = (prmByte d a b (k / 8)).getLsbD (k % 8) := by
  simp only [prmW, BitVec.getLsbD_append]
  by_cases h1 : k < 8
  · simp [h1, show k / 8 = 0 by omega, show k % 8 = k by omega]
  · by_cases h2 : k < 16
    · simp [h1, show k - 8 < 8 by omega, show k / 8 = 1 by omega, show k % 8 = k - 8 by omega]
    · by_cases h3 : k < 24
      · simp [h1, show ¬ k - 8 < 8 by omega, show k - 8 - 8 < 8 by omega, show k / 8 = 2 by omega,
          show k % 8 = k - 8 - 8 by omega]
      · simp [h1, show ¬ k - 8 < 8 by omega, show ¬ k - 8 - 8 < 8 by omega, show k / 8 = 3 by omega,
          show k % 8 = k - 8 - 8 - 8 by omega]

theorem getLsbD_lgtW (t : Nat) (d a b : Word) {k : Nat} (hk : k < 32) :
    (lgtW t d a b).getLsbD k =
      t.testBit (4 * (d.getLsbD k).toNat + 2 * (a.getLsbD k).toNat + (b.getLsbD k).toNat) :=
  (getLsbD_maskResult (List.range 32) 0 _ k hk).trans (if_pos (List.mem_range.2 hk))

/-! ### Source lanes and the ballot (R107, R125) -/

/-- The source lane's place in its segment, by the mode of the shuffle (Table 4-3). -/
theorem sourceLane_eq (m i : Nat) (b : Word) :
    sourceLane m i b =
      (let w := 32 / 2 ^ (b.toNat / 32 % 4)
       let k := b.toNat % 32
       if m = 0 then i / w * w + k % w
       else if m = 1 then (if k ≤ i % w then i - k else i)
       else if m = 2 then (if i % w + k < w then i + k else i)
       else i / w * w + ((i % w) ^^^ (k % w))) := by
  have hw : fld b.toNat 5 2 = b.toNat / 32 % 4 := rfl
  simp only [sourceLane, ← Nat.mod_eq_sub_div_mul, fld_zero_five, hw]

theorem getLsbD_lanesOf (ls : List Nat) {k : Nat} (hk : k < 32) : (lanesOf ls).getLsbD k = decide (k ∈ ls) := by
  have hfold (acc : Word) : (ls.foldl (fun acc i => acc ||| ((1 : Word) <<< i)) acc).getLsbD k =
      (acc.getLsbD k || decide (k ∈ ls)) := by
    induction ls generalizing acc with
    | nil => simp
    | cons i ls ih =>
      have hbit : (acc ||| ((1 : Word) <<< i)).getLsbD k = (acc.getLsbD k || decide (k = i)) := by
        have h := getLsbD_setBit acc i k true hk
        rw [setBit, if_pos rfl] at h
        rw [h]
        by_cases hki : k = i <;> simp [hki]
      rw [List.foldl_cons, ih, hbit, Bool.or_assoc]
      simp [List.mem_cons]
  rw [lanesOf, hfold]
  simp

/-! ### Immediates (R121, R124) -/

/-- The value of an `n`-bit immediate read with a sign. -/
theorem toInt_ofNat_of_lt {n v : Nat} (hv : v < 2 ^ (n + 1)) :
    (BitVec.ofNat (n + 1) v).toInt = if v < 2 ^ n then (v : Int) else v - 2 ^ (n + 1) := by
  rw [BitVec.toInt_eq_toNat_cond, BitVec.toNat_ofNat, Nat.mod_eq_of_lt hv, pow_succ]
  push_cast
  split <;> split <;> omega

theorem sext_eq_ofInt {n v : Nat} (hv : v < 2 ^ (n + 1)) :
    sext (n + 1) v = BitVec.ofInt 32 (if v < 2 ^ n then (v : Int) else v - 2 ^ (n + 1)) := by
  rw [sext, BitVec.signExtend, toInt_ofNat_of_lt hv]

theorem toInt_sext {n v : Nat} (hn : n + 1 ≤ 32) (hv : v < 2 ^ (n + 1)) :
    (sext (n + 1) v).toInt = if v < 2 ^ n then (v : Int) else v - 2 ^ (n + 1) := by
  rw [sext, BitVec.toInt_signExtend_of_le hn, toInt_ofNat_of_lt hv]

end Sys2Proof.IntegerProofs
end

section
/-! PROOFS. The integer, immediate, scalar and logic-table words (O1 to O5): each word's meaning is one of the shapes of
`Laws/Issue`, and what its lane function computes is a fact of the section before. -/

namespace Sys2Proof.IntegerProofs
open Sys2Proof Sys2Proof.Machine

/-! ### From the shape of a word's meaning to its result -/

section Shapes
variable {s : State} {x : Cx} {i : Instr} {d : Fin 64}

theorem resV_of_vecOp {f : Cx → Nat → Word} {g : Nat → Word} (he : exec i s = issue i s (vecOp d f))
    (hf : ∀ l, f x l = g l) : ResV s x i d g := fun h => by
  rw [← show f x = g from funext hf]
  exact doesV_vecOp s x i d f h he

/-- A result that a statement gives by its bits. -/
theorem resV_of_getLsbD {f : Cx → Nat → Word} {g : Nat → Word} (he : exec i s = issue i s (vecOp d f))
    (hf : ∀ l k, k < 32 → (g l).getLsbD k = (f x l).getLsbD k) : ResV s x i d g :=
  resV_of_vecOp he fun l => BitVec.eq_of_getLsbD_eq fun k hk => (hf l k hk).symm

theorem resM_of_cmpOp {k : Fin 8} {p : Cx → Nat → Bool} {q : Nat → Bool} (he : exec i s = issue i s (cmpOp k p))
    (hp : ∀ l, p x l = q l) : ResM s x i k q := fun h => by
  rw [← show p x = q from funext hp]
  exact doesM_cmpOp s x i k p h he

theorem resS_of_scaOp {f : Cx → Word} {v : Word} (he : exec i s = issue i s (scaOp d f)) (hf : f x = v) :
    ResS s x i d v := fun h => by
  rw [← hf]
  exact doesS_scaOp s x i d f h he

/-- A word that writes one register in lanes of its own choice. -/
theorem doesV_of_putV {body : State → Cx → Res} {ls : List Nat} {n : Nat} {f : Nat → Word} (h : Issues s x i)
    (he : exec i s = issue i s body) (hb : body s x = .done (s.putV x ls n f)) (hl : ∀ j ∈ ls, j < 32) :
    DoesV s x i (fun r l => if r = n ∧ l ∈ ls then some (f l) else none) := by
  refine ⟨_, x.gang.r.putV (ls.map (fun l => (vkey n l, f l))), he.trans (issue_of i s x body h),
    onlyRegs_of s _ x (fun r => r.putV (ls.map (fun l => (vkey n l, f l)))) h.ctx ?_, fun r l hl' => ?_, rfl⟩
  · rw [finish_still, hb]
    rfl
  · rw [Regs.rdV_putV _ _ _ _ _ _ hl' hl]
    by_cases hr : r = n ∧ l ∈ ls <;> simp [hr]

theorem State.putV_nil (s : State) (x : Cx) (n : Nat) (f : Nat → Word) : s.putV x [] n f = s := by
  have hm : smModify s.work.gangs x.cur.gang (fun g => { g with r := g.r.putV [] }) = s.work.gangs := by
    unfold smModify
    exact (List.map_congr_left fun p _ => ite_self p).trans (List.map_id' _)
  exact congrArg (fun l => { s with work.gangs := l }) hm

/-- SWRL: one lane of the named register, where its slice is there. -/
theorem doesV_swrl {c : Bool} {a b : Fin 64} (h : Issues s x (.swrl c d a b)) :
    DoesV s x (.swrl c d a b) (fun r l =>
      if r = d.val ∧ l = (x.s b).toNat % 32 ∧ ¬ x.src.nsl ≤ (x.s b).toNat % 32 / 4 then some (x.s a) else none) := by
  by_cases hj : x.src.nsl ≤ (x.s b).toNat % 32 / 4
  · have hw := doesV_of_putV (ls := []) (n := d) (f := fun _ => x.s a) h (by rfl)
      (by simp only [fld_zero_five, Cx.absent, hj, decide_true, if_true, State.putV_nil]) (by simp)
    simpa [hj] using hw
  · have hw := doesV_of_putV (ls := [(x.s b).toNat % 32]) (n := d) (f := fun _ => x.s a) h (by rfl)
      (by simp only [fld_zero_five, Cx.absent, hj, decide_false, Bool.false_eq_true, if_false]) (by simp [Nat.mod_lt])
    simpa [hj] using hw

end Shapes

/-! ### The values of the operands -/

theorem boolWord_decide (p : Prop) [Decidable p] : boolWord (decide p) = if p then 1 else 0 := by
  by_cases h : p <;> simp [boolWord, h]

/-- SHFL (R119, R103): the lane's own value where the source lane's slice is absent. -/
theorem shflV_eq {x : Cx} {m : Nat} {a b : Fin 64} {bs : Fin 4} {l j : Nat} (hj : sourceLane m l (x.b bs b l) = j) :
    shflV m a b bs x l = if x.src.nsl ≤ j / 4 then x.v a l else x.v a j := by
  simp only [shflV, hj, Cx.absent, decide_eq_true_eq]

/-- The 11-bit immediate of IADDI, ICMPI and MOVI (R121). -/
theorem sext_eleven (n : Fin 2048) :
    sext 11 n = BitVec.ofInt 32 (if n.val < 1024 then n.val else (n.val : Int) - 2048) :=
  sext_eq_ofInt (n := 10) n.isLt

theorem toInt_sext_eleven (n : Fin 2048) :
    (sext 11 n).toInt = if n.val < 1024 then (n.val : Int) else (n.val : Int) - 2048 :=
  toInt_sext (n := 10) (by decide) n.isLt

/-- The 16-bit immediate of SADDI (R124). -/
theorem sext_sixteen (n : Fin 65536) :
    sext 16 n = BitVec.ofInt 32 (if n.val < 32768 then n.val else (n.val : Int) - 65536) :=
  sext_eq_ofInt (n := 15) n.isLt

theorem add_eq_ofInt (a : Word) (z : Int) : a + BitVec.ofInt 32 z = BitVec.ofInt 32 (a.toInt + z) := by
  rw [BitVec.ofInt_add, BitVec.ofInt_toInt]

/-- SLIH joins the immediate to the low half. -/
theorem append_half_eq_ofNat (n : Fin 65536) (a : Word) :
    BitVec.ofNat 16 n ++ a.extractLsb' 0 16 = BitVec.ofNat 32 (n * 65536 + a.toNat % 65536) := by
  have hlow : a.toNat % 65536 < 2 ^ 16 := Nat.mod_lt _ (by decide)
  apply BitVec.eq_of_toNat_eq
  rw [BitVec.toNat_append, BitVec.extractLsb'_toNat, Nat.shiftRight_zero, BitVec.toNat_ofNat, BitVec.toNat_ofNat,
    ← Nat.shiftLeft_add_eq_or_of_lt hlow, Nat.shiftLeft_eq]
  omega

/-! ### The statements -/

/-- Settles O1: the sums, products, relations and shifts of the lane functions. -/
theorem integerResults : Obligations.IntegerResults := by
  unfold Obligations.IntegerResults
  intro s x c d a b bs
  exact ⟨resV_of_vecOp rfl fun _ => (ofInt_toInt_add _ _).symm,
    resV_of_vecOp rfl fun _ => (ofInt_toInt_sub _ _).symm,
    resV_of_vecOp rfl fun _ => (ofInt_toInt_mul _ _).symm,
    resV_of_vecOp rfl fun _ => mulhI_eq _ _,
    resV_of_vecOp rfl fun _ => mulhN_eq _ _,
    resV_of_vecOp rfl fun _ => (ofInt_toInt_mul_add _ _ _).symm,
    resV_of_vecOp rfl fun _ => minBy_relLtI _ _,
    resV_of_vecOp rfl fun _ => minBy_relLtN _ _,
    resV_of_vecOp rfl fun _ => maxBy_relLtI _ _,
    resV_of_vecOp rfl fun _ => maxBy_relLtN _ _,
    resV_of_vecOp rfl fun _ => iabsW_eq _,
    resV_of_vecOp rfl fun _ => rfl,
    resV_of_vecOp rfl fun _ => rfl,
    resV_of_vecOp rfl fun _ => rfl,
    resV_of_vecOp rfl fun _ => rfl,
    resV_of_vecOp rfl fun _ => shlW_eq _ _,
    resV_of_vecOp rfl fun _ => shrW_eq _ _,
    resV_of_vecOp rfl fun _ => sarW_eq _ _,
    resV_of_vecOp rfl fun l => by rw [bin3, fslW_eq, fld_zero_five],
    resV_of_vecOp rfl fun l => by rw [bin3, fsrW_eq, fld_zero_five]⟩

/-- Settles O2: the counts in exact arithmetic, the fields and tables bit by bit. -/
theorem bitFieldResults : Obligations.BitFieldResults := by
  unfold Obligations.BitFieldResults
  refine ⟨fun s x c d a => ⟨?_, ?_, fun f hf => ?_⟩, fun s x c d a b bs t =>
    ⟨?_, fun f hf => ?_, fun f hf => ?_, fun f hf => ?_, fun f hf => ?_⟩⟩
  · exact resV_of_vecOp rfl fun _ => popW_eq _
  · exact resV_of_vecOp rfl fun _ => clzW_eq _
  · exact resV_of_getLsbD rfl fun l k hk => (hf l k hk).trans (getLsbD_brevW _ hk).symm
  · refine resV_of_vecOp rfl fun l => ?_
    rw [bin2, bfxNW, fld, bfPos_eq, bfLen_eq]
  · refine resV_of_getLsbD rfl fun l k hk => ?_
    rw [hf l k hk, bin2, getLsbD_bfxIW _ _ hk, bfPos_eq, bfLen_eq]
  · refine resV_of_getLsbD rfl fun l k hk => ?_
    rw [hf l k hk, bin3, getLsbD_bfiW _ _ _ hk, bfPos_eq, bfLen_eq]
  · refine resV_of_getLsbD rfl fun l k hk => ?_
    rw [hf l k hk, bin3, getLsbD_prmW _ _ _ hk, getLsbD_prmByte _ _ _ _ (Nat.mod_lt k (by decide))]
  · exact resV_of_getLsbD rfl fun l k hk => (hf l k hk).trans (getLsbD_lgtW _ _ _ _ hk).symm

/-- Settles O3: the relations, the selects, and the source lanes of the shuffles and the swizzle. -/
theorem selectAndMoveResults : Obligations.SelectAndMoveResults := by
  unfold Obligations.SelectAndMoveResults
  refine ⟨fun s x c m d a b bs => ⟨?_, ?_, ?_, ?_, ?_, ?_, ?_, ?_, ?_, ?_, ?_, ?_, ?_, ?_, ?_⟩,
    fun s x c d a b bs p => ⟨?_, ?_, ?_, ?_, fun hp => ?_, fun hp => ?_⟩⟩
  · exact resM_of_cmpOp rfl fun _ => relEq_eq _ _
  · exact resM_of_cmpOp rfl fun _ => relNe_eq _ _
  · exact resM_of_cmpOp rfl fun _ => relLtI_eq _ _
  · exact resM_of_cmpOp rfl fun _ => relLtN_eq _ _
  · exact resM_of_cmpOp rfl fun _ => relLeI_eq _ _
  · exact resM_of_cmpOp rfl fun _ => relLeN_eq _ _
  · exact resM_of_cmpOp rfl fun _ => rfl
  · exact resV_of_vecOp rfl fun _ => rfl
  · exact resV_of_vecOp rfl fun _ => rfl
  · exact resV_of_vecOp rfl fun _ => rfl
  · exact resV_of_vecOp rfl fun _ => rfl
  · exact resV_of_vecOp rfl fun _ => rfl
  · exact resV_of_vecOp rfl fun _ => rfl
  · exact resV_of_vecOp rfl fun _ => rfl
  · exact resV_of_vecOp rfl fun _ => rfl
  · exact resV_of_vecOp rfl fun l => shflV_eq (sourceLane_eq 0 l _)
  · exact resV_of_vecOp rfl fun l => shflV_eq (sourceLane_eq 1 l _)
  · exact resV_of_vecOp rfl fun l => shflV_eq (sourceLane_eq 2 l _)
  · exact resV_of_vecOp rfl fun l => shflV_eq (sourceLane_eq 3 l _)
  · refine resV_of_vecOp rfl fun l => ?_
    have h0 : fld p 9 2 = 0 := by rw [fld]; omega
    rw [swzV, if_pos h0, fld, pow_mul, Nat.mul_comm 4]
    rfl
  · refine resV_of_vecOp rfl fun l => ?_
    have h1 : fld p 9 2 ≠ 0 := by rw [fld, hp]; decide
    rw [swzV, if_neg h1]

/-- Settles O4: the words of O1 with an immediate as their second operand. -/
theorem immediateResults : Obligations.ImmediateResults := by
  unfold Obligations.ImmediateResults
  intro s x c m d a i n
  exact ⟨resV_of_vecOp rfl fun _ => by rw [sext_eleven, add_eq_ofInt],
    resV_of_vecOp rfl fun _ => rfl,
    resV_of_vecOp rfl fun _ => rfl,
    resV_of_vecOp rfl fun _ => rfl,
    resV_of_vecOp rfl fun _ => shiftLeft_eq_ofNat _ _,
    resV_of_vecOp rfl fun _ => ushiftRight_eq_ofNat _ _,
    resV_of_vecOp rfl fun _ => sshiftRight_eq_ofInt _ _,
    resV_of_vecOp rfl fun _ => fslW_eq _ _ _,
    resV_of_vecOp rfl fun _ => fsrW_eq _ _ _,
    resV_of_vecOp rfl fun _ => sext_eleven i,
    resM_of_cmpOp rfl fun _ => by rw [relEq_eq_toInt, toInt_sext_eleven],
    resM_of_cmpOp rfl fun _ => by rw [relLtI_eq, toInt_sext_eleven]⟩

/-- Settles O5: the lane functions on scalar registers, and the lane reads and writes. -/
theorem scalarResults : Obligations.ScalarResults := by
  unfold Obligations.ScalarResults
  intro s x c d a b i
  refine ⟨?_, ?_, ?_, ?_, ?_, ?_, ?_, ?_, ?_, ?_, ?_, ?_, ?_, ?_, ?_, ?_, ?_, ?_, ?_, ?_, fun v hv => ?_, doesV_swrl⟩
  · exact resS_of_scaOp rfl (ofInt_toInt_add _ _).symm
  · exact resS_of_scaOp rfl (ofInt_toInt_sub _ _).symm
  · exact resS_of_scaOp rfl (ofInt_toInt_mul _ _).symm
  · exact resS_of_scaOp rfl rfl
  · exact resS_of_scaOp rfl rfl
  · exact resS_of_scaOp rfl rfl
  · exact resS_of_scaOp rfl (shlW_eq _ _)
  · exact resS_of_scaOp rfl (shrW_eq _ _)
  · exact resS_of_scaOp rfl (sarW_eq _ _)
  · exact resS_of_scaOp rfl (boolWord_decide _)
  · exact resS_of_scaOp rfl (by rw [sca2, relLtI_eq, boolWord_decide])
  · exact resS_of_scaOp rfl (by rw [sca2, relLtN_eq, boolWord_decide])
  · exact resS_of_scaOp rfl (minBy_relLtI _ _)
  · exact resS_of_scaOp rfl (maxBy_relLtI _ _)
  · exact resS_of_scaOp rfl rfl
  · exact resS_of_scaOp rfl (ite_not _ _ _)
  · exact resS_of_scaOp rfl rfl
  · exact resS_of_scaOp rfl (append_half_eq_ofNat i _)
  · exact resS_of_scaOp rfl (by rw [sext_sixteen, add_eq_ofInt])
  · refine resS_of_scaOp rfl ?_
    simp only [fld_zero_five, Cx.absent, decide_eq_true_eq]
  · refine resS_of_scaOp rfl (BitVec.eq_of_getLsbD_eq fun l hl => ?_)
    rw [hv l hl, ballot, getLsbD_lanesOf _ hl]
    simp [relNe, List.mem_filter]

end Sys2Proof.IntegerProofs
end

section
/-! PROOFS. The number formats and the four directed roundings (O6): a pattern as its fields, what encoding a value read
gives back, and the rounded multiples as quotients. -/

namespace Sys2Proof.FloatProofs
open Sys2Proof Sys2Proof.Machine Sys2Proof.IntegerProofs

/-! ### A pattern of a floating-point format as its fields (R128) -/

/-- The sign's weight in a pattern of the format. -/
def signPart (f : Fmt) (neg : Bool) : Nat := if neg then 2 ^ (f.mb + f.eb) else 0

theorem bits_of_float {f : Fmt} (hf : f.isInt = false) : f.bits = 1 + f.eb + f.mb := by
  rw [Fmt.bits, hf]
  rfl

theorem bits_of_int {f : Fmt} (hf : f.isInt = true) : f.bits = f.mb := by
  rw [Fmt.bits, hf]
  rfl

/-- A natural number below 2^(1 + e + m) as its sign, exponent and mantissa fields. -/
theorem eq_fld_add_fld (n m e : Nat) (h : n < 2 ^ (1 + e + m)) :
    n = (if n.testBit (m + e) then 2 ^ (m + e) else 0) + fld n m e * 2 ^ m + fld n 0 m := by
  have hlow : fld n 0 m + 2 ^ m * (n / 2 ^ m) = n := by rw [fld_zero, Nat.mod_add_div]
  have hmid : fld n m e + 2 ^ e * (n / 2 ^ (m + e)) = n / 2 ^ m := by
    rw [fld, pow_add, ← Nat.div_div_eq_div_mul, Nat.mod_add_div]
  have htop : n / 2 ^ (m + e) < 2 := by
    rw [Nat.div_lt_iff_lt_mul (by positivity)]
    calc n < 2 ^ (1 + e + m) := h
      _ = 2 * 2 ^ (m + e) := by ring
  have hsign : (if n.testBit (m + e) then 2 ^ (m + e) else 0) = 2 ^ (m + e) * (n / 2 ^ (m + e)) := by
    rw [Nat.testBit_eq_decide_div_mod_eq, Nat.mod_eq_of_lt htop]
    rcases Nat.lt_succ_iff_lt_or_eq.1 htop with h0 | h1
    · simp [Nat.lt_one_iff.1 h0]
    · simp [h1]
  rw [hsign]
  calc n = fld n 0 m + 2 ^ m * (fld n m e + 2 ^ e * (n / 2 ^ (m + e))) := by rw [hmid, hlow]
    _ = _ := by ring

/-- Bits above the format's width are ignored (R131). -/
theorem val_mod_two_pow_bits {f : Fmt} (hf : f.isInt = false) (n : Nat) : val f (n % 2 ^ f.bits) = val f n := by
  have hw : f.bits = f.mb + f.eb + 1 := by rw [bits_of_float hf]; omega
  have hm : fld (n % 2 ^ f.bits) 0 f.mb = fld n 0 f.mb := by
    rw [fld_zero, fld_zero, hw, Nat.mod_mod_of_dvd _ (pow_dvd_pow 2 (by omega))]
  have he : fld (n % 2 ^ f.bits) f.mb f.eb = fld n f.mb f.eb := by
    refine Nat.eq_of_testBit_eq fun k => ?_
    rw [testBit_fld, testBit_fld, Nat.testBit_mod_two_pow, hw]
    by_cases hk : k < f.eb
    · simp [show f.mb + k < f.mb + f.eb + 1 by omega]
    · simp [hk]
  have hs : (n % 2 ^ f.bits).testBit (f.mb + f.eb) = n.testBit (f.mb + f.eb) := by
    rw [Nat.testBit_mod_two_pow, hw]
    simp
  simp only [val, hf, hm, he, hs]

/-! ### Encoding a value that was read (R128, R129) -/

section Float
variable {f : Fmt} (hf : f.isInt = false) (neg : Bool)
include hf

theorem enc_fin_zero (e : Int) : enc f (.fin neg 0 e) = signPart f neg := by
  simp [enc, hf, signPart]

theorem enc_fin_subnormal {m : Nat} (hm : m < 2 ^ f.mb) :
    enc f (.fin neg m (f.emin - f.mb)) = signPart f neg + m := by
  by_cases h0 : m = 0
  · rw [h0, enc_fin_zero hf, Nat.add_zero]
  · have hlog : Nat.log2 m < f.mb := (Nat.log2_lt h0).2 hm
    have hlt : (Nat.log2 m : Int) + (f.emin - f.mb) < f.emin := by omega
    simp [enc, hf, h0, hlt, max_eq_right hlt.le, signPart]

theorem enc_fin_normal {m e : Nat} (hm : m < 2 ^ f.mb) (he : 1 ≤ e) :
    enc f (.fin neg (2 ^ f.mb + m) (f.emin + (e : Int) - 1 - f.mb)) = signPart f neg + e * 2 ^ f.mb + m := by
  have h0 : 2 ^ f.mb + m ≠ 0 := by positivity
  have hlog : Nat.log2 (2 ^ f.mb + m) = f.mb := by
    rw [Nat.log2_eq_iff h0, pow_succ]
    omega
  have htop : (f.mb : Int) + (f.emin + e - 1 - f.mb) = f.emin + e - 1 := by ring
  have hexp : f.emin + (e : Int) - 1 - f.emin + 1 = e := by ring
  have hge : ¬ f.emin + (e : Int) - 1 < f.emin := by omega
  simp only [enc, hf, h0, hlog, htop, hge, hexp, max_eq_left (not_lt.1 hge), signPart, le_refl, sub_self, Int.toNat_zero,
    pow_zero, mul_one, Int.toNat_natCast, if_true, if_false, Bool.false_eq_true, Nat.add_sub_cancel_left]

theorem enc_val_float {n : Nat} (hn : n < 2 ^ f.bits) (hv : val f n ≠ .nan) : enc f (val f n) = n := by
  have hparts : n = signPart f (n.testBit (f.mb + f.eb)) + fld n f.mb f.eb * 2 ^ f.mb + fld n 0 f.mb :=
    eq_fld_add_fld n f.mb f.eb (bits_of_float hf ▸ hn)
  have hm : fld n 0 f.mb < 2 ^ f.mb := by rw [fld_zero]; exact Nat.mod_lt _ (by positivity)
  revert hv
  simp only [val, hf, Bool.false_eq_true, if_false]
  split_ifs with hinf hm0 hnan he <;> intro hv
  · obtain ⟨-, htop⟩ := Bool.and_eq_true_iff.1 hinf
    rw [of_decide_eq_true htop, hm0] at hparts
    exact hparts.symm
  · exact absurd rfl hv
  · exact absurd rfl hv
  · rw [enc_fin_subnormal hf _ hm]
    rw [he] at hparts
    omega
  · rw [enc_fin_normal hf _ hm (by omega)]
    exact hparts.symm

end Float

theorem enc_val_int {f : Fmt} (hf : f.isInt = true) {n : Nat} (hn : n < 2 ^ f.bits) : enc f (val f n) = n := by
  rw [bits_of_int hf] at hn
  have hm : fld n 0 f.mb = n := by rw [fld_zero, Nat.mod_eq_of_lt hn]
  simp only [val, hf, hm, if_true]
  split
  · simp only [enc, hf, if_true, Int.toNat_zero, pow_zero, mul_one]
    rw [Nat.sub_sub_self hn.le, Nat.mod_eq_of_lt hn]
  · simp [enc, hf, Nat.mod_eq_of_lt hn]

/-! ### The directed roundings (R137) -/

/-- The quotient of `m` by 2^sh rounded under the mode. -/
def roundedQuot (mode : Nat) (neg : Bool) (m sh : Nat) : Nat :=
  if roundsUp mode neg (m / 2 ^ sh) (m % 2 ^ sh) sh 0 then m / 2 ^ sh + 1 else m / 2 ^ sh

/-- Below half of the quantum, only the sign and whether the magnitude is zero matter. -/
theorem roundedQuot_of_small (mode : Nat) (neg : Bool) {m sh : Nat} (h : 2 * m < 2 ^ sh) :
    roundedQuot mode neg m sh = if m ≠ 0 ∧ (mode = 2 ∧ neg = false ∨ mode = 3 ∧ neg = true) then 1 else 0 := by
  have hm : m < 2 ^ sh := by omega
  rw [roundedQuot, Nat.div_eq_of_lt hm, Nat.mod_eq_of_lt hm, roundsUp]
  by_cases h0 : m = 0
  · simp [h0]
  · have h1 : ¬ 2 ^ sh < 2 * m := by omega
    have h2 : ¬ 2 * m = 2 ^ sh := by omega
    have h3 : ¬ 65536 * 2 ^ sh ≤ 65536 * m + 0 * 2 ^ sh := by omega
    by_cases hup : mode = 2
    · simp [hup, h0]
    · by_cases hdown : mode = 3
      · simp [hdown, h0]
      · simp only [h0, h1, h2, h3, hup, hdown]
        simp

/-- Rounding to a multiple of 2^q rounds the quotient by 2^(q - e), also where the model replaces a magnitude far below the
quantum by a smaller one. -/
theorem quantise_eq_roundedQuot (mode : Nat) (neg : Bool) (m : Nat) {e q : Int} (h : e < q) :
    quantise mode neg m e q 0 = roundedQuot mode neg m (q - e).toNat := by
  simp only [quantise, not_le.2 h, if_false]
  by_cases hfar : Nat.log2 m + 64 < (q - e).toNat
  · have hmin : 2 * min m 1 < 2 ^ 64 := by omega
    have hm : 2 * m < 2 ^ (q - e).toNat := by
      calc 2 * m < 2 * 2 ^ (Nat.log2 m + 1) := by have := Nat.lt_log2_self (n := m); omega
        _ = 2 ^ (Nat.log2 m + 2) := by ring
        _ ≤ 2 ^ (q - e).toNat := Nat.pow_le_pow_right (by decide) (by omega)
    rw [if_pos hfar, roundedQuot_of_small mode neg hm]
    refine (roundedQuot_of_small mode neg hmin).trans ?_
    simp only [show min m 1 ≠ 0 ↔ m ≠ 0 by omega]
  · rw [if_neg hfar, roundedQuot]

theorem roundedQuot_toward_zero (neg : Bool) (m sh : Nat) : roundedQuot 1 neg m sh = m / 2 ^ sh := by
  simp [roundedQuot, roundsUp]

theorem add_pred_div_eq (m : Nat) {u : Nat} (hu : 0 < u) :
    (m + (u - 1)) / u = if m % u = 0 then m / u else m / u + 1 := by
  have hm : m + (u - 1) = m % u + (u - 1) + u * (m / u) := by have := Nat.mod_add_div m u; omega
  rw [hm, Nat.add_mul_div_left _ _ hu]
  split
  · rw [Nat.div_eq_of_lt (by omega), Nat.zero_add]
  · have hlt := Nat.mod_lt m hu
    rw [show m % u + (u - 1) = m % u - 1 + u by omega, Nat.add_div_right _ hu, Nat.div_eq_of_lt (by omega), Nat.add_comm]

theorem roundedQuot_up (neg : Bool) (m sh : Nat) :
    roundedQuot 2 neg m sh = if neg then m / 2 ^ sh else (m + (2 ^ sh - 1)) / 2 ^ sh := by
  rw [add_pred_div_eq m (by positivity)]
  cases neg <;> simp [roundedQuot, roundsUp, ite_not]

theorem roundedQuot_down (neg : Bool) (m sh : Nat) :
    roundedQuot 3 neg m sh = if neg then (m + (2 ^ sh - 1)) / 2 ^ sh else m / 2 ^ sh := by
  rw [add_pred_div_eq m (by positivity)]
  cases neg <;> simp [roundedQuot, roundsUp, ite_not]

theorem roundsUp_nearest (neg : Bool) (lo rem sh : Nat) :
    roundsUp 0 neg lo rem sh 0 = true ↔ 2 ^ sh < 2 * rem ∨ 2 * rem = 2 ^ sh ∧ lo % 2 = 1 := by
  by_cases h0 : rem = 0
  · simp [roundsUp, h0, (Nat.two_pow_pos sh).ne]
  · simp [roundsUp, h0]

/-- To nearest: at most half of the quantum away, and even where it is half. -/
theorem roundedQuot_nearest (neg : Bool) (m sh : Nat) :
    2 * ((m : Int) - (roundedQuot 0 neg m sh * 2 ^ sh : Nat)).natAbs ≤ 2 ^ sh ∧
      (2 * ((m : Int) - (roundedQuot 0 neg m sh * 2 ^ sh : Nat)).natAbs = 2 ^ sh → roundedQuot 0 neg m sh % 2 = 0) := by
  have hm := Nat.div_add_mod' m (2 ^ sh)
  have hlt := Nat.mod_lt m (Nat.two_pow_pos sh)
  have hup := roundsUp_nearest neg (m / 2 ^ sh) (m % 2 ^ sh) sh
  rw [roundedQuot]
  split
  · next h =>
    have hdist : (m : Int) - ((m / 2 ^ sh + 1) * 2 ^ sh : Nat) = (m % 2 ^ sh : Nat) - (2 ^ sh : Nat) := by
      rw [Nat.add_mul]
      omega
    have := hup.1 h
    rw [hdist]
    omega
  · next h =>
    have hdist : (m : Int) - (m / 2 ^ sh * 2 ^ sh : Nat) = (m % 2 ^ sh : Nat) := by omega
    have := mt hup.2 h
    rw [hdist]
    omega

/-- Settles O6: the far case of a quantum joins the near one, and a pattern is the sum of its fields. -/
theorem formatsAndRounding : Obligations.FormatsAndRounding := by
  unfold Obligations.FormatsAndRounding
  refine ⟨fun neg m e q h => ?_, fun f n hn hv => ?_⟩
  · simp only [quantise_eq_roundedQuot _ _ _ h]
    obtain ⟨hnear, heven⟩ := roundedQuot_nearest neg m (q - e).toNat
    exact ⟨hnear, heven, roundedQuot_toward_zero neg m _, roundedQuot_up neg m _,
      roundedQuot_down neg m _⟩
  · cases hf : f.isInt with
    | true => exact enc_val_int hf hn
    | false => exact enc_val_float hf hn hv

end Sys2Proof.FloatProofs
end

section
/-! PROOFS. The binary32, binary64, fused, conversion and packing words (O7 to O9): each word's meaning is one of the shapes
of `Laws/Issue`, and its lane function is the statement's once the flush bit and the fields are written as there. -/

namespace Sys2Proof.FloatProofs
open Sys2Proof Sys2Proof.Machine Sys2Proof.IntegerProofs

/-- FZ as the statements write it. -/
theorem fz_eq (z : Fin 2) : fz z = decide (z = 1) := decide_eq_decide.2 (Fin.ext_iff (b := 1)).symm

theorem resV2_of_vecOp2 {s : State} {x : Cx} {i : Instr} {d : Fin 64} {f : Cx → Nat → DWord} {g : Nat → DWord}
    (he : exec i s = issue i s (vecOp2 d f)) (hf : ∀ l, f x l = g l) : ResV2 s x i d g := fun h => by
  rw [← show f x = g from funext hf]
  exact doesV_vecOp2 s x i d f h he

/-! ### Binary32 (R144 to R149) -/

/-- FMINN and FMAXN are FMIN and FMAX where neither operand is a NaN (R145). -/
theorem minMaxNan_eq (p : FV → FV → FV) (u v : FV) :
    minMaxNan p u v = if u.isNan || v.isNan then .nan else minMaxNum p u v := by
  rw [minMaxNan, minMaxNum]
  split
  · rfl
  · next h =>
    rw [Bool.or_eq_true, not_or] at h
    rw [if_neg h.1, if_neg h.2]

/-- Settles O7: the lane functions are the exact operations of the flushed operands, rounded once and flushed. -/
theorem float32Results : Obligations.Float32Results := by
  unfold Obligations.Float32Results
  intro s x c m d a b bs z r
  rw [← fz_eq z]
  exact ⟨resV_of_vecOp rfl fun _ => rfl,
    resV_of_vecOp rfl fun _ => rfl,
    resV_of_vecOp rfl fun _ => rfl,
    resV_of_vecOp rfl fun _ => rfl,
    resV_of_vecOp rfl fun _ => rfl,
    resV_of_vecOp rfl fun _ => by rw [bin2, pickF, minMaxNan_eq]; rfl,
    resV_of_vecOp rfl fun _ => by rw [bin2, pickF, minMaxNan_eq]; rfl,
    resV_of_vecOp rfl fun _ => rfl,
    resM_of_cmpOp rfl fun _ => rfl,
    resM_of_cmpOp rfl fun _ => rfl,
    resM_of_cmpOp rfl fun _ => rfl,
    resM_of_cmpOp rfl fun _ => rfl,
    resM_of_cmpOp rfl fun _ => rfl,
    resV_of_vecOp rfl fun _ => rfl,
    resV_of_vecOp rfl fun _ => rfl,
    resV_of_vecOp rfl fun _ => rfl⟩

/-! ### Binary64 and the fused words (R146, R150, R159) -/

/-- Settles O8: one rounding of the exact sum of the products and the addend. -/
theorem float64AndFusedResults : Obligations.Float64AndFusedResults := by
  unfold Obligations.Float64AndFusedResults
  intro s x c m d a b g bs z
  rw [← fz_eq z]
  exact ⟨resV2_of_vecOp2 rfl fun _ => rfl,
    resV2_of_vecOp2 rfl fun _ => rfl,
    resV2_of_vecOp2 rfl fun _ => rfl,
    resV2_of_vecOp2 rfl fun _ => rfl,
    resM_of_cmpOp rfl fun _ => rfl,
    resV2_of_vecOp2 rfl fun _ => rfl,
    resV_of_vecOp rfl fun _ => rfl,
    resV_of_vecOp rfl fun _ => rfl,
    resV_of_vecOp rfl fun _ => rfl,
    resV_of_vecOp rfl fun _ => rfl,
    resV_of_vecOp rfl fun _ => rfl,
    resV_of_vecOp rfl fun _ => rfl,
    resV_of_vecOp rfl fun _ => rfl,
    resV_of_vecOp rfl fun _ => rfl⟩

/-! ### CVT (R151) -/

theorem loW_ofNat (n : Nat) : loW (BitVec.ofNat 64 n) = BitVec.ofNat 32 n := by
  apply BitVec.eq_of_toNat_eq
  simp only [loW, BitVec.extractLsb'_toNat, BitVec.toNat_ofNat, Nat.shiftRight_zero]
  omega

theorem loW_ofInt (z : Int) : loW (BitVec.ofInt 64 z) = BitVec.ofInt 32 z := by
  apply BitVec.eq_of_toNat_eq
  simp only [loW, BitVec.extractLsb'_toNat, BitVec.toNat_ofInt, Nat.shiftRight_zero]
  omega

theorem loW_zeroExtend (w : Word) : loW (w.zeroExtend 64) = w := by
  have hw := w.isLt
  apply BitVec.eq_of_toNat_eq
  simp only [loW, BitVec.extractLsb'_toNat, BitVec.truncate_eq_setWidth, BitVec.toNat_setWidth, Nat.shiftRight_zero]
  omega

theorem val_f16_low_half (n : Nat) : val .f16 (n % 2 ^ 16) = val .f16 n := val_mod_two_pow_bits rfl n

theorem val_bf16_low_half (n : Nat) : val .bf16 (n % 2 ^ 16) = val .bf16 n := val_mod_two_pow_bits rfl n

section Cvt
variable {s : State} {x : Cx} {c : Bool} {d a : Fin 64} {t : Fin 32} {r : Fin 8} {z : Fin 2}

theorem loW_cvtSrcD {k : Nat} (h : cvtSrc k = 1) (l : Nat) : loW (cvtSrcD k a x l) = x.v a l := by
  simp [cvtSrcD, h, loW_zeroExtend]

theorem exec_cvt_word (h : cvtDst t.val = 1) : exec (.cvt c d a t r z) s =
    issue (.cvt c d a t r z) s (vecOp d (fun x l => loW (cvtD t.val r.val (fz z) (cvtSrcD t.val a x l)))) := by
  change execCvt c d a t r z s = _
  simp only [execCvt, h]
  rfl

theorem exec_cvt_pair (h : cvtDst t.val = 2) : exec (.cvt c d a t r z) s =
    issue (.cvt c d a t r z) s (vecOp2 d (fun x l => cvtD t.val r.val (fz z) (cvtSrcD t.val a x l))) := by
  change execCvt c d a t r z s = _
  simp only [execCvt, h]
  rfl

theorem cvtD_of_toF {k : Nat} {v : DWord} {f : Fmt} {y : FV} (h : cvtToF k (fz z) r.val v = some (f, y)) :
    cvtD k r.val (fz z) v = BitVec.ofNat 64 (enc f y) := by
  simp only [cvtD, h]

theorem cvtD_of_toI {k : Nat} {v : DWord} {lo hi : Int} {y : FV} (hn : cvtToF k (fz z) r.val v = none)
    (h : cvtToI k (fz z) v = (lo, hi, y)) :
    cvtD k r.val (fz z) v = BitVec.ofInt 64 ((roundToInt r.val y).satInt lo hi) := by
  simp only [cvtD, hn, h]

theorem resV_cvt_float {k : Nat} {f : Fmt} {y : Nat → FV} (ht : t.val = k) (hd : cvtDst k = 1)
    (h : ∀ l, cvtToF k (fz z) r.val (cvtSrcD k a x l) = some (f, y l)) :
    ResV s x (.cvt c d a t r z) d (fun l => BitVec.ofNat 32 (enc f (y l))) := by
  subst ht
  exact resV_of_vecOp (exec_cvt_word hd) fun l => by rw [cvtD_of_toF (h l), loW_ofNat]

theorem resV2_cvt_float {k : Nat} {f : Fmt} {y : Nat → FV} (ht : t.val = k) (hd : cvtDst k = 2)
    (h : ∀ l, cvtToF k (fz z) r.val (cvtSrcD k a x l) = some (f, y l)) :
    ResV2 s x (.cvt c d a t r z) d (fun l => BitVec.ofNat 64 (enc f (y l))) := by
  subst ht
  exact resV2_of_vecOp2 (exec_cvt_pair hd) fun l => cvtD_of_toF (h l)

theorem resV_cvt_int {k : Nat} {lo hi : Int} {y : Nat → FV} (ht : t.val = k) (hd : cvtDst k = 1)
    (hn : ∀ v, cvtToF k (fz z) r.val v = none) (h : ∀ l, cvtToI k (fz z) (cvtSrcD k a x l) = (lo, hi, y l)) :
    ResV s x (.cvt c d a t r z) d (fun l => BitVec.ofInt 32 ((roundToInt r.val (y l)).satInt lo hi)) := by
  subst ht
  exact resV_of_vecOp (exec_cvt_word hd) fun l => by rw [cvtD_of_toI (hn _) (h l), loW_ofInt]

theorem resV2_cvt_int {k : Nat} {lo hi : Int} {y : Nat → FV} (ht : t.val = k) (hd : cvtDst k = 2)
    (hn : ∀ v, cvtToF k (fz z) r.val v = none) (h : ∀ l, cvtToI k (fz z) (cvtSrcD k a x l) = (lo, hi, y l)) :
    ResV2 s x (.cvt c d a t r z) d (fun l => BitVec.ofInt 64 ((roundToInt r.val (y l)).satInt lo hi)) := by
  subst ht
  exact resV2_of_vecOp2 (exec_cvt_pair hd) fun l => cvtD_of_toI (hn _) (h l)

end Cvt

/-! ### QNT (R138, R139, R152) -/

theorem fld_zero_eight (n : Nat) : fld n 0 8 = n % 256 := fld_zero n 8

theorem qntW_eq (t r : Nat) (z : Bool) (draw : Nat) (d a : Word) :
    qntW t r z draw d a = BitVec.ofNat 32 (enc (.ofCode t)
      (if d.toNat % 256 = 255 ∨ (flushIn z .f32 a.toNat).isNan = true then .nan
       else roundR (.ofCode t) r draw ((flushIn z .f32 a.toNat).scale (127 - (d.toNat % 256 : Nat))))) := by
  simp only [qntW, fld_zero_eight, wd, Bool.or_eq_true, decide_eq_true_eq]
  split <;> rfl

/-- The value read after each key of a list is put once. -/
theorem smGet_smPuts_map {α : Type} [DecidableEq α] (d : α) (m : List (Nat × α)) (ls : List Nat) (f : Nat → α) (k : Nat) :
    smGet d (smPuts d m (ls.map (fun i => (i, f i)))) k = if k ∈ ls then f k else smGet d m k := by
  induction ls generalizing m with
  | nil => simp [smPuts]
  | cons i ls ih =>
    rw [List.map_cons, smPuts, ih, smGet_smPut]
    by_cases hk : k ∈ ls
    · simp [hk]
    · by_cases hi : k = i <;> simp [hk, hi]

/-- The generators of the lanes of `ls` each after one draw. -/
def drawn (ls : List Nat) (gen : List (Nat × Word)) : List (Nat × Word) :=
  smPuts 0 gen (ls.map (fun i => (i, (lfsrDraw (smGet 0 gen i)).2)))

theorem smGet_drawn (ls : List Nat) (gen : List (Nat × Word)) (l : Nat) :
    smGet 0 (drawn ls gen) l = if l ∈ ls then (lfsrDraw (smGet 0 gen l)).2 else smGet 0 gen l :=
  smGet_smPuts_map 0 gen ls _ l

section Qnt
variable {s : State} {x : Cx} {c : Bool} {d a : Fin 64} {t : Fin 32} {r : Fin 8} {z : Fin 2}

/-- A mode other than rst makes no draw. -/
theorem resV_qnt (hr : r.val ≠ 4) :
    ResV s x (.qnt c d a t r z) d (fun l => qntW t r (fz z) 0 (x.v d l) (x.v a l)) := by
  refine resV_of_vecOp (f := fun x l => qntW t r (fz z) 0 (x.v d l) (x.v a l)) ?_ fun _ => rfl
  change execQnt c d a t r z s = _
  have hbody : qntBody t r (fz z) d a = vecOp d (fun x l => qntW t r (fz z) 0 (x.v d l) (x.v a l)) := by
    funext s x
    simp only [qntBody, hr, if_false, vecOp]
  rw [execQnt, hbody]

/-- The registers after QNT.rst: its results, and the generators of the active lanes after a draw. -/
def qntRegs (t : Nat) (z : Bool) (d a : Fin 64) (x : Cx) (g : Regs) : Regs :=
  { g.putV (x.lanes.map (fun l => (vkey d l, qntW t 4 z (lfsrDraw (smGet 0 x.src.r.gen l)).1 (x.v d l) (x.v a l)))) with
    gen := drawn x.lanes g.gen }

theorem qntBody_rst (z : Bool) : qntBody t 4 z d a s x = .done (s.modRegs x (qntRegs t z d a x)) := by
  simp only [qntBody, if_true, State.putV, State.modRegs, State.modGang, smModify_smModify]
  rfl

theorem exec_qnt_rst (h : Issues s x (.qnt c d a t r z)) (hr : r.val = 4) :
    ∃ u g, exec (.qnt c d a t r z) s = .next u ∧ u.gang x.cur.gang = some g ∧
      g.r = qntRegs t (fz z) d a x x.gang.r := by
  have hbody : qntBody t r (fz z) d a s x = .done (s.modRegs x (qntRegs t (fz z) d a x)) := by rw [hr, qntBody_rst]
  have hregs := onlyRegs_of s (finish x (qntBody t r (fz z) d a s x)) x (qntRegs t (fz z) d a x) h.ctx
    (by rw [finish_still, hbody]; rfl)
  obtain ⟨-, -, g, hg, hstill⟩ := hregs
  exact ⟨_, g, issue_of _ s x _ h, hg, congrArg Gang.r hstill⟩

theorem rdV_qntRegs (z : Bool) (g : Regs) (e : Nat) {l : Nat} (hl : l < 32) :
    (qntRegs t z d a x g).rdV e l = if e = d.val ∧ l ∈ x.lanes then
      qntW t 4 z (lfsrDraw (smGet 0 x.src.r.gen l)).1 (x.v d l) (x.v a l) else g.rdV e l :=
  Regs.rdV_putV g x.lanes d _ e l hl x.lanes_lt

end Qnt

/-! ### DQNT, MXSCL, UNPK (R153 to R156) -/

theorem dqntW_of_element {t : Nat} (ht : t ≠ 10) (r : Nat) (z : Bool) (a : Word) :
    dqntW t r z a = wd (flushOut z .f32 (round .f32 r
      ((val (Fmt.ofCode t) (a.toNat % 256)).mul (scaleV (a.toNat / 2 ^ 16 % 256))))) := by
  simp only [dqntW, ht, if_false, fld_zero_eight]
  rfl

theorem unpkW_of_half {t : Nat} (ht : t ≤ 2) (k : Nat) (z : Bool) (a : Word) :
    unpkW t k z a = wd (flushOut z .f32 (round .f32 0 (flushIn z (Fmt.ofCode t) (fld a.toNat (16 * k) 16)))) := by
  simp only [unpkW, ht, if_true]

theorem unpkW_of_nibble {t : Nat} (ht : t = 7 ∨ t = 9) (k : Nat) (z : Bool) (a : Word) :
    unpkW t k z a = wd (flushOut z .f32 (round .f32 0 (flushIn z (Fmt.ofCode t) (fld a.toNat (4 * k) 4)))) := by
  have h2 : ¬ t ≤ 2 := by omega
  simp only [unpkW, h2, ht, if_true, if_false]

theorem unpkW_of_byte {t : Nat} (h3 : 3 ≤ t) (h7 : t ≠ 7) (h9 : t ≠ 9) (k : Nat) (z : Bool) (a : Word) :
    unpkW t k z a = wd (flushOut z .f32 (round .f32 0 (flushIn z (Fmt.ofCode t) (fld a.toNat (8 * k) 8)))) := by
  have h2 : ¬ t ≤ 2 := by omega
  simp only [unpkW, h2, h7, h9, or_self, if_false]

/-! ### The statement -/

/-- Settles O9: CVT by its table of type pairs, QNT with and without a draw, and the packing words by their fields. -/
theorem conversionResults : Obligations.ConversionResults := by
  unfold Obligations.ConversionResults
  intro s x c d a b bs t r k z
  rw [← fz_eq z]
  dsimp only
  simp only [List.forall_mem_cons]
  refine ⟨⟨fun ht => ?_, fun ht => ?_, fun ht => ?_, fun ht => ?_, fun ht => ?_, fun ht => ?_, fun ht => ?_, fun ht => ?_,
      fun ht => ?_, fun ht => ?_, fun ht => ?_, List.forall_mem_nil _⟩,
    ⟨fun ht => ?_, fun ht => ?_, fun ht => ?_, fun ht => ?_, fun ht => ?_, List.forall_mem_nil _⟩,
    fun hr => ?_, fun h hr => ?_, fun ht => ?_, fun ht => ?_, ?_, ?_, fun ht => ?_, fun ht => ?_, fun ht => ?_⟩
  · exact resV_cvt_float ht rfl fun l => by rw [val_f16_low_half, ← loW_cvtSrcD (k := 0) rfl l]; rfl
  · exact resV_cvt_float ht rfl fun l => by rw [← loW_cvtSrcD (k := 1) rfl l]; rfl
  · exact resV_cvt_float ht rfl fun l => by rw [val_bf16_low_half, ← loW_cvtSrcD (k := 2) rfl l]; rfl
  · exact resV_cvt_float ht rfl fun l => by rw [← loW_cvtSrcD (k := 3) rfl l]; rfl
  · exact resV_cvt_float ht rfl fun _ => rfl
  · exact resV_cvt_float ht rfl fun l => by rw [← loW_cvtSrcD (k := 6) rfl l]; rfl
  · exact resV_cvt_float ht rfl fun l => by rw [← loW_cvtSrcD (k := 7) rfl l]; rfl
  · exact resV_cvt_int ht rfl (fun _ => rfl) fun l => by rw [← loW_cvtSrcD (k := 8) rfl l]; rfl
  · exact resV_cvt_int ht rfl (fun _ => rfl) fun l => by rw [← loW_cvtSrcD (k := 9) rfl l]; rfl
  · exact resV_cvt_int ht rfl (fun _ => rfl) fun _ => rfl
  · exact resV_cvt_int ht rfl (fun _ => rfl) fun _ => rfl
  · exact resV2_cvt_float ht rfl fun l => by rw [← loW_cvtSrcD (k := 5) rfl l]; rfl
  · exact resV2_cvt_float ht rfl fun l => by rw [← loW_cvtSrcD (k := 10) rfl l]; rfl
  · exact resV2_cvt_float ht rfl fun _ => rfl
  · exact resV2_cvt_int ht rfl (fun _ => rfl) fun _ => rfl
  · exact resV2_cvt_float ht rfl fun l => by rw [← loW_cvtSrcD (k := 14) rfl l]; rfl
  · have hq : ResV s x (.qnt c d a t r z) d _ := resV_qnt hr
    simp only [qntW_eq] at hq
    exact hq
  · obtain ⟨u, g, hu, hg, hregs⟩ := exec_qnt_rst h hr
    refine ⟨u, g, hu, hg, fun l hl => ?_, fun e l hl he => ?_, fun l _ => ?_⟩
    · rw [hregs, rdV_qntRegs _ _ _ (x.lanes_lt l hl), if_pos ⟨rfl, hl⟩, qntW_eq, hr]
      rfl
    · rw [hregs, rdV_qntRegs _ _ _ hl, if_neg (by tauto)]
    · rw [hregs]
      exact smGet_drawn ..
  · exact resV_of_vecOp rfl fun _ => dqntW_of_element ht ..
  · refine resV_of_vecOp rfl fun _ => ?_
    rw [ht, dqntW, fld_zero]
    rfl
  · refine resV_of_vecOp rfl fun _ => ?_
    rw [bin2, mxsclW, fld_zero]
    rfl
  · exact resV_of_vecOp rfl fun _ => rfl
  · exact resV_of_vecOp rfl fun _ => unpkW_of_half (by omega) ..
  · exact resV_of_vecOp rfl fun _ => unpkW_of_nibble ht ..
  · obtain ⟨h3, -, h7, h9⟩ := ht
    exact resV_of_vecOp rfl fun _ => unpkW_of_byte h3 h7 h9 ..

end Sys2Proof.FloatProofs
end

section
/-! PROOFS. The special functions (O10): their issue as outstanding instructions, their completion, and the cases fixed
whatever the bound. -/

namespace Sys2Proof.FloatProofs
open Sys2Proof Sys2Proof.Machine Sys2Proof.ControlProofs

/-! ### Issue and completion (R142) -/

/-- The record of a special function: its results are those of the operands read now. -/
theorem does_of_sfuOp {s : State} {x : Cx} {i : Instr} {d a : Fin 64} {l : Fin 16} {f : Word → Word → Word}
    (he : exec i s = issue i s (sfuOp d a l f)) (h : Issues s x i) : Does s x i (openOut s x
      { kind := .sfu, gang := x.cur.gang, grp := x.cur.grp, pc := x.cur.pc, npc := x.cur.last + 1,
        wrV := x.lanes.map (fun k => (vkey d k, f (x.v d k) (x.v a k))), dstV := [d.val] } l) :=
  exec_of_issues h he rfl

/-- The windows of outstanding instruction `id` closed in every slice. -/
def Gang.closed (g : Gang) (id : Nat) : Gang :=
  { g with slices := g.slices.map (fun sl => { sl with wins := sl.wins.filter (fun p => decide (p.1 ≠ id)) }) }

theorem Gang.wins_of_closed {g : Gang} {id : Nat} {sl : Slice} (hsl : sl ∈ (Gang.closed g id).slices) {p : Nat × Nat}
    (hp : p ∈ sl.wins) : p.1 ≠ id := by
  obtain ⟨sl', -, rfl⟩ := List.mem_map.1 hsl
  exact of_decide_eq_true (List.mem_filter.1 hp).2

theorem closeOut_of_some {s : State} {id : Nat} {o : Out} (ho : smFind s.work.outs id = some o) :
    closeOut s id = ({ s with work.outs := smErase s.work.outs id } : State).modGang o.gang (Gang.closed · id) := by
  simp only [closeOut, ho]
  rfl

theorem exec_sfuResult_of_some {s : State} {o : Out} (ho : smFind s.work.outs (s.op 0) = some o) (hk : o.kind = .sfu) :
    exec .sfuResult s = .next (closeOut (writeOut s o) (s.op 0)) := by
  change execSfuResult s = _
  simp only [execSfuResult, ho, hk, if_true, event]

theorem sfuResult_completes {s : State} {o : Out} {g : Gang} (ho : smFind s.work.outs (s.op 0) = some o)
    (hk : o.kind = .sfu) (hs : o.wrS = []) (hg : s.gang o.gang = some g) :
    ∃ t, exec .sfuResult s = .next t ∧ smFind t.work.outs (s.op 0) = none ∧
      t.gang o.gang = some (Gang.closed { g with r := g.r.putV o.wrV } (s.op 0)) ∧ t.mem = s.mem := by
  have hclose := closeOut_of_some (s := writeOut s o) ho
  refine ⟨_, exec_sfuResult_of_some ho hk, ?_, ?_, ?_⟩
  · rw [hclose, State.modGang_work_outs, smFind_smErase, if_pos rfl]
  · have hw : (writeOut s o).gang o.gang = some { g with r := g.r.putV o.wrV } := by
      rw [writeOut, hs, State.gang_modGang, if_pos rfl, hg]
      rfl
    rw [hclose, State.gang_modGang, if_pos rfl]
    exact congrArg (Option.map (Gang.closed · (s.op 0))) hw
  · exact ((closeOut_beside ..).mem).trans (writeOut_beside ..).mem

/-! ### The fixed cases (R157, R158) -/

section Cases
variable {a : Word} {n : Bool} {m : Nat} {e : Int}

theorem sfu_of_nan (d : Word) (h : val .f32 a.toNat = .nan) :
    frcpW d a = wNan ∧ frsqW d a = wNan ∧ fsqrtW d a = wNan ∧ fex2W d a = wNan ∧ flg2W d a = wNan ∧
      ftrigW 1 d a = wNan ∧ ftrigW 0 d a = wNan := by
  simp only [frcpW, frsqW, fsqrtW, fex2W, flg2W, ftrigW, h, and_self]

theorem sfu_of_zero (d : Word) (h : val .f32 a.toNat = .fin n 0 e) :
    frcpW d a = wInf n ∧ frsqW d a = wInf n ∧ fsqrtW d a = wZero n ∧ fex2W d a = w1 ∧ flg2W d a = wInf true ∧
      ftrigW 1 d a = wZero n ∧ ftrigW 0 d a = w1 := by
  simp [frcpW, frsqW, fsqrtW, fex2W, flg2W, ftrigW, h]

theorem sfu_of_inf (d : Word) (h : val .f32 a.toNat = .inf n) :
    frcpW d a = wZero n ∧ frsqW d a = (if n then wNan else 0) ∧ fsqrtW d a = (if n then wNan else wInf false) ∧
      fex2W d a = (if n then 0 else wInf false) ∧ flg2W d a = (if n then wNan else wInf false) ∧
      ftrigW 1 d a = wNan ∧ ftrigW 0 d a = wNan := by
  simp only [frcpW, frsqW, fsqrtW, fex2W, flg2W, ftrigW, h, and_self]

theorem sfu_of_negative (d : Word) (hm : m ≠ 0) (h : val .f32 a.toNat = .fin true m e) :
    frsqW d a = wNan ∧ fsqrtW d a = wNan ∧ flg2W d a = wNan := by
  simp only [frsqW, fsqrtW, flg2W, h, hm, if_true, if_false, and_self]

theorem fsqrtW_of_positive (d : Word) (hm : m ≠ 0) (h : val .f32 a.toNat = .fin false m e) :
    fsqrtW d a = wd (enc .f32 (round .f32 0 (sqrtV m e))) := by
  simp only [fsqrtW, h, hm, if_false, Bool.false_eq_true]

theorem fdivW_of_positive {d : Word} {k : Nat} {f : Int} (hm : m ≠ 0) (hk : k ≠ 0) (hd : val .f32 d.toNat = .fin n m e)
    (ha : val .f32 a.toNat = .fin false k f) : fdivW d a = wd (enc .f32 (round .f32 0 (divV m e k f n))) := by
  simp only [fdivW, hd, ha, hm, hk, if_false, FV.isNeg, Bool.bne_false]

end Cases

/-- Settles O10: each special function opens the record of its results, SFU_RESULT closes it, and the cases that the
bounds leave no choice in. -/
theorem specialFunctionResults : Obligations.SpecialFunctionResults := by
  unfold Obligations.SpecialFunctionResults
  refine ⟨⟨fun s x c d a l => ⟨does_of_sfuOp rfl, does_of_sfuOp rfl, does_of_sfuOp rfl, does_of_sfuOp rfl,
      does_of_sfuOp rfl, does_of_sfuOp rfl, does_of_sfuOp rfl, does_of_sfuOp rfl⟩, fun s o g ho hk hs hg => ?_⟩,
    fun d a n m k e f => ⟨sfu_of_nan d, sfu_of_zero d, sfu_of_inf d, fun hm => sfu_of_negative d hm.ne',
      fun hm => fsqrtW_of_positive d hm.ne', fun hm hk => fdivW_of_positive hm.ne' hk.ne'⟩⟩
  obtain ⟨t, ht, hout, hgang, hmem⟩ := sfuResult_completes ho hk hs hg
  exact ⟨t, _, ht, hout, hgang, rfl, fun sl hsl p hp => Gang.wins_of_closed hsl hp, fun b => by rw [hmem]⟩

end Sys2Proof.FloatProofs
end

section
/-! PROOFS. The matrix words (O37): the MXERR pending, the checks, then a request posted or captured, MFMT, MRQ and MQRY. -/

namespace Sys2Proof.MatrixProofs
open Sys2Proof Sys2Proof.Machine Sys2Proof.ControlProofs

/-! ### What the completion of a word leaves alone -/

@[simp] theorem finish_eng (x : Cx) (r : Res) : (finish x r).eng = r.state.eng :=
  finish_keeps State.eng (fun _ _ => rfl) x r

@[simp] theorem finish_work_engs (x : Cx) (r : Res) : (finish x r).work.engs = r.state.work.engs :=
  finish_keeps (fun s => s.work.engs) (fun _ _ => rfl) x r

@[simp] theorem finish_work_outs (x : Cx) (r : Res) : (finish x r).work.outs = r.state.work.outs :=
  finish_keeps (fun s => s.work.outs) (fun _ _ => rfl) x r

/-- The completion of a word leaves its gang's latch as the word left it. -/
theorem finish_gang_latch {x : Cx} {r : Res} {k : Nat} {g : Gang} (hg : r.state.gang k = some g) :
    ∃ g', (finish x r).gang k = some g' ∧ g'.latch = g.latch := by
  have h := finish_gang x r k
  rw [hg, Option.map_some, Option.map_eq_some_iff] at h
  obtain ⟨g', hg', hs⟩ := h
  have hl : g'.still.latch = g.still.latch := congrArg Gang.latch hs
  exact ⟨g', hg', hl⟩

/-! ### What a matrix word comes to (R187, R188) -/

/-- The words that post a request, each with its request's kind, Z and operands. -/
def requestForms (x : Cx) (c : Bool) (k : Fin 8) (a b : Fin 64) (f l : Fin 16) (z : Fin 2) :
    List (Instr × MxKind × Bool × List Word × List Word) :=
  [(.mma c k a b f l z, .mma, decide (z.val = 1), x.s4 a, [x.s b, x.s (b.val + 1)]), (.mmz c k f l, .mmz, false, [], []),
   (.mdr c k a b f l z, .mdr, decide (z.val = 1), x.s4 a, [x.s b, x.s (b.val + 1)]), (.mld c k a f l, .mld, false, x.s4 a, [])]

section Words
variable {s : State} {x : Cx} {i : Instr} {c : Bool} {k : Fin 8} {a b : Fin 64} {f l : Fin 16} {z : Fin 2}

/-- The meaning of a word that posts a request, at the context's operands. -/
theorem exec_of_requestForm {w : Instr × MxKind × Bool × List Word × List Word} (hw : w ∈ requestForms x c k a b f l z) :
    ∃ body, exec w.1 s = issue w.1 s body ∧ body s x = postBody w.2.1 k f w.2.2.1 w.2.2.2.1 w.2.2.2.2 l s x := by
  simp only [requestForms, List.mem_cons, List.not_mem_nil, or_false] at hw
  rcases hw with rfl | rfl | rfl | rfl <;> exact ⟨_, by rfl, by rfl⟩

theorem mtx_of_none (body : Res) (h : x.gang.mxerr = none) : mtx s x body = body := by
  rw [mtx, h]

theorem mtx_of_some {e : AErr} (body : Res) (h : x.gang.mxerr = some e) :
    mtx s x body = .trap (s.modGang x.cur.gang (fun g => { g with mxerr := none }))
      { cause := e.cause, lanes := grpLanes x.cur.grp, addr := e.addr, detail := e.info, kind := .async } := by
  rw [mtx, h]
  rfl

/-- Every matrix word raises the MXERR pending before all else. -/
theorem exec_eq_mtx (hi : i ∈ (requestForms x c k a b f l z).map (fun w => w.1) ++ [.mfmt c a f l, .mrq c k a l z, .mqry c a l]) :
    ∃ body r, exec i s = issue i s body ∧ body s x = mtx s x r := by
  rcases List.mem_append.1 hi with hi | hi
  · obtain ⟨w, hw, rfl⟩ := List.mem_map.1 hi
    obtain ⟨body, he, hb⟩ := exec_of_requestForm (s := s) hw
    exact ⟨body, _, he, hb⟩
  · simp only [List.mem_cons, List.not_mem_nil, or_false] at hi
    rcases hi with rfl | rfl | rfl <;> exact ⟨_, _, by rfl, by rfl⟩

/-! ### A request posted or captured (R176, R353) -/

section Post
variable {kind : MxKind} {tile slot la : Nat} {zero : Bool} {u v : List Word}

theorem postBody_of_check {t : TrapReq} (he : x.gang.mxerr = none) (h : mxChecks s x kind tile slot u v = some t) :
    postBody kind tile slot zero u v la s x = .trap s t := by
  rw [postBody, mtx_of_none _ he, h]

theorem postBody_of_passed (he : x.gang.mxerr = none) (h : mxChecks s x kind tile slot u v = none) :
    postBody kind tile slot zero u v la s x = postReq s x
      { kind := kind, gang := x.cur.gang, tile := tile, a := u, b := v, z := zero,
        fd := (smFind (s.ceng x.crewNo).fds slot).getD 0 } la := by
  rw [postBody, mtx_of_none _ he, h]

end Post

/-- The outstanding instruction of a posted request. -/
def postedOut (x : Cx) : Out :=
  { kind := .matrix, gang := x.cur.gang, grp := x.cur.grp, pc := x.cur.pc, npc := x.cur.last + 1, left := 1 }

/-- The state with the request `q` in the post buffer of its quadrant. -/
def posted (s : State) (x : Cx) (q : MxReq) (la : Nat) : State :=
  openOut { s with work.next := s.work.next + 1,
                   eng.mx := smSet s.eng.mx s.work.next { q := { q with out := s.work.next + 1 }, order := s.work.next } }
    x (postedOut x) la

/-- The state with the request `q` captured behind the copies that were in the gang's latch before its chain. -/
def captured (s : State) (x : Cx) (q : MxReq) : State :=
  { s.modGang x.cur.gang (fun g => { g with latch := x.latchLeft }) with
    work.next := s.work.next + 1
    eng.mx := smSet s.eng.mx s.work.next { q := { q with st := .follow, copies := x.gang.latch.copies.filter (fun k => !x.newer k),
                                                         dropped := x.gang.latch.failed } } }

theorem postReq_of_room {q : MxReq} {la : Nat} (ha : x.src.latch.armed = false)
    (hr : postCount s x.core (x.gang.slot / 4) < 4) : postReq s x q la = .done (posted s x q la) := by
  simp only [postReq, ha, Bool.false_eq_true, if_false, if_neg (Nat.not_le.2 hr)]
  rfl

theorem postReq_of_armed {q : MxReq} {la : Nat} (ha : x.src.latch.armed = true) (hr : followCount s x.core < 16) :
    postReq s x q la = .done (captured s x q) := by
  simp only [postReq, ha, if_true, if_neg (Nat.not_le.2 hr)]
  rfl

/-- A posted request waits in the post buffer, its instruction among the outstanding ones. -/
theorem finish_posted (q : MxReq) (la : Nat) :
    smFind (finish x (.done (posted s x q la))).eng.mx s.work.next =
      some { q := { q with out := s.work.next + 1 }, order := s.work.next } ∧
    smFind (finish x (.done (posted s x q la))).work.outs (s.work.next + 1) = some { postedOut x with hnd := x.hnd } := by
  rw [finish_eng, finish_work_outs]
  exact ⟨(smFind_smSet ..).trans (if_pos rfl), (smFind_smSet ..).trans (if_pos rfl)⟩

theorem finish_captured (q : MxReq) : smFind (finish x (.done (captured s x q))).eng.mx s.work.next =
    some { q := { q with st := .follow, copies := x.gang.latch.copies.filter (fun k => !x.newer k),
                         dropped := x.gang.latch.failed } } := by
  rw [finish_eng]
  exact (smFind_smSet ..).trans (if_pos rfl)

theorem captured_gang (q : MxReq) (hx : s.cx = some x) :
    (captured s x q).gang x.cur.gang = some { x.gang with latch := x.latchLeft } := by
  refine (State.gang_modGang s x.cur.gang (fun g => { g with latch := x.latchLeft }) x.cur.gang).trans ?_
  rw [if_pos rfl, cx_gang s x hx]
  rfl

/-! ### MRQ (R195) -/

/-- A word whose answer is the write of one scalar register. -/
theorem doesS_of_putS {body : State → Cx → Res} {d : Fin 64} {v : Word} (h : Issues s x i) (he : exec i s = issue i s body)
    (hb : body s x = .done (s.putS x d v)) : DoesS s x i (oneS d v) := by
  refine doesS_scaOp s x i d (fun _ => v) h ?_
  rw [he, issue_of i s x body h, hb, issue_of i s x _ h]
  rfl

/-- The request is one that an MRQ for tile `k` of the context counts: of its crew where Z is 1, else of its gang. -/
def countedByMrq (x : Cx) (k : Fin 8) (z : Fin 2) (q : MxReq) : Bool :=
  decide (q.tile = k.val) && (if z.val = 1 then decide (q.crew = x.crewNo) else decide (q.gang = x.cur.gang))

/-- How many requests the MRQ counts. -/
def mrqCount (s : State) (x : Cx) (k : Fin 8) (z : Fin 2) : Nat := (s.eng.mx.filter (fun e => countedByMrq x k z e.2.q)).length

theorem mrqCount_of_gang (hz : z.val = 0) : mrqCount s x k z =
    (s.eng.mx.filter (fun e => decide (e.2.q.tile = k.val) && decide (e.2.q.gang = x.cur.gang))).length := by
  simp [mrqCount, countedByMrq, hz]

/-- The outstanding instruction of an MRQ that waits for `n` requests. -/
def mrqOut (x : Cx) (a : Fin 64) (n : Nat) : Out :=
  { kind := .mrq, gang := x.cur.gang, grp := x.cur.grp, pc := x.cur.pc, npc := x.cur.last + 1, left := n,
    wrS := [(a.val, BitVec.ofNat 32 n)], dstS := [a.val] }

/-- The state in which an MRQ waits, named in each request that it counts. -/
def mrqWaits (s : State) (x : Cx) (k : Fin 8) (a : Fin 64) (z : Fin 2) (la : Nat) : State :=
  openOut { s with eng.mx := s.eng.mx.map (fun e =>
    if countedByMrq x k z e.2.q then (e.1, { e.2 with mrq := e.2.mrq ++ [s.work.next] }) else e) } x
    (mrqOut x a (mrqCount s x k z)) la

/-- What an MRQ of a tile that the crew has comes to. -/
theorem exec_mrq (he : x.gang.mxerr = none) (hk : k.val < rwNt x.crew.rw) :
    ∃ body, exec (.mrq c k a l z) s = issue (.mrq c k a l z) s body ∧ body s x =
      if mrqCount s x k z = 0 then .done (s.putS x a 0) else .done (mrqWaits s x k a z l) := by
  refine ⟨_, by rfl, ?_⟩
  dsimp only
  rw [mtx_of_none _ he, if_neg (Nat.not_le.2 hk)]
  rfl

theorem finish_mrqWaits (la : Nat) : smFind (finish x (.done (mrqWaits s x k a z la))).work.outs s.work.next =
    some { mrqOut x a (mrqCount s x k z) with hnd := x.hnd } := by
  rw [finish_work_outs]
  exact (smFind_smSet ..).trans (if_pos rfl)

end Words

/-- Settles O37: a pending MXERR first, then the checks, then the request's place; MFMT, MRQ and MQRY beside. -/
theorem matrixWords : Obligations.MatrixWords := by
  unfold Obligations.MatrixWords
  intro s x c k a b f l z
  dsimp only
  refine ⟨fun w hw q h he hq => ?_, fun w hw h he hq => ⟨fun ha hr => ?_, fun ha hr => ?_⟩, fun h he hf => ?_,
    fun h he hf => ?_, fun h he hk hn => ?_, fun h he hk hz hn => ?_, fun h he => ?_, fun i e hi h he => ?_⟩
  · obtain ⟨body, hx, hb⟩ := exec_of_requestForm (s := s) (l := l) hw
    exact exec_of_issues h hx (hb.trans (postBody_of_check he hq))
  · obtain ⟨body, hx, hb⟩ := exec_of_requestForm (s := s) (l := l) hw
    have hd := exec_of_issues h hx (hb.trans ((postBody_of_passed he hq).trans (postReq_of_room ha hr)))
    obtain ⟨hmx, hout⟩ := finish_posted (s := s) (x := x) _ _
    exact ⟨_, _, _, hd, hmx, rfl, rfl, rfl, rfl, rfl, rfl, rfl, rfl, rfl, hout, rfl, finish_mem .., finish_work_engs ..⟩
  · obtain ⟨body, hx, hb⟩ := exec_of_requestForm (s := s) (l := l) hw
    have hd := exec_of_issues h hx (hb.trans ((postBody_of_passed he hq).trans (postReq_of_armed ha hr)))
    obtain ⟨g, hg, hlatch⟩ := finish_gang_latch (x := x) (r := .done _) (captured_gang _ h.ctx)
    exact ⟨_, _, g, hd, finish_captured _, rfl, rfl, rfl, rfl, hg, hlatch, finish_mem .., finish_work_engs ..⟩
  · refine exec_of_issues h (by rfl) ?_
    dsimp only
    rw [mtx_of_none _ he, if_pos hf]
  · refine exec_of_issues h (by rfl) ?_
    dsimp only
    rw [mtx_of_none _ he, if_neg (Bool.eq_false_iff.1 hf), mxTrap, Nat.zero_add]
    rfl
  · obtain ⟨body, hx, hb⟩ := exec_mrq he hk
    refine doesS_of_putS h hx (hb.trans (if_pos ?_))
    rw [mrqCount, List.length_eq_zero_iff, List.filter_eq_nil_iff]
    intro e hmem
    have := List.all_eq_true.1 hn e hmem
    by_cases hz : z.val = 1 <;> simpa [countedByMrq, hz, imp_iff_not_or] using this
  · obtain ⟨body, hx, hb⟩ := exec_mrq (s := s) (c := c) (a := a) (l := l) (z := z) he hk
    obtain ⟨e, hmem, htile, hgang⟩ := hn
    have hpos : mrqCount s x k z ≠ 0 := by
      rw [mrqCount_of_gang hz]
      exact (List.length_pos_of_mem (List.mem_filter.2 ⟨hmem, by simp [htile, hgang]⟩)).ne'
    exact ⟨_, _, exec_of_issues h hx (hb.trans (if_neg hpos)), finish_mrqWaits _, rfl, rfl, mrqCount_of_gang hz⟩
  · refine doesS_of_putS h (by rfl) ?_
    dsimp only
    rw [mtx_of_none _ he, fld, pow_zero, Nat.div_one]
  · obtain ⟨body, r, hx, hb⟩ := exec_eq_mtx (s := s) hi
    exact exec_of_issues h hx (hb.trans (mtx_of_some r he))

end Sys2Proof.MatrixProofs
end

section
/-! PROOFS. What the matrix engine writes into a tile (O38): the elements and P of a tile, a pass, a zeroing and a load. -/

namespace Sys2Proof.MatrixProofs
open Sys2Proof Sys2Proof.Machine

/-! ### A tile's elements and P (R163, R188) -/

theorem accKey_inj {j k m n u v : Nat} (hm : m < 64) (hn : n < 64) (hu : u < 64) (hv : v < 64) :
    accKey j m n = accKey k u v ↔ j = k ∧ m = u ∧ n = v := by
  unfold accKey
  omega

/-- What is read after a fold each of whose steps sets it to `v` or leaves it alone. -/
theorem read_foldl {σ α β : Type} (read : σ → α) (F : σ → β → σ) (hit : β → Prop) [DecidablePred hit] (v : α)
    (l : List β) (h : ∀ s, ∀ b ∈ l, read (F s b) = if hit b then v else read s) (s : σ) :
    read (l.foldl F s) = if ∃ b ∈ l, hit b then v else read s := by
  induction l generalizing s with
  | nil => simp
  | cons b l ih =>
    rw [List.foldl_cons, ih (fun s b' hb' => h s b' (List.mem_cons_of_mem _ hb')), h s b List.mem_cons_self]
    by_cases hl : ∃ b ∈ l, hit b
    · rw [if_pos hl, if_pos (hl.imp fun _ hb' => ⟨List.mem_cons_of_mem _ hb'.1, hb'.2⟩)]
    · rw [if_neg hl]
      simp only [List.mem_cons, exists_eq_or_imp, hl, or_false]

/-- The elements after a tile is written: those of the tile as given, the others as they were. -/
theorem setTile_acc (e : CrewEng) (k : Nat) (f : Nat → Nat → DWord) {j m n : Nat} (hm : m < 64) (hn : n < 64) :
    smGet 0 (setTile e k f).acc (accKey j m n) = if j = k then f m n else smGet 0 e.acc (accKey j m n) := by
  have hrow : ∀ a, ∀ u ∈ List.range 64,
      smGet 0 ((List.range 64).foldl (fun a v => smPut 0 a (accKey k u v) (f u v)) a) (accKey j m n) =
        if j = k ∧ m = u then f m n else smGet 0 a (accKey j m n) := by
    intro a u hu
    rw [read_foldl (fun a => smGet 0 a (accKey j m n)) (fun a v => smPut 0 a (accKey k u v) (f u v))
      (fun v => j = k ∧ m = u ∧ n = v) (f m n)]
    · simp [hn]
    · intro a v hv
      rw [smGet_smPut]
      simp only [accKey_inj hm hn (List.mem_range.1 hu) (List.mem_range.1 hv)]
      split
      · rename_i h
        obtain ⟨-, rfl, rfl⟩ := h
        rfl
      · rfl
  refine (read_foldl (fun a => smGet 0 a (accKey j m n)) _ (fun u => j = k ∧ m = u) (f m n) _ hrow e.acc).trans ?_
  simp [hm]

/-- A tile that is written leaves the crew's barriers alone. -/
theorem bar_setP_setTile (e : CrewEng) (k : Nat) (f : Nat → Nat → DWord) (v : Bool) (n : Nat) :
    (setP (setTile e k f) k v).bar n = e.bar n := by
  unfold CrewEng.bar
  exact congrArg (fun l => smGet {} l n) (show (setTile e k f).bars = e.bars from rfl)

@[simp] theorem setP_acc (e : CrewEng) (k : Nat) (b : Bool) : (setP e k b).acc = e.acc := rfl

theorem setP_false_tileP (e : CrewEng) (k : Nat) : (setP e k false).tileP.getLsbD k = false := by
  simp only [setP, Bool.false_eq_true, if_false, BitVec.getLsbD_and, BitVec.getLsbD_not, BitVec.getLsbD_shiftLeft]
  by_cases hk : k < 8 <;> simp [hk]

/-! ### A grant (R177) -/

section Grants
variable {s : State} {core k : Nat} {p : MxReqX}

@[simp] theorem granted_mem (f : Option AErr) : (granted s k p f).mem = s.mem := rfl
@[simp] theorem granted_work (f : Option AErr) : (granted s k p f).work = s.work := rfl
@[simp] theorem granted_ceng (f : Option AErr) (c : Nat) : (granted s k p f).ceng c = s.ceng c := rfl

theorem granted_mx (f : Option AErr) :
    smFind (granted s k p f).eng.mx k = some { p with q := { p.q with st := .running }, fail := f } :=
  (smFind_smSet ..).trans (if_pos rfl)

theorem State.ceng_modCeng_self (s : State) (c : Nat) (f : CrewEng → CrewEng) : (s.modCeng c f).ceng c = f (s.ceng c) :=
  (State.ceng_modCeng ..).trans (if_pos rfl)

/-! ### A pass (R174, R175) -/

/-- The state after a pass that nothing poisons: its tile, and P cleared where Z is 1. -/
def passed (s : State) (core : Nat) (q : MxReq) (sh : Shape) : State :=
  if q.z then (applyPass s core q sh).modCeng q.crew (fun e => setP e q.tile false) else applyPass s core q sh

theorem grantPass_of_clean {sh : Shape} (hP : (s.ceng p.q.crew).tileP.getLsbD p.q.tile = false)
    (hs : passShape (fdAf p.q.fd) (fdBf p.q.fd) = some sh) (hb : passPoison s core p.q sh = false) :
    grantPass s core k p false = granted (passed s core p.q sh) k p none := by
  simp only [grantPass, hP, hs, hb, Bool.false_and, Bool.or_false, Bool.false_or, Bool.false_eq_true, if_false, passed]

theorem passed_mem (q : MxReq) (sh : Shape) : (passed s core q sh).mem = s.mem := by
  unfold passed
  split <;> rfl

theorem passed_acc (q : MxReq) (sh : Shape) {j m n : Nat} (hm : m < 64) (hn : n < 64) :
    smGet 0 ((passed s core q sh).ceng q.crew).acc (accKey j m n) = if j = q.tile
      then passAdd (fdAcc q.fd) (if q.z then 0 else smGet 0 (s.ceng q.crew).acc (accKey q.tile m n)) (passElem s core q sh m n)
      else smGet 0 (s.ceng q.crew).acc (accKey j m n) := by
  have happly : smGet 0 ((applyPass s core q sh).ceng q.crew).acc (accKey j m n) = _ :=
    (congrArg (fun e : CrewEng => smGet 0 e.acc (accKey j m n)) (State.ceng_modCeng_self ..)).trans (setTile_acc _ _ _ hm hn)
  rw [← happly]
  unfold passed
  split
  · rw [State.ceng_modCeng_self, setP_acc]
  · rfl

theorem exec_passGrant (h : grantPick s (s.op 0) (fun k => decide (k = .mma)) = some (k, p)) (ho : s.op 1 = 0) :
    exec .passGrant s = .next (grantPass s (s.op 0) k p false) := by
  change execPassGrant s = _
  simp only [execPassGrant, h, ho, ne_eq, not_true_eq_false, decide_false, event]

/-! ### The tile path (R177, R191) -/

section Grant
variable (hf : tilePathFree s (s.op 0) = true) (h : grantPick s (s.op 0) (fun k => decide (k ≠ .mma)) = some (k, p))
include hf h

theorem exec_tilePathGrant_of_mmz (hk : p.q.kind = .mmz) : exec .tilePathGrant s = .next (grantZero s k p) := by
  change execTilePathGrant s = _
  simp only [execTilePathGrant, hf, h, hk, Bool.not_true, Bool.false_eq_true, if_false, event]

theorem exec_tilePathGrant_of_mdr (hk : p.q.kind = .mdr) : exec .tilePathGrant s =
    .next (throughFabric s k (s.op 0) ((mdLines p.q).flatMap (mdHome s (s.op 0) p.q)) (mdReady s (s.op 0) k p.q)
      (fun t => grantDrain t (s.op 0) k p)) := by
  change execTilePathGrant s = _
  simp only [execTilePathGrant, hf, h, hk, Bool.not_true, Bool.false_eq_true, if_false, event]

theorem exec_tilePathGrant_of_mld (hk : p.q.kind = .mld) : exec .tilePathGrant s =
    .next (throughFabric s k (s.op 0) ((mdLines p.q).flatMap (mdHome s (s.op 0) p.q)) (mdReady s (s.op 0) k p.q)
      (fun t => grantLoad t (s.op 0) k p)) := by
  change execTilePathGrant s = _
  simp only [execTilePathGrant, hf, h, hk, Bool.not_true, Bool.false_eq_true, if_false, event]

end Grant

/-- Requests to other dies go out before the step is made. -/
theorem throughFabric_of_unsent {ls : List Nat} {ready : Bool} {go : State → State} (h : unsent s k core ls ≠ []) :
    throughFabric s k core ls ready go = sendPkts s k core (unsent s k core ls) := by
  have : (unsent s k core ls).isEmpty = false := List.isEmpty_eq_false_iff.2 h
  simp only [throughFabric, this, Bool.not_false, if_true]

/-- The step is made where every request is with its home, none is lost and it is ready. -/
theorem throughFabric_of_ready {ls : List Nat} {go : State → State} (h : unsent s k core ls = [])
    (hl : ∀ l ∈ ls, ∀ r, pktOf s k l = some r → r.lost = false) :
    throughFabric s k core ls true go = dropPkts (go s) k ls := by
  have hlost : ls.any (fun l => (pktOf s k l).any (fun p => p.lost && p.fail.isNone)) = false := by
    refine List.any_eq_false.2 fun l hmem => ?_
    cases hp : pktOf s k l with
    | none => simp
    | some r => simp [hl l hmem r hp]
  simp only [throughFabric, h, hlost, List.isEmpty_nil, Bool.not_true, Bool.not_false, Bool.and_self, Bool.false_eq_true,
    if_false, if_true]

@[simp] theorem dropPkts_mem (ls : List Nat) : (dropPkts s k ls).mem = s.mem := rfl
@[simp] theorem dropPkts_work (ls : List Nat) : (dropPkts s k ls).work = s.work := rfl
@[simp] theorem dropPkts_ceng (ls : List Nat) (c : Nat) : (dropPkts s k ls).ceng c = s.ceng c := rfl

theorem dropPkts_granted_mx (f : Option AErr) (ls : List Nat) : smFind (dropPkts (granted s k p f) k ls).eng.mx k =
    some { p with q := { p.q with st := .running }, fail := f } := granted_mx f

/-! ### Pound descriptors (R173) -/

theorem isDev_poundAddr (c o : Nat) : isDev (poundAddr c o) = false :=
  decide_eq_false (by unfold poundAddr; omega)

/-- A word of the Pound is read where it is stored. -/
theorem readWord_poundAddr (s : State) (c o : Nat) :
    readWord s (poundAddr c o) = (getWord s.mem (poundAddr c o), isPoison s.poison (poundAddr c o)) := by
  rw [readWord, isDev_poundAddr, if_neg Bool.false_ne_true]

theorem mdPlace_pound (s : State) (core k : Nat) (q : MxReq) (a : Nat) (kind : AccKind) :
    mdPlace s core k q 1 a kind = .ok (poundAddr core (crewPb s q.crew + a)) := rfl

theorem mdLines_of_pound {q : MxReq} (h : mdSp q.a = 1) : mdLines q = [] := by
  simp [mdLines, h]

/-- A request for a tile in the Pound has no line to wait for: its grant is made at once. -/
theorem throughFabric_of_pound {q : MxReq} {go : State → State} (h : mdSp q.a = 1) :
    throughFabric s k core ((mdLines q).flatMap (mdHome s core q)) (mdReady s core k q) go = dropPkts (go s) k [] := by
  have hr : mdReady s core k q = true := by
    rw [mdReady, mdLines_of_pound h]
    rfl
  rw [hr, mdLines_of_pound h]
  exact throughFabric_of_ready rfl (by simp)

/-! ### A zeroing and a load (R186, R191) -/

/-- The places of the words that a load of a tile from the Pound reads. -/
def poundWords (s : State) (core : Nat) (q : MxReq) : List (Except Err Nat) :=
  (List.range 64).flatMap (fun m => (List.range (dfRow (fdDf q.fd) / 4)).map (fun w =>
    .ok (poundAddr core (crewPb s q.crew + (mdAddr q.a + m * mdStr q.a + 4 * w)))))

theorem mem_poundWords {q : MxReq} {r : Except Err Nat} (h : r ∈ poundWords s core q) : ∃ o, r = .ok (poundAddr core o) := by
  obtain ⟨m, -, hm⟩ := List.mem_flatMap.1 h
  obtain ⟨w, -, rfl⟩ := List.mem_map.1 hm
  exact ⟨_, rfl⟩

theorem poundWords_findSome? {q : MxReq} {f : Except Err Nat → Option Err} (h : ∀ o, f (.ok (poundAddr core o)) = none) :
    (poundWords s core q).findSome? f = none := by
  refine List.findSome?_eq_none_iff.2 fun r hr => ?_
  obtain ⟨o, rfl⟩ := mem_poundWords hr
  exact h o

theorem poundWords_any {q : MxReq} {f : Except Err Nat → Bool} (h : ∀ o, f (.ok (poundAddr core o)) = false) :
    (poundWords s core q).any f = false := by
  refine List.any_eq_false.2 fun r hr => ?_
  obtain ⟨o, rfl⟩ := mem_poundWords hr
  simp [h o]

/-- The state after a load of a tile from the Pound. -/
def loaded (s : State) (core : Nat) (q : MxReq) : State :=
  s.modCeng q.crew (fun e => setP (setTile e q.tile (fun m n => loadElem q.fd (packed (fdDf q.fd) (fun i =>
    (readByte s (poundAddr core (crewPb s q.crew + (mdAddr q.a + m * mdStr q.a + i)))).toNat) n))) q.tile false)

theorem grantLoad_of_pound (h : mdSp p.q.a = 1) (hp : ∀ a, isPoison s.poison a = false) :
    grantLoad s core k p = granted (loaded s core p.q) k p none := by
  unfold grantLoad
  simp only [mdLines_of_pound h, h, List.foldl_nil, mdPlace_pound]
  rw [← poundWords, poundWords_findSome? (fun _ => rfl), poundWords_any]
  · rfl
  · intro o
    simp [readWord_poundAddr, hp]

theorem loaded_mem (q : MxReq) : (loaded s core q).mem = s.mem := by
  rw [loaded, State.modCeng_mem]

theorem loaded_acc (q : MxReq) {m n : Nat} (hm : m < 64) (hn : n < 64) :
    smGet 0 ((loaded s core q).ceng q.crew).acc (accKey q.tile m n) = loadElem q.fd (packed (fdDf q.fd) (fun i =>
      (readByte s (poundAddr core (crewPb s q.crew + (mdAddr q.a + m * mdStr q.a + i)))).toNat) n) := by
  rw [loaded, State.ceng_modCeng_self, setP_acc, setTile_acc _ _ _ hm hn, if_pos rfl]

theorem loaded_tileP (q : MxReq) : ((loaded s core q).ceng q.crew).tileP.getLsbD q.tile = false := by
  rw [loaded, State.ceng_modCeng_self, setP_false_tileP]

theorem grantZero_mem : (grantZero s k p).mem = s.mem := by
  rw [grantZero, granted_mem, State.modCeng_mem]

theorem grantZero_acc {m n : Nat} (hm : m < 64) (hn : n < 64) :
    smGet 0 ((grantZero s k p).ceng p.q.crew).acc (accKey p.q.tile m n) = 0 := by
  rw [grantZero, granted_ceng, State.ceng_modCeng_self, setP_acc, setTile_acc _ _ _ hm hn, if_pos rfl]

theorem grantZero_tileP : ((grantZero s k p).ceng p.q.crew).tileP.getLsbD p.q.tile = false := by
  rw [grantZero, granted_ceng, State.ceng_modCeng_self, setP_false_tileP]

end Grants

end Sys2Proof.MatrixProofs
end

section
/-! PROOFS. What a drain to the Pound leaves alone (O38): the bytes of a row, the words they are written by, the tile's rows. -/

namespace Sys2Proof.MatrixProofs
open Sys2Proof Sys2Proof.Machine

/-! ### Keys of maps that are gathered -/

theorem mem_of_smFind {α : Type} {m : List (Nat × α)} {k : Nat} {v : α} (h : smFind m k = some v) : (k, v) ∈ m := by
  induction m with
  | nil => simp [smFind] at h
  | cons p m ih =>
    obtain ⟨j, w⟩ := p
    by_cases hj : j = k
    · subst hj
      simp only [smFind, if_true, Option.some.injEq] at h
      exact h ▸ List.mem_cons_self
    · simp only [smFind, if_neg hj] at h
      exact List.mem_cons_of_mem _ (ih h)

theorem mem_smSet {α : Type} {m : List (Nat × α)} {k : Nat} {v : α} {p : Nat × α} (h : p ∈ smSet m k v) :
    p = (k, v) ∨ p ∈ m := by
  rcases (mem_smInsert _ _ _ p).1 h with rfl | h
  · exact .inl rfl
  · exact .inr ((mem_smErase m k p).1 h).1

/-- A property that every key put has, and every key that stood there, every key of the map has. -/
theorem keys_of_puts {α β : Type} {P : Nat → Prop} {F : List (Nat × α) → β → List (Nat × α)} {key : β → Nat} {m : List (Nat × α)}
    {l : List β} (hF : ∀ m b, ∃ v, F m b = smSet m (key b) v) (hm : ∀ p ∈ m, P p.1) (hl : ∀ b ∈ l, P (key b)) :
    ∀ p ∈ l.foldl F m, P p.1 := by
  refine List.foldlRecOn (motive := fun m => ∀ p ∈ m, P p.1) l F hm fun m hm b hb p hp => ?_
  obtain ⟨v, hv⟩ := hF m b
  rcases mem_smSet (hv ▸ hp) with rfl | hp
  · exact hl b hb
  · exact hm p hp

/-! ### The bytes of a row (R182) -/

/-- Every byte of an element lies in its row. -/
theorem elemWrites_in_row {df base n pat : Nat} {w : Nat × BitVec 8 × BitVec 8} (hn : n < 64)
    (hw : w ∈ elemWrites df base n pat) : base ≤ w.1 ∧ w.1 < base + dfRow df := by
  unfold elemWrites at hw
  by_cases h4 : dfBits df = 4
  · rw [if_pos h4, List.mem_singleton] at hw
    subst hw
    simp only [dfRow, h4]
    omega
  · rw [if_neg h4] at hw
    obtain ⟨i, hi, rfl⟩ := List.mem_map.1 hw
    have hi := List.mem_range.1 hi
    have hbytes : dfBits df = 8 ∨ dfBits df = 16 ∨ dfBits df = 32 ∨ dfBits df = 64 := by
      unfold dfBits at h4 ⊢
      split_ifs at h4 ⊢ <;> simp at h4 ⊢
    simp only [dfRow]
    rcases hbytes with h | h | h | h <;> rw [h] at hi ⊢ <;> omega

/-- Every byte of a row without scales lies in the row. -/
theorem drainRow_in_row {e : CrewEng} {q : MxReq} {m : Nat} {rd : Nat → Nat} (hs : fdMxs q.fd = false)
    {p : Nat × BitVec 8} (hp : p ∈ drainRow e q m rd) :
    mdAddr q.a + m * mdStr q.a ≤ p.1 ∧ p.1 < mdAddr q.a + m * mdStr q.a + dfRow (fdDf q.fd) := by
  refine keys_of_puts (P := fun a => mdAddr q.a + m * mdStr q.a ≤ a ∧ a < mdAddr q.a + m * mdStr q.a + dfRow (fdDf q.fd))
    (key := fun w : Nat × BitVec 8 × BitVec 8 => w.1) (fun _ _ => ⟨_, rfl⟩) (by simp) (fun w hw => ?_) p hp
  obtain ⟨n, hn, hw⟩ := List.mem_flatMap.1 hw
  rw [hs, Bool.false_and, if_neg Bool.false_ne_true, List.append_nil] at hw
  exact elemWrites_in_row (List.mem_range.1 hn) hw

/-! ### Bytes written word by word (R183) -/

/-- The masked words that the bytes `bs` come to. -/
def wordWrites (bs : List (Nat × BitVec 8)) : List (Nat × BitVec 4 × Word) :=
  bs.foldl (fun (m : List (Nat × BitVec 4 × Word)) p =>
    let w := smGet (0, 0) m (p.1 / 4)
    smSet m (p.1 / 4) (w.1 ||| ((1 : BitVec 4) <<< (p.1 % 4)), w.2 ||| ((BitVec.zeroExtend 32 p.2) <<< (8 * (p.1 % 4)) : Word))) []

theorem drainWords_eq_wordWrites (s : State) (core : Nat) (bs : List (Nat × BitVec 8)) :
    drainWords s core bs = (wordWrites bs).foldl (fun s w => engineWord s core (4 * w.1) w.2.2 w.2.1 false) s := rfl

/-- The masks select bytes of `bs` only. -/
theorem wordWrites_mask {bs : List (Nat × BitVec 8)} {w : Nat × BitVec 4 × Word} (hw : w ∈ wordWrites bs) {i : Nat}
    (hi : w.2.1.getLsbD i = true) : ∃ p ∈ bs, p.1 = 4 * w.1 + i := by
  revert w
  refine List.foldlRecOn (motive := fun m => ∀ {w : Nat × BitVec 4 × Word}, w ∈ m → w.2.1.getLsbD i = true →
    ∃ p ∈ bs, p.1 = 4 * w.1 + i) bs _ (by simp) fun m hm p hp w hw hi => ?_
  rcases mem_smSet hw with rfl | hw
  · rw [BitVec.getLsbD_or, Bool.or_eq_true] at hi
    rcases hi with hi | hi
    · cases hfind : smFind m (p.1 / 4) with
      | none => simp [smGet, hfind] at hi
      | some v =>
        rw [smGet, hfind] at hi
        exact hm (w := (_, v)) (mem_of_smFind hfind) hi
    · have hi : i = p.1 % 4 := by
        simp at hi
        omega
      exact ⟨p, hp, by simp only [hi]; omega⟩
  · exact hm hw hi

/-- A masked store leaves the bytes that its mask does not select alone. -/
theorem getByte_setWordMasked_of_not_selected {m : List Host.Cell} {a b : Nat} {v : Word} {bm : BitVec 4}
    (h : ∀ i, bm.getLsbD i = true → b ≠ a + i) : getByte (setWordMasked m a v bm) b = getByte m b := by
  rw [getByte_setWordMasked, if_neg fun hb => h 3 hb.2 hb.1, if_neg fun hb => h 2 hb.2 hb.1, if_neg fun hb => h 1 hb.2 hb.1,
    if_neg fun hb => h 0 hb.2 hb.1]

/-- Bytes written to a Pound leave every other byte alone. -/
theorem getByte_drainWords {s : State} {core a : Nat} {bs : List (Nat × BitVec 8)} (hp : ∀ p ∈ bs, ∃ o, p.1 = poundAddr core o)
    (ha : ∀ p ∈ bs, p.1 ≠ a) : getByte (drainWords s core bs).mem a = getByte s.mem a := by
  rw [drainWords_eq_wordWrites]
  refine foldl_keeps_of _ (fun s => getByte s.mem a) _ (fun s w hw => ?_) s
  have hkey : 2 ^ 64 ≤ w.1 := by
    refine keys_of_puts (P := fun n => 2 ^ 64 ≤ n) (key := fun p : Nat × BitVec 8 => p.1 / 4) (fun _ _ => ⟨_, rfl⟩) (by simp)
      (fun p hmem => ?_) w hw
    obtain ⟨o, ho⟩ := hp p hmem
    simp only [ho, poundAddr]
    omega
  have hdev : isDev (4 * w.1) = false := by
    simp only [isDev, decide_eq_false_iff_not]
    omega
  rw [engineWord, hdev, if_neg Bool.false_ne_true]
  refine getByte_setWordMasked_of_not_selected fun i hi hai => ?_
  obtain ⟨p, hmem, hpi⟩ := wordWrites_mask hw hi
  exact ha p hmem (hpi.trans hai.symm)

theorem drainWords_engs (s : State) (core : Nat) (bs : List (Nat × BitVec 8)) :
    (drainWords s core bs).work.engs = s.work.engs :=
  foldl_keeps _ (fun s => s.work.engs) (fun s w =>
    congrArg (fun s => s.work.engs) (engineWord_offMem s core (4 * w.1) w.2.2 w.2.1 false)) _ s

/-! ### A drain to the Pound -/

/-- The bytes of a drain to the Pound or the Basin, by address in the space. -/
def drainBytes (s : State) (core k : Nat) (q : MxReq) (e : CrewEng) : List (Nat × BitVec 8) :=
  (List.range 64).foldl (fun (out : List (Nat × BitVec 8)) m =>
    (drainRow e q m (fun a =>
      match smFind out a with
      | some b => b.toNat
      | none => match mdPlace s core k q (mdSp q.a) a .write with
        | .error _ => 0
        | .ok pa => (readByte s pa).toNat)).foldl (fun o p => smSet o p.1 p.2) out) []

section Drain
variable {s : State} {core k : Nat} {q : MxReq} {e : CrewEng}

/-- Without scales, a drain's bytes lie between its first row and the end of its last. -/
theorem drainBytes_in_rows (hs : fdMxs q.fd = false) {p : Nat × BitVec 8} (hp : p ∈ drainBytes s core k q e) :
    mdAddr q.a ≤ p.1 ∧ p.1 < mdAddr q.a + 63 * mdStr q.a + dfRow (fdDf q.fd) := by
  revert p
  refine List.foldlRecOn (motive := fun out : List (Nat × BitVec 8) => ∀ {p : Nat × BitVec 8}, p ∈ out →
    mdAddr q.a ≤ p.1 ∧ p.1 < mdAddr q.a + 63 * mdStr q.a + dfRow (fdDf q.fd)) (List.range 64) _ (by simp)
    fun out hout m hm p hp => ?_
  refine keys_of_puts (P := fun a => mdAddr q.a ≤ a ∧ a < mdAddr q.a + 63 * mdStr q.a + dfRow (fdDf q.fd))
    (key := fun b : Nat × BitVec 8 => b.1) (fun _ _ => ⟨_, rfl⟩) (fun p hp => hout hp) (fun b hb => ?_) p hp
  obtain ⟨hlo, hhi⟩ := drainRow_in_row hs hb
  have hm : m * mdStr q.a ≤ 63 * mdStr q.a := Nat.mul_le_mul_right _ (by have := List.mem_range.1 hm; omega)
  omega

theorem drainHere_of_pound (h : mdSp q.a = 1) : drainHere s core k q e =
    drainWords s core ((drainBytes s core k q e).map (fun p => (poundAddr core (crewPb s q.crew + p.1), p.2))) := by
  rw [← List.filterMap_eq_map']
  unfold drainHere drainBytes
  simp only [h, mdPlace_pound] <;> rfl

/-- A drain to the Pound leaves the bytes before its first row and after its last alone. -/
theorem getByte_drainHere_of_pound (h : mdSp q.a = 1) (hs : fdMxs q.fd = false) {a : Nat}
    (ha : a < poundAddr core (crewPb s q.crew + mdAddr q.a) ∨
      poundAddr core (crewPb s q.crew + mdAddr q.a) + 63 * mdStr q.a + dfRow (fdDf q.fd) ≤ a) :
    getByte (drainHere s core k q e).mem a = getByte s.mem a := by
  rw [drainHere_of_pound h]
  refine getByte_drainWords (fun p hp => ?_) (fun p hp => ?_) <;> obtain ⟨b, hb, rfl⟩ := List.mem_map.1 hp
  · exact ⟨_, rfl⟩
  · have := drainBytes_in_rows hs hb
    simp only [poundAddr] at ha ⊢
    omega

theorem drainHere_engs_of_pound (h : mdSp q.a = 1) : (drainHere s core k q e).work.engs = s.work.engs := by
  rw [drainHere_of_pound h, drainWords_engs]

theorem grantDrain_of_pound {p : MxReqX} (hP : (s.ceng p.q.crew).tileP.getLsbD p.q.tile = false) (h : mdSp p.q.a = 1)
    (ha : fdAos p.q.fd = false) :
    grantDrain s core k p = granted (drainHere s core k p.q (s.ceng p.q.crew)) k p none := by
  have haos : aosPoison s core k p.q = false := by
    rw [aosPoison, ha, Bool.false_and, Bool.false_and]
  simp only [grantDrain, hP, haos, h, Bool.false_eq_true, if_false, ne_eq, one_ne_zero, not_false_eq_true, if_true]

end Drain

end Sys2Proof.MatrixProofs
end

section
/-! PROOFS. The steps of the matrix engine (O38): acceptance, the end of a request, then the statement. -/

namespace Sys2Proof.MatrixProofs
open Sys2Proof Sys2Proof.Machine

section Steps
variable {s : State} {k core : Nat} {p : MxReqX}

/-! ### Acceptance (R176, R354) -/

theorem acceptReq_mx : smFind (acceptReq s k p).eng.mx k =
    some { p with q := { p.q with st := .table, out := 0 }, order := s.work.next, since := s.time } :=
  (smFind_smSet ..).trans (if_pos rfl)

theorem closeOut_outs (s : State) (id : Nat) : smFind (closeOut s id).work.outs id = none := by
  cases h : smFind s.work.outs id with
  | none => simp only [closeOut, h]
  | some o =>
    simp only [closeOut, h, State.modGang_work_outs]
    exact (smFind_smErase ..).trans (if_pos rfl)

/-- The state after the head of a quadrant's post buffer is taken: its instruction is complete (R73). -/
def taken (s : State) (core quad : Nat) (p : MxReqX) : State :=
  closeOut { s with eng.mxLast := smSet s.eng.mxLast core quad } p.q.out

theorem taken_time (quad : Nat) : (taken s core quad p).time = s.time :=
  congrArg (fun u => u.time) (closeOut_offPath { s with eng.mxLast := smSet s.eng.mxLast core quad } p.q.out)

theorem taken_mem (quad : Nat) : (taken s core quad p).mem = s.mem := (closeOut_beside ..).mem

/-- Where the next quadrant's head has room, it is accepted. -/
theorem exec_reservationAccept (hr : (mxIn s (s.op 0) MxReqX.inTable).length < 16) (hf : followReady s (s.op 0) = false)
    (hh : postHead s (s.op 0) ((smGet 3 s.eng.mxLast (s.op 0) + 1) % 4) = some (k, p)) (hg : mxOfGang s p.q.gang < 8) :
    exec .reservationAccept s = .next (acceptReq (taken s (s.op 0) ((smGet 3 s.eng.mxLast (s.op 0) + 1) % 4) p) k
      { p with q := { p.q with out := 0 } }) := by
  change execReservationAccept s = _
  simp only [execReservationAccept, List.map_cons, List.findSome?_cons, hf, hh, if_pos hg, Bool.or_false, decide_eq_true_eq,
    if_neg (Nat.not_le.2 hr), event]
  rfl

/-! ### The end of a request (R179, R188, R195) -/

/-- An MRQ that is told of an end changes outstanding instructions, windows and registers only. -/
theorem tellMrq_offPath (bad : Bool) (s : State) (id : Nat) : (tellMrq bad s id).offPath = s.offPath := by
  unfold tellMrq
  split
  · rfl
  · dsimp only
    split
    · rw [closeOut_offPath, writeOut_offPath]
    · rfl

/-- The error pending in a gang, where there is the gang. -/
def pendingMx (s : State) (g : Nat) : Option (Option AErr) := (s.gang g).map Gang.mxerr

theorem pendingMx_modGang (g : Nat) {f : Gang → Gang} (hf : ∀ v, (f v).mxerr = v.mxerr) (j : Nat) :
    pendingMx (s.modGang g f) j = pendingMx s j := by
  rw [pendingMx, State.gang_modGang]
  split
  · rw [Option.map_map]
    exact congrArg (fun h => (s.gang j).map h) (funext hf)
  · rfl

theorem pendingMx_closeOut (s : State) (id g : Nat) : pendingMx (closeOut s id) g = pendingMx s g := by
  cases h : smFind s.work.outs id with
  | none => simp only [closeOut, h]
  | some o =>
    rw [FloatProofs.closeOut_of_some h]
    refine pendingMx_modGang o.gang (fun _ => ?_) g
    rfl

theorem pendingMx_writeOut (s : State) (o : Out) (g : Nat) : pendingMx (writeOut s o) g = pendingMx s g := by
  unfold writeOut
  refine pendingMx_modGang o.gang (fun _ => ?_) g
  rfl

theorem pendingMx_tellMrq (bad : Bool) (s : State) (id g : Nat) : pendingMx (tellMrq bad s id) g = pendingMx s g := by
  unfold tellMrq
  split
  · rfl
  · dsimp only
    split
    · rw [pendingMx_closeOut, pendingMx_writeOut]
    · rfl

theorem pendingMx_recordMx {g : Nat} {v : Gang} (e : AErr) (hg : s.gang g = some v) (hm : v.mxerr = none) :
    pendingMx (recordMx s g e) g = some (some e) := by
  rw [pendingMx, recordMx, State.gang_modGang, if_pos rfl, hg]
  simp [hm]

/-- The state without the engines' state of the crews. -/
def offEngs (s : State) : State := { s with work.engs := [] }

/-- What is read beside the engines' state is the same where the rest is. -/
theorem read_of_offEngs {α : Type} {t u : State} (read : State → α) (hr : ∀ v, read (offEngs v) = read v)
    (h : offEngs t = offEngs u) : read t = read u := by
  rw [← hr t, h, hr]

/-- An engine's arrival changes the barriers of its crew only. -/
theorem engineArrives_offEngs (c b : Nat) : offEngs (engineArrives s c b) = offEngs s := by
  unfold engineArrives
  dsimp only
  split
  · rfl
  · split
    · rfl
    · split <;> rfl

theorem modBar_bar (c b : Nat) (f : Barrier → Barrier) :
    ((s.modBar c b f).ceng c).bar b = (f ((s.ceng c).bar b)).tryComplete := by
  rw [State.modBar, State.ceng_modCeng_self]
  exact (smGet_smPut ..).trans (if_pos rfl)

theorem Barrier.tryComplete_of_arr {v : Barrier} (h : v.arr ≠ 0) : v.tryComplete = v := by
  simp only [Barrier.tryComplete, h, decide_false, Bool.and_false, Bool.false_and, Bool.false_eq_true, if_false]

/-- An arrival that does not end the phase takes one off the count. -/
theorem engineArrives_arr {c b : Nat} (hi : ((s.ceng c).bar b).i = true) (hp : ((s.ceng c).bar b).p = false)
    (ha : 1 < ((s.ceng c).bar b).arr) : (((engineArrives s c b).ceng c).bar b).arr = ((s.ceng c).bar b).arr - 1 := by
  have h0 : ((s.ceng c).bar b).arr ≠ 0 := by omega
  have h1 : ((s.ceng c).bar b).arr - 1 ≠ 0 := by omega
  have hgo : engineArrives s c b = s.modBar c b (fun v => { v with arr := v.arr - 1 }) := by
    simp only [engineArrives, hi, hp, Bool.not_true, Bool.false_eq_true, if_false, if_neg h0]
  rw [hgo, modBar_bar, Barrier.tryComplete_of_arr h1]

/-- The drained tile zeroed, where the request asks for it and did not fail (R192). -/
def zeroed (s : State) (p : MxReqX) : State :=
  if p.q.kind = .mdr && p.q.z && p.fail.isNone then
    s.modCeng p.q.crew (fun e => setP (setTile e p.q.tile (fun _ _ => 0)) p.q.tile false)
  else s

/-- The request's entry freed, with its requests to other dies. -/
def freed (s : State) (k : Nat) : State := endPkts { s with eng.mx := smErase s.eng.mx k } k

/-- The entry freed, the drained tile zeroed and the failure recorded: the end of a request up to its arrival. -/
def ended (s : State) (k : Nat) (p : MxReqX) : State :=
  match p.fail with
  | none => zeroed (freed s k) p
  | some e => recordMx (zeroed (freed s k) p) p.q.gang e

/-- The same with the arrival at the barrier that the descriptor names. -/
def arrived (s : State) (k : Nat) (p : MxReqX) : State :=
  if fdCbe p.q.fd then engineArrives (ended s k p) p.q.crew (fdCb p.q.fd) else ended s k p

theorem endReq_eq (s : State) (k : Nat) (p : MxReqX) :
    endReq s k p = p.mrq.foldl (tellMrq p.fail.isSome) (arrived s k p) := rfl

theorem endReq_offPath : (endReq s k p).offPath = (arrived s k p).offPath := by
  rw [endReq_eq, foldl_keeps _ State.offPath (tellMrq_offPath p.fail.isSome)]

theorem pendingMx_endReq (g : Nat) : pendingMx (endReq s k p) g = pendingMx (arrived s k p) g := by
  rw [endReq_eq, foldl_keeps _ (fun s => pendingMx s g) (fun s id => pendingMx_tellMrq p.fail.isSome s id g)]

theorem arrived_offEngs : offEngs (arrived s k p) = offEngs (ended s k p) := by
  unfold arrived
  split
  · exact engineArrives_offEngs ..
  · rfl

theorem zeroed_offEngs : offEngs (zeroed s p) = offEngs s := by
  unfold zeroed
  split <;> rfl

theorem zeroed_bar (c b : Nat) : ((zeroed s p).ceng c).bar b = (s.ceng c).bar b := by
  unfold zeroed
  split
  · rw [State.ceng_modCeng]
    split
    · exact bar_setP_setTile ..
    · rfl
  · rfl

/-- What is read beside the gangs and the engines' state is as the freeing of the entry left it. -/
theorem read_ended {α : Type} (read : State → α) (he : ∀ v, read (offEngs v) = read v)
    (hg : ∀ v g e, read (recordMx v g e) = read v) : read (ended s k p) = read (freed s k) := by
  have hz : read (zeroed (freed s k) p) = read (freed s k) := read_of_offEngs read he zeroed_offEngs
  unfold ended
  split
  · exact hz
  · exact (hg ..).trans hz

theorem ended_mem : (ended s k p).mem = s.mem := read_ended State.mem (fun _ => rfl) (fun _ _ _ => rfl)

theorem ended_eng : (ended s k p).eng = (freed s k).eng := read_ended State.eng (fun _ => rfl) (fun _ _ _ => rfl)

theorem ended_bar (c b : Nat) : ((ended s k p).ceng c).bar b = (s.ceng c).bar b := by
  unfold ended
  split <;> exact zeroed_bar ..

theorem ended_pendingMx {e : AErr} {v : Gang} (hf : p.fail = some e) (hg : s.gang p.q.gang = some v) (hm : v.mxerr = none) :
    pendingMx (ended s k p) p.q.gang = some (some e) := by
  simp only [ended, hf]
  refine pendingMx_recordMx e ?_ hm
  exact (read_of_offEngs (fun s => s.gang p.q.gang) (fun _ => rfl) zeroed_offEngs).trans hg

/-! What stands after the end of a request. -/

theorem endReq_mem : (endReq s k p).mem = s.mem :=
  calc (endReq s k p).mem = (arrived s k p).mem := State.mem_of_offPath endReq_offPath
    _ = (ended s k p).mem := read_of_offEngs State.mem (fun _ => rfl) arrived_offEngs
    _ = s.mem := ended_mem

theorem endReq_eng : (endReq s k p).eng = (ended s k p).eng :=
  calc (endReq s k p).eng = (endReq s k p).offPath.eng := rfl
    _ = (arrived s k p).offPath.eng := by rw [endReq_offPath]
    _ = (arrived s k p).eng := rfl
    _ = (ended s k p).eng := read_of_offEngs State.eng (fun _ => rfl) arrived_offEngs

theorem endReq_mx : smFind (endReq s k p).eng.mx k = none := by
  rw [endReq_eng, ended_eng]
  exact (smFind_smErase ..).trans (if_pos rfl)

/-- A request that failed leaves its failure pending in its gang, where none was (R188). -/
theorem endReq_gang_of_fail {e : AErr} {v : Gang} (hf : p.fail = some e) (hg : s.gang p.q.gang = some v) (hm : v.mxerr = none) :
    ∃ h, (endReq s k p).gang p.q.gang = some h ∧ h.mxerr = some e :=
  Option.map_eq_some_iff.1 <|
    calc pendingMx (endReq s k p) p.q.gang = pendingMx (arrived s k p) p.q.gang := pendingMx_endReq _
      _ = pendingMx (ended s k p) p.q.gang := read_of_offEngs (fun s => pendingMx s p.q.gang) (fun _ => rfl) arrived_offEngs
      _ = some (some e) := ended_pendingMx hf hg hm

/-- A request whose descriptor names a barrier makes its arrival (R179). -/
theorem endReq_arr (hc : fdCbe p.q.fd = true) (hi : ((s.ceng p.q.crew).bar (fdCb p.q.fd)).i = true)
    (hp : ((s.ceng p.q.crew).bar (fdCb p.q.fd)).p = false) (ha : 1 < ((s.ceng p.q.crew).bar (fdCb p.q.fd)).arr) :
    (((endReq s k p).ceng p.q.crew).bar (fdCb p.q.fd)).arr = ((s.ceng p.q.crew).bar (fdCb p.q.fd)).arr - 1 := by
  have htell : (endReq s k p).ceng p.q.crew = (arrived s k p).ceng p.q.crew :=
    calc (endReq s k p).ceng p.q.crew = (endReq s k p).offPath.ceng p.q.crew := rfl
      _ = (arrived s k p).ceng p.q.crew := by rw [endReq_offPath]; rfl
  have hbar := ended_bar (s := s) (k := k) (p := p) p.q.crew (fdCb p.q.fd)
  rw [htell, arrived, if_pos hc, engineArrives_arr (hbar ▸ hi) (hbar ▸ hp) (hbar ▸ ha), hbar]

/-- A running request that owes no amax update and waits for no earlier access of its gang ends. -/
theorem exec_requestFinish (hk : smFind s.eng.mx (s.op 0) = some p) (hst : p.q.st = .running) (ho : owesAmax p = false)
    (hf : ∀ w core, s.crew p.q.crew = some w → w.holds? = some core → forkPending s (s.op 0) p.q.gang core = false) :
    exec .requestFinish s = .next (endReq s (s.op 0) p) := by
  change execRequestFinish s = _
  cases hw : s.crew p.q.crew with
  | none => simp only [execRequestFinish, hk, hst, hw, event, ne_eq, not_true_eq_false, if_false]
  | some w =>
    cases hc : w.holds? with
    | none =>
      simp only [execRequestFinish, hk, hst, hw, hc, ho, event, ne_eq, not_true_eq_false, if_false, Bool.false_eq_true]
    | some core =>
      simp only [execRequestFinish, hk, hst, hw, hc, ho, hf w core hw hc, event, ne_eq, not_true_eq_false, if_false,
        Bool.false_eq_true, Bool.not_false, if_true]

/-! ### A captured request (R354, R355) -/

/-- A captured request whose copies are complete goes into the table. -/
theorem exec_followOnPost_of_room (hk : smFind s.eng.mx (s.op 0) = some p) (hst : p.q.st = .follow) (hc : p.q.copies = [])
    (hd : p.q.dropped = false) (hcore : mxCore s p.q = some core) (hr : (mxIn s core MxReqX.inTable).length < 16)
    (hg : mxOfGang s p.q.gang < 8) : exec .followOnPost s = .next (acceptReq s (s.op 0) p) := by
  change execFollowOnPost s = _
  simp [execFollowOnPost, hk, hst, hc, hd, hcore, Nat.not_le.2 hr, Nat.not_le.2 hg, event]

/-- A captured request of which a copy failed ends with CP_FOLLOW. -/
theorem exec_followOnPost_of_dropped (hk : smFind s.eng.mx (s.op 0) = some p) (hst : p.q.st = .follow) (hc : p.q.copies = [])
    (hd : p.q.dropped = true) : exec .followOnPost s = .next (endReq s (s.op 0)
      { p with fail := some { cause := .cpFollow, info := BitVec.ofNat 32 p.q.tile } }) := by
  change execFollowOnPost s = _
  simp [execFollowOnPost, hk, hst, hc, hd, event]

/-! ### The age rule and the timeout (R177, R181) -/

theorem exec_matrixAgeBoost {t : Nat} (hk : smFind s.eng.mx (s.op 0) = some p) (he : p.elig = some t)
    (ht : 4096 ≤ clocksSince s t) : ∃ u, exec .matrixAgeBoost s = .next u ∧
      smFind u.eng.mx (s.op 0) = some { p with boost := true } := by
  refine ⟨_, rfl, ?_⟩
  simp only [smFind_smModify, if_true, hk, Option.map_some, he, if_pos ht]

theorem exec_mxRsv {w : Crew} (hk : smFind s.eng.mx (s.op 0) = some p) (hw : s.crew p.q.crew = some w) (hst : p.q.st = .table)
    (hc : w.core?.isSome = true) (hf : p.fail = none)
    (ht : (s.domain w.dom).set_.mxTimeout < p.waited + (s.time - p.since)) :
    exec .mxRsv s = .next (granted s (s.op 0) p (some (mxErr p.q .mxRsv))) := by
  change execMxRsv s = _
  simp only [execMxRsv, hk, hw, hst, hc, hf, ht, event, Option.isNone_none, decide_true, Bool.and_self, if_true]
  rfl

end Steps

/-- Settles O38: each step's answer is named, and what the statement asks of it is what the lemmas above say. -/
theorem matrixSteps : Obligations.MatrixSteps := by
  unfold Obligations.MatrixSteps
  refine ⟨fun s k p hr hf hh hg => ?_, fun s k p sh hpick hP hs hb ho => ?_,
    fun s k p hfree hpick => ⟨fun hk => ?_, fun hk => ⟨fun hu => ?_, fun hu hl hr => ?_⟩, fun hk hP hsp ha hx hamx => ?_,
      fun hk hsp hpo => ?_⟩, fun s p hk => ⟨fun t he ht => ?_, fun w hw hst hc hf ht => ?_, fun hst ho hf => ?_,
      fun core hst hc hd hcore hr hg => ?_, fun g hst hc hd hg hm => ?_⟩⟩
  · exact ⟨_, _, exec_reservationAccept hr hf hh hg, acceptReq_mx, rfl, taken_time _, closeOut_outs .., taken_mem _⟩
  · have hgo := exec_passGrant hpick ho
    rw [grantPass_of_clean hP hs hb] at hgo
    refine ⟨_, _, hgo, granted_mx _, rfl, rfl, ?_, fun m n hm hn => ?_, fun j m n hj hm hn => ?_⟩
    · rw [granted_mem, passed_mem]
    · rw [granted_ceng, passed_acc _ _ hm hn, if_pos rfl]
    · rw [granted_ceng, passed_acc _ _ hm hn, if_neg hj]
  · exact ⟨_, exec_tilePathGrant_of_mmz hfree hpick hk, grantZero_mem, grantZero_tileP, fun m n hm hn => grantZero_acc hm hn⟩
  · rw [exec_tilePathGrant_of_mdr hfree hpick hk, throughFabric_of_unsent hu]
  · rw [exec_tilePathGrant_of_mdr hfree hpick hk, hr, throughFabric_of_ready hu hl]
  · have hgo := exec_tilePathGrant_of_mdr hfree hpick hk
    rw [throughFabric_of_pound hsp, grantDrain_of_pound hP hsp ha] at hgo
    refine ⟨_, _, hgo, dropPkts_granted_mx _ _, rfl, rfl, ?_, fun a hout => ?_⟩
    · rw [dropPkts_work, granted_work, drainHere_engs_of_pound hsp]
    · rw [dropPkts_mem, granted_mem, getByte_drainHere_of_pound hsp hx hout]
  · have hgo := exec_tilePathGrant_of_mld hfree hpick hk
    rw [throughFabric_of_pound hsp, grantLoad_of_pound hsp hpo] at hgo
    refine ⟨_, hgo, ?_, ?_, fun m n hm hn => ?_⟩
    · rw [dropPkts_mem, granted_mem, loaded_mem]
    · rw [dropPkts_ceng, granted_ceng, loaded_tileP]
    · rw [dropPkts_ceng, granted_ceng, loaded_acc _ hm hn]
  · obtain ⟨u, hu, hfind⟩ := exec_matrixAgeBoost hk he ht
    exact ⟨u, _, hu, hfind, rfl⟩
  · exact ⟨_, _, exec_mxRsv hk hw hst hc hf ht, granted_mx _, rfl, rfl⟩
  · exact ⟨_, exec_requestFinish hk hst ho hf, endReq_mx, endReq_mem, fun e g hfail hg hm => endReq_gang_of_fail hfail hg hm,
      endReq_arr⟩
  · exact ⟨_, _, exec_followOnPost_of_room hk hst hc hd hcore hr hg, acceptReq_mx, rfl, rfl⟩
  · obtain ⟨h, hh, hmx⟩ := endReq_gang_of_fail (k := s.op 0)
      (p := { p with fail := some { cause := .cpFollow, info := BitVec.ofNat 32 p.q.tile } }) rfl hg hm
    exact ⟨_, h, exec_followOnPost_of_dropped hk hst hc hd, endReq_mx, hh, hmx⟩

end Sys2Proof.MatrixProofs
end

section
/-! PROOFS. The memory path, read after it is changed (O19 to O23, O49): word masks of a line, the directory and the L1s, the
bytes that a masked line writes, and what a fold over words or cores comes to. -/

namespace Sys2Proof.MemoryProofs
open Sys2Proof Sys2Proof.Machine

/-! ### What a change of the memory path leaves alone -/

@[simp] theorem State.dropReq_mem (s : State) (id : Nat) : (s.dropReq id).mem = s.mem := rfl
@[simp] theorem State.dropReq_fab (s : State) (id : Nat) : (s.dropReq id).fab = s.fab := rfl
@[simp] theorem State.dropReq_coh_replies (s : State) (id : Nat) : (s.dropReq id).coh.replies = s.coh.replies := rfl
@[simp] theorem State.dropReq_coh_snoops (s : State) (id : Nat) : (s.dropReq id).coh.snoops = s.coh.snoops := rfl
@[simp] theorem State.dropReq_l1 (s : State) (id : Nat) (c l : Nat) : (s.dropReq id).l1 c l = s.l1 c l := rfl
@[simp] theorem State.dropReq_dirOf (s : State) (id : Nat) (l : Nat) : (s.dropReq id).dirOf l = s.dirOf l := rfl

@[simp] theorem State.reply_mem (s : State) (p : Reply) : (s.reply p).mem = s.mem := rfl
@[simp] theorem State.reply_fab (s : State) (p : Reply) : (s.reply p).fab = s.fab := rfl
@[simp] theorem State.reply_coh_reqs (s : State) (p : Reply) : (s.reply p).coh.reqs = s.coh.reqs := rfl

@[simp] theorem State.putDir_mem (s : State) (j : Nat) (e : DirEnt) : (s.putDir j e).mem = s.mem := rfl
@[simp] theorem State.putDir_coh_reqs (s : State) (j : Nat) (e : DirEnt) : (s.putDir j e).coh.reqs = s.coh.reqs := rfl
@[simp] theorem State.putDir_coh_snoops (s : State) (j : Nat) (e : DirEnt) : (s.putDir j e).coh.snoops = s.coh.snoops := rfl
@[simp] theorem State.putDir_l1 (s : State) (j : Nat) (e : DirEnt) (c l : Nat) : (s.putDir j e).l1 c l = s.l1 c l := rfl

@[simp] theorem State.useDir_mem (s : State) (j : Nat) (f : DirEnt → DirEnt) : (s.useDir j f).mem = s.mem := rfl

@[simp] theorem State.putL1_mem (s : State) (d j : Nat) (e : L1Line) : (s.putL1 d j e).mem = s.mem := rfl
@[simp] theorem State.putL1_coh_reqs (s : State) (d j : Nat) (e : L1Line) : (s.putL1 d j e).coh.reqs = s.coh.reqs := rfl
@[simp] theorem State.putL1_coh_snoops (s : State) (d j : Nat) (e : L1Line) : (s.putL1 d j e).coh.snoops = s.coh.snoops := rfl
@[simp] theorem State.putL1_dirOf (s : State) (d j : Nat) (e : L1Line) (l : Nat) : (s.putL1 d j e).dirOf l = s.dirOf l := rfl

@[simp] theorem State.modReq_mem (s : State) (id : Nat) (f : ReqX → ReqX) : (s.modReq id f).mem = s.mem := rfl
@[simp] theorem State.modReq_coh_snoops (s : State) (id : Nat) (f : ReqX → ReqX) : (s.modReq id f).coh.snoops = s.coh.snoops := rfl
@[simp] theorem State.modReq_l1 (s : State) (id : Nat) (f : ReqX → ReqX) (c l : Nat) : (s.modReq id f).l1 c l = s.l1 c l := rfl

/-! ### Masks of a line's words and bytes -/

@[simp] theorem getLsbD_wordBit (w k : Nat) : (wordBit w).getLsbD k = (decide (k < 16) && decide (k = w)) := by
  rw [wordBit, BitVec.getLsbD_shiftLeft, BitVec.ofNat_eq_ofNat, BitVec.getLsbD_one]
  by_cases hk : k < 16
  · rw [Bool.eq_iff_iff]
    simp [hk]
    omega
  · simp [hk]

/-- A bit of a mask gathered from those of the words that `p` selects. -/
theorem getLsbD_foldl_or {n : Nat} (p : Nat → Bool) (f : Nat → BitVec n) (l : List Nat) (acc : BitVec n) (k : Nat) :
    (l.foldl (fun m w => if p w then m ||| f w else m) acc).getLsbD k =
      (acc.getLsbD k || l.any (fun w => p w && (f w).getLsbD k)) := by
  induction l generalizing acc with
  | nil => simp
  | cons w l ih =>
    rw [List.foldl_cons, ih, List.any_cons]
    cases p w <;> simp [Bool.or_assoc]

@[simp] theorem getLsbD_bitsTo16 (p : Nat → Bool) (k : Nat) : (bitsTo16 p).getLsbD k = (decide (k < 16) && p k) := by
  rw [bitsTo16, getLsbD_foldl_or]
  refine Bool.eq_iff_iff.2 ?_
  simp only [BitVec.ofNat_eq_ofNat, BitVec.getLsbD_zero, Bool.false_or, List.any_eq_true, List.mem_range, getLsbD_wordBit, Bool.and_eq_true,
    decide_eq_true_eq]
  exact ⟨fun ⟨w, _, hp, hk, hw⟩ => ⟨hk, hw ▸ hp⟩, fun ⟨hk, hp⟩ => ⟨k, hk, hp, hk, rfl⟩⟩

@[simp] theorem mem_wordsOf {m : BitVec 16} {w : Nat} : w ∈ wordsOf m ↔ m.getLsbD w = true := by
  rw [wordsOf, List.mem_filter, List.mem_range, and_iff_right_iff_imp]
  exact BitVec.lt_of_getLsbD

@[simp] theorem wordsOf_zero : wordsOf 0 = [] := by decide

@[simp] theorem getLsbD_maskOf (wm : BitVec 64) (w k : Nat) :
    (maskOf wm w).getLsbD k = (decide (k < 4) && wm.getLsbD (4 * w + k)) := by
  rw [maskOf, BitVec.getLsbD_extractLsb']

@[simp] theorem getLsbD_wholeMask (m : BitVec 16) (k : Nat) : (wholeMask m).getLsbD k = m.getLsbD (k / 4) := by
  have hbit (w : Nat) (hw : w < 16) : (15#64 <<< (4 * w)).getLsbD k = decide (k / 4 = w) := by
    rw [BitVec.getLsbD_shiftLeft, show 15#64 = BitVec.ofNat 64 (2 ^ 4 - 1) from rfl, BitVec.getLsbD_ofNat,
      Nat.testBit_two_pow_sub_one, Bool.eq_iff_iff]
    simp
    omega
  rw [wholeMask, getLsbD_foldl_or]
  refine Bool.eq_iff_iff.2 ?_
  simp only [BitVec.ofNat_eq_ofNat, BitVec.getLsbD_zero, Bool.false_or, List.any_eq_true, List.mem_range, Bool.and_eq_true]
  constructor
  · rintro ⟨w, hw, hm, hk⟩
    rw [hbit w hw, decide_eq_true_eq] at hk
    rwa [hk]
  · intro hm
    have hw := BitVec.lt_of_getLsbD hm
    exact ⟨k / 4, hw, hm, by rw [hbit _ hw, decide_eq_true_eq]⟩

theorem getLsbD_ownedBy (e : DirEnt) (ws : BitVec 16) (c w : Nat) :
    (ownedBy e ws c).getLsbD w = (decide (w < 16) && (ws.getLsbD w && decide (e.owner w = some c))) :=
  getLsbD_bitsTo16 ..

/-! ### The directory (R224) -/

/-- An entry put is read back as it is, where an entry that holds nothing is its own default. -/
theorem dirOf_putDir (s : State) (l j : Nat) (e : DirEnt) : (s.putDir l e).dirOf j =
    if j = l then (if decide (e.sharers = 0) && e.owners.isEmpty then {} else e) else s.dirOf j := smGet_smPut ..

@[simp] theorem sharers_putDir (s : State) (l : Nat) (e : DirEnt) : ((s.putDir l e).dirOf l).sharers = e.sharers := by
  rw [dirOf_putDir, if_pos rfl]
  split <;> simp_all

@[simp] theorem owners_putDir (s : State) (l : Nat) (e : DirEnt) : ((s.putDir l e).dirOf l).owners = e.owners := by
  rw [dirOf_putDir, if_pos rfl]
  split <;> simp_all

@[simp] theorem owner_putDir (s : State) (l : Nat) (e : DirEnt) (w : Nat) : ((s.putDir l e).dirOf l).owner w = e.owner w := by
  rw [DirEnt.owner, owners_putDir, DirEnt.owner]

theorem owner_foldl_setOwner (l : List Nat) (c : Nat) (e : DirEnt) (w : Nat) :
    (l.foldl (fun e w => e.setOwner w c) e).owner w = if w ∈ l then some c else e.owner w := by
  induction l generalizing e with
  | nil => simp
  | cons v l ih =>
    rw [List.foldl_cons, ih, DirEnt.setOwner, DirEnt.owner, smFind_smSet]
    by_cases hl : w ∈ l <;> by_cases hv : w = v <;> simp [hl, hv, DirEnt.owner]

theorem sharers_foldl_setOwner (l : List Nat) (c : Nat) (e : DirEnt) :
    (l.foldl (fun e w => e.setOwner w c) e).sharers = e.sharers := by
  induction l generalizing e with
  | nil => rfl
  | cons v l ih => rw [List.foldl_cons, ih]; rfl

theorem owner_foldl_clearOwner (l : List Nat) (e : DirEnt) (w : Nat) :
    (l.foldl DirEnt.clearOwner e).owner w = if w ∈ l then none else e.owner w := by
  induction l generalizing e with
  | nil => simp
  | cons v l ih =>
    rw [List.foldl_cons, ih, DirEnt.clearOwner, DirEnt.owner, smFind_smErase]
    by_cases hl : w ∈ l <;> by_cases hv : w = v <;> simp [hl, hv, DirEnt.owner]

theorem sharers_foldl_clearOwner (l : List Nat) (e : DirEnt) : (l.foldl DirEnt.clearOwner e).sharers = e.sharers := by
  induction l generalizing e with
  | nil => rfl
  | cons v l ih => rw [List.foldl_cons, ih]; rfl

/-! ### L1 lines -/

/-- A line read after a line of the same number is put in an L1. -/
theorem l1_putL1 (s : State) (c d l : Nat) (e : L1Line) :
    (s.putL1 c l e).l1 d l = if d = c then e.norm else s.l1 d l := by
  have hk : l1Key d l = l1Key c l ↔ d = c := by
    unfold l1Key
    omega
  rw [State.l1, State.putL1, smGet_smPut]
  simp only [hk, State.l1]

/-! ### A masked line written at its home -/

/-- A word's masked store, byte by byte. -/
theorem getByte_setWordMasked_add (m : List Host.Cell) (a : Nat) (v : Word) (bm : BitVec 4) (i : Nat) (hi : i < 4) :
    getByte (setWordMasked m a v bm) (a + i) = if bm.getLsbD i then byteAt v i else getByte m (a + i) := by
  rw [getByte_setWordMasked]
  interval_cases i <;> simp

theorem byteAt_lineWord (d : BitVec 512) (w i : Nat) (hi : i < 4) :
    byteAt (lineWord d w) i = d.extractLsb' (8 * (4 * w + i)) 8 := by
  refine BitVec.eq_of_getLsbD_eq fun k hk => ?_
  have hlt : 8 * i + k < 32 := by omega
  simp only [byteAt, lineWord, BitVec.getLsbD_extractLsb', hk, hlt, decide_true, Bool.true_and]
  congr 1
  omega

/-- The bytes of line `l` after a masked write of it: those of the mask as given, the others as they were. -/
theorem getByte_applyLine (s : State) (l : Nat) (wm : BitVec 64) (wd : BitVec 512) (po : BitVec 16) (k : Nat) (hk : k < 64) :
    getByte (applyLine s l wm wd po).mem (64 * l + k) =
      if wm.getLsbD k then wd.extractLsb' (8 * k) 8 else getByte s.mem (64 * l + k) := by
  have hmod : k % 4 < 4 := Nat.mod_lt _ (by decide)
  have hstep (t : State) (w : Nat) :
      getByte (if maskOf wm w = 0 then t
        else t.putWord (64 * l + 4 * w) (lineWord wd w) (maskOf wm w) (po.getLsbD w)).mem (64 * l + k) =
      if w = k / 4 ∧ wm.getLsbD k = true then wd.extractLsb' (8 * k) 8 else getByte t.mem (64 * l + k) := by
    by_cases hw : w = k / 4
    · subst hw
      have hb : (maskOf wm (k / 4)).getLsbD (k % 4) = wm.getLsbD k := by
        rw [getLsbD_maskOf, Nat.div_add_mod]
        simp [hmod]
      have ha : 64 * l + k = 64 * l + 4 * (k / 4) + k % 4 := by omega
      split
      · next h0 =>
        rw [h0, BitVec.ofNat_eq_ofNat, BitVec.getLsbD_zero] at hb
        rw [if_neg (by simp [← hb])]
      · rw [State.putWord, ha, getByte_setWordMasked_add _ _ _ _ _ hmod, hb, byteAt_lineWord _ _ _ hmod, Nat.div_add_mod]
        simp
    · rw [if_neg (fun h : w = k / 4 ∧ wm.getLsbD k = true => hw h.1)]
      split
      · rfl
      · exact getByte_setWordMasked_out _ _ _ _ _ (by omega)
  have hfold (ws : List Nat) (t : State) :
      getByte (ws.foldl (fun s w => if maskOf wm w = 0 then s
        else s.putWord (64 * l + 4 * w) (lineWord wd w) (maskOf wm w) (po.getLsbD w)) t).mem (64 * l + k) =
      if k / 4 ∈ ws ∧ wm.getLsbD k = true then wd.extractLsb' (8 * k) 8 else getByte t.mem (64 * l + k) := by
    induction ws generalizing t with
    | nil => simp
    | cons w ws ih =>
      rw [List.foldl_cons, ih, hstep]
      by_cases hm : wm.getLsbD k <;> by_cases hw : k / 4 ∈ ws <;> simp [hm, hw, eq_comm]
  rw [applyLine, hfold]
  simp [show k / 4 < 16 by omega]

/-- A masked write of a line leaves every byte outside the line alone. -/
theorem getByte_applyLine_of_outside (s : State) (l : Nat) (wm : BitVec 64) (wd : BitVec 512) (po : BitVec 16) {b : Nat}
    (hb : ¬ (64 * l ≤ b ∧ b < 64 * l + 64)) : getByte (applyLine s l wm wd po).mem b = getByte s.mem b :=
  getByte_applyLine_out _ _ _ _ _ _ fun w _ _ => by omega

/-- A masked write of a line changes the storage only. -/
@[simp] theorem applyLine_coh (s : State) (l : Nat) (wm : BitVec 64) (wd : BitVec 512) (po : BitVec 16) :
    (applyLine s l wm wd po).coh = s.coh := by
  refine foldl_keeps _ State.coh (fun s w => ?_) _ _
  split
  · rfl
  · exact State.putWord_coh ..

@[simp] theorem applyLine_fab (s : State) (l : Nat) (wm : BitVec 64) (wd : BitVec 512) (po : BitVec 16) :
    (applyLine s l wm wd po).fab = s.fab := by
  change (applyLine s l wm wd po).offMem.fab = s.offMem.fab
  rw [applyLine_offMem]

@[simp] theorem applyLine_dirOf (s : State) (l : Nat) (wm : BitVec 64) (wd : BitVec 512) (po : BitVec 16) (j : Nat) :
    (applyLine s l wm wd po).dirOf j = s.dirOf j := by
  rw [State.dirOf, applyLine_coh, State.dirOf]

/-! ### Ways (R490) -/

theorem die_of_fab {s t : State} (h : t.fab = s.fab) (d : Nat) : t.die d = s.die d := by
  rw [State.die, h, State.die]

/-- The way chosen depends on the links and the dies alone. -/
theorem routeOf_of_fab {s t : State} (h : t.fab = s.fab) (a b : Nat) : routeOf t a b = routeOf s a b := by
  have hdown (r : List Nat) (a : Nat) : downLink t a r = downLink s a r := by
    induction r generalizing a with
    | nil => rfl
    | cons b r ih => rw [downLink, downLink, ih, linkUp, linkUp, die_of_fab h]
  have hopen : routeOpen t a = routeOpen s a := by
    funext r
    simp only [routeOpen, hdown, die_of_fab h]
  rw [routeOf, routeOf, hopen]

/-- An answer sent, where the state keeps the fabric of `s`: its way and its number are those of `s`. -/
theorem replies_reply_of_fab {s t : State} (h : t.fab = s.fab) (p : Reply) : (t.reply p).coh.replies =
    t.coh.replies ++ [{ p with route := routeOf s (homeDie p.r.line) (coreDie p.r.core),
                               inc := (s.die (homeDie p.r.line)).inc }] := by
  simp only [State.reply, routeOf_of_fab h, die_of_fab h]

end Sys2Proof.MemoryProofs
end

section
/-! PROOFS. Fences and cache maintenance (O31): what FENCE, CFLUSH, CINV and SCBWAIT answer at their first issue, and what they
answer when they go on after a wait with what they kept. -/

namespace Sys2Proof.MemoryProofs
open Sys2Proof Sys2Proof.Machine Sys2Proof.ControlProofs

section Words
variable {s : State} {x : Cx} {sc a b : Nat} {all : Bool} {m : BitVec 192} {r : Option (List (Nat × Nat))}

theorem held_of_not_retry (h : x.cur.retry = false) : x.held = [] := by
  rw [Cx.held, h]
  rfl

/-! ### FENCE (R253) -/

theorem heldSet_of_not_held (h : x.held = []) : heldSet s x sc = x.scopeSet s sc := by
  rw [heldSet, h]

theorem fenceBody_of_no_set {k : Nat} (hm : heldSet s x sc = none) : fenceBody k sc s x = .trap s (scopeTrap x sc) := by
  rw [fenceBody, hm]

theorem fenceBody_of_outs {k : Nat} (hm : heldSet s x sc = some m) (ho : noOuts x.gang x.cur.grp = false) :
    fenceBody k sc s x = .block (keepArgs s x [m.toNat]) := by
  simp only [fenceBody, hm, ho, Bool.not_false, if_true]

/-- Bits 0 and 1 of a fence's kind: its acquire side and its release side. -/
theorem testBit_zero_one (k : Nat) : k.testBit 0 = decide (k % 2 = 1) ∧ k.testBit 1 = decide (k / 2 % 2 = 1) := by
  simp [Nat.testBit_zero, Nat.testBit_succ]

theorem fenceBody_of_released {k : Nat} (hm : heldSet s x sc = some m) (ho : noOuts x.gang x.cur.grp = true)
    (hr : k / 2 % 2 = 1 → release s x.cur.gang x.core x.dom x.cur.grp (wideSet m x.core || decide (k = 7)) = .ok) :
    fenceBody k sc s x = .done (if k % 2 = 1 ∧ wideSet m x.core = true then acquireWide s x.core else s) := by
  have hacq : (if k.testBit 0 then acquire s x.core (wideSet m x.core) else s) =
      if k % 2 = 1 ∧ wideSet m x.core = true then acquireWide s x.core else s := by
    rw [(testBit_zero_one k).1, acquire]
    by_cases h : k % 2 = 1 <;> simp [h]
  simp only [fenceBody, hm, ho, (testBit_zero_one k).2, hacq]
  by_cases h : k / 2 % 2 = 1
  · simp [h, hr h]
  · simp [h]

/-! ### CFLUSH and CINV (R254, R255) -/

/-- The cores of a set that still answer. -/
def answering (s : State) (m : BitVec 192) : List Nat := (coresOf m).filter (fun c => !coreFenced s c)

theorem maintBody_of_cinv (hh : x.held = []) (hc : rangeCheck s x sc a b all = .ok (m, r))
    (hb : flushBad ((answering s m).foldl (invL1 r) s) m r false = none) :
    maintBody false sc a b all s x = .done ((answering s m).foldl (invL1 r) s) := by
  rw [answering] at hb ⊢
  simp [maintBody, hh, hc, hb]

theorem maintBody_of_busy (hh : x.held = []) (hc : rangeCheck s x sc a b all = .ok (m, r))
    (hb : flushBusy ((answering s m).foldl (flushL1 r x.cur.gang x.dom) s) m r = true) :
    maintBody true sc a b all s x =
      .block (keepArgs ((answering s m).foldl (flushL1 r x.cur.gang x.dom) s) x (packRange m r)) := by
  rw [answering] at hb ⊢
  simp [maintBody, hh, hc, hb]

theorem maintBody_of_flushed (hh : x.held = []) (hc : rangeCheck s x sc a b all = .ok (m, r))
    (hb : flushBusy ((answering s m).foldl (flushL1 r x.cur.gang x.dom) s) m r = false)
    (hf : flushBad ((answering s m).foldl (flushL1 r x.cur.gang x.dom) s) m r true = none) :
    maintBody true sc a b all s x = .done ((answering s m).foldl (flushL1 r x.cur.gang x.dom) s) := by
  rw [answering] at hb hf ⊢
  simp [maintBody, hh, hc, hb, hf]

theorem pairUp_flatMap (ps : List (Nat × Nat)) : pairUp (ps.flatMap (fun p => [p.1, p.2])) = ps := by
  induction ps with
  | nil => rfl
  | cons p ps ih => rw [List.flatMap_cons, List.cons_append, List.cons_append, pairUp, List.nil_append, ih]

/-- A waiting CFLUSH keeps its set and its ranges. -/
theorem unpackRange_packRange (m : BitVec 192) (r : Option (List (Nat × Nat))) : unpackRange (packRange m r) = (m, r) := by
  cases r with
  | none => simp [unpackRange, packRange]
  | some ps => simp [unpackRange, packRange, pairUp_flatMap]

theorem maintBody_of_waited (hh : x.held = packRange m r) (hb : flushBusy s m r = false) (hf : flushBad s m r true = none) :
    maintBody true sc a b all s x = .done s := by
  have hne : packRange m r ≠ [] := by simp [packRange]
  simp [maintBody, hh, hne, unpackRange_packRange, hb, hf]

/-! ### SCBWAIT (R256) -/

/-- The first byte and the number of bytes that SCBWAIT names. -/
def scbRange (x : Cx) (a b : Nat) (all : Bool) : Nat × Nat :=
  (if all then x.crew.pbase else (x.src.r.rdSeg 1).base.toNat + (x.s a).toNat,
   if all then poundBytes x.crew.kw x.crew.rw else (x.s b).toNat)

theorem scbBody_of_first (hh : x.held = []) (hl : all = true ∨ (x.s a).toNat + (x.s b).toNat ≤ (x.src.r.rdSeg 1).limit.toNat) :
    let lo := (scbRange x a b all).1
    let hi := lo + (scbRange x a b all).2
    scbBody a b all s x = if (scbRange x a b all).2 ≠ 0 ∧ scoreMeets s x.core lo hi (chainCopies s x) = true then
      .block (keepArgs s x (lo :: hi :: chainCopies s x)) else .done s := by
  have hn (l n : Nat) : l < l + n ↔ n ≠ 0 := by omega
  cases all with
  | true => simp [scbBody, scbBytes, scbRange, hh, hn]
  | false =>
    have hl : ¬ (x.src.r.rdSeg 1).limit.toNat < (x.s a).toNat + (x.s b).toNat := by simpa using hl
    simp [scbBody, scbBytes, scbRange, hh, hl, hn]

theorem scbBody_of_waited {lo hi : Nat} {but : List Nat} (hh : x.held = lo :: hi :: but)
    (hm : scoreMeets s x.core lo hi but = false) : scbBody a b all s x = .done s := by
  simp [scbBody, scbBytes, hh, hm]

end Words

/-- Settles O31: each word's answer is its meaning's, at the first issue and after a wait. -/
theorem fenceAndMaintenanceWords : Obligations.FenceAndMaintenanceWords := by
  unfold Obligations.FenceAndMaintenanceWords
  intro s x c k sc a b l m r
  refine ⟨fun h hm ho hr => ?_, fun h hm ho => ?_, fun _ _ hh => heldSet_of_not_held hh, fun h hm => ?_, fun h ht hc hb => ?_,
    fun h ht hc => ⟨fun hb => ?_, fun hb hf => ?_⟩, fun h hh hb hf => ?_, fun h ht hl => ⟨fun hm => ?_, fun hn hm => ?_⟩,
    fun lo hi but h hh hm => ?_⟩
  · exact exec_of_issues h (by rfl) (fenceBody_of_released hm ho hr)
  · exact exec_of_issues h (by rfl) (fenceBody_of_outs hm ho)
  · exact exec_of_issues h (by rfl) (fenceBody_of_no_set hm)
  · exact exec_of_issues h (by rfl) (maintBody_of_cinv (held_of_not_retry ht) hc hb)
  · exact exec_of_issues h (by rfl) (maintBody_of_busy (held_of_not_retry ht) hc hb)
  · exact exec_of_issues h (by rfl) (maintBody_of_flushed (held_of_not_retry ht) hc hb hf)
  · exact exec_of_issues h (by rfl) (maintBody_of_waited hh hb hf)
  · refine exec_of_issues h (by rfl) ((scbBody_of_first (held_of_not_retry ht) hl).trans (if_neg ?_))
    exact fun hm' => Bool.false_ne_true (hm.symm.trans hm'.2)
  · exact exec_of_issues h (by rfl) ((scbBody_of_first (held_of_not_retry ht) hl).trans (if_pos ⟨hn, hm⟩))
  · exact exec_of_issues h (by rfl) (scbBody_of_waited hh hm)

end Sys2Proof.MemoryProofs
end

section
/-! PROOFS. The homes (O22): a request that its home can take and that needs no message answered first is performed; reads, writes
and writebacks, and what each makes of the directory and the storage. -/

namespace Sys2Proof.MemoryProofs
open Sys2Proof Sys2Proof.Machine

section Take
variable {s : State} {q : ReqX}

/-- A request that its home does not refuse, and that needs no message, is performed at once (R225). -/
theorem homeTake_of_no_messages {perform : State → ReqX → State} (hr : refusal s q = none) (hb : q.begun = false)
    (hm : firstMsgs s q = []) : homeTake s q perform = perform s q := by
  simp [homeTake, hr, hb, hm]

/-- So is one that needs a directory entry, where its set has room (R226). -/
theorem homeTakeDir_of_no_messages {perform : State → ReqX → State} (hr : refusal s q = none) (hb : q.begun = false)
    (hm : firstMsgs s q = []) (hd : dirFull s q.r.line = false) : homeTakeDir s q perform = perform s q := by
  rw [homeTakeDir, hd, Bool.and_false, if_neg Bool.false_ne_true, homeTake_of_no_messages hr hb hm]

theorem exec_of_taken {i : Instr} {k : ReqKind} {f : State → ReqX → State} {t : State} (he : exec i s = homeEvent s k f)
    (h : takeReq s (s.op 0) k = some q) (hf : f s q = t) : exec i s = .next t := by
  rw [he, homeEvent, h]
  exact congrArg _ hf

theorem exec_rdThr : exec .rdThr s = homeEvent s .rdThr (fun s q => homeTake s q answerRead) := by
  change execRdThr s = _
  rfl

theorem exec_rdSis : exec .rdSis s = homeEvent s .rdSis (fun s q => homeTake s q answerRead) := by
  change execRdSis s = _
  rfl

theorem exec_rdWis : exec .rdWis s = homeEvent s .rdWis (fun s q => homeTakeDir s q doRdWis) := by
  change execRdWis s = _
  rfl

theorem exec_rdOwn : exec .rdOwn s = homeEvent s .rdOwn (fun s q => homeTakeDir s q doRdOwn) := by
  change execRdOwn s = _
  rfl

theorem exec_wrThr : exec .wrThr s = homeEvent s .wrThr (fun s q => homeTake s q (doWrite true)) := by
  change execWrThr s = _
  rfl

theorem exec_wrWis : exec .wrWis s = homeEvent s .wrWis (fun s q => homeTake s q (doWrite false)) := by
  change execWrWis s = _
  rfl

theorem exec_pushWr : exec .pushWr s = homeEvent s .push (fun s q => homeTake s q (doWrite true)) := by
  change execPushWr s = _
  rfl

/-! ### Reads -/

/-- A read's answer changes neither the directory nor the storage. -/
@[simp] theorem dirOf_answerRead (l : Nat) : (answerRead s q).dirOf l = s.dirOf l := rfl
@[simp] theorem mem_answerRead : (answerRead s q).mem = s.mem := rfl

theorem sharers_doRdWis (hl : lineHost q.r.line = false) :
    ((doRdWis s q).dirOf q.r.line).sharers = (s.dirOf q.r.line).sharers ||| (1 <<< (q.r.core / 4)) := by
  simp only [doRdWis, hl, Bool.false_eq_true, if_false, dirOf_answerRead, State.useDir, sharers_putDir]
  rfl

theorem owners_doRdWis (hl : lineHost q.r.line = false) :
    ((doRdWis s q).dirOf q.r.line).owners = (s.dirOf q.r.line).owners := by
  simp only [doRdWis, hl, Bool.false_eq_true, if_false, dirOf_answerRead, State.useDir, owners_putDir]

theorem mem_doRdWis : (doRdWis s q).mem = s.mem := by
  unfold doRdWis
  split <;> simp

theorem sharers_doRdOwn : ((doRdOwn s q).dirOf q.r.line).sharers = 0 := by
  rw [doRdOwn, dirOf_answerRead, State.useDir, sharers_putDir]
  exact sharers_foldl_setOwner ..

theorem mem_doRdOwn : (doRdOwn s q).mem = s.mem := by
  simp [doRdOwn]

theorem owner_doRdOwn (w : Nat) : ((doRdOwn s q).dirOf q.r.line).owner w =
    if q.r.words.getLsbD w = true then some q.r.core else (s.dirOf q.r.line).owner w := by
  rw [doRdOwn, dirOf_answerRead, State.useDir, owner_putDir]
  refine (owner_foldl_setOwner ..).trans ?_
  simp only [mem_wordsOf]
  rfl

/-! ### Writes and writebacks -/

/-- A write finds no sharer to invalidate (R216). -/
theorem startInv_of_no_sharer (h : (s.dirOf q.r.line).sharers = 0) : startInv s q = none := by
  have hms : invMsgs s q.r.line (some q.r.core) q.r.id = [] := by simp [invMsgs, h]
  simp [startInv, hms]

/-- A write with no sharer to invalidate is applied and answered at once. -/
theorem doWrite_of_no_sharer (early : Bool) (h : (s.dirOf q.r.line).sharers = 0) : doWrite early s q =
    ((applyLine s q.r.line q.r.wm q.r.wd q.r.po).dropReq q.r.id).reply { kind := .done, r := q.r } := by
  have hs : startInv (applyLine s q.r.line q.r.wm q.r.wd q.r.po) q = none :=
    startInv_of_no_sharer (by rw [applyLine_dirOf, h])
  simp only [doWrite, hs]

theorem exec_write_of_no_sharer {i : Instr} {k : ReqKind}
    (hi : (i, k) = (Instr.wrThr, ReqKind.wrThr) ∨ (i, k) = (Instr.wrWis, ReqKind.wrWis) ∨ (i, k) = (Instr.pushWr, ReqKind.push))
    (ht : takeReq s (s.op 0) k = some q) (hr : refusal s q = none) (hb : q.begun = false) (hm : firstMsgs s q = [])
    (h : (s.dirOf q.r.line).sharers = 0) : exec i s = .next
      (((applyLine s q.r.line q.r.wm q.r.wd q.r.po).dropReq q.r.id).reply { kind := .done, r := q.r }) := by
  have hexec : ∃ early, exec i s = homeEvent s k (fun s q => homeTake s q (doWrite early)) := by
    rcases hi with hi | hi | hi <;> cases hi
    · exact ⟨true, exec_wrThr⟩
    · exact ⟨false, exec_wrWis⟩
    · exact ⟨true, exec_pushWr⟩
  obtain ⟨early, he⟩ := hexec
  exact exec_of_taken he ht ((homeTake_of_no_messages hr hb hm).trans (doWrite_of_no_sharer early h))

/-- What a writeback leaves of the words that its sender still owns: the written state and the freed owners (R222). -/
def writtenBack (s : State) (q : ReqX) : State :=
  let mine := ownedBy (s.dirOf q.r.line) q.r.words q.r.core
  ((applyLine s q.r.line (onlyWords mine q.r.wm) q.r.wd q.r.po).putDir q.r.line
    ((wordsOf mine).foldl DirEnt.clearOwner (s.dirOf q.r.line))).dropReq q.r.id

theorem exec_writeback (hq : s.coh.reqs[s.op 0]? = some q) (hk : q.r.kind = .writeback) (hl : q.lost = false) :
    exec .writeback s = .next (writtenBack s q) := by
  change execWriteback s = _
  simp [execWriteback, hq, hk, hl, event, writtenBack]

theorem mem_writtenBack : (writtenBack s q).mem = (applyLine s q.r.line
    (q.r.wm &&& wholeMask (ownedBy (s.dirOf q.r.line) q.r.words q.r.core)) q.r.wd q.r.po).mem := by
  simp [writtenBack, onlyWords]

theorem owner_writtenBack (w : Nat) : ((writtenBack s q).dirOf q.r.line).owner w =
    if w < 16 ∧ q.r.words.getLsbD w = true ∧ (s.dirOf q.r.line).owner w = some q.r.core then none
    else (s.dirOf q.r.line).owner w := by
  rw [writtenBack, State.dropReq_dirOf, owner_putDir, owner_foldl_clearOwner]
  simp only [mem_wordsOf, getLsbD_ownedBy, Bool.and_eq_true, decide_eq_true_eq]

theorem sharers_writtenBack : ((writtenBack s q).dirOf q.r.line).sharers = (s.dirOf q.r.line).sharers := by
  rw [writtenBack, State.dropReq_dirOf, sharers_putDir, sharers_foldl_clearOwner]

theorem reqs_writtenBack : (writtenBack s q).coh.reqs = s.coh.reqs.filter (fun p => decide (p.r.id ≠ q.r.id)) := by
  rw [writtenBack, State.dropReq, State.putDir_coh_reqs, applyLine_coh]

end Take

/-- Settles O22: a request that can be taken is performed, and what that makes of the line is what the lemmas above say. -/
theorem homeSteps : Obligations.HomeSteps := by
  unfold Obligations.HomeSteps
  refine ⟨fun s q hr hb hm => ⟨fun ht => ?_, fun ht => ?_, fun ht hd hl => ?_, fun ht hd hl hw => ?_⟩,
    fun s q => ⟨fun i k hi ht hr hb hm h => ?_, fun hq hk hl => ?_⟩⟩
  · exact exec_of_taken exec_rdThr ht (homeTake_of_no_messages hr hb hm)
  · exact exec_of_taken exec_rdSis ht (homeTake_of_no_messages hr hb hm)
  · refine ⟨_, exec_of_taken exec_rdWis ht (homeTakeDir_of_no_messages hr hb hm hd), sharers_doRdWis hl,
      owners_doRdWis hl, fun b => by rw [mem_doRdWis]⟩
  · refine ⟨_, exec_of_taken exec_rdOwn ht (homeTakeDir_of_no_messages hr hb hm hd), sharers_doRdOwn,
      fun w _ hw => ?_, fun w hw _ => ?_, fun b => by rw [mem_doRdOwn]⟩
    · rw [owner_doRdOwn, if_pos hw]
    · rw [owner_doRdOwn, if_neg (by simp [hw])]
  · refine ⟨_, exec_write_of_no_sharer hi ht hr hb hm h, ⟨fun b hb => ?_, fun j hj => ?_⟩, ?_, ?_⟩
    · rw [State.reply_mem, State.dropReq_mem, getByte_applyLine_of_outside _ _ _ _ _ hb]
    · rw [State.reply_mem, State.dropReq_mem, getByte_applyLine _ _ _ _ _ _ hj]
    · rw [replies_reply_of_fab (s := s) (by simp)]
      simp
    · simp [State.dropReq]
  · refine ⟨_, exec_writeback hq hk hl, ⟨fun b hb => ?_, fun j hj => ?_⟩, owner_writtenBack, sharers_writtenBack,
      reqs_writtenBack⟩
    · rw [mem_writtenBack, getByte_applyLine_of_outside _ _ _ _ _ hb]
    · rw [mem_writtenBack, getByte_applyLine _ _ _ _ _ _ hj]

end Sys2Proof.MemoryProofs
end

section
/-! PROOFS. What a core does on a message of a home (O23): a recall, a forwarded read, an invalidation, and the acknowledgement that
ends a write. -/

namespace Sys2Proof.MemoryProofs
open Sys2Proof Sys2Proof.Machine

section Snoops
variable {s : State} {m : Snoop}

/-! ### The end of a message -/

/-- Request `id` is a home's own eviction. -/
def Evicts (s : State) (id : Nat) : Prop := ∃ q ∈ s.coh.reqs, q.r.id = id ∧ q.r.kind = .evict

theorem evictDone_of_not_evicts {id : Nat} (h : ¬ Evicts s id) : evictDone s id = s := by
  have hf : s.coh.reqs.find? (fun q => decide (q.r.id = id) && decide (q.r.kind = .evict)) = none := by
    rw [List.find?_eq_none]
    exact fun q hq hp => h ⟨q, hq, by simpa using hp⟩
  rw [evictDone, hf]

/-- The answers to an eviction free its entry and its request, and nothing else (R226). -/
theorem evictDone_cases (s : State) (id : Nat) : evictDone s id = s ∨
    ∃ l, evictDone s id = (s.putDir l {}).dropReq id := by
  unfold evictDone
  split
  · exact .inl rfl
  · split
    · exact .inl rfl
    · exact .inr ⟨_, rfl⟩

@[simp] theorem evictDone_mem (id : Nat) : (evictDone s id).mem = s.mem := by
  rcases evictDone_cases s id with h | ⟨l, h⟩ <;> simp [h]

@[simp] theorem evictDone_l1 (id c l : Nat) : (evictDone s id).l1 c l = s.l1 c l := by
  rcases evictDone_cases s id with h | ⟨k, h⟩ <;> simp [h]

@[simp] theorem evictDone_snoops (id : Nat) : (evictDone s id).coh.snoops = s.coh.snoops := by
  rcases evictDone_cases s id with h | ⟨l, h⟩ <;> simp [h]

/-- A word without an owner has none when an eviction ends. -/
theorem owner_evictDone_of_none {l w : Nat} (id : Nat) (h : (s.dirOf l).owner w = none) :
    ((evictDone s id).dirOf l).owner w = none := by
  rcases evictDone_cases s id with he | ⟨k, he⟩
  · rw [he, h]
  · rw [he, State.dropReq_dirOf, dirOf_putDir]
    split
    · rfl
    · exact h

/-- The state without message `k`, or with what is left of it. -/
def withSnoop (s : State) (k : Nat) (m : Snoop) (left : BitVec 16) : State :=
  { s with coh.snoops := if left = 0 then dropAt s.coh.snoops k else putAt s.coh.snoops k { m with words := left } }

theorem leaveSnoop_eq (k : Nat) (left : BitVec 16) : leaveSnoop s k m left = evictDone (withSnoop s k m left) m.req := rfl

@[simp] theorem withSnoop_mem (k : Nat) (left : BitVec 16) : (withSnoop s k m left).mem = s.mem := rfl
@[simp] theorem withSnoop_l1 (k : Nat) (left : BitVec 16) (c l : Nat) : (withSnoop s k m left).l1 c l = s.l1 c l := rfl
@[simp] theorem withSnoop_dirOf (k : Nat) (left : BitVec 16) (l : Nat) : (withSnoop s k m left).dirOf l = s.dirOf l := rfl
@[simp] theorem withSnoop_dir (k : Nat) (left : BitVec 16) : (withSnoop s k m left).coh.dir = s.coh.dir := rfl
@[simp] theorem withSnoop_reqs (k : Nat) (left : BitVec 16) : (withSnoop s k m left).coh.reqs = s.coh.reqs := rfl
theorem withSnoop_snoops {k : Nat} {left : BitVec 16} (h : left = 0) :
    (withSnoop s k m left).coh.snoops = dropAt s.coh.snoops k := by
  rw [withSnoop, if_pos h]

/-! ### Recalls and forwarded reads (R221, Table 7-7) -/

/-- The words of a message that its core owns, and those that wait for a writeback of it. -/
def mineOf (s : State) (m : Snoop) : BitVec 16 := m.words &&& (s.l1 m.dest m.line).om
def leftOf (s : State) (m : Snoop) : BitVec 16 := bitsTo16 (fun w =>
  m.words.getLsbD w && !(mineOf s m).getLsbD w && (pendingWb s m.dest m.line w).isSome)

/-- What a recall makes of the storage, the L1 and the directory. -/
def recalled (s : State) (m : Snoop) : State :=
  let e := s.l1 m.dest m.line
  let mine := mineOf s m
  ((applyLine s m.line (wholeMask (mine &&& e.dm)) e.data ((e.po ||| m.po) &&& mine &&& e.dm)).putL1 m.dest m.line
    (e.giveUp mine)).putDir m.line ((wordsOf mine).foldl DirEnt.clearOwner (s.dirOf m.line))

theorem exec_recall (h : s.snoopAt (s.op 0) = some m) (hk : m.kind = .recall) (hc : coreAnswers s m.dest = true)
    (hd : dataComing s m.dest m.line = false) :
    exec .recall s = .next (leaveSnoop (recalled s m) (s.op 0) m (leftOf s m)) := by
  change execRecall s = _
  simp [execRecall, h, hk, hc, hd, event, recalled, mineOf, leftOf]

@[simp] theorem recalled_snoops : (recalled s m).coh.snoops = s.coh.snoops := by
  simp [recalled]

@[simp] theorem recalled_reqs : (recalled s m).coh.reqs = s.coh.reqs := by
  simp [recalled]

theorem recalled_l1 : (recalled s m).l1 m.dest m.line = ((s.l1 m.dest m.line).giveUp (mineOf s m)).norm := by
  rw [recalled, State.putDir_l1, l1_putL1, if_pos rfl]

theorem recalled_owner (w : Nat) : ((recalled s m).dirOf m.line).owner w =
    if (mineOf s m).getLsbD w = true then none else (s.dirOf m.line).owner w := by
  rw [recalled, owner_putDir, owner_foldl_clearOwner]
  simp only [mem_wordsOf]

theorem recalled_sharers : ((recalled s m).dirOf m.line).sharers = (s.dirOf m.line).sharers := by
  rw [recalled, sharers_putDir, sharers_foldl_clearOwner]

theorem getByte_recalled_of_outside {b : Nat} (hb : ¬ (64 * m.line ≤ b ∧ b < 64 * m.line + 64)) :
    getByte (recalled s m).mem b = getByte s.mem b := by
  rw [recalled, State.putDir_mem, State.putL1_mem, getByte_applyLine_of_outside _ _ _ _ _ hb]

theorem getByte_recalled {k : Nat} (hk : k < 64) : getByte (recalled s m).mem (64 * m.line + k) =
    if (mineOf s m &&& (s.l1 m.dest m.line).dm).getLsbD (k / 4) then (s.l1 m.dest m.line).data.extractLsb' (8 * k) 8
    else getByte s.mem (64 * m.line + k) := by
  rw [recalled, State.putDir_mem, State.putL1_mem, getByte_applyLine _ _ _ _ _ _ hk, getLsbD_wholeMask]

/-- What a core sends for a forwarded read: each owned word with its value and its poison. -/
def sentWords (s : State) (m : Snoop) : List (Nat × (Word × Bool)) :=
  let e := s.l1 m.dest m.line
  (wordsOf (mineOf s m)).map (fun w => (w, lineWord e.data w, (e.po ||| m.po).getLsbD w))

/-- The request of a forwarded read with what the core has sent. -/
def forwarded (s : State) (m : Snoop) : State :=
  s.modReq m.req (fun q => { q with got := (sentWords s m).foldl (fun g p => smSet g p.1 p.2) q.got })

theorem exec_fwdRd (h : s.snoopAt (s.op 0) = some m) (hk : m.kind = .fwdRd) (hc : coreAnswers s m.dest = true)
    (hd : dataComing s m.dest m.line = false) :
    exec .fwdRd s = .next (leaveSnoop (forwarded s m) (s.op 0) m (leftOf s m)) := by
  change execFwdRd s = _
  simp [execFwdRd, h, hk, hc, hd, event, forwarded, sentWords, mineOf, leftOf, List.foldl_map]

theorem forwarded_not_evicts (h : ¬ Evicts s m.req) : ¬ Evicts (forwarded s m) m.req := by
  rintro ⟨q, hq, hid, hk⟩
  obtain ⟨p, hp, rfl⟩ := List.mem_map.1 hq
  refine h ⟨p, hp, ?_⟩
  by_cases hpm : p.r.id = m.req
  · rw [if_pos hpm] at hk
    exact ⟨hpm, hk⟩
  · rw [if_neg hpm] at hid
    exact absurd hid hpm

/-! ### Invalidations (R216) -/

/-- A fold that drops the S sectors of a line in the L1s of `cs`. -/
theorem foldl_dropS_l1 (cs : List Nat) (l c : Nat) (t : State) (hn : cs.Nodup) :
    (cs.foldl (fun s c => s.putL1 c l (s.l1 c l).dropS) t).l1 c l =
      if c ∈ cs then (t.l1 c l).dropS.norm else t.l1 c l := by
  induction cs generalizing t with
  | nil => simp
  | cons d cs ih =>
    obtain ⟨hd, hn⟩ := List.nodup_cons.1 hn
    rw [List.foldl_cons, ih _ hn, l1_putL1]
    by_cases hc : c = d
    · subst hc
      simp [hd]
    · simp [hc]

/-- The cores of a message's cluster, but for the one that it leaves out. -/
def clusterCores (m : Snoop) : List Nat :=
  ((List.range 4).map (fun k => 4 * m.dest + k)).filter (fun c => decide (some c ≠ m.skip))

theorem mem_clusterCores {c : Nat} : c ∈ clusterCores m ↔ c / 4 = m.dest ∧ some c ≠ m.skip := by
  simp only [clusterCores, List.mem_filter, List.mem_map, List.mem_range, decide_eq_true_eq]
  refine and_congr_left fun _ => ⟨fun ⟨k, hk, hc⟩ => by omega, fun h => ⟨c % 4, by omega, by omega⟩⟩

theorem nodup_clusterCores : (clusterCores m).Nodup :=
  List.Nodup.filter _ (List.Nodup.map (fun _ _ h => Nat.add_left_cancel h) List.nodup_range)

/-- The L1s of a cluster after an invalidation. -/
def invalidated (s : State) (m : Snoop) : State :=
  (clusterCores m).foldl (fun s c => s.putL1 c m.line (s.l1 c m.line).dropS) s

/-- The state after an invalidation: its message gone, its acknowledgement on its way. -/
def acknowledged (s : State) (m : Snoop) : State :=
  { invalidated s m with coh.snoops := dropAt s.coh.snoops (s.op 0), coh.acks := s.coh.acks ++ [m.answer s] }

theorem exec_invalidation (h : s.snoopAt (s.op 0) = some m) (hk : m.kind = .inv) (hc : coreAnswers s (4 * m.dest) = true)
    (hd : ∀ c, c / 4 = m.dest → some c ≠ m.skip → dataComing s c m.line = false) :
    exec .invalidation s = .next (acknowledged s m) := by
  have hany : (clusterCores m).any (fun c => dataComing s c m.line) = false := by
    rw [List.any_eq_false]
    intro c hmem
    rw [hd c (mem_clusterCores.1 hmem).1 (mem_clusterCores.1 hmem).2]
    exact Bool.false_ne_true
  rw [clusterCores] at hany
  change execInvalidation s = _
  simp only [execInvalidation, h, hk, hc, hany, event]
  rfl

theorem acknowledged_l1 (c : Nat) : (acknowledged s m).l1 c m.line =
    if c / 4 = m.dest ∧ some c ≠ m.skip then (s.l1 c m.line).dropS.norm else s.l1 c m.line := by
  refine (foldl_dropS_l1 (clusterCores m) m.line c s nodup_clusterCores).trans ?_
  simp only [mem_clusterCores]

/-! ### Acknowledgements (R216) -/

/-- The state without acknowledgement `k`. -/
def withoutAck (s : State) (k : Nat) : State := { s with coh.acks := dropAt s.coh.acks k }

/-- The last acknowledgement of a write that has been applied: it is done. -/
theorem exec_invalidationAck {a : Ack} {q : ReqX} (h : s.ackAt (s.op 0) = some a)
    (hq : s.coh.reqs.find? (fun q => decide (q.r.id = a.req)) = some q) (ha : q.applied = true) (hk : q.r.kind ≠ .atomic)
    (he : q.r.kind ≠ .evict) (ho : msgsOut (withoutAck s (s.op 0)) a.req = false) :
    exec .invalidationAck s = .next (((withoutAck s (s.op 0)).dropReq a.req).reply
      { kind := .done, r := q.r, freed := q.acked }) := by
  change execInvalidationAck s = _
  rw [withoutAck] at ho
  simp [execInvalidationAck, h, hq, ha, hk, he, ho, event, withoutAck]

end Snoops

/-- Settles O23: each message's end is named, and what it makes of the line is what the lemmas above say. -/
theorem snoopSteps : Obligations.SnoopSteps := by
  unfold Obligations.SnoopSteps
  refine ⟨fun s m hm hc hd => ⟨fun hk => ?_, fun hk he => ?_⟩, fun s m hm hc hk _ _ hd => ?_, fun s a q hm hq ha hk he ho => ?_⟩
  · refine ⟨_, exec_recall hm hk hc hd, ?_, fun b hb => ?_, fun k hk => ?_, fun w hw => ?_, fun he => ⟨?_, fun w hw => ?_⟩,
      fun hl => ?_⟩
    · rw [leaveSnoop_eq, evictDone_l1, withSnoop_l1, recalled_l1]
      rfl
    · rw [leaveSnoop_eq, evictDone_mem, withSnoop_mem, getByte_recalled_of_outside hb]
    · rw [leaveSnoop_eq, evictDone_mem, withSnoop_mem, getByte_recalled hk]
      rfl
    · rw [leaveSnoop_eq]
      exact owner_evictDone_of_none _ (by rw [withSnoop_dirOf, recalled_owner]; exact if_pos hw)
    · rw [leaveSnoop_eq, evictDone_of_not_evicts (by simpa [Evicts] using he), withSnoop_dirOf, recalled_sharers]
    · rw [leaveSnoop_eq, evictDone_of_not_evicts (by simpa [Evicts] using he), withSnoop_dirOf, recalled_owner]
      exact if_neg (by simpa [mineOf] using hw)
    · rw [leaveSnoop_eq, evictDone_snoops, withSnoop_snoops (left := leftOf s m) hl, recalled_snoops]
  · have hend : leaveSnoop (forwarded s m) (s.op 0) m (leftOf s m) = withSnoop (forwarded s m) (s.op 0) m (leftOf s m) :=
      evictDone_of_not_evicts (forwarded_not_evicts he)
    refine ⟨_, exec_fwdRd hm hk hc hd, ?_, ?_, ?_, fun b => ?_, fun hl => ?_⟩
    · rw [hend, withSnoop_l1, forwarded, State.modReq_l1]
    · rw [hend, withSnoop_dir]
      rfl
    · rw [hend, withSnoop_reqs]
      rfl
    · rw [hend, withSnoop_mem, forwarded, State.modReq_mem]
    · rw [hend, withSnoop_snoops (left := leftOf s m) hl, forwarded, State.modReq_coh_snoops]
  · have hdie : m.die = m.dest / 12 := by rw [Snoop.die, if_pos hk]
    refine ⟨_, exec_invalidation hm hk hc hd, ⟨_, rfl, rfl, hdie, rfl, ?_, ?_⟩, rfl, fun c h1 h2 => ?_, fun c h => ?_⟩
    · rw [← hdie]
      rfl
    · rw [← hdie]
      rfl
    · rw [acknowledged_l1, if_pos ⟨h1, h2⟩]
    · rw [acknowledged_l1, if_neg fun hn => h.elim (fun h => h hn.1) (fun h => hn.2 h)]
  · refine ⟨_, exec_invalidationAck hm hq ha hk he ho, ?_, ?_⟩
    · exact replies_reply_of_fab (s := s) (t := (withoutAck s (s.op 0)).dropReq a.req) rfl _
    · rw [State.reply_coh_reqs]
      rfl

end Sys2Proof.MemoryProofs
end

section
/-! PROOFS. Requests on their way and replies that reach their core (O21): the staging queue, the age rule, a page walk, a load that
its one reply completes, and the errors. -/

namespace Sys2Proof.MemoryProofs
open Sys2Proof Sys2Proof.Machine

section Requests
variable {s : State} {q : ReqX}

/-! ### Requests of a core (R208, R210) -/

/-- No older staged request of the core goes first (R210). -/
theorem stagedFor_eq_false (h : ∀ p ∈ s.coh.reqs, p.staged = true → p.r.core = q.r.core → p.r.id < q.r.id →
      bankOf p.r.line ≠ bankOf q.r.line ∧ lsuRoom s q.r.core (bankOf p.r.line) = false) :
    stagedFor s q.r.core (bankOf q.r.line) q.r.id = false := by
  rw [stagedFor, List.any_eq_false]
  intro p hp hgoes
  simp only [Bool.and_eq_true, Bool.or_eq_true, decide_eq_true_eq] at hgoes
  obtain ⟨⟨⟨hst, hcore⟩, hid⟩, hfirst⟩ := hgoes
  obtain ⟨hbank, hroom⟩ := h p hp hst hcore hid
  exact hfirst.elim hbank fun hr => Bool.false_ne_true (hroom.symm.trans hr)

theorem exec_stagingQueue (hq : s.coh.reqs[s.op 0]? = some q) (hs : q.staged = true)
    (hr : lsuRoom s q.r.core (bankOf q.r.line) = true) (hf : stagedFor s q.r.core (bankOf q.r.line) q.r.id = false) :
    exec .stagingQueue s = .next (s.modReq q.r.id (fun q => { q with r := q.r.sent s, staged := false })) := by
  change execStagingQueue s = _
  simp [execStagingQueue, hq, hs, hr, hf, event]

theorem exec_lsuAgeBoost (hq : s.coh.reqs[s.op 0]? = some q) (hb : q.begun = false) (ht : 4096 ≤ clocksSince s q.at_) :
    exec .lsuAgeBoost s = .next (s.modReq q.r.id (fun q => { q with boost := true })) := by
  change execLsuAgeBoost s = _
  simp [execLsuAgeBoost, hq, hb, ht, event]

theorem exec_pageWalk (h : s.op 0 < 192) : exec .pageWalk s = .next (fillTlb s (s.op 0) (s.op 1) (s.op 2)) := by
  change execPageWalk s = _
  simp [execPageWalk, h, event]

/-- A host read that gets no completion is answered with HOST_ERR (R229, R344). -/
theorem exec_completionTimeout (hq : s.coh.reqs[s.op 0]? = some q) (hl : lineHost q.r.line = true) (hb : q.begun = false)
    (hk : q.r.kind = .rdThr) : exec .completionTimeout s = .next (refuse (noCompletion s) q .hostErr) := by
  change execCompletionTimeout s = _
  simp [execCompletionTimeout, hq, hl, hb, hk, event]

theorem refuse_noCompletion (c : Cause) : refuse (noCompletion s) q c = { s with
    host.aer := s.host.aer ||| ((1 : Word) <<< 14)
    coh.reqs := s.coh.reqs.filter (fun p => decide (p.r.id ≠ q.r.id)),
    coh.replies := s.coh.replies ++ [({ kind := .error c, r := q.r, ats := q.ats, wide := q.wide,
                                        route := routeOf s (homeDie q.r.line) (coreDie q.r.core),
                                        inc := (s.die (homeDie q.r.line)).inc } : Reply)] } := by
  have hfab : ((noCompletion s).dropReq q.r.id).fab = s.fab := rfl
  simp only [refuse, State.reply, routeOf_of_fab hfab, die_of_fab hfab]
  rfl

end Requests

section Replies
variable {s : State} {p : Reply}

/-! ### Replies (R214, R228) -/

theorem exec_loadReply (h : s.arriving (s.op 0) = some p) (hk : p.kind = .data) (ha : p.r.kind ≠ .atomic)
    (hb : p.r.kind ≠ .barrier) : exec .loadReply s = .next (takeData (s.takeReply (s.op 0)) p) := by
  change execLoadReply s = _
  simp [execLoadReply, h, hk, ha, hb, event]

theorem exec_storeAck (h : s.arriving (s.op 0) = some p) (hk : p.kind = .ack ∨ p.kind = .done) :
    exec .storeAck s = .next (s.takeReply (s.op 0)) := by
  change execStoreAck s = _
  rcases hk with hk | hk <;> simp [execStoreAck, h, hk, event]

/-- The error reply of a store is a deferred fault of its lanes. -/
theorem exec_errorReply_of_store {c : Cause} (h : s.arriving (s.op 0) = some p) (hk : p.kind = .error c) (ha : p.r.kind ≠ .atomic)
    (hb : p.r.kind ≠ .barrier) (hp : p.r.kind ≠ .push) (ho : p.r.out = 0) :
    exec .errorReply s = .next (storeFault (s.takeReply (s.op 0)) p.r c) := by
  change execErrorReply s = _
  simp [execErrorReply, h, hk, ha, hb, event, takeError, hp, ho]

/-- A load with all its values: its last reply has come without a failure. -/
def loadedOut (o : Out) (data : BitVec 512) : Out :=
  { o with accs := [], left := 0, wrV := o.accs.map (fun a => (a.dst, accValue a (lineWord data (wordIx a.pa)))) }

/-- What the one reply that a load waits for brings it, where it has no failure. -/
theorem bring_of_last {r : Req} {o : Out} {data : BitVec 512} (ho : smFind s.work.outs r.out = some o) (hk : o.kind = .load)
    (hl : o.left = 1) (he : o.err = none) (hv : o.wrV = [])
    (hmine : ∀ a ∈ o.accs, lineOf a.pa = r.line ∧ r.words.getLsbD (wordIx a.pa) = true) :
    bring s r data 0 none = closeIfDone { s with work.outs := smSet s.work.outs r.out (loadedOut o data) } r.out := by
  have hall (a : Acc) (ha : a ∈ o.accs) : (decide (lineOf a.pa = r.line) && r.words.getLsbD (wordIx a.pa)) = true := by
    simp [hmine a ha]
  have hm : o.accs.filter (fun a => decide (lineOf a.pa = r.line) && r.words.getLsbD (wordIx a.pa)) = o.accs :=
    List.filter_eq_self.2 hall
  have hr : o.accs.filter (fun a => !(decide (lineOf a.pa = r.line) && r.words.getLsbD (wordIx a.pa))) = [] :=
    List.filter_eq_nil_iff.2 fun a ha => by simp [hall a ha]
  have hbad : loadErr .poisonRd (o.accs.filter (fun a => (0 : BitVec 16).getLsbD (wordIx a.pa))) = none := by
    simp [loadErr]
  have hout : (⟨o.kind, o.gang, o.grp, o.pc, o.npc, [], o.hits, o.left - 1,
      o.accs.map (fun a => (a.dst, accValue a (lineWord data (wordIx a.pa)))), o.wrS, o.dstV, o.dstS, joinErr o.err none, o.acq,
      o.hnd⟩ : Out) = loadedOut o data := by
    simp [loadedOut, hl, he, joinErr]
  simp only [bring, ho, hm, hr, hbad, hk, hv, List.nil_append, if_true, Option.map_none, ← hout]

/-- A load with all its values and no failure writes its registers and closes. -/
theorem closeIfDone_of_loaded {id : Nat} {o : Out} (ho : smFind s.work.outs id = some o) (hk : o.kind = .load) (hl : o.left = 0)
    (he : o.err = none) (ha : o.acq = none) : closeIfDone s id = closeOut (writeOut s o) id := by
  simp [closeIfDone, ho, hk, hl, he, ha]

/-- A read that does not change the L1 only brings its data to the load. -/
theorem takeData_of_rdThr (hk : p.r.kind = .rdThr) (hw : p.r.wm = 0) (ho : p.r.out ≠ 0) :
    takeData s p = bring s p.r p.data p.po none := by
  simp [takeData, Reply.fills, Req.fills, hk, hw, ho]

/-- The registers after an outstanding instruction's values are written and it is closed. -/
theorem gang_closeOut_writeOut {id : Nat} {o : Out} {g : Gang} (ho : smFind s.work.outs id = some o) (hs : o.wrS = [])
    (hg : s.gang o.gang = some g) :
    (closeOut (writeOut s o) id).gang o.gang = some (FloatProofs.Gang.closed { g with r := g.r.putV o.wrV } id) := by
  have hw : (writeOut s o).gang o.gang = some { g with r := g.r.putV o.wrV } := by
    rw [writeOut, hs, State.gang_modGang, if_pos rfl, hg]
    rfl
  rw [FloatProofs.closeOut_of_some (s := writeOut s o) ho, State.gang_modGang, if_pos rfl]
  exact congrArg (Option.map (FloatProofs.Gang.closed · id)) hw

/-- The last reply of a load writes its registers and ends it (R214). -/
theorem takeData_of_last {o : Out} {g : Gang} (hr : p.r.kind = .rdThr) (hw : p.r.wm = 0) (ho : smFind s.work.outs p.r.out = some o)
    (hout : p.r.out ≠ 0) (hk : o.kind = .load) (hl : o.left = 1) (he : o.err = none) (ha : o.acq = none) (hv : o.wrV = [])
    (hs : o.wrS = []) (hpo : p.po = 0) (hg : s.gang o.gang = some g)
    (hmine : ∀ a ∈ o.accs, lineOf a.pa = p.r.line ∧ p.r.words.getLsbD (wordIx a.pa) = true) :
    ∃ g', (takeData s p).gang o.gang = some g' ∧ smFind (takeData s p).work.outs p.r.out = none ∧
      g'.r = g.r.putV (o.accs.map (fun a => (a.dst, accValue a (lineWord p.data (wordIx a.pa))))) := by
  have hfind : smFind (smSet s.work.outs p.r.out (loadedOut o p.data)) p.r.out = some (loadedOut o p.data) :=
    (smFind_smSet ..).trans (if_pos rfl)
  have hdone : takeData s p = closeOut (writeOut { s with work.outs := smSet s.work.outs p.r.out (loadedOut o p.data) }
      (loadedOut o p.data)) p.r.out := by
    rw [takeData_of_rdThr hr hw hout, hpo, bring_of_last ho hk hl he hv hmine]
    exact closeIfDone_of_loaded hfind hk rfl he ha
  rw [hdone]
  exact ⟨_, gang_closeOut_writeOut (o := loadedOut o p.data) hfind hs hg, MatrixProofs.closeOut_outs .., rfl⟩

end Replies

/-- Settles O21: a staged request goes in the order of R210, an old one is raised, a walk fills the TLBs, a reply reaches its
core, the last one of a load ends it, and a host read without completion is answered. -/
theorem requestAndReplySteps : Obligations.RequestAndReplySteps := by
  unfold Obligations.RequestAndReplySteps
  refine ⟨fun s q hq => ⟨fun hs hr hf => exec_stagingQueue hq hs hr (stagedFor_eq_false hf), exec_lsuAgeBoost hq, exec_pageWalk⟩,
    fun s p hp => ⟨exec_loadReply hp, exec_storeAck hp, fun c hk ha hb hpush ho =>
      ⟨_, exec_errorReply_of_store hp hk ha hb hpush ho, rfl, fun b => rfl⟩⟩,
    fun s p o g hp hk hr hw ho hout hload hl he ha hv hs hpo hg hmine _ => ?_,
    fun s q hq hl hb hk => (exec_completionTimeout hq hl hb hk).trans (congrArg _ (refuse_noCompletion _))⟩
  obtain ⟨g', hgang, hnone, hregs⟩ := takeData_of_last (s := s.takeReply (s.op 0)) hr hw ho hout hload hl he ha hv hs hpo hg hmine
  exact ⟨_, g', exec_loadReply hp hk (by rw [hr]; decide) (by rw [hr]; decide), hgang, hnone, hregs⟩

end Sys2Proof.MemoryProofs
end

section
/-! PROOFS. Where an access traps (O20): a failed check of LD, ST, LDU and STU is the word's one trap, and a deferred fault of the
group is delivered in the place of its next chain. -/

namespace Sys2Proof.MemoryProofs
open Sys2Proof Sys2Proof.Machine

/-! ### The checks of a word (R201 to R203, R205) -/

section Checks
variable {s : State} {x : Cx} {g : Nat} {body : Res}

theorem checkedLanes_of_fail {rs : List (Nat × DWord × Except CkFail Nat)} {q : TrapReq}
    (h : lanesFail (segOf s x.dom x.hnd x.src.r g).base rs = some q) : checkedLanes s x g rs body = .trap s q := by
  simp only [checkedLanes, h]

theorem checkedOnce_of_fail {j : Nat} {off : DWord} {r : Except CkFail Nat} {f : CkFail} (h : r = .error f) :
    checkedOnce s x g (j, off, r) body = .trap s (onceFail x (segOf s x.dom x.hnd x.src.r g).base off f) := by
  simp only [checkedOnce, h]

/-- A word whose meaning is a trap writes no byte. -/
theorem traps_of_issues {i : Instr} {f : State → Cx → Res} {q : TrapReq} (h : Issues s x i) (he : exec i s = issue i s f)
    (hf : f s x = .trap s q) : exec i s = .next (finish x (.trap s q)) ∧
      ∀ b, getByte (finish x (.trap s q)).mem b = getByte s.mem b :=
  ⟨ControlProofs.exec_of_issues h he hf, fun b => congrArg (getByte · b) (ControlProofs.finish_mem x _)⟩

end Checks

/-! ### The fields of a record's first word (Table 15-2) -/

section Word0
variable (m : BitVec 8) (nst repv : Bool) (j slot kind disp code : Nat)

/-- Word 0 is the group above 24 bits that end with the cause. -/
theorem recWord0_eq : ∃ r, r < 16777216 ∧ r % 128 = code % 128 ∧
    recWord0 m nst repv j slot kind disp code = BitVec.ofNat 32 (m.toNat * 16777216 + r) := by
  refine ⟨(if nst then 8388608 else 0) + (if repv then 4194304 else 0) + j % 64 * 65536 + slot % 4 * 16384 + kind % 4 * 4096 +
    disp % 4 * 1024 + code % 128, ?_, ?_, by simp only [recWord0, Nat.reducePow, Nat.add_assoc]⟩
  · cases nst <;> cases repv <;> simp <;> omega
  · cases nst <;> cases repv <;> simp <;> omega

theorem cause_recWord0 : fld (recWord0 m nst repv j slot kind disp code).toNat 0 7 = code % 128 := by
  obtain ⟨r, -, hr, h⟩ := recWord0_eq m nst repv j slot kind disp code
  rw [h, ← hr, fld, BitVec.toNat_ofNat]
  omega

theorem grp_recWord0 : (recWord0 m nst repv j slot kind disp code).extractLsb' 24 8 = m := by
  obtain ⟨r, hr, -, h⟩ := recWord0_eq m nst repv j slot kind disp code
  have hm := m.isLt
  rw [h]
  apply BitVec.eq_of_toNat_eq
  rw [BitVec.extractLsb'_toNat, BitVec.toNat_ofNat, Nat.shiftRight_eq_div_pow]
  omega

end Word0

/-! ### Deferred faults (R228) -/

section Deferred
variable {s : State} {gk core : Nat} {m : BitVec 8} {g : Gang} {w : Crew} {e : Late}

/-- A group whose gang has a deferred fault takes it before its next chain. -/
theorem issueGroup_of_late (hg : s.gang gk = some g) (hw : s.crew g.crew = some w) (hc : w.core? = some core)
    (ha : (g.slice (firstSlice m)).again = []) (hb : (g.slice (firstSlice m)).block = none) (he : lateOf s gk m = some e) :
    issueGroup s gk m = .next (deferTrap { s with work.issued := .done, evt := [] } gk m e) := by
  have hg' : ({ s with work.issued := .done, evt := [] } : State).gang gk = some g := hg
  have hw' : ({ s with work.issued := .done, evt := [] } : State).crew g.crew = some w := hw
  have he' : lateOf { s with work.issued := .done, evt := [] } gk m = some e := he
  simp only [issueGroup, hg', hw', hc, ha, hb, he']

/-- The record of a deferred fault. -/
def lateRec (s : State) (g : Gang) (w : Crew) (core : Nat) (m : BitVec 8) (e : Late) : TrapRec :=
  let sl := g.slice (firstSlice m)
  makeRec s g w core m { cause := e.err.cause, lanes := e.err.lanes &&& grpLanes m, addr := e.err.addr,
                         detail := e.err.detail, kind := .deferred } e.pc e.pc sl.pc (sl.rep.map (fun r => r.j))

/-- A gang with one more record, the slices of its group stopped. -/
def stoppedWith (g : Gang) (m : BitVec 8) (r : TrapRec) : Gang :=
  { g.modSlices m (fun sl => { sl with stopped := true }) with recs := g.recs ++ [r] }

theorem deferTrap_eq (hg : s.gang gk = some g) (hw : s.crew g.crew = some w) (hc : w.core? = some core) :
    deferTrap s gk m e = (dropLate s e m).pushRec gk m (lateRec s g w core m e) := by
  simp only [deferTrap, hg, hw, hc]
  rfl

theorem gang_pushRec {r : TrapRec} (hg : s.gang gk = some g) : (s.pushRec gk m r).gang gk = some (stoppedWith g m r) := by
  rw [State.pushRec, State.gang_modGang, if_pos rfl, hg]
  rfl

theorem stopped_of_stoppedWith {r : TrapRec} {j : Nat} (hj : j < g.slices.length) (hm : m.getLsbD j = true) :
    ((stoppedWith g m r).slice j).stopped = true := by
  have hs : (stoppedWith g m r).slice j = (g.modSlices m (fun sl => { sl with stopped := true })).slice j := rfl
  rw [hs, ControlProofs.Gang.slice_modSlices g m _ hj, if_pos hm]

/-- An issue that the environment picks is made after the clock (R60). -/
theorem step_of_issue {ps : List Pick} (hp : s.picks = .issue gk m :: ps)
    (hm : mayIssue { tick s with picks := ps } gk m = true) : step s = issueGroup { tick s with picks := ps } gk m := by
  have hpicks : (tick s).picks = .issue gk m :: ps := (tick_picks s).trans hp
  simp only [step, stepOnce, hpicks, runPick, hm, if_true]

end Deferred

/-- Settles O20: each of the four words takes the trap of its failed check, and a deferred fault's record is the gang's last. -/
theorem accessTraps : Obligations.AccessTraps := by
  unfold Obligations.AccessTraps
  refine ⟨fun s x c w p g d a l i f q => ⟨fun hi hf => ?_, fun hi hf => ?_, fun hi hf => ?_, fun hi hf => ?_⟩,
    fun s ps gk m g w core e hp hm hg hw hc ha hb he => ?_⟩
  · exact traps_of_issues hi (by rfl) (by exact checkedLanes_of_fail hf)
  · exact traps_of_issues hi (by rfl) (by exact checkedLanes_of_fail hf)
  · exact traps_of_issues hi (by rfl) (by exact checkedOnce_of_fail hf)
  · exact traps_of_issues hi (by rfl) (by exact checkedOnce_of_fail hf)
  · let v : State := { ({ tick s with picks := ps } : State) with work.issued := .done, evt := [] }
    have hvg : v.gang gk = some g := hg
    have hstep : step s = .next ((dropLate v e m).pushRec gk m (lateRec v g w core m e)) := by
      rw [step_of_issue hp hm, issueGroup_of_late hg hw hc ha hb he, deferTrap_eq (s := v) hg hw hc]
    exact ⟨_, _, _, hstep, gang_pushRec (s := dropLate v e m) hvg, rfl, rfl, tick_mem s, cause_recWord0 .., grp_recWord0 ..,
      rfl, rfl, rfl, rfl, rfl, rfl, fun j hj hjm => stopped_of_stoppedWith hj hjm⟩

end Sys2Proof.MemoryProofs
end

section
/-! PROOFS. The checks and the words of an access that passes them (O18, O19): no trap, the lanes that go on, and the registers and
words that they name. -/

namespace Sys2Proof.MemoryProofs
open Sys2Proof Sys2Proof.Machine

/-! ### Accesses whose checks all pass (R201, R202) -/

section Checks
variable {s : State} {x : Cx} {g : Nat} {body : Res} {rs : List (Nat × DWord × Except CkFail Nat)}

theorem minRank_of_ok (h : ∀ r ∈ rs, ∃ q, r.2.2 = .ok q) : minRank rs = none := by
  induction rs with
  | nil => rfl
  | cons r rs ih =>
    obtain ⟨j, o, res⟩ := r
    obtain ⟨q, rfl⟩ : ∃ q, res = .ok q := h _ List.mem_cons_self
    exact ih fun r hr => h r (List.mem_cons_of_mem _ hr)

/-- A word whose lanes pass their checks, none of them at a member of the team that is out, has its effect. -/
theorem checkedLanes_of_ok (h : ∀ r ∈ rs, ∃ q, r.2.2 = .ok q) (ha : ∀ r ∈ rs, reachAway s x.core x.crew g r.2.1 = false) :
    checkedLanes s x g rs body = body := by
  have hany : rs.any (fun p => reachAway s x.core x.crew g p.2.1) = false :=
    List.any_eq_false.2 fun r hr => by simp [ha r hr]
  simp only [checkedLanes, lanesFail, minRank_of_ok h, hany, Bool.false_eq_true, if_false]

theorem checkedOnce_of_ok {r : Nat × DWord × Except CkFail Nat} (h : ∃ q, r.2.2 = .ok q)
    (ha : reachAway s x.core x.crew g r.2.1 = false) : checkedOnce s x g r body = body := by
  obtain ⟨q, hq⟩ := h
  simp only [checkedOnce, hq, ha, Bool.false_eq_true, if_false]

/-- Only the reach segment names other members of the team. -/
theorem reachAway_of_ne {seg : Nat} {o : DWord} (h : seg ≠ 2) : reachAway s x.core x.crew seg o = false := by
  simp [reachAway, h]

/-- What passes where every active lane passes, at the addresses `A`. -/
theorem passed_laneChecks {a k n pol : Nat} {kind : AccKind} {A : Nat → Nat}
    (h : ∀ j ∈ x.lanes, checkAddr s x g j (laneOff x g a k j) n kind pol = .ok (A j)) :
    passed s x g (laneChecks s x g a k n kind pol) =
      x.lanes.map (fun j => { lane := j, va := accAddr s x g (laneOff x g a k j), pa := A j }) := by
  have hpass (ls : List Nat) (h : ∀ j ∈ ls, checkAddr s x g j (laneOff x g a k j) n kind pol = .ok (A j)) :
      passed s x g (checkLanes s x g ls (laneOff x g a k) n kind pol) =
        ls.map (fun j => { lane := j, va := accAddr s x g (laneOff x g a k j), pa := A j }) := by
    rw [passed, checkLanes, List.filterMap_map]
    induction ls with
    | nil => rfl
    | cons j ls ih =>
      rw [List.filterMap_cons, List.map_cons, ih fun i hi => h i (List.mem_cons_of_mem _ hi)]
      simp only [Function.comp_apply, h j List.mem_cons_self]
  exact hpass x.lanes h

theorem ok_of_mem_laneChecks {a k n pol : Nat} {kind : AccKind} {A : Nat → Nat}
    (h : ∀ j ∈ x.lanes, checkAddr s x g j (laneOff x g a k j) n kind pol = .ok (A j)) :
    ∀ r ∈ laneChecks s x g a k n kind pol, ∃ q, r.2.2 = .ok q := by
  intro r hr
  obtain ⟨j, hj, rfl⟩ := List.mem_map.1 hr
  exact ⟨A j, h j hj⟩

theorem here_of_mem_laneChecks {a k n pol : Nat} {kind : AccKind}
    (h : ∀ j ∈ x.lanes, reachAway s x.core x.crew g (laneOff x g a k j) = false) :
    ∀ r ∈ laneChecks s x g a k n kind pol, reachAway s x.core x.crew g r.2.1 = false := by
  intro r hr
  obtain ⟨j, hj, rfl⟩ := List.mem_map.1 hr
  exact h j hj

/-- What passes of a check made once. -/
theorem passed_onceCheck {a k n pol A : Nat} {kind : AccKind} (h : checkAddr s x g 0 (onceOff x g a k) n kind pol = .ok A) :
    passed s x g [onceCheck s x g a k n kind pol] =
      [0].map (fun j => { lane := j, va := accAddr s x g (onceOff x g a k), pa := A }) := by
  simp only [passed, onceCheck, h, List.filterMap_cons, List.filterMap_nil, List.map_cons, List.map_nil]

end Checks

/-! ### Registers written one after another -/

/-- A key that every write of a list names with one value. -/
theorem smGet_smPuts_of_agree {α : Type} [DecidableEq α] {d v : α} {m ps : List (Nat × α)} {k : Nat}
    (h : ∀ p ∈ ps, p.1 = k → p.2 = v) :
    smGet d (smPuts d m ps) k = if ∃ p ∈ ps, p.1 = k then v else smGet d m k := by
  rw [smGet_smPuts]
  cases hf : ps.reverse.find? (fun p => decide (p.1 = k)) with
  | none =>
    have hnone : ¬ ∃ p ∈ ps, p.1 = k := fun ⟨p, hp, hk⟩ =>
      List.find?_eq_none.1 hf p (List.mem_reverse.2 hp) (by simp [hk])
    rw [if_neg hnone]
    rfl
  | some p =>
    have hp : p ∈ ps := List.mem_reverse.1 (List.mem_of_find?_eq_some hf)
    have hk : p.1 = k := by simpa using List.find?_some hf
    rw [if_pos ⟨p, hp, hk⟩, ← h p hp hk]
    rfl

/-- The vector registers d up to d + w of the lanes `ls`, each written with `f` of its lane and its place. -/
theorem rdV_putV_regs {g : Regs} {ls : List Nat} {d w : Nat} {f : Nat → Nat → Word} {r l : Nat} (hl : l < 32)
    (hls : ∀ j ∈ ls, j < 32) :
    (g.putV (ls.flatMap (fun j => (List.range w).map (fun k => (vkey (d + k) j, f j k))))).rdV r l =
      if l ∈ ls ∧ d ≤ r ∧ r < d + w then f l (r - d) else g.rdV r l := by
  have hkey {j k : Nat} (hj : j < 32) : vkey (d + k) j = vkey r l ↔ j = l ∧ k + d = r := by
    simp only [vkey]
    omega
  have hmem (p : Nat × Word) : p ∈ ls.flatMap (fun j => (List.range w).map (fun k => (vkey (d + k) j, f j k))) ↔
      ∃ j ∈ ls, ∃ k < w, p = (vkey (d + k) j, f j k) := by
    simp only [List.mem_flatMap, List.mem_map, List.mem_range, eq_comm]
  have hagree : ∀ p ∈ ls.flatMap (fun j => (List.range w).map (fun k => (vkey (d + k) j, f j k))), p.1 = vkey r l →
      p.2 = f l (r - d) := by
    intro p hp hk
    obtain ⟨j, hj, k, -, rfl⟩ := (hmem p).1 hp
    obtain ⟨rfl, rfl⟩ := (hkey (hls j hj)).1 hk
    simp
  have hex : (∃ p ∈ ls.flatMap (fun j => (List.range w).map (fun k => (vkey (d + k) j, f j k))), p.1 = vkey r l) ↔
      l ∈ ls ∧ d ≤ r ∧ r < d + w := by
    constructor
    · rintro ⟨p, hp, hk⟩
      obtain ⟨j, hj, k, hkw, rfl⟩ := (hmem p).1 hp
      obtain ⟨rfl, rfl⟩ := (hkey (hls j hj)).1 hk
      exact ⟨hj, by omega, by omega⟩
    · rintro ⟨hm, hd, hw⟩
      exact ⟨_, (hmem _).2 ⟨l, hm, r - d, by omega, rfl⟩, (hkey hl).2 ⟨rfl, by omega⟩⟩
  rw [Regs.putV, Regs.rdV, smGet_smPuts_of_agree hagree]
  simp only [hex]
  rfl

/-- Scalar registers d up to d + w written in turn. -/
def wrSs (h : Bool) (d w : Nat) (f : Nat → Word) (r : Regs) : Regs :=
  (List.range w).foldl (fun r k => r.wrS h (d + k) (f k)) r

theorem wrSs_succ (h : Bool) (d w : Nat) (f : Nat → Word) (r : Regs) :
    wrSs h d (w + 1) f r = (wrSs h d w f r).wrS h (d + w) (f w) := by
  simp only [wrSs, List.range_succ, List.foldl_append, List.foldl_cons, List.foldl_nil]

theorem rdS_wrSs (h : Bool) (d w : Nat) (f : Nat → Word) (r : Regs) (n : Nat) :
    (wrSs h d w f r).rdS h n = if d ≤ n ∧ n < d + w then f (n - d) else r.rdS h n := by
  induction w with
  | zero => rw [if_neg (by omega)]; rfl
  | succ w ih =>
    rw [wrSs_succ, Regs.rdS_wrS, ih]
    by_cases hn : n = d + w
    · rw [if_pos hn, if_pos (by omega), hn, Nat.add_sub_cancel_left]
    · rw [if_neg hn]
      exact if_congr (by omega) rfl rfl

theorem rdS_wrSs_other (h : Bool) (d w : Nat) (f : Nat → Word) (r : Regs) (n : Nat) (hn : 56 ≤ n) :
    (wrSs h d w f r).rdS (!h) n = r.rdS (!h) n := by
  induction w with
  | zero => rfl
  | succ w ih => rw [wrSs_succ, Regs.rdS_wrS_other _ _ _ _ _ hn, ih]

theorem wrSs_files (h : Bool) (d w : Nat) (f : Nat → Word) (r : Regs) :
    { wrSs h d w f r with s := [], bank := [] } = { r with s := [], bank := [] } := by
  induction w with
  | zero => rfl
  | succ w ih =>
    rw [wrSs_succ, ← ih, Regs.wrS]
    split <;> rfl

theorem smModify_id {α : Type} (m : List (Nat × α)) (k : Nat) : smModify m k (fun v => v) = m := by
  simp [smModify]

theorem modRegs_modRegs (s : State) (x : Cx) (f f' : Regs → Regs) :
    (s.modRegs x f).modRegs x f' = s.modRegs x (fun r => f' (f r)) := by
  simp only [State.modRegs, State.modGang, smModify_smModify]
  rfl

/-- Scalar writes one after another are one change of the registers. -/
theorem foldl_putS {α : Type} (x : Cx) (n : α → Nat) (v : α → Word) (l : List α) (s : State) :
    l.foldl (fun t a => t.putS x (n a) (v a)) s =
      s.modRegs x (fun r => l.foldl (fun r a => r.wrS x.hnd (n a) (v a)) r) := by
  induction l generalizing s with
  | nil =>
    have h : s.modRegs x (fun r => r) = s := by
      simp only [State.modRegs, State.modGang]
      rw [smModify_id]
    exact h.symm
  | cons a l ih => rw [List.foldl_cons, ih, State.putS, modRegs_modRegs]; rfl

end Sys2Proof.MemoryProofs
end

section
/-! PROOFS. Loads and stores of the Pound, the Basin and the lane area (O18): the values that a load takes from storage, the bytes
that a store leaves there. -/

namespace Sys2Proof.MemoryProofs
open Sys2Proof Sys2Proof.Machine

/-! ### Values read (R231, R232) -/

/-- The access sizes (R39). -/
theorem lsBytes_cases (w : Fin 8) : lsBytes w = 1 ∨ lsBytes w = 2 ∨ lsBytes w = 4 ∨ lsBytes w = 8 ∨ lsBytes w = 16 := by
  revert w
  decide

theorem byteAt_getWord (m : List Host.Cell) (a : Nat) {k : Nat} (hk : k < 4) : byteAt (getWord m a) k = getByte m (a + k) := by
  refine BitVec.eq_of_getLsbD_eq fun i hi => ?_
  simp only [byteAt, getWord, BitVec.getLsbD_extractLsb', BitVec.getLsbD_append, hi, decide_true, Bool.true_and]
  interval_cases k
  · simp [hi]
  · rw [if_neg (by omega), if_pos (by omega)]
    congr 1
    omega
  · rw [if_neg (by omega), if_neg (by omega), if_pos (by omega)]
    congr 1
    omega
  · rw [if_neg (by omega), if_neg (by omega), if_neg (by omega)]
    congr 1
    omega

/-- Two neighbouring bytes of a word. -/
theorem half_of_bytes (w : Word) (k : Nat) : (w >>> (8 * k)).extractLsb' 0 16 = byteAt w (k + 1) ++ byteAt w k := by
  refine BitVec.eq_of_getLsbD_eq fun i hi => ?_
  simp only [byteAt, BitVec.getLsbD_extractLsb', BitVec.getLsbD_append, BitVec.getLsbD_ushiftRight, hi, decide_true, Bool.true_and]
  by_cases h : i < 8
  · simp [h]
  · rw [if_neg h, decide_eq_true (by omega : i - 8 < 8), Bool.true_and]
    congr 1
    omega

/-- The value of `n` bytes at `a` that the k-th register of a load takes. -/
def rawValue (m : List Host.Cell) (n a k : Nat) : Word :=
  if n = 1 then (getByte m a).zeroExtend 32
  else if n = 2 then (getByte m (a + 1) ++ getByte m a).zeroExtend 32 else getWord m (a + 4 * k)

/-- The access of lane `j` that the k-th word of `n` bytes at `a` is. -/
def rawAcc (n a lane : Nat) (va : DWord) (dst k : Nat) : Acc :=
  { pa := a / 4 * 4 + 4 * k, va := va, lane := lane, sh := a % 4, nb := min n 4, dst := dst }

theorem accValue_rawAcc {m : List Host.Cell} {n a lane dst k : Nat} {va : DWord} (w : Fin 8) (hn : n = lsBytes w)
    (ha : a % min n 4 = 0) (hk : k < lsWords n) :
    accValue (rawAcc n a lane va dst k) (getWord m (rawAcc n a lane va dst k).pa) = rawValue m n a k := by
  have hsum : a / 4 * 4 + a % 4 = a := Nat.div_add_mod' a 4
  rcases lsBytes_cases w with h | h | h | h | h <;> rw [← hn] at h <;> subst h
  · obtain rfl : k = 0 := Nat.lt_one_iff.1 hk
    have hb : byteAt (getWord m (a / 4 * 4)) (a % 4) = getByte m a := by
      rw [byteAt_getWord m _ (by omega), hsum]
    exact congrArg (BitVec.zeroExtend 32) hb
  · obtain rfl : k = 0 := Nat.lt_one_iff.1 hk
    have hb : (getWord m (a / 4 * 4) >>> (8 * (a % 4))).extractLsb' 0 16 = getByte m (a + 1) ++ getByte m a := by
      have h2 : a % 2 = 0 := ha
      rw [half_of_bytes, byteAt_getWord m _ (by omega), byteAt_getWord m _ (by omega), hsum, ← Nat.add_assoc, hsum]
    exact congrArg (BitVec.zeroExtend 32) hb
  all_goals
    have h4 : a % 4 = 0 := ha
    have hpa : a / 4 * 4 = a := by omega
    exact congrArg (fun b => getWord m (b + 4 * k)) hpa

/-! ### Loads (R231, R232, R234) -/

section Loads
variable {s : State} {x : Cx} {g : Nat}

/-- The accesses of a load of lanes at the addresses `A`. -/
theorem loadAccs_map (n : Nat) (dst : Nat → Nat → Nat) (ls : List Nat) (va : Nat → DWord) (A : Nat → Nat) :
    loadAccs n dst (ls.map (fun j => { lane := j, va := va j, pa := A j })) =
      ls.flatMap (fun j => (List.range (lsWords n)).map (fun k => rawAcc n (A j) j (va j) (dst j k) k)) :=
  List.flatMap_map ..

/-- A load from storage that no copy in flight writes to and that holds no poison takes its words at once. -/
theorem loadRaw_of_clean {uni : Bool} {as : List Acc} (hg : g ≠ 5)
    (h : ∀ a ∈ as, scoreHit s a.pa 4 = false ∧ isPoison s.poison a.pa = false) :
    loadRaw s x g uni as = loadNow s x uni (as.map (fun a => (a.dst, accValue a (getWord s.mem a.pa)))) none := by
  have hword (a : Nat) : rawWord s x g a = (getWord s.mem a, isPoison s.poison a) := if_neg hg
  have hfree : as.any (fun a => scoreHit s a.pa 4) = false := List.any_eq_false.2 fun a ha => by simp [(h a ha).1]
  have hbad : as.filter (fun a => (rawWord s x g a.pa).2) = [] :=
    List.filter_eq_nil_iff.2 fun a ha => by simp [hword, (h a ha).2]
  simp only [loadRaw, hfree, hbad, Bool.false_eq_true, if_false, loadErr, readAccs]
  simp only [hword]

/-- The accesses that a load makes for a lane whose words are free of copies and poison. -/
def RawOk (s : State) (n a : Nat) : Prop :=
  a % min n 4 = 0 ∧ ∀ k, k < lsWords n → scoreHit s (a / 4 * 4 + 4 * k) 4 = false ∧ isPoison s.poison (a / 4 * 4 + 4 * k) = false

/-- What a load of clean lanes from storage writes. -/
theorem loadBody_of_clean {pol la : Nat} {uni : Bool} {dst : Nat → Nat → Nat} {rs : List (Nat × DWord × Except CkFail Nat)}
    {ls : List Nat} {va : Nat → DWord} {A : Nat → Nat} {n : Nat} (w : Fin 8) (hn : n = lsBytes w) (hc : cachedSeg g = false)
    (hg : g ≠ 5) (hp : passed s x g rs = ls.map (fun j => { lane := j, va := va j, pa := A j })) (h : ∀ j ∈ ls, RawOk s n (A j)) :
    loadBody s x g pol la n uni dst rs = loadNow s x uni
      (ls.flatMap (fun j => (List.range (lsWords n)).map (fun k => (dst j k, rawValue s.mem n (A j) k)))) none := by
  have hclean : ∀ a ∈ ls.flatMap (fun j => (List.range (lsWords n)).map (fun k => rawAcc n (A j) j (va j) (dst j k) k)),
      scoreHit s a.pa 4 = false ∧ isPoison s.poison a.pa = false := by
    intro a ha
    obtain ⟨j, hj, ha⟩ := List.mem_flatMap.1 ha
    obtain ⟨k, hk, rfl⟩ := List.mem_map.1 ha
    exact (h j hj).2 k (List.mem_range.1 hk)
  have hvals : (ls.flatMap (fun j => (List.range (lsWords n)).map (fun k => rawAcc n (A j) j (va j) (dst j k) k))).map
        (fun a => (a.dst, accValue a (getWord s.mem a.pa))) =
      ls.flatMap (fun j => (List.range (lsWords n)).map (fun k => (dst j k, rawValue s.mem n (A j) k))) := by
    rw [List.map_flatMap]
    refine List.flatMap_congr fun j hj => ?_
    rw [List.map_map]
    refine List.map_congr_left fun k hk => ?_
    exact congrArg (Prod.mk (dst j k)) (accValue_rawAcc w hn (h j hj).1 (List.mem_range.1 hk))
  simp only [loadBody, hc, Bool.false_eq_true, if_false, hp]
  rw [loadAccs_map, loadRaw_of_clean hg hclean, hvals]

theorem cachedSeg_of_near (h1 : 1 ≤ g) (h4 : g ≤ 4) : cachedSeg g = false := by
  have h0 : g ≠ 0 := by omega
  have h6 : g ≠ 6 := by omega
  simp [cachedSeg, h0, h6]

section Words
variable {c : Bool} {w : Fin 8} {p : Fin 4} {g : Fin 8} {d a : Fin 64} {l : Fin 16} {i : Fin 8} {n : Nat}

/-- LD of clean lanes (R232). -/
theorem doesV_ld {A : Nat → Nat} (hn : lsBytes w = n) (h1 : 1 ≤ g.val) (h4 : g.val ≤ 4)
    (hi : Issues s x (.ld c w p g d a l i))
    (h : ∀ j ∈ x.lanes, checkAddr s x g j (laneOff x g a (i.val * n) j) n .read p = .ok (A j) ∧
      reachAway s x.core x.crew g (laneOff x g a (i.val * n) j) = false ∧ RawOk s n (A j)) :
    DoesV s x (.ld c w p g d a l i) (fun r j =>
      if j ∈ x.lanes ∧ d.val ≤ r ∧ r < d.val + lsWords n then some (rawValue s.mem n (A j) (r - d.val)) else none) := by
  have hok : ∀ j ∈ x.lanes, checkAddr s x g j (laneOff x g a (i.val * n) j) n .read p = .ok (A j) := fun j hj => (h j hj).1
  have hbody : checkedLanes s x g (laneChecks s x g a (i.val * n) n .read p) (loadBody s x g p l n false
      (fun j k => vkey (d.val + k) j) (laneChecks s x g a (i.val * n) n .read p)) = .done (s.modRegs x (fun r => r.putV
      (x.lanes.flatMap (fun j => (List.range (lsWords n)).map (fun k => (vkey (d.val + k) j, rawValue s.mem n (A j) k)))))) := by
    rw [checkedLanes_of_ok (ok_of_mem_laneChecks hok) (here_of_mem_laneChecks fun j hj => (h j hj).2.1),
      loadBody_of_clean w hn.symm (cachedSeg_of_near h1 h4) (by omega) (passed_laneChecks hok) fun j hj => (h j hj).2.2]
    rfl
  subst hn
  refine ⟨_, _, ControlProofs.exec_of_issues hi (by rfl) hbody,
    onlyRegs_of s _ x (fun r => r.putV (x.lanes.flatMap (fun j => (List.range (lsWords (lsBytes w))).map
      (fun k => (vkey (d.val + k) j, rawValue s.mem (lsBytes w) (A j) k))))) hi.ctx (finish_still x _), fun r j hj => ?_, rfl⟩
  refine (rdV_putV_regs hj x.lanes_lt).trans ?_
  beta_reduce
  split <;> rfl

/-- LDU of clean words (R234). -/
theorem doesS_ldu {A : Nat} (hn : lsBytes w = n) (h1 : 1 ≤ g.val) (h4 : g.val ≤ 4) (hi : Issues s x (.ldu c w p g d a l i))
    (hok : checkAddr s x g 0 (onceOff x g a (i.val * n)) n .read p = .ok A)
    (hhere : reachAway s x.core x.crew g (onceOff x g a (i.val * n)) = false) (h : RawOk s n A) :
    DoesS s x (.ldu c w p g d a l i) (fun r =>
      if d.val ≤ r ∧ r < d.val + lsWords n then some (rawValue s.mem n A (r - d.val)) else none) := by
  have hbody : checkedOnce s x g (onceCheck s x g a (i.val * n) n .read p) (loadBody s x g p l n true
      (fun _ k => d.val + k) [onceCheck s x g a (i.val * n) n .read p]) =
      .done (s.modRegs x (wrSs x.hnd d.val (lsWords n) (rawValue s.mem n A))) := by
    rw [checkedOnce_of_ok (r := onceCheck s x g a (i.val * n) n .read p) ⟨A, hok⟩ hhere,
      loadBody_of_clean w hn.symm (cachedSeg_of_near h1 h4) (by omega) (passed_onceCheck hok) fun j _ => h]
    simp only [loadNow, if_true, List.flatMap_singleton]
    rw [List.foldl_map, foldl_putS]
    rfl
  subst hn
  refine ⟨_, _, ControlProofs.exec_of_issues hi (by rfl) hbody,
    onlyRegs_of s _ x (wrSs x.hnd d.val (lsWords (lsBytes w)) (rawValue s.mem (lsBytes w) A)) hi.ctx (finish_still x _),
    fun n => ?_, fun n hn => rdS_wrSs_other _ _ _ _ _ _ hn, wrSs_files ..⟩
  rw [rdS_wrSs]
  beta_reduce
  split <;> rfl

end Words

end Loads

end Sys2Proof.MemoryProofs
end

section
/-! PROOFS. Stores to the Pound, the Basin and the lane area (O18): the bytes that the words of a lane write, and those of the lanes
in turn. -/

namespace Sys2Proof.MemoryProofs
open Sys2Proof Sys2Proof.Machine

/-! ### The bytes of a word (R233) -/

theorem getLsbD_byteMask (n sh k : Nat) (hk : k < 4) :
    (byteMask n sh).getLsbD k = decide (sh ≤ k ∧ k < sh + min n 4) := by
  rw [byteMask, BitVec.getLsbD_ofNat, Nat.testBit_mul_two_pow, Nat.testBit_two_pow_sub_one, Bool.eq_iff_iff]
  simp only [hk, decide_true, Bool.true_and, Bool.and_eq_true, decide_eq_true_eq]
  omega

theorem byteAt_shiftLeft (v : Word) {sh k : Nat} (hk : k < 4) (h : sh ≤ k) : byteAt (v <<< (8 * sh)) k = byteAt v (k - sh) := by
  refine BitVec.eq_of_getLsbD_eq fun i hi => ?_
  simp only [byteAt, BitVec.getLsbD_extractLsb', BitVec.getLsbD_shiftLeft, hi, decide_true, Bool.true_and]
  rw [decide_eq_true (by omega : 8 * k + i < 32), decide_eq_false (by omega : ¬ 8 * k + i < 8 * sh)]
  simp only [Bool.true_and, Bool.not_false]
  congr 1
  omega

/-- A masked word of a store writes its part of the word and no other byte. -/
theorem getByte_partWord (m : List Host.Cell) {pa sh n : Nat} (v : Word) (b : Nat) (hs : sh + min n 4 ≤ 4) :
    getByte (setWordMasked m pa (v <<< (8 * sh)) (byteMask n sh)) b =
      if pa + sh ≤ b ∧ b < pa + sh + min n 4 then byteAt v (b - (pa + sh)) else getByte m b := by
  by_cases hb : pa ≤ b ∧ b < pa + 4
  · obtain ⟨k, rfl⟩ := Nat.exists_eq_add_of_le hb.1
    have hk : k < 4 := by omega
    rw [getByte_setWordMasked_add _ _ _ _ _ hk, getLsbD_byteMask n sh k hk]
    by_cases hin : sh ≤ k ∧ k < sh + min n 4
    · rw [decide_eq_true hin, if_pos rfl, if_pos (by omega), byteAt_shiftLeft v hk hin.1]
      congr 1
      omega
    · rw [decide_eq_false hin, if_neg Bool.false_ne_true, if_neg (by omega)]
  · rw [getByte_setWordMasked_out _ _ _ _ _ (by omega), if_neg (by omega)]

/-! ### The bytes of a lane, and of the lanes in turn (R9, R233) -/

/-- The k-th masked word of a store of `n` bytes at `a`. -/
def rawStW (n a lane : Nat) (va : DWord) (v : Word) (k : Nat) : StW :=
  { lane := lane, va := va, pa := a / 4 * 4 + 4 * k, v := v <<< (8 * (a % 4)), bm := byteMask n (a % 4) }

/-- The words of one lane written in turn. -/
def storeLane (n a lane : Nat) (va : DWord) (f : Nat → Word) (s : State) (c : Nat) : State :=
  ((List.range c).map (fun k => rawStW n a lane va (f k) k)).foldl (fun st w => st.putWord w.pa w.v w.bm false) s

theorem storeLane_succ (n a lane : Nat) (va : DWord) (f : Nat → Word) (s : State) (c : Nat) :
    storeLane n a lane va f s (c + 1) = (storeLane n a lane va f s c).putWord (a / 4 * 4 + 4 * c) (f c <<< (8 * (a % 4)))
      (byteMask n (a % 4)) false := by
  rw [storeLane, List.range_succ, List.map_append, List.foldl_append]
  rfl

theorem getByte_storeLane {n a lane : Nat} {va : DWord} {f : Nat → Word} {s : State} (w : Fin 8) (hn : lsBytes w = n)
    (ha : a % min n 4 = 0) (b : Nat) :
    getByte (storeLane n a lane va f s (lsWords n)).mem b =
      if a ≤ b ∧ b < a + n then byteAt (f ((b - a) / 4)) ((b - a) % 4) else getByte s.mem b := by
  have hpart (s : State) (k b : Nat) (hs : a % 4 + min n 4 ≤ 4) :
      getByte (s.putWord (a / 4 * 4 + 4 * k) (f k <<< (8 * (a % 4))) (byteMask n (a % 4)) false).mem b =
        if a + 4 * k ≤ b ∧ b < a + 4 * k + min n 4 then byteAt (f k) (b - (a + 4 * k)) else getByte s.mem b := by
    have hsum : a / 4 * 4 + 4 * k + a % 4 = a + 4 * k := by omega
    have h := getByte_partWord s.mem (pa := a / 4 * 4 + 4 * k) (f k) b hs
    rwa [hsum] at h
  have hone (hw : lsWords n = 1) (h4 : n ≤ 4) (hs : a % 4 + n ≤ 4) : getByte (storeLane n a lane va f s (lsWords n)).mem b =
      if a ≤ b ∧ b < a + n then byteAt (f ((b - a) / 4)) ((b - a) % 4) else getByte s.mem b := by
    rw [hw, storeLane_succ, hpart _ _ _ (by omega), Nat.min_eq_left h4]
    by_cases hb : a ≤ b ∧ b < a + n
    · have hd : (b - a) / 4 = 0 := by omega
      have hm : (b - a) % 4 = b - a := by omega
      rw [if_pos hb, if_pos (by omega), hd, hm]
      rfl
    · rw [if_neg hb, if_neg (by omega)]
      rfl
  have hmany (c : Nat) (h4 : min n 4 = 4) (h0 : a % 4 = 0) : getByte (storeLane n a lane va f s c).mem b =
      if a ≤ b ∧ b < a + 4 * c then byteAt (f ((b - a) / 4)) ((b - a) % 4) else getByte s.mem b := by
    induction c with
    | zero => rw [if_neg (by omega)]; rfl
    | succ c ih =>
      rw [storeLane_succ, hpart _ _ _ (by omega), h4, ih]
      by_cases hb : a + 4 * c ≤ b ∧ b < a + 4 * c + 4
      · have hd : (b - a) / 4 = c := by omega
        have hm : (b - a) % 4 = b - (a + 4 * c) := by omega
        rw [if_pos hb, if_pos (by omega), hd, hm]
      · rw [if_neg hb]
        exact if_congr (by omega) rfl rfl
  rcases lsBytes_cases w with h | h | h | h | h <;> rw [hn] at h <;> subst h
  · exact hone rfl (by decide) (by omega)
  · exact hone rfl (by decide) (by have h2 : a % 2 = 0 := ha; omega)
  · exact hmany 1 rfl ha
  · exact hmany 2 rfl ha
  · exact hmany 4 rfl ha

/-- The lanes `ls` store in turn, each its words. -/
def storeLanes (n : Nat) (A : Nat → Nat) (va : Nat → DWord) (val : Nat → Nat → Word) (ls : List Nat) (s : State) : State :=
  ls.foldl (fun st j => storeLane n (A j) j (va j) (val j) st (lsWords n)) s

section Lanes
variable {s : State} {n : Nat} {A : Nat → Nat} {va : Nat → DWord} {val : Nat → Nat → Word} {ls : List Nat} (w : Fin 8)
  (hn : lsBytes w = n) (ha : ∀ j ∈ ls, A j % min n 4 = 0)
include hn ha

theorem getByte_storeLanes_of_outside {b : Nat} (h : ∀ j ∈ ls, b < A j ∨ A j + n ≤ b) :
    getByte (storeLanes n A va val ls s).mem b = getByte s.mem b := by
  refine foldl_keeps_of _ (fun s => getByte s.mem b) ls (fun s j hj => ?_) s
  have hout := h j hj
  exact (getByte_storeLane w hn (ha j hj) b).trans (if_neg (by omega))

/-- A byte of lane `j` that no later lane stores to holds the lane's value. -/
theorem getByte_storeLanes_of_last {j k : Nat} (hls : ls.Pairwise (· < ·)) (hj : j ∈ ls) (hk : k < n)
    (h : ∀ j' ∈ ls, j < j' → A j + k < A j' ∨ A j' + n ≤ A j + k) :
    getByte (storeLanes n A va val ls s).mem (A j + k) = byteAt (val j (k / 4)) (k % 4) := by
  obtain ⟨l1, l2, rfl⟩ := List.append_of_mem hj
  have hlater : ∀ i ∈ l2, j < i := (List.pairwise_cons.1 (List.pairwise_append.1 hls).2.1).1
  have hmem : ∀ i ∈ l2, i ∈ l1 ++ j :: l2 := fun i hi => List.mem_append_right _ (List.mem_cons_of_mem _ hi)
  have hsplit : storeLanes n A va val (l1 ++ j :: l2) s = storeLanes n A va val l2
      (storeLane n (A j) j (va j) (val j) (storeLanes n A va val l1 s) (lsWords n)) := by
    simp only [storeLanes, List.foldl_append, List.foldl_cons]
  rw [hsplit, getByte_storeLanes_of_outside w hn (fun i hi => ha i (hmem i hi)) fun i hi => h i (hmem i hi) (hlater i hi),
    getByte_storeLane w hn (ha j hj), if_pos (by omega), Nat.add_sub_cancel_left]

end Lanes

theorem storeLane_gang (n a lane : Nat) (va : DWord) (f : Nat → Word) (s : State) (c k : Nat) :
    (storeLane n a lane va f s c).gang k = s.gang k := by
  induction c with
  | zero => rfl
  | succ c ih => rw [storeLane_succ, ← ih]; rfl

theorem storeLanes_gang (n : Nat) (A : Nat → Nat) (va : Nat → DWord) (val : Nat → Nat → Word) (ls : List Nat) (s : State) (k : Nat) :
    (storeLanes n A va val ls s).gang k = s.gang k :=
  foldl_keeps (fun st j => storeLane n (A j) j (va j) (val j) st (lsWords n)) (fun s => s.gang k)
    (fun s _ => storeLane_gang _ _ _ _ _ s _ k) ls s

/-! ### Stores (R214, R233, R234) -/

/-- The lanes are named in ascending order (R9). -/
theorem lanes_ascending (x : Cx) : x.lanes.Pairwise (· < ·) := List.Pairwise.filter _ List.pairwise_lt_range

section Stores
variable {s : State} {x : Cx}

/-- The lane's words are free of copies in flight. -/
def StoreOk (s : State) (n a : Nat) : Prop :=
  a % min n 4 = 0 ∧ ∀ k, k < lsWords n → scoreHit s (a / 4 * 4 + 4 * k) 4 = false

/-- What a store of free lanes to storage writes. -/
theorem storeBody_of_free {g pol n : Nat} {uni : Bool} {val : Nat → Nat → Word} {rs : List (Nat × DWord × Except CkFail Nat)}
    {ls : List Nat} {va : Nat → DWord} {A : Nat → Nat} (hc : cachedSeg g = false)
    (hp : passed s x g rs = ls.map (fun j => { lane := j, va := va j, pa := A j })) (h : ∀ j ∈ ls, StoreOk s n (A j)) :
    storeBody s x g pol n uni val rs = .done (storeLanes n A va val ls s) := by
  have hws : storeWords n val (ls.map (fun j => { lane := j, va := va j, pa := A j })) =
      ls.flatMap (fun j => (List.range (lsWords n)).map (fun k => rawStW n (A j) j (va j) (val j k) k)) := List.flatMap_map ..
  have hfree : (ls.flatMap (fun j => (List.range (lsWords n)).map (fun k => rawStW n (A j) j (va j) (val j k) k))).any
      (fun w => scoreHit s w.pa 4) = false := by
    refine List.any_eq_false.2 fun w hw => ?_
    obtain ⟨j, hj, hw⟩ := List.mem_flatMap.1 hw
    obtain ⟨k, hk, rfl⟩ := List.mem_map.1 hw
    exact Bool.not_eq_true _ ▸ (h j hj).2 k (List.mem_range.1 hk)
  simp only [storeBody, hc, Bool.false_eq_true, if_false, hp, hws, storeRaw, hfree, List.foldl_flatMap]
  rfl

/-- After a word that writes storage only, the gangs are as they were but for their control state. -/
theorem gangs_of_finish {e : State} (hx : s.cx = some x) (h : ∀ k, e.gang k = s.gang k) :
    (∃ g, (finish x (.done e)).gang x.cur.gang = some g ∧ g.r = x.gang.r) ∧
      ∀ k, k ≠ x.cur.gang → (finish x (.done e)).gang k = s.gang k := by
  have hstill (k : Nat) : ((finish x (.done e)).still x.cur.gang).gang k = (e.still x.cur.gang).gang k :=
    congrArg (·.gang k) (finish_still x (.done e))
  constructor
  · have hg := hstill x.cur.gang
    rw [State.gang_still, State.gang_still, if_pos rfl, if_pos rfl, h, cx_gang s x hx, Option.map_some,
      Option.map_eq_some_iff] at hg
    obtain ⟨g, hg, hr⟩ := hg
    have hfiles : g.still.r = x.gang.still.r := congrArg Gang.r hr
    exact ⟨g, hg, hfiles⟩
  · intro k hk
    have hg := hstill k
    rwa [State.gang_still, State.gang_still, if_neg hk, if_neg hk, h] at hg

section Words
variable {c : Bool} {w : Fin 8} {p : Fin 4} {g : Fin 8} {v a : Fin 64} {i : Fin 8} {n : Nat}

/-- ST of free lanes (R233). -/
theorem exec_st {A : Nat → Nat} (hn : lsBytes w = n) (h1 : 1 ≤ g.val) (h4 : g.val ≤ 4)
    (hi : Issues s x (.st c w p g v a i))
    (h : ∀ j ∈ x.lanes, checkAddr s x g j (laneOff x g a (i.val * n) j) n .write p = .ok (A j) ∧
      reachAway s x.core x.crew g (laneOff x g a (i.val * n) j) = false ∧ StoreOk s n (A j)) :
    exec (.st c w p g v a i) s = .next (finish x (.done (storeLanes n A (fun j => accAddr s x g (laneOff x g a (i.val * n) j))
      (fun j k => x.v (v.val + k) j) x.lanes s))) := by
  have hok : ∀ j ∈ x.lanes, checkAddr s x g j (laneOff x g a (i.val * n) j) n .write p = .ok (A j) := fun j hj => (h j hj).1
  subst hn
  refine ControlProofs.exec_of_issues hi (by rfl) ?_
  exact (checkedLanes_of_ok (ok_of_mem_laneChecks hok) (here_of_mem_laneChecks fun j hj => (h j hj).2.1)).trans
    (storeBody_of_free (cachedSeg_of_near h1 h4) (passed_laneChecks hok) fun j hj => (h j hj).2.2)

/-- STU of free words (R234). -/
theorem exec_stu {A : Nat} (hn : lsBytes w = n) (h1 : 1 ≤ g.val) (h4 : g.val ≤ 4) (hi : Issues s x (.stu c w p g v a i))
    (hok : checkAddr s x g 0 (onceOff x g a (i.val * n)) n .write p = .ok A)
    (hhere : reachAway s x.core x.crew g (onceOff x g a (i.val * n)) = false) (h : StoreOk s n A) :
    exec (.stu c w p g v a i) s = .next (finish x (.done (storeLanes n (fun _ => A)
      (fun _ => accAddr s x g (onceOff x g a (i.val * n))) (fun _ k => x.s (v.val + k)) [0] s))) := by
  subst hn
  refine ControlProofs.exec_of_issues hi (by rfl) ?_
  exact (checkedOnce_of_ok (r := onceCheck s x g a (i.val * lsBytes w) (lsBytes w) .write p) ⟨A, hok⟩ hhere).trans
    (storeBody_of_free (cachedSeg_of_near h1 h4) (passed_onceCheck hok) fun j _ => h)

end Words

end Stores

/-- Settles O18: LD and LDU take the clean words at the addresses of their checks, ST and STU write theirs in ascending lanes. -/
theorem nearLoadsAndStores : Obligations.NearLoadsAndStores := by
  unfold Obligations.NearLoadsAndStores
  refine ⟨fun s x c w p g d a l i A h1 h4 => ⟨fun hi h => ?_, fun hi hok hhere h => ?_⟩,
    fun s x c w p g v a i A h1 h4 => ⟨fun hi h => ?_, fun hi hok hhere h => ?_⟩⟩
  · exact doesV_ld rfl h1 h4 hi fun j hj => ⟨(h j hj).1, (h j hj).2.1, (h j hj).2.2.1, (h j hj).2.2.2.2⟩
  · exact doesS_ldu rfl h1 h4 hi hok hhere ⟨h.1, h.2.2⟩
  · have hal : ∀ j ∈ x.lanes, A j % min (lsBytes w) 4 = 0 := fun j hj => (h j hj).2.2.1
    obtain ⟨hregs, hgangs⟩ := gangs_of_finish hi.ctx (storeLanes_gang (lsBytes w) A
      (fun j => accAddr s x g (laneOff x g a (i.val * lsBytes w) j)) (fun j k => x.v (v.val + k) j) x.lanes s)
    refine ⟨_, exec_st rfl h1 h4 hi h, hregs, hgangs, fun b hb => ?_, fun j hj k hk hlast => ?_⟩
    · rw [ControlProofs.finish_mem]
      exact getByte_storeLanes_of_outside w rfl hal hb
    · rw [ControlProofs.finish_mem]
      exact getByte_storeLanes_of_last w rfl hal (lanes_ascending x) hj hk hlast
  · have hal : ∀ j ∈ [0], A 0 % min (lsBytes w) 4 = 0 := fun _ _ => h.1
    obtain ⟨hregs, hgangs⟩ := gangs_of_finish hi.ctx (storeLanes_gang (lsBytes w) (fun _ => A 0)
      (fun _ => accAddr s x g (onceOff x g a (i.val * lsBytes w))) (fun _ k => x.s (v.val + k)) [0] s)
    refine ⟨_, exec_stu rfl h1 h4 hi hok hhere h, hregs, hgangs, fun b hb => ?_, fun k hk => ?_⟩
    · rw [ControlProofs.finish_mem]
      exact getByte_storeLanes_of_outside w rfl hal fun _ _ => hb
    · rw [ControlProofs.finish_mem]
      exact getByte_storeLanes_of_last w rfl hal (List.pairwise_singleton _ _) List.mem_cons_self hk
        fun j' hj' hlt => by simp at hj'; omega

end Sys2Proof.MemoryProofs
end

section
/-! PROOFS. Loads and stores through the L1 (O19): a load that the L1 serves, a load that its homes are asked for, and a store that
needs no push. -/

namespace Sys2Proof.MemoryProofs
open Sys2Proof Sys2Proof.Machine

/-! ### Loads (R210, R219, Table 7-6) -/

section Loads
variable {s : State} {x : Cx} {pol la : Nat} {as : List Acc}

theorem pushFor_nil (s : State) (x : Cx) (pol : Nat) : pushFor s x pol [] = s := rfl

theorem filter_act_eq_nil {t : LdAct} (h : ∀ a ∈ as, accAct s x pol a ≠ t) :
    as.filter (fun a => decide (accAct s x pol a = t)) = [] :=
  List.filter_eq_nil_iff.2 fun a ha => by simp [h a ha]

theorem any_accWaits_of_free (h : ∀ a ∈ as, accWaits s x pol a = false) : as.any (accWaits s x pol) = false :=
  List.any_eq_false.2 fun a ha => by simp [h a ha]

/-- A load's word as the L1 holds it. -/
def l1Word (s : State) (x : Cx) (pa : Nat) : Word := lineWord (s.l1 x.core (lineOf pa)).data (wordIx pa)

/-- A load that the L1 serves takes its words at once. -/
theorem loadLines_of_hits {kind : OutKind} {dsts : List Nat} {now : List (Nat × Word) → Option Err → Res}
    (h : ∀ a ∈ as, accWaits s x pol a = false ∧ accAct s x pol a = .hit ∧
      (s.l1 x.core (lineOf a.pa)).po.getLsbD (wordIx a.pa) = false) :
    loadLines s x pol la kind dsts as now = now (as.map (fun a => (a.dst, accValue a (l1Word s x a.pa)))) none := by
  have hpush := filter_act_eq_nil (t := .push) fun a ha => by rw [(h a ha).2.1]; decide
  have hfree := any_accWaits_of_free fun a ha => (h a ha).1
  have hhits : as.filter (fun a => decide (accAct s x pol a = .hit)) = as :=
    List.filter_eq_self.2 fun a ha => decide_eq_true (h a ha).2.1
  have hrest : as.filter (fun a => decide (accAct s x pol a ≠ .hit)) = [] :=
    List.filter_eq_nil_iff.2 fun a ha => by simp [(h a ha).2.1]
  have hbad : as.filter (fun a => (s.l1 x.core (lineOf a.pa)).po.getLsbD (wordIx a.pa)) = [] :=
    List.filter_eq_nil_iff.2 fun a ha => by simp [(h a ha).2.2]
  simp only [loadLines, hpush, List.map_nil, pushFor_nil, hfree, Bool.or_self, Bool.false_eq_true, if_false, hhits, hrest,
    hbad, List.isEmpty_nil, if_true, loadErr, readAccs, l1Word]

/-- A load whose words are all asked of their homes is outstanding with a request for each line and kind. -/
theorem loadLines_of_sends {dsts : List Nat} {now : List (Nat × Word) → Option Err → Res} (hne : as ≠ [])
    (h : ∀ a ∈ as, accWaits s x pol a = false ∧ ∃ k, accAct s x pol a = .send k) :
    loadLines s x pol la .load dsts as now =
      .done ((loadReqs s x pol s.work.next as).foldl post (openOut s x
        { kind := .load, gang := x.cur.gang, grp := x.cur.grp, pc := x.cur.pc, npc := x.cur.last + 1, accs := as,
          left := (loadReqs s x pol s.work.next as).length, dstV := dsts } la)) := by
  have hsend : ∀ a ∈ as, accAct s x pol a ≠ .push ∧ accAct s x pol a ≠ .hit := by
    intro a ha
    obtain ⟨k, hk⟩ := (h a ha).2
    rw [hk]
    exact ⟨LdAct.noConfusion, LdAct.noConfusion⟩
  have hpush := filter_act_eq_nil fun a ha => (hsend a ha).1
  have hhits := filter_act_eq_nil fun a ha => (hsend a ha).2
  have hfree := any_accWaits_of_free fun a ha => (h a ha).1
  have hrest : as.filter (fun a => decide (accAct s x pol a ≠ .hit)) = as :=
    List.filter_eq_self.2 fun a ha => decide_eq_true (hsend a ha).2
  have hsome : as.isEmpty = false := by simpa using hne
  simp only [loadLines, hpush, List.map_nil, pushFor_nil, hfree, Bool.or_self, Bool.false_eq_true, if_false, hhits, hrest,
    hsome, List.filter_nil, loadErr, readAccs, ne_eq, not_true_eq_false]

end Loads

/-! ### Stores (R214, R219, R233) -/

section Gangs
variable (s : State)

theorem post_gangs (q : ReqX) : (post s q).work.gangs = s.work.gangs := rfl

theorem putL1_gangs (c l : Nat) (e : L1Line) : (s.putL1 c l e).work.gangs = s.work.gangs := rfl

theorem pushLine_gangs (c g dom l : Nat) (ws : BitVec 16) (ev : Bool) :
    (pushLine s c g dom l ws ev).work.gangs = s.work.gangs := by
  simp only [pushLine]
  split
  · rfl
  · rw [post_gangs, putL1_gangs]

theorem writebackLine_gangs (c dom l : Nat) (ws : BitVec 16) : (writebackLine s c dom l ws).work.gangs = s.work.gangs := by
  simp only [writebackLine]
  split
  · rfl
  · rw [post_gangs, putL1_gangs]

theorem evictLine_gangs (c g dom l : Nat) : (evictLine s c g dom l).work.gangs = s.work.gangs := by
  rw [evictLine, putL1_gangs, writebackLine_gangs, pushLine_gangs]

theorem makeRoom_gangs (c g dom l : Nat) : (makeRoom s c g dom l).work.gangs = s.work.gangs := by
  unfold makeRoom; simp only
  split
  · rfl
  · split
    · rfl
    · exact evictLine_gangs ..

theorem fillTlb_gangs (c dom va : Nat) : (fillTlb s c dom va).work.gangs = s.work.gangs := by
  unfold fillTlb
  split
  · rfl
  · split <;> rfl

theorem fillTlbs_gangs (x : Cx) (g : Nat) (cs : List Chk) : (fillTlbs s x g cs).work.gangs = s.work.gangs := by
  unfold fillTlbs
  split
  · exact foldl_keeps _ (fun s => s.work.gangs) (fun s c => fillTlb_gangs s _ _ _) cs s
  · rfl

theorem fillTlbs_mem (x : Cx) (g : Nat) (cs : List Chk) : (fillTlbs s x g cs).mem = s.mem := by
  unfold fillTlbs
  split
  · exact foldl_keeps _ State.mem (fun s c => ControlProofs.fillTlb_mem s _ _ _) cs s
  · rfl

theorem foldl_post_gangs (rq : List ReqX) : (rq.foldl post s).work.gangs = s.work.gangs :=
  foldl_keeps post (fun s => s.work.gangs) (fun _ _ => rfl) rq s

theorem foldl_post_mem (rq : List ReqX) : (rq.foldl post s).mem = s.mem :=
  foldl_keeps post State.mem (fun _ _ => rfl) rq s

theorem storeLine_gangs (x : Cx) (pol : Nat) (uni : Bool) (l : Nat) (ws : List StW) :
    (storeLine s x pol uni l ws).work.gangs = s.work.gangs := by
  simp only [storeLine]
  rw [foldl_post_gangs, putL1_gangs]
  split
  · rfl
  · exact makeRoom_gangs ..

/-- A store through the L1 changes no byte of storage. -/
theorem storeLine_mem (x : Cx) (pol : Nat) (uni : Bool) (l : Nat) (ws : List StW) :
    (storeLine s x pol uni l ws).mem = s.mem := by
  simp only [storeLine]
  rw [foldl_post_mem, State.putL1_mem]
  split
  · rfl
  · exact State.mem_of_offPath (makeRoom_offPath ..)

end Gangs

section Stores
variable {s : State} {x : Cx} {pol : Nat} {uni : Bool} {ws : List StW}

/-- The lines that a store's words are in. -/
def stLines (ws : List StW) : List Nat := (ws.map (fun w => lineOf w.pa)).dedup

/-- A store that waits for nothing and pushes nothing is made line by line. -/
theorem storeCached_of_free (hw : ∀ m ∈ stLines ws, ∀ k ∈ wordsOf (touched (lineStore ws m).1), stWaits s x pol m (lineStore ws m).1 k = false)
    (hp : ∀ m ∈ stLines ws, stSet s x pol m (lineStore ws m).1 .push = 0) :
    storeCached s x pol uni ws = .done ((stLines ws).foldl (fun t m => storeLine t x pol uni m ws) s) := by
  have hfree : (stLines ws).any (fun m => (wordsOf (touched (lineStore ws m).1)).any (stWaits s x pol m (lineStore ws m).1)) = false :=
    List.any_eq_false.2 fun m hm => by
      rw [List.any_eq_false.2 fun k hk => by simp [hw m hm k hk]]
      exact Bool.false_ne_true
  have hpush : (stLines ws).flatMap (fun m =>
      (wordsOf (stSet s x pol m (lineStore ws m).1 .push)).map (fun k => 64 * m + 4 * k)) = [] :=
    List.flatMap_eq_nil_iff.2 fun m hm => by rw [hp m hm, wordsOf_zero, List.map_nil]
  unfold stLines at hfree hpush
  simp only [storeCached, hfree, hpush, pushFor_nil, Bool.false_eq_true, if_false]
  rfl

theorem foldl_storeLine_gang (ls : List Nat) (k : Nat) :
    (ls.foldl (fun t m => storeLine t x pol uni m ws) s).gang k = s.gang k :=
  foldl_keeps _ (fun s => s.gang k) (fun s m => congrArg (smFind · k) (storeLine_gangs s x pol uni m ws)) ls s

theorem foldl_storeLine_mem (ls : List Nat) : (ls.foldl (fun t m => storeLine t x pol uni m ws) s).mem = s.mem :=
  foldl_keeps _ State.mem (fun s m => storeLine_mem s x pol uni m ws) ls s

/-- What a store through the L1 leaves alone: every byte of storage and every register. -/
theorem finish_storeLines {cs : List Chk} {g : Nat} (ls : List Nat) (hx : s.cx = some x) :
    let t := finish x (.done (ls.foldl (fun t m => storeLine t x pol uni m ws) (fillTlbs s x g cs)))
    (∀ b, getByte t.mem b = getByte s.mem b) ∧ ∃ h, t.gang x.cur.gang = some h ∧ h.r = x.gang.r := by
  refine ⟨fun b => ?_, (gangs_of_finish hx fun k => ?_).1⟩
  · rw [ControlProofs.finish_mem]
    exact congrArg (getByte · b) ((foldl_storeLine_mem ls).trans (fillTlbs_mem s x g cs))
  · exact (foldl_storeLine_gang ls k).trans (congrArg (smFind · k) (fillTlbs_gangs s x g cs))

end Stores

/-! ### The words -/

section Words
variable {s : State} {x : Cx} {g : Nat}

theorem cachedSeg_of_global_or_host (h : g = 0 ∨ g = 6) : cachedSeg g = true := by
  rcases h with rfl | rfl <;> rfl

/-- No access to a cached segment names a member of the team. -/
theorem here_of_cached (h : g = 0 ∨ g = 6) (o : DWord) : reachAway s x.core x.crew g o = false :=
  reachAway_of_ne (by rcases h with rfl | rfl <;> decide)

theorem checkedLanes_of_cached {body : Res} {rs : List (Nat × DWord × Except CkFail Nat)} (hg : g = 0 ∨ g = 6)
    (h : ∀ r ∈ rs, ∃ q, r.2.2 = .ok q) : checkedLanes s x g rs body = body :=
  checkedLanes_of_ok h fun _ _ => here_of_cached hg _

theorem checkedOnce_of_cached {body : Res} {r : Nat × DWord × Except CkFail Nat} (hg : g = 0 ∨ g = 6)
    (h : ∀ q ∈ [r], ∃ a, q.2.2 = .ok a) : checkedOnce s x g r body = body :=
  checkedOnce_of_ok (h r List.mem_cons_self) (here_of_cached hg _)

theorem loadBody_of_cached {pol la n : Nat} {uni : Bool} {dst : Nat → Nat → Nat} {rs : List (Nat × DWord × Except CkFail Nat)}
    (hg : g = 0 ∨ g = 6) : loadBody s x g pol la n uni dst rs =
      loadCached (fillTlbs s x g (passed s x g rs)) x pol la uni (loadAccs n dst (passed s x g rs)) := by
  simp only [loadBody, cachedSeg_of_global_or_host hg, if_true]

theorem storeBody_of_cached {pol n : Nat} {uni : Bool} {val : Nat → Nat → Word} {rs : List (Nat × DWord × Except CkFail Nat)}
    (hg : g = 0 ∨ g = 6) : storeBody s x g pol n uni val rs =
      storeCached (fillTlbs s x g (passed s x g rs)) x pol uni (storeWords n val (passed s x g rs)) := by
  simp only [storeBody, cachedSeg_of_global_or_host hg, if_true]

end Words

/-- Settles O19: LD and LDU that the L1 serves, LD that misses in every word, ST and STU that push nothing. -/
theorem cachedLoadsAndStores : Obligations.CachedLoadsAndStores := by
  unfold Obligations.CachedLoadsAndStores
  intro s x c w p g d a l i hg
  refine ⟨fun hi hf hs => ?_, fun hi hf hs => ?_, fun hi hf hs hne => ?_, fun i' uni val rs hw hi hf hfree hpush => ?_⟩
  · refine ControlProofs.exec_of_issues hi (by rfl) ?_
    refine (checkedLanes_of_cached hg hf).trans ((loadBody_of_cached hg).trans ?_)
    exact loadLines_of_hits hs
  · refine ControlProofs.exec_of_issues hi (by rfl) ?_
    refine (checkedOnce_of_cached hg hf).trans ((loadBody_of_cached hg).trans ?_)
    exact (loadLines_of_hits hs).trans (congrArg Res.done (List.foldl_map ..))
  · refine ControlProofs.exec_of_issues hi (by rfl) ?_
    refine (checkedLanes_of_cached hg hf).trans ((loadBody_of_cached hg).trans ?_)
    exact loadLines_of_sends hne hs
  · obtain ⟨hmem, hregs⟩ := finish_storeLines (pol := p) (uni := uni) (ws := storeWords (lsBytes w) val (passed s x g rs))
      (cs := passed s x g rs) (g := g) (stLines (storeWords (lsBytes w) val (passed s x g rs))) hi.ctx
    have hbody := (storeBody_of_cached hg).trans (storeCached_of_free (uni := uni) hfree hpush)
    rcases hw with ⟨rfl, rfl, rfl, rfl⟩ | ⟨rfl, rfl, rfl, rfl⟩
    · have hexec := ControlProofs.exec_of_issues hi (by rfl) ((checkedLanes_of_cached hg hf).trans hbody)
      exact ⟨_, hexec, hexec, hmem, hregs⟩
    · have hexec := ControlProofs.exec_of_issues hi (by rfl) ((checkedOnce_of_cached hg hf).trans hbody)
      exact ⟨_, hexec, hexec, hmem, hregs⟩

end Sys2Proof.MemoryProofs
end

section
/-! PROOFS. Flits (O49): the fields of a flit and its CRC, and what a link direction makes of the next flit on its wire. -/

namespace Sys2Proof.MemoryProofs
open Sys2Proof Sys2Proof.Machine

/-! ### The fields of a flit (Table 16-2) -/

/-- The bits of a flit above its payload: sequence number, header, incarnation, sender. -/
def flitHead (seq hd inc sd : Nat) : Nat := seq % 4096 + hd % 16 * 4096 + inc % 256 * 65536 + sd % 8 * 16777216

/-- A flit without its CRC. -/
def flitBody (pl seq hd inc sd : Nat) : BitVec 512 := BitVec.ofNat 512 (pl % 2 ^ 448 + flitHead seq hd inc sd * 2 ^ 448)

section Fields
variable (pl seq hd inc sd : Nat)

theorem flit_eq : flit pl seq hd inc sd = flitBody pl seq hd inc sd |||
    ((crc32c (flitBody pl seq hd inc sd) 60).zeroExtend 512 <<< 480) := by
  have h464 : 2 ^ 464 = 65536 * 2 ^ 448 := by rw [show (65536 : Nat) = 2 ^ 16 from rfl, ← Nat.pow_add]
  have h472 : 2 ^ 472 = 16777216 * 2 ^ 448 := by rw [show (16777216 : Nat) = 2 ^ 24 from rfl, ← Nat.pow_add]
  have hsum : pl % 2 ^ 448 + (seq % 4096 + hd % 16 * 4096) * 2 ^ 448 + inc % 256 * 2 ^ 464 + sd % 8 * 2 ^ 472 =
      pl % 2 ^ 448 + flitHead seq hd inc sd * 2 ^ 448 := by
    rw [h464, h472, flitHead]
    generalize 2 ^ 448 = b
    ring
  rw [flit, hsum]
  rfl

theorem getLsbD_flitBody (k : Nat) (hk : 448 + k < 512) :
    (flitBody pl seq hd inc sd).getLsbD (448 + k) = (flitHead seq hd inc sd).testBit k := by
  have hpos : 0 < 2 ^ 448 := pow_pos Nat.two_pos 448
  have hdiv : (pl % 2 ^ 448 + flitHead seq hd inc sd * 2 ^ 448) / 2 ^ 448 = flitHead seq hd inc sd := by
    rw [Nat.add_mul_div_right _ _ hpos, Nat.div_eq_of_lt (Nat.mod_lt _ hpos), Nat.zero_add]
  rw [flitBody, BitVec.getLsbD_ofNat, decide_eq_true hk, Bool.true_and]
  conv_rhs => rw [← hdiv, Nat.testBit_div_two_pow]
  rw [Nat.add_comm 448 k]

theorem flitHead_lt : flitHead seq hd inc sd < 2 ^ 27 := by
  unfold flitHead
  omega

theorem getLsbD_flit {k : Nat} (hk : k < 480) : (flit pl seq hd inc sd).getLsbD k = (flitBody pl seq hd inc sd).getLsbD k := by
  rw [flit_eq, BitVec.getLsbD_or, BitVec.getLsbD_shiftLeft, decide_eq_true hk]
  simp

theorem extract_flit {lo n : Nat} (h : lo + n ≤ 32) :
    (flit pl seq hd inc sd).extractLsb' (448 + lo) n = BitVec.ofNat n (flitHead seq hd inc sd / 2 ^ lo) := by
  refine BitVec.eq_of_getLsbD_eq fun i hi => ?_
  rw [BitVec.getLsbD_extractLsb', getLsbD_flit _ _ _ _ _ (by omega), Nat.add_assoc, getLsbD_flitBody _ _ _ _ _ _ (by omega),
    BitVec.getLsbD_ofNat, Nat.testBit_div_two_pow, Nat.add_comm lo i]

theorem flitSeq_flit : flitSeq (flit pl seq hd inc sd) = seq % 4096 := by
  have h : (flit pl seq hd inc sd).extractLsb' 448 12 = BitVec.ofNat 12 (flitHead seq hd inc sd / 2 ^ 0) :=
    extract_flit pl seq hd inc sd (lo := 0) (by decide)
  rw [flitSeq, h, BitVec.toNat_ofNat, flitHead]
  omega

theorem flitInc_flit : flitInc (flit pl seq hd inc sd) = BitVec.ofNat 8 inc := by
  have h : (flit pl seq hd inc sd).extractLsb' 464 8 = BitVec.ofNat 8 (flitHead seq hd inc sd / 2 ^ 16) :=
    extract_flit pl seq hd inc sd (lo := 16) (by decide)
  rw [flitInc, h]
  apply BitVec.eq_of_toNat_eq
  rw [BitVec.toNat_ofNat, BitVec.toNat_ofNat, flitHead]
  omega

theorem flitSd_flit : flitSd (flit pl seq hd inc sd) = sd % 8 := by
  have h : (flit pl seq hd inc sd).extractLsb' 472 3 = BitVec.ofNat 3 (flitHead seq hd inc sd / 2 ^ 24) :=
    extract_flit pl seq hd inc sd (lo := 24) (by decide)
  rw [flitSd, h, BitVec.toNat_ofNat, flitHead]
  omega

/-- The CRC of 60 bytes is of their bits alone. -/
theorem crc32c_congr {f g : BitVec 512} (h : ∀ k, k < 480 → f.getLsbD k = g.getLsbD k) : crc32c f 60 = crc32c g 60 := by
  have hfold : (List.range 480).foldl (fun c k => crcBit c (f.getLsbD k)) 0xFFFFFFFF =
      (List.range 480).foldl (fun c k => crcBit c (g.getLsbD k)) 0xFFFFFFFF :=
    List.foldl_ext _ _ _ fun c k hk => by rw [h k (List.mem_range.1 hk)]
  exact congrArg (fun c : Word => c ^^^ 0xFFFFFFFF) hfold

/-- A flit as it is sent carries its own CRC. -/
theorem flitOk_flit : flitOk (flit pl seq hd inc sd) = true := by
  have hcrc : crc32c (flit pl seq hd inc sd) 60 = crc32c (flitBody pl seq hd inc sd) 60 :=
    crc32c_congr fun k hk => getLsbD_flit pl seq hd inc sd hk
  have hbody (i : Nat) (hi : i < 32) : (flitBody pl seq hd inc sd).getLsbD (480 + i) = false := by
    have h := getLsbD_flitBody pl seq hd inc sd (32 + i) (by omega)
    rw [← Nat.add_assoc] at h
    rw [h]
    exact Nat.testBit_lt_two_pow (lt_of_lt_of_le (flitHead_lt seq hd inc sd) (Nat.pow_le_pow_right (by decide) (by omega)))
  rw [flitOk, hcrc, decide_eq_true_eq]
  refine BitVec.eq_of_getLsbD_eq fun i hi => ?_
  rw [BitVec.getLsbD_extractLsb', decide_eq_true hi, Bool.true_and, flit_eq, BitVec.getLsbD_or, hbody i hi, Bool.false_or,
    BitVec.getLsbD_shiftLeft, decide_eq_true (by omega : 480 + i < 512), decide_eq_false (by omega : ¬ 480 + i < 480),
    Nat.add_sub_cancel_left]
  simp [show i < 512 by omega]

end Fields

/-! ### A link direction (R494, R495, R498) -/

section Links
variable {s : State} {k noise : Nat} {v : LinkDir}

theorem dir_modDir (f : LinkDir → LinkDir) : smFind (modDir s k f).fab.dirs k = (smFind s.fab.dirs k).map f :=
  (smFind_smModify ..).trans (if_pos rfl)

theorem dir_modDir_modDir (hv : smFind s.fab.dirs k = some v) (f g : LinkDir → LinkDir) :
    smFind (modDir (modDir s k f) k g).fab.dirs k = some (g (f v)) := by
  rw [dir_modDir, dir_modDir, hv]
  rfl

theorem modDie_dirs (d : Nat) (f : Die → Die) : (s.modDie d f).fab.dirs = s.fab.dirs := rfl
theorem modLink_dirs (d e : Nat) (f : LinkWord → LinkWord) : (modLink s d e f).fab.dirs = s.fab.dirs := rfl

theorem modMsg_fab (msg : Nat) (fq : ReqX → ReqX) (fp : Reply → Reply) (fm : Snoop → Snoop) (fk : Pkt → Pkt) :
    (modMsg s msg fq fp fm fk).fab = s.fab ∧ (modMsg s msg fq fp fm fk).mem = s.mem := by
  simp only [modMsg]
  split
  · exact ⟨rfl, rfl⟩
  · split
    · exact ⟨rfl, rfl⟩
    · split
      · exact ⟨rfl, rfl⟩
      · split <;> exact ⟨rfl, rfl⟩

/-- A good flit of the expected number and the current incarnation is accepted. -/
theorem takeFlit_of_good {f : SentFlit} {r : BitVec 512} (hok : flitOk r = true) (hseq : flitSeq r = v.seqRx)
    (hinc : (s.die v.dst).table[flitSd r]? = some (flitInc r)) : takeFlit s k v f r = modDir s k (fun v => v.accept r false) := by
  simp only [takeFlit, hok, hseq, hinc, decide_true, Bool.and_self, if_true]

/-- A direction after it drops a flit for its incarnation. -/
def dropFlit (v : LinkDir) : LinkDir :=
  { v with buffer := v.buffer.tail, seqRx := (v.seqRx + 1) % 4096, fails := 0, dropped := v.dropped + 1 }

theorem takeFlit_of_stale {f : SentFlit} {r : BitVec 512} (hok : flitOk r = true) (hseq : flitSeq r = v.seqRx)
    (hinc : (s.die v.dst).table[flitSd r]? ≠ some (flitInc r)) : takeFlit s k v f r = modDir s k dropFlit := by
  simp only [takeFlit, hok, hseq, hinc, decide_true, Bool.and_self, if_true, if_false]
  rfl

/-- A bad flit asks for a replay, three times. -/
theorem takeFlit_of_bad {f : SentFlit} {r : BitVec 512} (hbad : flitOk r = false) (hf : v.fails < 3) :
    takeFlit s k v f r = modDir s k (fun v => { v with fails := v.fails + 1, replay := true, wire := [] }) := by
  simp only [takeFlit, hbad, hf, Bool.false_and, Bool.false_eq_true, if_false, if_true]

/-- A data flit that is bad once more is accepted as poison; its message takes the poison. -/
theorem takeFlit_of_poison {f : SentFlit} {r : BitVec 512} (hbad : flitOk r = false) (hf : 3 ≤ v.fails) (hd : flitData f.f = true) :
    smFind (takeFlit s k v f r).fab.dirs k = (smFind s.fab.dirs k).map (fun v => v.accept f.f true) ∧
      (takeFlit s k v f r).mem = s.mem := by
  simp only [takeFlit, hbad, Nat.not_lt.2 hf, hd, Bool.false_and, Bool.false_eq_true, if_false, if_true]
  rw [poisonMsg, (modMsg_fab ..).1, (modMsg_fab ..).2]
  split
  · exact ⟨dir_modDir _, rfl⟩
  · rw [modDie_dirs]
    exact ⟨dir_modDir _, rfl⟩

theorem exec_flitReceive (s : State) : exec .flitReceive s =
    .next (flitReceive s (s.op 0) (s.op 1) (s.op 2) (s.op 3) (s.op 4) (s.op 5) (s.op 6)) := rfl

theorem exec_flitReceive_of {t : State}
    (h : flitReceive s (s.op 0) (s.op 1) (s.op 2) (s.op 3) (s.op 4) (s.op 5) (s.op 6) = t) : exec .flitReceive s = .next t := by
  rw [exec_flitReceive, h]

/-- The flit on the wire arrives. -/
theorem flitReceive_of_wire {pl hd sd msg n : Nat} {g : SentFlit} {gs : List SentFlit} (hv : smFind s.fab.dirs k = some v)
    (hup : linkUp s v.src v.dst = true) (hw : v.wire = g :: gs) : flitReceive s k noise pl hd sd msg n =
      takeFlit (modDir s k (fun v => { v with wire := gs })) k v g (g.f ^^^ BitVec.ofNat 512 noise) := by
  simp only [flitReceive, hv, hup, hw, Bool.not_true, Bool.false_eq_true, if_false]

/-- With nothing on the wire the sender sends. -/
theorem flitReceive_of_idle {pl hd sd msg n : Nat} (hv : smFind s.fab.dirs k = some v) (hup : linkUp s v.src v.dst = true)
    (hw : v.wire = []) : flitReceive s k noise pl hd sd msg n = sendFlit s k v (packetFlits s v msg pl hd sd n) noise := by
  simp only [flitReceive, hv, hup, hw, Bool.not_true, Bool.false_eq_true, if_false]

/-- The flit that a packet's next part is sent as. -/
def sentOf (s : State) (v : LinkDir) (p : PktFlit) : SentFlit :=
  { f := flit p.pl v.seqTx (p.hd % 8 + 8 * bitN p.data) (s.die p.sd).inc.toNat p.sd, msg := p.msg, part := p.part }

/-- A direction after the flit is sent. -/
def sentTo (s : State) (v : LinkDir) (p : PktFlit) (ps : List PktFlit) : LinkDir :=
  { v with pend := ps, buffer := v.buffer ++ [sentOf s v p], seqTx := (v.seqTx + 1) % 4096 }

theorem sendFlit_of_some {p : PktFlit} {ps qs : List PktFlit} (hp : (if v.pend.isEmpty then qs else v.pend) = p :: ps)
    (hb : v.buffer.length < 256) : sendFlit s k v qs noise =
      if v.replay then modDir s k (fun _ => sentTo s v p ps)
      else takeFlit (modDir s k (fun _ => sentTo s v p ps)) k (sentTo s v p ps) (sentOf s v p)
        ((sentOf s v p).f ^^^ BitVec.ofNat 512 noise) := by
  simp only [sendFlit, hp, Nat.not_le.2 hb, if_false]
  rfl

/-- A packet of another kind that has no data is one control flit. -/
theorem packetFlits_control (pl hd sd : Nat) : packetFlits s v 0 pl hd sd 0 =
    [{ pl := pl, hd := hd % 8, sd := if sd < 5 then sd else v.src }] := by
  simp [packetFlits]

/-! ### The clauses -/

/-- A control flit sent on an idle direction arrives (R494): `w` is the direction as the flit leaves it. -/
theorem flitReceive_of_control {pl hd sd sender : Nat} (hs : (if sd < 5 then sd else v.src) = sender)
    (hv : smFind s.fab.dirs k = some v) (hup : linkUp s v.src v.dst = true) (hw : v.wire = []) (hp : v.pend = [])
    (hb : v.buffer = []) (hr : v.replay = false) :
    flitReceive s k 0 pl hd sd 0 0 =
      let p : PktFlit := { pl := pl, hd := hd % 8, sd := sender }
      takeFlit (modDir s k (fun _ => sentTo s v p [])) k (sentTo s v p []) (sentOf s v p)
        (flit pl v.seqTx (hd % 8) (s.die sender).inc.toNat sender) := by
  have hflit : (sentOf s v { pl := pl, hd := hd % 8, sd := sender }).f ^^^ BitVec.ofNat 512 0 =
      flit pl v.seqTx (hd % 8) (s.die sender).inc.toNat sender := by
    rw [BitVec.xor_zero]
    simp only [sentOf, bitN, Bool.false_eq_true, if_false, Nat.mod_mod, Nat.mul_zero, Nat.add_zero]
  rw [flitReceive_of_idle hv hup hw, packetFlits_control, hs,
    sendFlit_of_some (p := { pl := pl, hd := hd % 8, sd := sender }) (ps := []) (by rw [hp]; rfl) (by rw [hb]; decide), hr,
    if_neg Bool.false_ne_true, hflit]

section Control
variable {pl hd sd sender : Nat} (hs : (if sd < 5 then sd else v.src) = sender)
    (hv : smFind s.fab.dirs k = some v) (hup : linkUp s v.src v.dst = true) (hw : v.wire = []) (hp : v.pend = [])
    (hb : v.buffer = []) (hr : v.replay = false) (hseq : v.seqTx = v.seqRx) (hlt : v.seqTx < 4096) (h5 : sender < 5)
include hseq hlt in
theorem flitSeq_sent : flitSeq (flit pl v.seqTx (hd % 8) (s.die sender).inc.toNat sender) = v.seqRx :=
  (flitSeq_flit ..).trans ((Nat.mod_eq_of_lt hlt).trans hseq)

include h5 in
/-- The sender's place in the table of incarnations, and what the flit says of it. -/
theorem table_sent : (s.die v.dst).table[flitSd (flit pl v.seqTx (hd % 8) (s.die sender).inc.toNat sender)]? =
      some (flitInc (flit pl v.seqTx (hd % 8) (s.die sender).inc.toNat sender)) ↔
    (s.die v.dst).table[sender]? = some (s.die sender).inc := by
  have hsd : flitSd (flit pl v.seqTx (hd % 8) (s.die sender).inc.toNat sender) = sender :=
    (flitSd_flit ..).trans (Nat.mod_eq_of_lt (by omega))
  have hinc : flitInc (flit pl v.seqTx (hd % 8) (s.die sender).inc.toNat sender) = (s.die sender).inc :=
    (flitInc_flit ..).trans (by rw [BitVec.ofNat_toNat, BitVec.setWidth_eq])
  rw [hsd, hinc]

include hs hv hup hw hp hb hr hseq hlt h5 in
/-- A flit that comes as it was sent, of the incarnation that its sender has, is accepted. -/
theorem flitReceive_accepts (hinc : (s.die v.dst).table[sender]? = some (s.die sender).inc) :
    flitReceive s k 0 pl hd sd 0 0 = modDir (modDir s k (fun _ => sentTo s v { pl := pl, hd := hd % 8, sd := sender } [])) k
      (fun v' => v'.accept (flit pl v.seqTx (hd % 8) (s.die sender).inc.toNat sender) false) := by
  have hnum : flitSeq (flit pl v.seqTx (hd % 8) (s.die sender).inc.toNat sender) = v.seqRx := flitSeq_sent hseq hlt
  have hcur := (table_sent (pl := pl) (hd := hd) (s := s) (v := v) h5).2 hinc
  exact (flitReceive_of_control hs hv hup hw hp hb hr).trans (takeFlit_of_good (flitOk_flit ..) hnum hcur)

include hs hv hup hw hp hb hr hseq hlt h5 in
/-- One of another incarnation is dropped. -/
theorem flitReceive_drops (hinc : (s.die v.dst).table[sender]? ≠ some (s.die sender).inc) :
    flitReceive s k 0 pl hd sd 0 0 = modDir (modDir s k (fun _ => sentTo s v { pl := pl, hd := hd % 8, sd := sender } [])) k
      dropFlit := by
  have hnum : flitSeq (flit pl v.seqTx (hd % 8) (s.die sender).inc.toNat sender) = v.seqRx := flitSeq_sent hseq hlt
  have hcur := mt (table_sent (pl := pl) (hd := hd) (s := s) (v := v) h5).1 hinc
  exact (flitReceive_of_control hs hv hup hw hp hb hr).trans (takeFlit_of_stale (flitOk_flit ..) hnum hcur)

include hp hb hseq in
/-- The direction after an accepted flit. -/
theorem accept_sentTo (p : PktFlit) (f : BitVec 512) : (sentTo s v p []).accept f false =
    { v with seqTx := (v.seqTx + 1) % 4096, seqRx := (v.seqTx + 1) % 4096, fails := 0, got := v.got ++ [(f, false)] } := by
  simp only [sentTo, LinkDir.accept, hp, hb, hseq, List.nil_append, List.tail_cons]

end Control

/-- While a replay is asked for, a flit that is sent stays in the replay buffer. -/
theorem flitReceive_of_replay {pl hd sd msg n : Nat} {p : PktFlit} {ps : List PktFlit} (hv : smFind s.fab.dirs k = some v)
    (hup : linkUp s v.src v.dst = true) (hw : v.wire = []) (hp : v.pend = p :: ps) (hr : v.replay = true)
    (hb : v.buffer.length < 256) : flitReceive s k noise pl hd sd msg n = modDir s k (fun _ => sentTo s v p ps) := by
  rw [flitReceive_of_idle hv hup hw, sendFlit_of_some (p := p) (ps := ps) (by rw [hp]; rfl) hb, hr, if_pos rfl]

theorem exec_replay (hv : smFind s.fab.dirs (s.op 0) = some v) (hup : linkUp s v.src v.dst = true) (hr : v.replay = true) :
    exec .replay s = .next (modLink (modDir s (s.op 0) (fun v => { v with wire := v.buffer, replay := false })) v.src v.dst
      (fun l => { l with rpl := min (l.rpl + 1) (2 ^ 24 - 1) })) := by
  change execReplay s = _
  simp only [execReplay, hv, hr, hup, Bool.not_true, Bool.or_self, Bool.false_eq_true, if_false, event]

end Links

end Sys2Proof.MemoryProofs
end

section
/-! PROOFS. Timeouts, packets that get no answer, and memory errors (O49), then the statement. -/

namespace Sys2Proof.MemoryProofs
open Sys2Proof Sys2Proof.Machine

/-! ### Timeouts (R496, R497) -/

section Timeouts
variable {s : State} {q : ReqX}

theorem exec_homeTimeout (hq : s.coh.reqs[s.op 0]? = some q) (hb : q.begun = true) (hm : msgsOut s q.r.id = true)
    (ht : 100000 < s.time - q.at_) : exec .homeTimeout s = .next (giveUpReq s q) := by
  change execHomeTimeout s = _
  simp only [execHomeTimeout, hq, hb, hm, ht, decide_true, Bool.and_self, if_true, event]

/-- A line of a die whose table has room is lost (R497). -/
theorem markLost_of_room {l : Nat} (hh : lineHost l = false) (hl : isLost s l = false) (hr : (s.die (lineDie l)).lost.length < 4096) :
    markLost s l = recordErr (s.modDie (lineDie l) (fun v => { v with
      lost := smSet v.lost (l % 2 ^ 42) true, full := decide (4096 ≤ v.lost.length + 1) })) (lineDie l) .cohLost
      (64 * (l % 2 ^ 42)) := by
  have hnone : (smFind (s.die (lineDie l)).lost (l % 2 ^ 42)).isSome = false := by
    simpa only [isLost, hh, Bool.not_false, Bool.true_and] using hl
  simp only [markLost, hh, hnone, Bool.or_self, Bool.false_eq_true, if_false, Nat.not_le.2 hr]

/-- The die of a lost line. -/
def lostDie (v : Die) (l : Nat) : Die :=
  { v with lost := smSet v.lost (l % 2 ^ 42) true, full := decide (4096 ≤ v.lost.length + 1),
           err := { v.err with lcause := BitVec.ofNat 7 Cause.cohLost.code, laddr := BitVec.ofNat 64 (64 * (l % 2 ^ 42)) } }

theorem die_markLost {l : Nat} (hh : lineHost l = false) (hl : isLost s l = false) (hr : (s.die (lineDie l)).lost.length < 4096) :
    (markLost s l).die (lineDie l) = lostDie (s.die (lineDie l)) l := by
  rw [markLost_of_room hh hl hr, recordErr, State.die_modDie, if_pos rfl, State.die_modDie, if_pos rfl]
  rfl

theorem markLost_still {l : Nat} (hh : lineHost l = false) (hl : isLost s l = false) (hr : (s.die (lineDie l)).lost.length < 4096) :
    (markLost s l).coh = s.coh ∧ (markLost s l).mem = s.mem := by
  rw [markLost_of_room hh hl hr]
  exact ⟨rfl, rfl⟩

/-- A request given up, that is not an eviction's, is refused with COH_LOST. -/
theorem giveUpReq_eq (hk : q.r.kind ≠ .evict) : giveUpReq s q = refuse { markLost s q.r.line with
    coh.snoops := (markLost s q.r.line).coh.snoops.filter (fun m => decide (m.req ≠ q.r.id)),
    coh.acks := (markLost s q.r.line).coh.acks.filter (fun a => decide (a.req ≠ q.r.id)) } q .cohLost := by
  simp only [giveUpReq, hk, if_false]

/-- A transaction of a home that is given up: its line is lost, its requester hears so. -/
theorem giveUpReq_loses (hk : q.r.kind ≠ .evict) (hh : lineHost q.r.line = false) (hl : isLost s q.r.line = false)
    (hr : (s.die (lineDie q.r.line)).lost.length < 4096) :
    isLost (giveUpReq s q) q.r.line = true ∧
      (giveUpReq s q).coh.reqs = s.coh.reqs.filter (fun p => decide (p.r.id ≠ q.r.id)) ∧
      ((giveUpReq s q).die (lineDie q.r.line)).err.lcause = BitVec.ofNat 7 Cause.cohLost.code ∧
      (∃ p, (giveUpReq s q).coh.replies = s.coh.replies ++ [p] ∧ p.kind = .error .cohLost ∧ p.r = q.r) ∧
      (giveUpReq s q).mem = s.mem := by
  obtain ⟨hcoh, hmem⟩ := markLost_still hh hl hr
  have hfab : (giveUpReq s q).fab = (markLost s q.r.line).fab := by
    rw [giveUpReq_eq hk, refuse, State.reply_fab, State.dropReq_fab]
  have hdie := (die_of_fab hfab (lineDie q.r.line)).trans (die_markLost hh hl hr)
  refine ⟨?_, ?_, by rw [hdie]; rfl, ?_, ?_⟩
  · rw [isLost, hdie, lostDie, smFind_smSet, if_pos rfl, hh]
    rfl
  · rw [giveUpReq_eq hk, refuse, State.reply_coh_reqs]
    exact congrArg (fun c : Coh => c.reqs.filter (fun p => decide (p.r.id ≠ q.r.id))) hcoh
  · have hrep : ∃ p : Reply, (giveUpReq s q).coh.replies = (markLost s q.r.line).coh.replies ++ [p] ∧
        p.kind = .error .cohLost ∧ p.r = q.r := by
      rw [giveUpReq_eq hk, refuse, State.reply]
      exact ⟨_, rfl, rfl, rfl⟩
    rwa [hcoh] at hrep
  · rw [giveUpReq_eq hk, refuse, State.reply_mem, State.dropReq_mem]
    exact hmem

end Timeouts

/-! ### Packets that get no answer (R496) -/

section Uncorr
variable {s : State}

/-- The deferred fault of a request that gets no answer, for the link `w`. -/
def uncorrErr (r : Req) (w : Nat × Nat) : Err := { reqErr r .fabUncorr with detail := Config.linkName w.1 w.2 }

/-- A store that has had no answer for more than 100 µs fails in its slice. -/
theorem exec_fabUncorr_of_req {q : ReqX} {w : Nat × Nat} (hq : s.coh.reqs[s.op 0]? = some q) (hs : q.staged = false)
    (hb : q.begun = false) (he : q.r.kind ≠ .evict) (hw : q.r.kind ≠ .writeback) (hp : q.r.kind ≠ .push)
    (hr : q.r.kind ≠ .barrier) (ho : q.r.out = 0) (ht : 100000 < s.time - q.r.made)
    (hl : lostLink s (coreDie q.r.core) q.r.route q.lost = some w) :
    exec .fabUncorr s = .next (addLate (s.dropReq q.r.id) q.r.gang q.r.pc (uncorrErr q.r w)) := by
  change execFabUncorr s = _
  have hgo : uncorrReq s q = lostReply (s.dropReq q.r.id) q.r w false := by
    simp only [uncorrReq, hs, hb, he, hw, Nat.not_le.2 ht, hl, decide_false, Bool.or_self, Bool.false_eq_true, if_false]
  simp only [execFabUncorr, hq, hgo, lostReply, hp, hr, ho, if_false, ne_eq, not_true_eq_false, event]
  rfl

/-- An engine's packet that has had no answer fails for the thread that sent it. -/
def failPkt (s : State) (p : Pkt) (w : Nat × Nat) : State :=
  { s with eng.pkts := s.eng.pkts.map (fun v =>
      if v = p then { v with fail := some .fabUncorr, info := Config.linkName w.1 w.2 } else v) }

theorem exec_fabUncorr_of_pkt {p : Pkt} {w : Nat × Nat} {k : Nat} (hk : s.op 0 = s.coh.reqs.length + s.coh.replies.length + k)
    (hp : s.eng.pkts[k]? = some p) (hf : p.fail = none) (ht : 100000 < s.time - p.made)
    (hl : lostLink s (coreDie p.core) p.route p.lost = some w) : exec .fabUncorr s = .next (failPkt s p w) := by
  change execFabUncorr s = _
  have hreq : s.coh.reqs[s.op 0]? = none := List.getElem?_eq_none (by omega)
  have hrep : s.coh.replies[s.op 0 - s.coh.reqs.length]? = none := List.getElem?_eq_none (by omega)
  have hpkt : s.eng.pkts[s.op 0 - (s.coh.reqs.length + s.coh.replies.length)]? = some p := by
    rw [hk, Nat.add_sub_cancel_left]
    exact hp
  have hgo : uncorrPkt s p = failPkt s p w := by
    simp only [uncorrPkt, hf, Option.isSome_none, Nat.not_le.2 ht, hl, decide_false, Bool.or_self, Bool.false_eq_true, if_false]
    rfl
  simp only [execFabUncorr, hreq, hrep, hpkt, hgo, event]

theorem pkts_failPkt {p : Pkt} {w : Nat × Nat} {k : Nat} (hp : s.eng.pkts[k]? = some p) :
    (failPkt s p w).eng.pkts[k]? = some { p with fail := some .fabUncorr, info := Config.linkName w.1 w.2 } := by
  have hmap : (s.eng.pkts.map (fun v => if v = p then { v with fail := some .fabUncorr, info := Config.linkName w.1 w.2 } else v))[k]? =
      some (if p = p then { p with fail := some .fabUncorr, info := Config.linkName w.1 w.2 } else p) := by
    rw [List.getElem?_map, hp]
    rfl
  rw [if_pos rfl] at hmap
  exact hmap

end Uncorr

/-! ### Memory errors (R229, R506) -/

section Errors
variable {s : State}

theorem die_modErr (d : Nat) (f : ErrCnt → ErrCnt) : (modErr s d f).die d = { s.die d with err := f (s.die d).err } := by
  rw [modErr, State.die_modDie, if_pos rfl]

theorem exec_correctedSoftError (hd : s.op 0 < 4) : exec .correctedSoftError s = .next
    (if s.op 1 = 0 then modErr s (s.op 0) (fun e => { e with cl2 := satAdd e.cl2 1 })
     else if s.op 1 = 1 then modErr s (s.op 0) (fun e => { e with cdr := satAdd e.cdr 1 })
     else if s.op 1 = 3 then loseWord s (s.op 2 / 4 * 4) else s) := by
  change execCorrectedSoftError s = _
  simp only [execCorrectedSoftError, Nat.not_le.2 hd, if_false, event]

/-- A word that its ECC cannot correct is poisoned, and counted where it is device memory. -/
theorem loseWord_poisons {a : Nat} (hh : isHost a = false) : (loseWord s a).mem = s.mem ∧ isPoison (loseWord s a).poison a = true ∧
    (isDev a = true → ((loseWord s a).die (dieOf a)).err.udr = satAdd (s.die (dieOf a)).err.udr 1) := by
  have hmark : isPoison (smPut false s.poison a true) a = true := (smGet_smPut ..).trans (if_pos rfl)
  cases hd : isDev a with
  | false =>
    simp only [loseWord, hd, hh, Bool.false_eq_true, if_false]
    exact ⟨trivial, hmark, fun h => h.elim⟩
  | true =>
    simp only [loseWord, hd, if_true]
    refine ⟨rfl, hmark, fun _ => ?_⟩
    rw [recordErr, State.die_modDie, if_pos rfl, die_modErr]
    rfl

/-- The state before a word that an L1 has lost goes home: the other owner's value of it is home first. -/
def eccHome (s : State) (a : Nat) : State :=
  if lineHost (lineOf a) then s else recallWords s (lineOf a) (wordBit (wordIx a))

/-- The word written there, with its mark. -/
def eccPut (s : State) (a : Nat) : State :=
  (eccHome s a).putWord a (lineWord (s.l1 (s.op 0) (lineOf a)).data (wordIx a)) 0xF true

/-- An owned or dirty word that the L1 has lost goes home marked. -/
theorem exec_eccL1 {a : Nat} (ha : a = s.op 1 / 4 * 4) (hc : s.op 0 < 192)
    (he : ((s.l1 (s.op 0) (lineOf a)).owned (wordIx a) || (s.l1 (s.op 0) (lineOf a)).dirty (wordIx a)) = true) :
    ∃ t, exec .eccL1 s = .next t ∧ t.mem = (eccPut s a).mem ∧ t.poison = (eccPut s a).poison := by
  have hcond : (!((s.l1 (s.op 0) (lineOf a)).owned (wordIx a) || (s.l1 (s.op 0) (lineOf a)).dirty (wordIx a)) ||
      decide (192 ≤ s.op 0)) = false := by
    rw [he, decide_eq_false (Nat.not_le.2 hc)]
    rfl
  have hoff : (if lineHost (lineOf a) then eccPut s a else invalidateSharers (eccPut s a) (lineOf a) (some (s.op 0))).offPath =
      (eccPut s a).offPath := by
    split
    · rfl
    · exact invalidateSharers_offPath ..
  change ∃ t, execEccL1 s = .next t ∧ _
  simp only [execEccL1, ← ha, hcond, Bool.false_eq_true, if_false, event]
  have hmem := State.mem_of_offPath hoff
  have hpoison := State.poison_of_offPath hoff
  exact ⟨_, rfl, hmem, hpoison⟩

theorem getByte_eccHome {a b : Nat} (ha : a % 4 = 0) (hb : b < a ∨ a + 4 ≤ b) :
    getByte (eccHome s a).mem b = getByte s.mem b := by
  unfold eccHome
  split
  · rfl
  · refine getByte_recallWords_out _ _ _ _ fun w hw hbit => ?_
    have hwx : wordIx a = w := by
      by_contra hne
      rw [getLsbD_wordBit] at hbit
      simp_all
    have hadr : 64 * lineOf a + 4 * wordIx a = a := by
      simp only [lineOf, wordIx]
      omega
    omega

theorem eccPut_mem (a : Nat) :
    (eccPut s a).mem = setWord (eccHome s a).mem a (lineWord (s.l1 (s.op 0) (lineOf a)).data (wordIx a)) := rfl

theorem isPoison_eccPut (a : Nat) : isPoison (eccPut s a).poison a = true := by
  have hmark : (eccPut s a).poison = markWord (eccHome s a).poison a 0xF true := rfl
  rw [hmark, markWord, if_pos rfl, isPoison, smGet_smPut, if_pos rfl]

end Errors

/-- Settles O49: the next flit by what comes of it, a transaction and a request that wait too long, an engine's packet, the soft
errors and a word that an L1 has lost. -/
theorem fabricSteps : Obligations.FabricSteps := by
  unfold Obligations.FabricSteps
  refine ⟨fun s v hv hup => ⟨fun hw hp hb hr h1 h5 h6 hseq hlt hsd => ⟨fun hinc => ?_, fun hinc => ?_⟩,
      fun p ps hw hp hr hb => ?_, fun g gs hw hbad => ⟨fun hf => ?_, fun hf hd => ?_⟩, fun hr => ?_⟩,
    fun s q hq => ⟨fun hb hm ht hk hh hl hroom => ?_, fun w hst hb he hwb hp hr ho ht hl => ?_⟩,
    fun s p w k hk hp hf ht hl => ?_, fun s hd => ⟨fun h => ?_, fun h => ?_, fun h => ?_, fun h hh => ?_⟩,
    fun s hc he => ?_⟩
  · have hexec : exec .flitReceive s = .next (flitReceive s (s.op 0) 0 (s.op 2) (s.op 3) (s.op 4) 0 0) :=
      exec_flitReceive_of (by rw [h1, h5, h6])
    have hrec := flitReceive_accepts (pl := s.op 2) (hd := s.op 3) rfl hv hup hw hp hb hr hseq hlt hsd hinc
    exact ⟨_, hexec.trans (congrArg _ hrec), rfl,
      (dir_modDir_modDir hv _ _).trans (congrArg some (accept_sentTo hp hb hseq _ _))⟩
  · have hexec : exec .flitReceive s = .next (flitReceive s (s.op 0) 0 (s.op 2) (s.op 3) (s.op 4) 0 0) :=
      exec_flitReceive_of (by rw [h1, h5, h6])
    have hrec := flitReceive_drops (pl := s.op 2) (hd := s.op 3) rfl hv hup hw hp hb hr hseq hlt hsd hinc
    exact ⟨_, _, hexec.trans (congrArg _ hrec), rfl, dir_modDir_modDir hv _ _, rfl, rfl⟩
  · refine ⟨_, exec_flitReceive_of (flitReceive_of_replay hv hup hw hp hr hb), rfl, ?_⟩
    rw [dir_modDir, hv]
    rfl
  · exact ⟨_, exec_flitReceive_of ((flitReceive_of_wire hv hup hw).trans (takeFlit_of_bad hbad hf)), dir_modDir_modDir hv _ _⟩
  · obtain ⟨hdir, hmem⟩ := takeFlit_of_poison (s := modDir s (s.op 0) (fun v => { v with wire := gs })) (k := s.op 0) hbad hf hd
    refine ⟨_, exec_flitReceive_of (flitReceive_of_wire hv hup hw), hmem, ?_⟩
    rw [hdir, dir_modDir, hv]
    rfl
  · refine ⟨_, exec_replay hv hup hr, ?_, rfl⟩
    rw [modLink_dirs, dir_modDir, hv]
    rfl
  · exact ⟨_, exec_homeTimeout hq hb hm ht, giveUpReq_loses hk hh hl hroom⟩
  · exact ⟨_, _, exec_fabUncorr_of_req hq hst hb he hwb hp hr ho ht hl, rfl, rfl, rfl, rfl, rfl, rfl, rfl, rfl, rfl⟩
  · exact ⟨_, exec_fabUncorr_of_pkt hk hp hf ht hl, rfl, rfl, pkts_failPkt hp⟩
  · exact ⟨_, (exec_correctedSoftError hd).trans (congrArg _ (if_pos h)), rfl, rfl, die_modErr ..⟩
  · have hcount := exec_correctedSoftError hd
    rw [h, if_neg (by decide), if_pos rfl] at hcount
    exact ⟨_, hcount, rfl, rfl, die_modErr ..⟩
  · rw [exec_correctedSoftError hd, h, if_neg (by decide), if_neg (by decide), if_neg (by decide)]
  · have hlost := exec_correctedSoftError hd
    rw [h, if_neg (by decide), if_neg (by decide), if_pos rfl] at hlost
    exact ⟨_, hlost, loseWord_poisons hh⟩
  · obtain ⟨t, ht, hmem, hpoison⟩ := exec_eccL1 rfl hc he
    refine ⟨t, ht, hpoison ▸ isPoison_eccPut _, ?_, fun b hb => ?_⟩
    · rw [hmem, eccPut_mem, getWord_setWord]
    · rw [hmem, eccPut_mem, getByte_setWord_out _ _ _ _ (by omega), getByte_eccHome (Nat.mul_mod_left _ _) hb]

end Sys2Proof.MemoryProofs
end

section
/-! PROOFS. CLEAR_LOST (O51): the command takes a line off the table of the die that its address is on, which is another die where
the memory fitted reaches past a die's address range. -/

namespace Sys2Proof.MemoryProofs
open Sys2Proof Sys2Proof.Machine

/-- An owner of a line's word gives it up. -/
def ownerGivesUp (l : Nat) (s : State) (p : Nat × Nat) : State := s.putL1 p.2 l ((s.l1 p.2 l).giveUp (wordBit p.1))

/-- CLEAR_LOST changes no other die than the line's own. -/
theorem die_clearLine_of_ne {s : State} {l d : Nat} (h : d ≠ lineDie l) : (clearLine s l).die d = s.die d := by
  have howners : ((s.dirOf l).owners.foldl (ownerGivesUp l) s).offPath = s.offPath :=
    foldl_keeps (ownerGivesUp l) State.offPath (fun s p => putL1_offPath s p.2 l _) _ s
  have hpath := (invalidateSharers_offPath ((s.dirOf l).owners.foldl (ownerGivesUp l) s) l none).trans howners
  have hfab := congrArg (fun u : State => u.fab) hpath
  rw [clearLine, State.die_modDie, if_neg h]
  exact die_of_fab hfab d

theorem exec_clearLost_of_lost {s : State} (hr : running s 9 = true) (hd : mArg s 0 < 4) (ha : mArg2 s 1 < s.usable)
    (hs : (s.die (mArg s 0)).st = .admitted) (hl : (smFind (s.die (mArg s 0)).lost (mArg2 s 1 / 64)).isNone = false) :
    exec .clearLost s = .next (mboxFin (clearLine s (lineOf (devAddr (mArg s 0) (64 * (mArg2 s 1 / 64))))) 0) := by
  change execClearLost s = _
  have hin : ¬ (4 ≤ mArg s 0 ∨ s.usable ≤ mArg2 s 1) := by omega
  simp only [execClearLost, command, hr, hin, hs, hl, if_true, if_false, Bool.false_eq_true, ne_eq, not_true_eq_false, event]

/-- A line stays in its die's table where the address that names it is on another die. -/
theorem lost_of_clearLost {s t : State} (hr : running s 9 = true) (hd : mArg s 0 < 4) (ha : mArg2 s 1 < s.usable)
    (hs : (s.die (mArg s 0)).st = .admitted) (hl : (smFind (s.die (mArg s 0)).lost (mArg2 s 1 / 64)).isNone = false)
    (hne : mArg s 0 ≠ lineDie (lineOf (devAddr (mArg s 0) (64 * (mArg2 s 1 / 64))))) (ht : exec .clearLost s = .next t) :
    (smFind (t.die (mArg s 0)).lost (mArg2 s 1 / 64)).isNone = false := by
  rw [exec_clearLost_of_lost hr hd ha hs hl] at ht
  obtain rfl := Host.Outcome.next.inj ht
  have hdie : (mboxFin (clearLine s (lineOf (devAddr (mArg s 0) (64 * (mArg2 s 1 / 64))))) 0).die (mArg s 0) =
      s.die (mArg s 0) := die_clearLine_of_ne hne
  rw [hdie]
  exact hl

/-- Dies fitted with more than 2^48 bytes; CLEAR_LOST of die 0 runs at address 2^48, whose line is in the table of die 0. -/
def wideFitting : State :=
  { host.mbox := { cmd := 9, args := [0, 0, 65536, 0, 0, 0], busy := true }, mgmt := { power := .d0, gib := 2 ^ 18 + 1 },
    fab := { dies := [(0, { lost := [(2 ^ 42, true)] })] } }

/-- Refutes O51: where a die has more memory than its address range, CLEAR_LOST leaves a line past the range in the table. -/
theorem not_mailboxCommands : ¬ Obligations.MailboxCommands := by
  unfold Obligations.MailboxCommands
  intro h
  obtain ⟨-, -, -, -, -, -, -, -, hclear, -⟩ := h wideFitting
  obtain ⟨-, -, hends⟩ := hclear rfl
  have hd : mArg wideFitting 0 < 4 := by decide
  have ha : mArg2 wideFitting 1 < wideFitting.usable := by decide
  obtain ⟨t, ht, -, -, hnone, -, -⟩ := hends hd ha rfl
  have hstays := lost_of_clearLost rfl hd ha rfl (by decide) (by decide) ht
  rw [hnone] at hstays
  exact Bool.noConfusion hstays

end Sys2Proof.MemoryProofs
end

section
/-! PROOFS. The atomic operations (O24): the model's choices on bit patterns, in exact integers and in number formats. -/

namespace Sys2Proof.AtomicProofs
open Sys2Proof Sys2Proof.Machine

/-! ### The operation of a lane (R263, Table 9-2) -/

theorem toNat_ofInt_toInt_add (n a b : Nat) :
    (BitVec.ofInt n ((BitVec.ofNat n a).toInt + (BitVec.ofNat n b).toInt)).toNat = (a + b) % 2 ^ n := by
  rw [BitVec.ofInt_add, BitVec.ofInt_toInt, BitVec.ofInt_toInt, ← BitVec.ofNat_add, BitVec.toNat_ofNat]

theorem sltN_iff (n a b : Nat) : sltN n a b = true ↔ (BitVec.ofNat n a).toInt < (BitVec.ofNat n b).toInt :=
  BitVec.slt_iff_toInt_lt

/-- A choice under an order keeps the old value unless the new one is beyond it. -/
theorem atomPick_eq {lt : Nat → Nat → Bool} {r : Nat → Nat → Prop} [DecidableRel r] (h : ∀ a b, lt a b = true ↔ r a b)
    (old v : Nat) : atomPick lt false old v = (if r v old then v else old) ∧
      atomPick lt true old v = if r old v then v else old := by
  simp [atomPick, h]

theorem atomPick_nat (old v : Nat) : atomPick (fun a b => decide (a < b)) false old v = min old v ∧
    atomPick (fun a b => decide (a < b)) true old v = max old v := by
  obtain ⟨hless, hmore⟩ := atomPick_eq (r := (· < ·)) (lt := fun a b => decide (a < b)) (by simp) old v
  rw [hless, hmore]
  constructor <;> split <;> omega

theorem isNan_iff (x : FV) : x.isNan = true ↔ x = .nan := decide_eq_true_iff

theorem atomOld_eq (k n old : Nat) : atomOld k n old =
    if k = 10 ∧ val (if n = 64 then .f64 else .f32) old = .nan then enc (if n = 64 then .f64 else .f32) .nan else old := by
  simp only [atomOld, Bool.and_eq_true, decide_eq_true_eq, isNan_iff]
  rfl

/-- Settles O24: the orders are those of the integers, and the floating-point operations are those of the formats. -/
theorem atomicOperations : Obligations.AtomicOperations := by
  unfold Obligations.AtomicOperations
  intro n old v v2 _ _ _ _
  obtain ⟨hmin, hmax⟩ := atomPick_eq (sltN_iff n) old v
  obtain ⟨hminN, hmaxN⟩ := atomPick_nat old v
  exact ⟨congrArg some (toNat_ofInt_toInt_add n old v).symm, congrArg some hmin, congrArg some hminN, congrArg some hmax,
    congrArg some hmaxN, rfl, rfl, rfl, rfl, rfl, rfl, rfl, rfl, rfl, rfl, fun k => atomOld_eq k n old⟩

end Sys2Proof.AtomicProofs
end

section
/-! PROOFS. Atomics at their unit and at their home (O26): what the lanes of a request make of the storage and what they give back,
then the home's step. -/

namespace Sys2Proof.AtomicProofs
open Sys2Proof Sys2Proof.Machine

/-! ### The lanes of a request (R260, R267) -/

/-- What no write of a word changes, the lanes of a request do not change. -/
theorem atomLanes_keeps {β : Type} (k : State → β) (hk : ∀ s a v bm po, k (s.putWord a v bm po) = k s) (s : State) (op n : Nat)
    (ls : List AtLane) : k (atomLanes s op n ls).s = k s := by
  have hwrite (t : State) (a v : Nat) : k (atomWrite t n a v) = k t := by
    unfold atomWrite
    split
    · exact (hk ..).trans (hk ..)
    · exact hk ..
  have hlane (r : AtDone) (l : AtLane) : k (atomLane op n r l).s = k r.s := by
    unfold atomLane
    split
    · rfl
    · simp only
      split
      · rfl
      · exact hwrite ..
  have hfold (r : AtDone) : k (ls.foldl (atomLane op n) r).s = k r.s := by
    induction ls generalizing r with
    | nil => rfl
    | cons l ls ih => exact (ih _).trans (hlane r l)
  exact hfold { s := s }

@[simp] theorem atomLanes_gang (s : State) (op n : Nat) (ls : List AtLane) (k : Nat) :
    (atomLanes s op n ls).s.gang k = s.gang k :=
  atomLanes_keeps (fun s => s.gang k) (fun _ _ _ _ _ => rfl) s op n ls

@[simp] theorem atomLanes_coh (s : State) (op n : Nat) (ls : List AtLane) : (atomLanes s op n ls).s.coh = s.coh :=
  atomLanes_keeps State.coh (fun _ _ _ _ _ => rfl) s op n ls

@[simp] theorem atomLanes_dirOf (s : State) (op n : Nat) (ls : List AtLane) (l : Nat) :
    (atomLanes s op n ls).s.dirOf l = s.dirOf l :=
  atomLanes_keeps (fun s => s.dirOf l) (fun _ _ _ _ _ => rfl) s op n ls

/-- What the word of a lane of 32 bits holds after the operation. -/
def newWord (s : State) (op : Nat) (l : AtLane) : Option Nat :=
  atomOp op 32 (getWord s.mem l.pa).toNat l.v.toNat l.v2.toNat

/-- What the word of a lane of 32 bits gives back. -/
def oldWord (s : State) (op : Nat) (l : AtLane) : Nat := atomOld op 32 (getWord s.mem l.pa).toNat

section One
variable {s : State} {op : Nat} {l : AtLane} (hp : isPoison s.poison l.pa = false)
include hp

/-- One lane of 32 bits on a clean word. -/
theorem atomLanes_one : atomLanes s op 32 [l] =
    { s := (newWord s op l).elim s (fun v => s.putWord l.pa (BitVec.ofNat 32 v) 0xF false),
      res := if op = 14 then [] else [(l.dst, BitVec.ofNat 64 (oldWord s op l))],
      words := (newWord s op l).elim [] (fun _ => [l.pa]) } := by
  have hw : atomWords 32 l.pa = [l.pa] := rfl
  have hr : atomRead s 32 l.pa = (getWord s.mem l.pa).toNat := rfl
  simp only [atomLanes, List.foldl_cons, List.foldl_nil, atomLane, hw, List.any_cons, List.any_nil, hp, Bool.or_false,
    Bool.false_eq_true, if_false, hr]
  cases h : newWord s op l <;> rw [newWord] at h <;> rw [h] <;> rfl

theorem getByte_atomLanes_one_out {b : Nat} (hb : b < l.pa ∨ l.pa + 4 ≤ b) :
    getByte (atomLanes s op 32 [l]).s.mem b = getByte s.mem b := by
  rw [atomLanes_one hp]
  cases newWord s op l with
  | none => rfl
  | some v => exact getByte_setWordMasked_out s.mem l.pa b (BitVec.ofNat 32 v) 0xF (by omega)

theorem getWord_atomLanes_one : getWord (atomLanes s op 32 [l]).s.mem l.pa =
    (newWord s op l).elim (getWord s.mem l.pa) (BitVec.ofNat 32) := by
  rw [atomLanes_one hp]
  cases newWord s op l with
  | none => rfl
  | some v => exact getWord_setWord ..

end One

/-! ### The home (R258, R267) -/

/-- The answer of a home that has performed the lanes of request `q`, and the mask of the words written. -/
def atomAnswer (q : ReqX) (d : AtDone) : Reply :=
  { kind := .data, data := getLine d.s.mem q.r.line, res := d.res, bad := atomErr d.bad, ats := q.ats, wide := q.wide,
    r := { q.r with wm := wholeMask (bitsTo16 (fun w => d.words.contains (64 * q.r.line + 4 * w))), wd := getLine d.s.mem q.r.line } }

/-- An atomic that its home takes, with no sharer to invalidate, is performed and answered at once. -/
theorem exec_atomicAtHome_of_no_sharer {s : State} {q : ReqX} (ht : takeReq s (s.op 0) .atomic = some q) (hr : refusal s q = none)
    (hb : q.begun = false) (hm : firstMsgs s q = []) (hs : (s.dirOf q.r.line).sharers = 0) :
    let d := atomLanes s q.op (if q.wide then 64 else 32) q.ats
    exec .atomicAtHome s = .next ((d.s.dropReq q.r.id).reply (atomAnswer q d)) := by
  have hnone (q' : ReqX) (hl : q'.r.line = q.r.line) :
      startInv (atomLanes s q.op (if q.wide then 64 else 32) q.ats).s q' = none :=
    MemoryProofs.startInv_of_no_sharer (by rw [hl, atomLanes_dirOf, hs])
  change execAtomicAtHome s = _
  simp only [execAtomicAtHome, homeEvent, ht, MemoryProofs.homeTake_of_no_messages hr hb hm, event, hnone, ite_self]
  rfl

/-- Settles O26: the home's step, with the storage and the answer of a request of one lane. -/
theorem atomicAtHome : Obligations.AtomicAtHome := by
  unfold Obligations.AtomicAtHome
  intro s q l ht hr hb hm hs hw hl hp _ hop
  have hexec := exec_atomicAtHome_of_no_sharer ht hr hb hm hs
  have hcoh := atomLanes_coh s q.op 32 [l]
  simp only [hw, hl, Bool.false_eq_true, if_false] at hexec
  refine ⟨_, _, hexec, congrArg (a₁ := (atomLanes s q.op 32 [l]).s.coh) (fun c => c.replies ++ _) hcoh, ?_, ?_,
    congrArg (fun c : Coh => c.reqs.filter _) hcoh, fun b hb => getByte_atomLanes_one_out hp hb, ?_⟩
  · exact (congrArg AtDone.res (atomLanes_one hp)).trans (if_neg hop)
  · exact congrArg (fun d : AtDone => atomErr d.bad) (atomLanes_one hp)
  · refine (getWord_atomLanes_one hp).trans ?_
    unfold newWord
    cases atomOp q.op 32 (getWord s.mem l.pa).toNat l.v.toNat l.v2.toNat <;> rfl

end Sys2Proof.AtomicProofs
end

section
/-! PROOFS. The atomic words (O25): the checks and the release before an atomic, the near atomics, the far ones, then the words. -/

namespace Sys2Proof.AtomicProofs
open Sys2Proof Sys2Proof.Machine Sys2Proof.MemoryProofs

/-! ### What completion leaves of the gangs -/

theorem finish_gang_of_ne {x : Cx} {r : Res} {k : Nat} (hk : k ≠ x.cur.gang) : (finish x r).gang k = r.state.gang k := by
  have h := congrArg (fun s => s.gang k) (finish_still x r)
  simp only [State.gang_still, if_neg hk] at h
  exact h

/-- The gang of the issuing word keeps its register files. -/
theorem finish_regs {x : Cx} {r : Res} {k : Nat} {g : Gang} (hg : r.state.gang k = some g) :
    ∃ h, (finish x r).gang k = some h ∧ h.r = g.r := by
  have hs := ControlProofs.finish_gang x r k
  rw [hg, Option.map_some, Option.map_eq_some_iff] at hs
  obtain ⟨h, hh, hr⟩ := hs
  have hfiles : h.still.r = g.still.r := congrArg Gang.r hr
  exact ⟨h, hh, hfiles⟩

/-! ### An atomic's checks and release (R241, R266) -/

section Issue
variable {s : State} {x : Cx}

/-- A release that is performed lets the word's effect follow. -/
theorem afterRelease_of_ok {wide : Bool} {body : Res} (h : release s x.cur.gang x.core x.dom x.cur.grp wide = .ok) :
    afterRelease s x wide body = body := by
  rw [afterRelease, h]
  exact ite_self _

/-- The width of an atomic's words in bits. -/
def opBits (w : Fin 2) : Nat := if w.val = 1 then 64 else 32

/-- The acquire side of an atomic: AST has none. -/
def acqOf (x : Cx) (op : Nat) (o : Fin 4) (m : BitVec 192) : Option Bool :=
  if o.val % 2 = 1 ∧ op ≠ 14 then some (wideSet m x.core) else none

/-- The lanes of an atomic that pass its checks. -/
def issuedLanes (s : State) (x : Cx) (op : Nat) (d a : Fin 64) (g : Nat) (w : Fin 2) : List AtLane :=
  atLanes x op d (decide (w.val = 1)) (passed s x g (atomChecks s x op g a (opBits w / 8)))

theorem atomBody_of_released {op : Nat} {o : Fin 4} {sc : Fin 32} {d a : Fin 64} {g : Fin 4} {w : Fin 2} {m : BitVec 192}
    (hm : x.scopeSet s sc = some m)
    (hr : o.val < 2 ∨ op = 13 ∨ release s x.cur.gang x.core x.dom x.cur.grp (wideSet m x.core) = .ok) :
    atomBody op o sc d a g w s x = checkedLanes s x g (atomChecks s x op g a (opBits w / 8))
      (if g.val = 0 then
        atomFar (fillTlbs s x 0 (passed s x g (atomChecks s x op g a (opBits w / 8)))) x op d (decide (w.val = 1)) (acqOf x op o m)
          (issuedLanes s x op d a g w)
       else atomNear s x op (opBits w) (acqOf x op o m) (issuedLanes s x op d a g w)) := by
  have hacq : (if o.val.testBit 0 && decide (op ≠ 14) then some (wideSet m x.core) else none) = acqOf x op o m := by
    simp only [(testBit_zero_one o.val).1, Bool.and_eq_true, decide_eq_true_eq, acqOf]
  have hbits : (if decide (w.val = 1) = true then 64 else 32) = opBits w := by simp only [decide_eq_true_eq, opBits]
  have hrel (body : Res) : (if o.val.testBit 1 && decide (op ≠ 13) then afterRelease s x (wideSet m x.core) body else body) = body := by
    rcases hr with ho | ho | ho
    · have h1 : o.val.testBit 1 = false := by
        rw [(testBit_zero_one o.val).2]
        exact decide_eq_false (by omega)
      rw [h1]
      rfl
    · simp [ho]
    · rw [afterRelease_of_ok ho, ite_self]
  simp only [atomBody, hm, hacq, hbits, hrel]
  rfl

theorem exec_of_atomForm {c : Bool} {o : Fin 4} {sc : Fin 32} {d a : Fin 64} {g : Fin 4} {w : Fin 2}
    {p : Nat × (Bool → Fin 4 → Fin 32 → Fin 64 → Fin 64 → Fin 4 → Fin 2 → Instr)} (hp : p ∈ atomForms) :
    exec (p.2 c o sc d a g w) s = issue (p.2 c o sc d a g w) s (atomBody p.1 o sc d a g w) := by
  simp only [atomForms, List.mem_cons, List.not_mem_nil, or_false] at hp
  rcases hp with rfl | rfl | rfl | rfl | rfl | rfl | rfl | rfl | rfl | rfl | rfl | rfl | rfl | rfl | rfl <;> rfl

/-! ### Atomics in a Pound or a Basin (R258) -/

/-- An atomic whose words no copy holds is performed at issue: its lanes' storage, its lanes' registers, and nothing else of the
storage and the gangs. -/
theorem atomNear_of_free {op n : Nat} {acq : Option Bool} {ls : List AtLane} (h : ∀ l ∈ ls, scoreHit s l.pa (n / 8) = false) :
    ∃ e, atomNear s x op n acq ls = .done e ∧ e.mem = (atomLanes s op n ls).s.mem ∧
      ∀ k, e.gang k = (s.modRegs x (fun r => r.putV ((atomLanes s op n ls).res.map (fun p => (p.1, loW p.2))))).gang k := by
  have hfree : ls.any (fun l => scoreHit s l.pa (n / 8)) = false := List.any_eq_false.2 fun l hl => by simp [h l hl]
  have hgang (k : Nat) : ((atomLanes s op n ls).s.modRegs x (fun r => r.putV ((atomLanes s op n ls).res.map
      (fun p => (p.1, loW p.2))))).gang k =
      (s.modRegs x (fun r => r.putV ((atomLanes s op n ls).res.map (fun p => (p.1, loW p.2))))).gang k := by
    rw [State.gang_modRegs, State.gang_modRegs, atomLanes_gang]
  simp only [atomNear, hfree, Bool.false_eq_true, if_false]
  rcases acq with _ | _ | _ <;> cases atomErr (atomLanes s op n ls).bad <;> exact ⟨_, rfl, rfl, hgang⟩

/-- The one lane of an atomic of 32-bit words. -/
def soleLane (s : State) (x : Cx) (op : Nat) (d a : Fin 64) (g : Fin 4) (j pa : Nat) : AtLane :=
  { lane := j, va := accAddr s x g (laneOff x g a 0 j), pa := pa, dst := vkey d j, v := (x.v d j).zeroExtend 64,
    v2 := if op = 9 then (x.v (d.val + 1) j).zeroExtend 64 else 0 }

theorem issuedLanes_of_one {op : Nat} {d a : Fin 64} {g : Fin 4} {w : Fin 2} {j pa : Nat} (hw : w.val = 0) (hl : x.lanes = [j])
    (hc : checkAddr s x g j (laneOff x g a 0 j) 4 .atomic 1 = .ok pa) (hg : (op = 10 ∨ op = 11) → g.val = 3) :
    issuedLanes s x op d a g w = [soleLane s x op d a g j pa] := by
  have hseg : ((op = 10 || op = 11) && (g.val = 1 || g.val = 2)) = false := by
    by_cases h : op = 10 ∨ op = 11
    · simp [hg h]
    · simp_all
  have hbits : opBits w / 8 = 4 := by rw [opBits, hw]; rfl
  simp only [issuedLanes, hbits, atomChecks, laneChecks, checkLanes, hl, List.map_cons, List.map_nil, hc, hseg]
  simp [passed, atLanes, hw, soleLane]

section Words
variable {c : Bool} {o : Fin 4} {sc : Fin 32} {d a : Fin 64} {g : Fin 4} {w : Fin 2} {m : BitVec 192}
  {p : Nat × (Bool → Fin 4 → Fin 32 → Fin 64 → Fin 64 → Fin 4 → Fin 2 → Instr)} (hp : p ∈ atomForms)
  (hi : Issues s x (p.2 c o sc d a g w)) (hm : x.scopeSet s sc = some m)
  (hr : o.val < 2 ∨ p.1 = 13 ∨ release s x.cur.gang x.core x.dom x.cur.grp (wideSet m x.core) = .ok)
include hp hi hm hr

/-- An atomic in a Pound or a Basin whose lanes pass their checks, at words that no copy holds. -/
theorem exec_atomNear (hg : g.val ≠ 0) (hok : ∀ r ∈ atomChecks s x p.1 g a (opBits w / 8), (∃ q, r.2.2 = .ok q) ∧
      reachAway s x.core x.crew g r.2.1 = false) (hfree : ∀ l ∈ issuedLanes s x p.1 d a g w, scoreHit s l.pa (opBits w / 8) = false) :
    ∃ e, exec (p.2 c o sc d a g w) s = .next (finish x (.done e)) ∧
      e.mem = (atomLanes s p.1 (opBits w) (issuedLanes s x p.1 d a g w)).s.mem ∧
      ∀ k, e.gang k = (s.modRegs x (fun r => r.putV ((atomLanes s p.1 (opBits w) (issuedLanes s x p.1 d a g w)).res.map
        (fun p => (p.1, loW p.2))))).gang k := by
  obtain ⟨e, he, hmem, hgang⟩ := atomNear_of_free (x := x) (op := p.1) (acq := acqOf x p.1 o m) hfree
  refine ⟨e, ControlProofs.exec_of_issues hi (exec_of_atomForm hp) ?_, hmem, hgang⟩
  rw [atomBody_of_released hm hr, checkedLanes_of_ok (fun r hr => (hok r hr).1) (fun r hr => (hok r hr).2), if_neg hg, he]

/-- An atomic in the global segment whose lanes pass their checks. -/
theorem exec_atomFar (hg : g.val = 0) (hok : ∀ r ∈ atomChecks s x p.1 g a (opBits w / 8), ∃ q, r.2.2 = .ok q) :
    exec (p.2 c o sc d a g w) s = .next (finish x (atomFar (fillTlbs s x 0 (passed s x g (atomChecks s x p.1 g a (opBits w / 8))))
      x p.1 d (decide (w.val = 1)) (acqOf x p.1 o m) (issuedLanes s x p.1 d a g w))) := by
  refine ControlProofs.exec_of_issues hi (exec_of_atomForm hp) ?_
  rw [atomBody_of_released hm hr, checkedLanes_of_cached (.inl hg) hok, if_pos hg]

end Words

/-! ### Atomics in the global segment (R259, R260) -/

/-- The words of an atomic's lanes. -/
def laneWords (w : Fin 2) (ls : List AtLane) : List Nat := ls.flatMap (fun l => atomWords (opBits w) l.pa)

/-- An atomic whose words wait for nothing and are not dirty in the L1 goes to the homes of its lines. -/
theorem atomFar_of_free {op d : Nat} {w : Fin 2} {acq : Option Bool} {ls : List AtLane}
    (h : ∀ b ∈ laneWords w ls, mustWait s x (lineOf b) (wordBit (wordIx b)) true false true = false ∧
      (s.l1 x.core (lineOf b)).loose (wordIx b) = false) :
    let lines := (ls.map (fun l => lineOf l.pa)).dedup
    atomFar s x op d (decide (w.val = 1)) acq ls = .done (if ls = [] then acq.elim s (acquire s x.core)
      else (lines.map (atomReq x op (decide (w.val = 1)) s.work.next ls)).foldl post (openOut s x
        { kind := .atomic, gang := x.cur.gang, grp := x.cur.grp, pc := x.cur.pc, npc := x.cur.last + 1, left := lines.length,
          dstV := if op = 14 then [] else if w.val = 1 then [d, d + 1] else [d], acq := acq } 15)) := by
  have hwords : ls.flatMap (fun l => atomWords (if decide (w.val = 1) = true then 64 else 32) l.pa) = laneWords w ls := by
    simp only [decide_eq_true_eq, laneWords, opBits]
  have hwait : (laneWords w ls).any (fun b => mustWait s x (lineOf b) (wordBit (wordIx b)) true false true) = false :=
    List.any_eq_false.2 fun b hb => by simp [(h b hb).1]
  have hpush : (laneWords w ls).filter (fun b => (s.l1 x.core (lineOf b)).loose (wordIx b)) = [] :=
    List.filter_eq_nil_iff.2 fun b hb => by simp [(h b hb).2]
  simp only [atomFar, hwords, hwait, hpush, pushFor_nil, Bool.false_eq_true, if_false, List.isEmpty_iff]
  simp only [decide_eq_true_eq]
  split
  · cases acq <;> rfl
  · rfl

/-! ### One lane's word and register (R264) -/

theorem loW_ofNat (n : Nat) : loW (BitVec.ofNat 64 n) = BitVec.ofNat 32 n := by
  refine BitVec.eq_of_toNat_eq ?_
  rw [loW, BitVec.extractLsb'_toNat, BitVec.toNat_ofNat, BitVec.toNat_ofNat, Nat.shiftRight_zero]
  exact Nat.mod_mod_of_dvd n (by decide)

theorem newWord_soleLane (op : Nat) (d a : Fin 64) (g : Fin 4) (j pa : Nat) :
    newWord s op (soleLane s x op d a g j pa) = atomOp op 32 (getWord s.mem pa).toNat (x.v d j).toNat
      (if op = 9 then (x.v (d.val + 1) j).toNat else 0) := by
  have hpair (v : Word) : (v.zeroExtend 64).toNat = v.toNat := BitVec.toNat_setWidth_of_le (by decide)
  have hnew : (soleLane s x op d a g j pa).v2.toNat = if op = 9 then (x.v (d.val + 1) j).toNat else 0 := by
    unfold soleLane
    split
    · exact hpair _
    · rfl
  exact congrArg₂ (atomOp op 32 (getWord s.mem pa).toNat) (hpair _) hnew

/-- The lane's register takes what the word held, but for AST, which gives nothing back. -/
theorem rdV_soleLane {op : Nat} {d a : Fin 64} {g : Fin 4} {j pa : Nat} (hj : j < 32) (hp : isPoison s.poison pa = false)
    (f : Regs) (r l : Nat) (hl : l < 32) :
    (f.putV ((atomLanes s op 32 [soleLane s x op d a g j pa]).res.map (fun p => (p.1, loW p.2)))).rdV r l =
      if r = d.val ∧ l = j ∧ op ≠ 14 then BitVec.ofNat 32 (atomOld op 32 (getWord s.mem pa).toNat) else f.rdV r l := by
  rw [atomLanes_one (l := soleLane s x op d a g j pa) hp]
  by_cases ho : op = 14
  · simp [ho, Regs.putV, smPuts]
  · have h := Regs.rdV_putV f [j] d.val (fun _ => BitVec.ofNat 32 (atomOld op 32 (getWord s.mem pa).toNat)) r l hl (by simpa using hj)
    simp only [List.map_cons, List.map_nil, List.mem_singleton] at h
    simp only [ho, if_false, List.map_cons, List.map_nil, loW_ofNat, ne_eq, not_false_eq_true, and_true, ← h]
    rfl

end Issue

/-- Settles O25: near atomics by their lanes, with the case of one lane written out; far ones by their requests. -/
theorem atomicWords : Obligations.AtomicWords := by
  unfold Obligations.AtomicWords
  refine ⟨fun s x c o sc d a g w j pa m p hp hi hg hm hseg hr hok hfree => ?_,
    fun s x c o sc d a w m p hp hi hm hr hok hfree => ?_⟩
  · obtain ⟨e, hexec, hmem, hgang⟩ := exec_atomNear hp hi hm hr hg hok hfree
    refine ⟨⟨_, hexec, (ControlProofs.finish_mem ..).trans hmem, fun k hk => ?_⟩, fun hw hl hc hpo => ?_⟩
    · rw [finish_gang_of_ne hk]
      exact (hgang k).trans ((State.gang_modRegs ..).trans (if_neg hk))
    · have hj : j < 32 := x.lanes_lt j (by simp [hl])
      have hbits : opBits w = 32 := by rw [opBits, hw]; rfl
      rw [issuedLanes_of_one hw hl hc hseg, hbits] at hmem hgang
      have hcur := (hgang x.cur.gang).trans (State.gang_modRegs ..)
      rw [if_pos rfl, cx_gang s x hi.ctx, Option.map_some] at hcur
      obtain ⟨h, hh, hregs⟩ := finish_regs (x := x) (r := .done e) hcur
      refine ⟨_, h, hexec, hh, fun r l hlt => ?_, fun b hb => ?_, ?_⟩
      · rw [hregs]
        exact rdV_soleLane hj hpo _ r l hlt
      · rw [ControlProofs.finish_mem]
        exact (congrArg (getByte · b) hmem).trans (getByte_atomLanes_one_out (l := soleLane s x p.1 d a g j pa) hpo hb)
      · rw [ControlProofs.finish_mem]
        refine (congrArg (getWord · pa) hmem).trans ((getWord_atomLanes_one (l := soleLane s x p.1 d a g j pa) hpo).trans ?_)
        rw [newWord_soleLane]
        cases atomOp p.1 32 (getWord s.mem pa).toNat (x.v d j).toNat (if p.1 = 9 then (x.v (d.val + 1) j).toNat else 0) <;> rfl
  · have hfar := atomFar_of_free (x := x) (op := p.1) (d := d) (acq := acqOf x p.1 o m) hfree
    have hexec := (exec_atomFar hp hi hm hr rfl hok).trans (congrArg (fun r => Host.Outcome.next (finish x r)) hfar)
    refine ⟨fun hl => ?_, fun hl => ?_⟩
    · refine hexec.trans (congrArg (fun t => Host.Outcome.next (finish x (.done t))) ((if_pos hl).trans ?_))
      unfold acqOf
      split <;> rfl
    · exact hexec.trans (congrArg (fun t => Host.Outcome.next (finish x (.done t))) (if_neg hl))

end Sys2Proof.AtomicProofs
end

section
/-! PROOFS. The barrier registers (O27): the phase test, what a change of one barrier leaves alone, the checks of an arrival, BARD's
bindings and BWAIT's token, then the words. -/

namespace Sys2Proof.BarrierProofs
open Sys2Proof Sys2Proof.Machine Sys2Proof.ControlProofs Sys2Proof.MemoryProofs Sys2Proof.AtomicProofs

/-! ### The phase test (R270) -/

/-- The phase of the barrier is complete. -/
def Complete (v : Barrier) : Prop := v.i = true ∧ v.p = false ∧ v.arr = 0 ∧ v.dp = 0 ∧ v.txb = 0

theorem complete_iff (v : Barrier) :
    (v.i && !v.p && decide (v.arr = 0) && decide (v.dp = 0) && decide (v.txb = 0)) = true ↔ Complete v := by
  simp [Complete, and_assoc]

theorem tryComplete_of_complete {v : Barrier} (h : Complete v) :
    v.tryComplete = { v with ph := v.ph + 1, arr := v.exp, xa := false, td := false } :=
  if_pos ((complete_iff v).2 h)

theorem tryComplete_of_not_complete {v : Barrier} (h : ¬ Complete v) : v.tryComplete = v :=
  if_neg fun hc => h ((complete_iff v).1 hc)

/-! ### One barrier of a crew changed -/

theorem bar_setBar (e : CrewEng) (b k : Nat) (v : Barrier) : (e.setBar b v).bar k = if k = b then v else e.bar k := smGet_smPut ..

theorem ceng_modBar_same (s : State) (c b : Nat) (f : Barrier → Barrier) :
    (s.modBar c b f).ceng c = (s.ceng c).setBar b (f ((s.ceng c).bar b)).tryComplete := by
  rw [State.modBar, State.ceng_modCeng, if_pos rfl]


/-- A word's answer, taken further. -/
theorem exec_trans {i : Instr} {s : State} {x : Cx} {r r' : Res} (h : exec i s = .next (finish x r)) (hr : r = r') :
    exec i s = .next (finish x r') := by
  rw [h, hr]

theorem finish_ceng (x : Cx) (r : Res) (c : Nat) : (finish x r).ceng c = r.state.ceng c :=
  finish_keeps (fun s => s.ceng c) (fun _ _ => rfl) x r

/-- The same after the word that changed the barrier. -/
theorem bar_finish_modBar (x : Cx) (e : State) (b k : Nat) (f : Barrier → Barrier) :
    ((finish x (.done (e.modBar x.crewNo b f))).ceng x.crewNo).bar k =
      if k = b then (f ((e.ceng x.crewNo).bar b)).tryComplete else (e.ceng x.crewNo).bar k := by
  rw [finish_ceng]
  exact (congrArg (CrewEng.bar · k) (ceng_modBar_same e x.crewNo b f)).trans (bar_setBar ..)

section Words
variable {s : State} {x : Cx} {c : Bool} {b : Fin 16} {r : Fin 64}

/-! ### BINIT (R285) -/

/-- A barrier initialised by the word `w`. -/
def initialised (w : Word) (v : Barrier) : Barrier :=
  { i := true, t := w.getLsbD 12, bc := w.getLsbD 13, arr := fld w.toNat 0 12, exp := fld w.toNat 0 12, ph := v.ph }

theorem initialised_eq (w : Word) (v : Barrier) : initialised w v =
    { i := true, t := w.getLsbD 12, bc := w.getLsbD 13, arr := w.toNat % 4096, exp := w.toNat % 4096, ph := v.ph } := by
  rw [initialised, IntegerProofs.fld_zero]
  rfl

/-- A barrier that expects an arrival is not complete at once. -/
theorem tryComplete_initialised {w : Word} (hw : w.toNat % 4096 ≠ 0) (v : Barrier) :
    (initialised w v).tryComplete = initialised w v := by
  refine tryComplete_of_not_complete ?_
  rintro ⟨-, -, harr, -⟩
  rw [initialised_eq] at harr
  exact hw harr

/-- BINIT with a count, and with BC where it has T, initialises its barrier once no binding is on it. -/
theorem exec_binit (hi : Issues s x (.binit c b r)) (hn : (x.s r).toNat % 4096 ≠ 0)
    (ht : (x.s r).getLsbD 12 = true → (x.s r).getLsbD 13 = true) :
    ∃ e : State, exec (.binit c b r) s = .next (finish x (.done (e.modBar x.crewNo b (initialised (x.s r))))) ∧
      (∀ k, (e.ceng x.crewNo).bar k = (s.ceng x.crewNo).bar k) ∧ ∀ p ∈ (e.ceng x.crewNo).binds, p.bar ≠ b.val := by
  have hgood : (fld (x.s r).toNat 0 12 = 0 || ((x.s r).getLsbD 12 && !(x.s r).getLsbD 13)) ≠ true := by
    rw [IntegerProofs.fld_zero]
    cases h : (x.s r).getLsbD 12 <;> simp_all
  have hceng (f : CrewEng → CrewEng) (l : List (Nat × CopyX)) :
      ({ s.modCeng x.crewNo f with eng.copies := l } : State).ceng x.crewNo = f (s.ceng x.crewNo) :=
    (State.ceng_modCeng ..).trans (if_pos rfl)
  refine ⟨_, exec_of_issues hi (by rfl) (if_neg hgood), fun k => ?_, fun p hp => ?_⟩
  · rw [hceng]
    rfl
  · rw [hceng] at hp
    exact of_decide_eq_true (List.mem_filter.1 hp).2

/-! ### Arrivals (R271, R286, R287) -/

/-- What a group's arrival on barrier `b` comes to: its checks, then `go`. -/
def arrival (s : State) (x : Cx) (b : Nat) (go : Res) : Res :=
  if !((s.ceng x.crewNo).bar b).i then .trap s (barTrap x .barUninit b)
  else if ((s.ceng x.crewNo).bar b).p then .trap s (barTrap x .barPoisoned b)
  else if ((s.ceng x.crewNo).bar b).room < x.nSlices then .trap s (barTrap x .barArrOverrun b)
  else go

section Arrival
variable {k : Nat} {go : Res}

theorem arrival_of_uninit (hv : ((s.ceng x.crewNo).bar k).i = false) : arrival s x k go = .trap s (barTrap x .barUninit k) := by
  rw [arrival, hv]
  rfl

variable (hv : ((s.ceng x.crewNo).bar k).i = true)
include hv

theorem arrival_of_poisoned (hp : ((s.ceng x.crewNo).bar k).p = true) : arrival s x k go = .trap s (barTrap x .barPoisoned k) := by
  rw [arrival, hv, hp]
  rfl

theorem arrival_of_overrun (hp : ((s.ceng x.crewNo).bar k).p = false) (hn : ((s.ceng x.crewNo).bar k).room < x.nSlices) :
    arrival s x k go = .trap s (barTrap x .barArrOverrun k) := by
  rw [arrival, hv, hp]
  exact if_pos hn

theorem arrival_of_room (hp : ((s.ceng x.crewNo).bar k).p = false) (hn : x.nSlices ≤ ((s.ceng x.crewNo).bar k).room) :
    arrival s x k go = go := by
  rw [arrival, hv, hp]
  exact if_neg (Nat.not_lt.2 hn)

end Arrival

theorem exec_barr (hi : Issues s x (.barr c b)) (hr : release s x.cur.gang x.core x.dom x.cur.grp false = .ok) :
    exec (.barr c b) s = .next (finish x (arrival s x b
      (.done (s.modBar x.crewNo b (fun v => { v with arr := v.arr - x.nSlices }))))) :=
  exec_of_issues hi (by rfl) (afterRelease_of_ok hr)

theorem exec_bard (hi : Issues s x (.bard c b)) (hr : release s x.cur.gang x.core x.dom x.cur.grp false = .ok) :
    exec (.bard c b) s = .next (finish x (arrival s x b
      (if 4 ≤ bindsOf s x.crewNo x.gang.ix b then .hold s else .done (bardEffect s x b)))) :=
  exec_of_issues hi (by rfl) (afterRelease_of_ok hr)

/-- A BARD that passes its checks, of a gang with fewer than four bindings on the barrier. -/
theorem exec_bard_of_room (hi : Issues s x (.bard c b)) (hr : release s x.cur.gang x.core x.dom x.cur.grp false = .ok)
    (hv : ((s.ceng x.crewNo).bar b).i = true) (hp : ((s.ceng x.crewNo).bar b).p = false)
    (hn : x.nSlices ≤ ((s.ceng x.crewNo).bar b).room) (hb : bindsOf s x.crewNo x.gang.ix b < 4) :
    exec (.bard c b) s = .next (finish x (.done (bardEffect s x b))) :=
  exec_trans (exec_bard hi hr) ((arrival_of_room hv hp hn).trans (if_neg (Nat.not_le.2 hb)))

/-- The copies of the gang on a barrier that no BARD has bound. -/
def unboundOn (s : State) (x : Cx) (k : Nat) : Nat := smGet 0 (s.ceng x.crewNo).unbound (ubKey x.gang.ix k)

/-- Where every unbound copy is of its own chain, a BARD is an arrival. -/
theorem bardEffect_of_no_copy {k : Nat} (h : unboundOn s x k ≤ chainBound s x k) :
    bardEffect s x k = s.fresh.modBar x.crewNo k (fun v => { v with arr := v.arr - x.nSlices }) :=
  if_pos (Nat.sub_eq_zero_of_le h)

/-- Otherwise it binds the copies of older chains and defers its arrivals to them. -/
theorem bardEffect_of_copies {k : Nat} (h : chainBound s x k < unboundOn s x k) : ∃ e : State,
    bardEffect s x k = e.modBar x.crewNo k (fun v => { v with arr := v.arr - x.nSlices, dp := v.dp + x.nSlices }) ∧
    e.mem = s.mem ∧
    e.eng.copies = s.eng.copies.map (fun p => if x.newer p.1 then p else boundCopy x.cur.gang k (s.work.next + 1) p) ∧
    e.ceng x.crewNo = { s.ceng x.crewNo with
      unbound := smPut 0 (s.ceng x.crewNo).unbound (ubKey x.gang.ix k) (chainBound s x k),
      binds := (s.ceng x.crewNo).binds ++ [{ gang := x.gang.ix, bar := k, copies := unboundOn s x k - chainBound s x k,
                                             arrivals := x.nSlices, num := s.work.next + 1 }] } :=
  ⟨_, if_neg (Nat.sub_ne_zero_of_lt h), rfl, rfl, (State.ceng_modCeng ..).trans (if_pos rfl)⟩

/-! ### BEXP (R272, R288) -/

/-- What an expectation of `n` bytes at barrier `b` comes to. -/
def expecting (s : State) (x : Cx) (b n : Nat) : Res :=
  if !((s.ceng x.crewNo).bar b).i || !((s.ceng x.crewNo).bar b).bc then .trap s (barTrap x .barUninit b)
  else if ((s.ceng x.crewNo).bar b).p then .trap s (barTrap x .barPoisoned b)
  else if 8388607 < ((s.ceng x.crewNo).bar b).txb + n then .trap s (barTrap x .barTxOverrun b)
  else .done (s.modBar x.crewNo b (fun v => { v with txb := v.txb + n, xa := v.xa || (v.t && !v.td) }.unitArrives))

theorem expecting_of_room {k n : Nat} (hv : ((s.ceng x.crewNo).bar k).i = true) (hb : ((s.ceng x.crewNo).bar k).bc = true)
    (hp : ((s.ceng x.crewNo).bar k).p = false) (hn : ((s.ceng x.crewNo).bar k).txb + n ≤ 8388607) :
    expecting s x k n =
      .done (s.modBar x.crewNo k (fun v => { v with txb := v.txb + n, xa := v.xa || (v.t && !v.td) }.unitArrives)) := by
  rw [expecting, hv, hb, hp]
  exact if_neg (Nat.not_lt.2 hn)

theorem exec_bexp (hi : Issues s x (.bexp c b r)) :
    exec (.bexp c b r) s = .next (finish x (expecting s x b (x.s r).toNat)) := exec_of_issues hi (by rfl) rfl

/-! ### BWAIT (R274, R289) -/

theorem heldOr_of_first (l : List Nat) (h : x.cur.retry = false) : x.heldOr l = l := by
  rw [Cx.heldOr, held_of_not_retry h]
  rfl

theorem heldOr_of_held {a : Nat} {l : List Nat} (as : List Nat) (h : x.held = a :: l) : x.heldOr as = a :: l := by
  rw [Cx.heldOr, h]
  rfl

/-- A wait whose barrier is in order goes on where the phase has left its token. -/
theorem bwaitBody_of_sound {k d tok : Nat} (htok : x.heldOr [((x.s d).extractLsb' 0 8).toNat] = [tok])
    (hburst : x.cur.retry = true → ∀ j ∈ grpSlices x.cur.grp, ((x.gang.slice j).block.any (fun w => w.burst)) = false)
    (hv : ((s.ceng x.crewNo).bar k).i = true) (hp : ((s.ceng x.crewNo).bar k).p = false) (hc : ((s.ceng x.crewNo).bar k).ce = 0) :
    bwaitBody k d s x = if ((s.ceng x.crewNo).bar k).ph = BitVec.ofNat 8 tok then .block (waitOn (keepArgs s x [tok]) x k)
      else .done (s.putS x d ((((s.ceng x.crewNo).bar k).ph - BitVec.ofNat 8 tok).zeroExtend 32)) := by
  have hover : (x.cur.retry && ((grpSlices x.cur.grp).any (fun j => ((x.gang.slice j).block.map (fun w => w.burst)).getD false) ||
      false)) = false := by
    cases ht : x.cur.retry with
    | false => rfl
    | true =>
      rw [Bool.true_and, Bool.or_false, List.any_eq_false]
      intro j hj
      have hj := hburst ht j hj
      cases hb : (x.gang.slice j).block <;> simp_all
  have hleft (u v : BitVec 8) : u - v = 0 ↔ u = v := by bv_omega
  simp only [bwaitBody, htok, hv, hp, hc, hover, hleft, List.headD_cons, Bool.not_true, Bool.false_eq_true, if_false, if_true]

/-- At its first issue the token is that of its operand. -/
theorem bwaitBody_of_first {k d : Nat} (ht : x.cur.retry = false) (hv : ((s.ceng x.crewNo).bar k).i = true)
    (hp : ((s.ceng x.crewNo).bar k).p = false) (hc : ((s.ceng x.crewNo).bar k).ce = 0) :
    bwaitBody k d s x = if ((s.ceng x.crewNo).bar k).ph = (x.s d).extractLsb' 0 8 then
        .block (waitOn (keepArgs s x [((x.s d).extractLsb' 0 8).toNat]) x k)
      else .done (s.putS x d ((((s.ceng x.crewNo).bar k).ph - (x.s d).extractLsb' 0 8).zeroExtend 32)) := by
  have h := bwaitBody_of_sound (d := d) (heldOr_of_first _ ht) (fun h => absurd (ht.symm.trans h) Bool.false_ne_true) hv hp hc
  rwa [BitVec.ofNat_toNat, BitVec.setWidth_eq] at h

end Words

/-- Settles O27: the phase test by its definition, then each word's answer by its checks. -/
theorem barrierRegisterWords : Obligations.BarrierRegisterWords := by
  unfold Obligations.BarrierRegisterWords
  refine ⟨fun v => ⟨fun hi hp ha hd ht => tryComplete_of_complete ⟨hi, hp, ha, hd, ht⟩, tryComplete_of_not_complete⟩,
    fun s x c b r => ⟨fun h hn ht => ?_, fun h hr hv hp hn => ?_, fun h hr hv hp hn hb => ⟨fun hf => ?_, fun hf => ?_⟩,
      fun h hv hb hp hn => ?_, fun h ht hv hp hc hph => ?_, fun h ht hv hp hc hph => ?_,
      fun tok h ht hk hv hp hc hb hph => ?_, fun h => ?_⟩⟩
  · obtain ⟨e, hexec, hbar, hbinds⟩ := exec_binit h hn ht
    refine ⟨_, hexec, ?_, fun k hk => ?_, ?_⟩
    · rw [bar_finish_modBar, if_pos rfl, tryComplete_initialised hn, initialised_eq, hbar]
    · rw [bar_finish_modBar, if_neg hk, hbar]
    · rw [finish_ceng]
      exact fun p hp => hbinds p (congrArg CrewEng.binds (ceng_modBar_same e x.crewNo b _) ▸ hp)
  · exact exec_trans (exec_barr h hr) (arrival_of_room hv hp hn)
  · exact exec_trans (exec_bard_of_room h hr hv hp hn hb) (congrArg Res.done (bardEffect_of_no_copy hf))
  · obtain ⟨e, he, hmem, hcopies, hceng⟩ := bardEffect_of_copies hf
    have hnow := ceng_modBar_same e x.crewNo b (fun v => { v with arr := v.arr - x.nSlices, dp := v.dp + x.nSlices })
    rw [hceng] at hnow
    refine ⟨_, exec_trans (exec_bard_of_room h hr hv hp hn hb) (congrArg Res.done he), hmem, ?_, ?_, ?_, hcopies⟩
    · rw [hnow, bar_setBar, if_pos rfl]
      rfl
    · rw [hnow]
      exact (smGet_smPut ..).trans (if_pos rfl)
    · rw [hnow]
      rfl
  · exact exec_trans (exec_bexp h) (expecting_of_room hv hb hp hn)
  · exact exec_of_issues h (by rfl) ((bwaitBody_of_first ht hv hp hc).trans (if_neg hph))
  · exact exec_of_issues h (by rfl) ((bwaitBody_of_first ht hv hp hc).trans (if_pos hph))
  · exact exec_of_issues h (by rfl) ((bwaitBody_of_sound (heldOr_of_held _ hk) (fun _ => hb) hv hp hc).trans (if_neg hph))
  · exact MatrixProofs.doesS_of_putS h (by rfl) rfl

end Sys2Proof.BarrierProofs
end

section
/-! PROOFS. Where barrier, queue and bucket words trap, and the samples of STQ (O28). -/

namespace Sys2Proof.BarrierProofs
open Sys2Proof Sys2Proof.Machine Sys2Proof.ControlProofs Sys2Proof.MemoryProofs Sys2Proof.AtomicProofs

section Words
variable {s : State} {x : Cx} {c : Bool}

/-! ### Barrier register words (R271, R272, R274, R285 to R289) -/

section Barriers
variable {b : Fin 16} {r : Fin 64}

theorem exec_binit_of_bad (hi : Issues s x (.binit c b r))
    (h : (x.s r).toNat % 4096 = 0 ∨ (x.s r).getLsbD 12 = true ∧ (x.s r).getLsbD 13 = false) :
    exec (.binit c b r) s = .next (finish x (.trap s (barTrap x .barUninit b))) := by
  have hbad : (fld (x.s r).toNat 0 12 = 0 || ((x.s r).getLsbD 12 && !(x.s r).getLsbD 13)) = true := by
    rw [IntegerProofs.fld_zero]
    simpa using h
  exact exec_of_issues hi (by rfl) (if_pos hbad)

/-- BARR and BARD make the checks of an arrival once their release is performed. -/
theorem exec_arrival {i : Instr} (hi : i = .barr c b ∨ i = .bard c b) (h : Issues s x i)
    (hr : release s x.cur.gang x.core x.dom x.cur.grp false = .ok) :
    ∃ go, exec i s = .next (finish x (arrival s x b go)) := by
  rcases hi with rfl | rfl
  · exact ⟨_, exec_barr h hr⟩
  · exact ⟨_, exec_bard h hr⟩

theorem expecting_of_uninit {k n : Nat} (h : ((s.ceng x.crewNo).bar k).i = false ∨ ((s.ceng x.crewNo).bar k).bc = false) :
    expecting s x k n = .trap s (barTrap x .barUninit k) :=
  if_pos (by simpa using h)

section Init
variable {k n : Nat} (hv : ((s.ceng x.crewNo).bar k).i = true) (hb : ((s.ceng x.crewNo).bar k).bc = true)
include hv hb

theorem expecting_of_poisoned (hp : ((s.ceng x.crewNo).bar k).p = true) :
    expecting s x k n = .trap s (barTrap x .barPoisoned k) := by
  rw [expecting, hv, hb, hp]
  rfl

theorem expecting_of_overrun (hp : ((s.ceng x.crewNo).bar k).p = false) (hn : 8388607 < ((s.ceng x.crewNo).bar k).txb + n) :
    expecting s x k n = .trap s (barTrap x .barTxOverrun k) := by
  rw [expecting, hv, hb, hp]
  exact if_pos hn

end Init

/-- A wait whose barrier was poisoned meanwhile. -/
theorem bwaitBody_of_overrun {k d : Nat} (ht : x.cur.retry = true) (hp : ((s.ceng x.crewNo).bar k).p = true) :
    bwaitBody k d s x = .trap s (barTrap x .barTxOverrun k) :=
  if_pos (by rw [ht, hp, Bool.or_true]; rfl)

section First
variable {k d : Nat} (ht : x.cur.retry = false)
include ht

theorem bwaitBody_of_uninit (hv : ((s.ceng x.crewNo).bar k).i = false) :
    bwaitBody k d s x = .trap s (barTrap x .barUninit k) := by
  simp [bwaitBody, ht, hv]

theorem bwaitBody_of_poisoned (hv : ((s.ceng x.crewNo).bar k).i = true) (hp : ((s.ceng x.crewNo).bar k).p = true) :
    bwaitBody k d s x = .trap s (barTrap x .barPoisoned k) := by
  simp [bwaitBody, ht, hv, hp]

/-- An error that the barrier has recorded is raised and cleared (R274). -/
theorem bwaitBody_of_recorded {e : Cause} (hv : ((s.ceng x.crewNo).bar k).i = true) (hp : ((s.ceng x.crewNo).bar k).p = false)
    (hc : ((s.ceng x.crewNo).bar k).ce ≠ 0) (he : causeOf ((s.ceng x.crewNo).bar k).ce.toNat = some e) :
    bwaitBody k d s x = .trap
      (s.modCeng x.crewNo (fun v => v.setBar k { (s.ceng x.crewNo).bar k with ce := 0, info := 0, addr := 0 }))
      { cause := e, lanes := x.all, addr := ((s.ceng x.crewNo).bar k).addr, detail := ((s.ceng x.crewNo).bar k).info,
        kind := .async } := by
  simp only [bwaitBody, ht, hv, hp, if_neg hc, he, Bool.false_and, Bool.not_true, Bool.false_eq_true, if_false]

end First

end Barriers

/-! ### Queue words (R300, R305 to R310) -/

section Queues
variable {q : Fin 16} {a b : Fin 64}

theorem getLsbD_31_iff (w : Word) : w.getLsbD 31 = true ↔ 2 ^ 31 ≤ w.toNat := by
  have h := BitVec.msb_eq_decide w
  rw [BitVec.msb_eq_getLsbD_last] at h
  exact (congrArg (· = true) h).to_iff.trans decide_eq_true_iff

/-- A QINIT's trap for the Pound offset that it reads. -/
def offsetTrap (x : Cx) (off : Word) (e : Cause) : TrapReq := { cause := e, lanes := x.all, detail := 1, addr := off.zeroExtend 64 }

theorem exec_qinit_of_misaligned (hi : Issues s x (.qinit c q a b)) (h : (x.s a).toNat % 4 ≠ 0) :
    exec (.qinit c q a b) s = .next (finish x (.trap s (offsetTrap x (x.s a) .misalign))) :=
  exec_of_issues hi (by rfl) (if_pos h)

theorem exec_qinit_of_queue (hi : Issues s x (.qinit c q a b)) (h : (x.s a).toNat % 4 = 0) (hq : (x.s b).toNat < 2 ^ 31) :
    exec (.qinit c q a b) s = .next (finish x (qinitQueue q (x.s a) ((x.s b).toNat % 4096) s x)) := by
  have hform : ¬ (x.s b).getLsbD 31 = true := fun hb => Nat.not_le.2 hq ((getLsbD_31_iff _).1 hb)
  refine exec_of_issues hi (by rfl) ((if_neg (not_not_intro h)).trans ((if_neg hform).trans ?_))
  exact congrArg (fun n => qinitQueue q (x.s a) n s x) (IntegerProofs.fld_zero _ 12)

theorem exec_qinit_of_pool (hi : Issues s x (.qinit c q a b)) (h : (x.s a).toNat % 4 = 0) (hq : 2 ^ 31 ≤ (x.s b).toNat) :
    exec (.qinit c q a b) s = .next (finish x (qinitPool (x.s a) ((x.s b).toNat % 512) s x)) := by
  refine exec_of_issues hi (by rfl) ((if_neg (not_not_intro h)).trans ((if_pos ((getLsbD_31_iff _).2 hq)).trans ?_))
  exact congrArg (fun n => qinitPool (x.s a) n s x) (IntegerProofs.fld_zero _ 9)

theorem qinitQueue_of_zero {k : Nat} {off : Word} : qinitQueue k off 0 s x = .trap s (queTrap x .qUninit k) := rfl

theorem qinitQueue_of_limit {k cap : Nat} {off : Word} (h0 : cap ≠ 0) (h : (x.src.r.rdSeg 1).limit.toNat < off.toNat + 4 * cap) :
    qinitQueue k off cap s x = .trap s (offsetTrap x off .segLimit) :=
  (if_neg h0).trans (if_pos h)

theorem qinitPool_of_bad {n : Nat} {off : Word} (h : 256 < n ∨ (s.ceng x.crewNo).lentPool ≠ []) :
    qinitPool off n s x = .trap s (queTrap x .qUninit 0) :=
  if_pos (by simpa using h)

theorem qinitPool_of_limit {n : Nat} {off : Word} (hn : n ≤ 256) (hl : (s.ceng x.crewNo).lentPool = [])
    (h : (x.src.r.rdSeg 1).limit.toNat < off.toNat + 4 * n) : qinitPool off n s x = .trap s (offsetTrap x off .segLimit) :=
  (if_neg (by simp [hl, hn])).trans (if_pos h)

theorem queOk_of_uninit {k : Nat} {body : Res} (h : ((s.ceng x.crewNo).que k).i = false) :
    queOk s x k body = .trap s (queTrap x .qUninit k) := by
  rw [queOk, h]
  rfl

theorem queOk_of_init {k : Nat} {body : Res} (h : ((s.ceng x.crewNo).que k).i = true) : queOk s x k body = body := by
  rw [queOk, h]
  rfl

/-- Every queue word asks first that its queue is initialised. -/
theorem exec_eq_queOk {i : Instr} (hi : i ∈ [Instr.qpush c q a, .qpop c q a, .qtry c q a b, .qalw c q a b]) (h : Issues s x i)
    (hr : i = .qpush c q a → x.cur.retry = false → release s x.cur.gang x.core x.dom x.cur.grp false = .ok) :
    ∃ body, exec i s = .next (finish x (queOk s x q body)) := by
  simp only [List.mem_cons, List.not_mem_nil, or_false] at hi
  rcases hi with rfl | rfl | rfl | rfl
  · refine ⟨_, exec_of_issues h (by rfl) (r := qpushBody q a s x) ?_⟩
    cases ht : x.cur.retry with
    | true => exact if_pos rfl
    | false => exact (if_neg Bool.false_ne_true).trans (afterRelease_of_ok (hr rfl ht))
  · exact ⟨_, exec_of_issues h (by rfl) (r := qpopBody q a s x) rfl⟩
  · exact ⟨_, exec_of_issues h (by rfl) (r := qtryBody q a b s x) rfl⟩
  · exact ⟨_, exec_of_issues h (by rfl) rfl⟩

/-- A pop, an allowance and a try to pop are the owner's (R300). -/
theorem exec_of_other_owner {i : Instr}
    (hi : (i = .qpop c q a ∧ x.held = []) ∨ (i = .qtry c q a b ∧ (x.s b).toNat % 2 = 0) ∨ i = .qalw c q a b) (h : Issues s x i)
    (hv : ((s.ceng x.crewNo).que q).i = true) (ho : ((s.ceng x.crewNo).que q).own ≠ x.gang.ix) :
    exec i s = .next (finish x (.trap s (queTrap x .qOwner q))) := by
  rcases hi with ⟨rfl, hh⟩ | ⟨rfl, hb⟩ | rfl
  · have hother : (x.held.isEmpty && decide (((s.ceng x.crewNo).que q).own ≠ x.gang.ix)) = true := by simp [hh, ho]
    exact exec_of_issues h (by rfl) ((queOk_of_init hv).trans (if_pos hother))
  · have hpop : (!(x.s b).getLsbD 0) = true := by
      simp [BitVec.getLsbD, Nat.testBit_zero, hb]
    exact exec_of_issues h (by rfl) ((queOk_of_init hv).trans ((if_pos hpop).trans (if_pos ho)))
  · exact exec_of_issues h (by rfl) ((queOk_of_init hv).trans (if_pos ho))

theorem exec_qalw_of_negative (h : Issues s x (.qalw c q a b)) (hv : ((s.ceng x.crewNo).que q).i = true)
    (ho : ((s.ceng x.crewNo).que q).own = x.gang.ix)
    (hn : (((s.ceng x.crewNo).que q).allowance ((x.s b).toNat % 64) : Int) + (x.s a).toInt < 0) :
    exec (.qalw c q a b) s = .next (finish x (.trap s (queTrap x .qAllowNeg q))) := by
  rw [← fld_zero_six] at hn
  exact exec_of_issues h (by rfl) ((queOk_of_init hv).trans ((if_neg (not_not_intro ho)).trans (if_pos hn)))

end Queues

/-! ### STQ (R413 to R415, R426) -/

section Stq
variable {d a b : Fin 64} {l : Fin 16}

theorem exec_stq_of_bad (hi : Issues s x (.stq c d a b l)) (h : stqBad s x a (x.s b) ≠ 0) :
    exec (.stq c d a b l) s = .next (finish x (.trap s { cause := .gxStqArg, lanes := stqBad s x a (x.s b) })) :=
  exec_of_issues hi (by rfl) (if_pos h)

/-- The package address of the record that STQ names. -/
def stqRecord (s : State) (x : Cx) (w : Word) : Nat :=
  poundAddr x.core ((segOf s x.dom x.hnd x.src.r 1).base.toNat + w.toNat)

/-- The two registers of lane `i` that STQ writes, from the record at `pa`. -/
def stqWord (s : State) (x : Cx) (a pa i k : Nat) : Word :=
  if k = 0 then (stqLane (getWords s.mem pa 28) (laneSmp x a i)).1 else (stqLane (getWords s.mem pa 28) (laneSmp x a i)).2

theorem stqWord_zero (a pa i : Nat) : stqWord s x a pa i 0 = (stqLane (getWords s.mem pa 28) (laneSmp x a i)).1 := if_pos rfl

theorem stqWord_one (a pa i : Nat) : stqWord s x a pa i 1 = (stqLane (getWords s.mem pa 28) (laneSmp x a i)).2 :=
  if_neg Nat.one_ne_zero

/-- The registers after STQ. -/
def stqRegs (s : State) (x : Cx) (d a pa : Nat) (f : Regs) : Regs :=
  f.putV (x.lanes.flatMap (fun i => (List.range 2).map (fun k => (vkey (d + k) i, stqWord s x a pa i k))))

section Sound
variable (hi : Issues s x (.stq c d a b l)) (h : stqBad s x a (x.s b) = 0) (hs : scoreHit s (stqRecord s x (x.s b)) 112 = false)
  (hp : ∀ k, k < 28 → isPoison s.poison (stqRecord s x (x.s b) + 4 * k) = false)
include hi h hs hp

theorem exec_stq_of_clean : exec (.stq c d a b l) s =
    .next (finish x (.done (s.modRegs x (stqRegs s x d a (stqRecord s x (x.s b)))))) := by
  have hclean : (List.range 28).find? (fun k => isPoison s.poison (stqRecord s x (x.s b) + 4 * k)) = none :=
    List.find?_eq_none.2 fun k hk => by simp [hp k (List.mem_range.1 hk)]
  unfold stqRecord at hs hclean
  refine exec_of_issues hi (by rfl) ?_
  simp only [h, hs, hclean, ne_eq, not_true_eq_false, Bool.false_eq_true, if_false, ← stqWord_zero, ← stqWord_one]
  rfl

theorem doesV_stq : DoesV s x (.stq c d a b l) (fun r i => if i ∈ x.lanes ∧ d.val ≤ r ∧ r < d.val + 2 then
    some (stqWord s x a (stqRecord s x (x.s b)) i (r - d.val)) else none) := by
  refine ⟨_, stqRegs s x d a (stqRecord s x (x.s b)) x.gang.r, exec_stq_of_clean hi h hs hp,
    onlyRegs_of s _ x (stqRegs s x d a (stqRecord s x (x.s b))) hi.ctx (finish_still x _), fun r i hl => ?_, rfl⟩
  rw [stqRegs, rdV_putV_regs hl x.lanes_lt]
  beta_reduce
  split <;> rfl

end Sound

end Stq

/-! ### Bucket words (R421) -/

section Buckets

/-- BKDONE and BKSPL ask first for a pending error, then for a bucket. -/
theorem exec_eq_bktWaits {a : Fin 64} {i : Instr} (hi : i = .bkdone c a ∨ i = .bkspl c a) (h : Issues s x i) :
    ∃ body, exec i s = .next (finish x (bktWaits s x 0 (.done s) body)) := by
  rcases hi with rfl | rfl
  · exact ⟨_, exec_of_issues h (by rfl) rfl⟩
  · exact ⟨_, exec_of_issues h (by rfl) rfl⟩

variable {k : Nat} {gone : Res} {body : Nat → Bucket → Res} (ht : x.cur.retry = false)
include ht

/-- A pending bucket error is raised and cleared. -/
theorem bktWaits_of_error {e : AErr} (h : (s.ceng x.crewNo).bkt.err = some e) : bktWaits s x k gone body =
    asyncTrap (s.modCeng x.crewNo (fun v => { v with bkt := { v.bkt with err := none } })) x e := by
  simp only [bktWaits, held_of_not_retry ht, List.isEmpty_nil, if_true, bkFirst, h]

theorem bktWaits_of_no_bucket (h : (s.ceng x.crewNo).bkt.err = none) (hc : (s.ceng x.crewNo).bkt.cur = none) :
    bktWaits s x k gone body = .trap s (noBucket x k) := by
  simp only [bktWaits, held_of_not_retry ht, List.isEmpty_nil, if_true, bkFirst, h, curBkt, hc]
  rfl

end Buckets

end Words

/-- Settles O28: each trap from the check that raises it, and STQ's registers from the record that it reads. -/
theorem unitTraps : Obligations.UnitTraps := by
  unfold Obligations.UnitTraps
  refine ⟨fun s x c b r => ⟨fun h hb => exec_binit_of_bad h hb, fun i hi h hr => ?_, fun h hv hb hp hn => ?_, fun h hv => ?_,
      fun h hv hb hp => ?_, fun h ht hv => ?_, fun h ht hv hp => ?_, fun h ht hp => ?_, fun e h ht hv hp hc he => ?_⟩,
    fun s x c q a b => ⟨fun h => ⟨fun ha => exec_qinit_of_misaligned h ha, fun ha hf h0 => ?_, fun ha hf h0 hl => ?_,
        fun ha hf hbad => ?_, fun ha hf hn hp hl => ?_⟩,
      fun i hi h hr hv => ?_, fun i hi h hv ho => exec_of_other_owner hi h hv ho,
      fun h hv ho hn => exec_qalw_of_negative h hv ho hn⟩,
    fun s x c d a b l h hbad => exec_stq_of_bad h hbad, fun s x c d a b l h hok hs hp => ?_,
    fun s x c a i hi h ht => ⟨fun he hc => ?_, fun e he => ?_⟩⟩
  · obtain ⟨go, hgo⟩ := exec_arrival hi h hr
    exact ⟨fun hv => exec_trans hgo (arrival_of_uninit hv), fun hv hp => exec_trans hgo (arrival_of_poisoned hv hp),
      fun hv hp hn => exec_trans hgo (arrival_of_overrun hv hp hn)⟩
  · exact exec_trans (exec_bexp h) (expecting_of_overrun hv hb hp hn)
  · exact exec_trans (exec_bexp h) (expecting_of_uninit hv)
  · exact exec_trans (exec_bexp h) (expecting_of_poisoned hv hb hp)
  · exact exec_of_issues h (by rfl) (bwaitBody_of_uninit ht hv)
  · exact exec_of_issues h (by rfl) (bwaitBody_of_poisoned ht hv hp)
  · exact exec_of_issues h (by rfl) (bwaitBody_of_overrun ht hp)
  · exact exec_of_issues h (by rfl) (bwaitBody_of_recorded ht hv hp hc he)
  · exact exec_trans (exec_qinit_of_queue h ha hf) (h0 ▸ qinitQueue_of_zero)
  · exact exec_trans (exec_qinit_of_queue h ha hf) (qinitQueue_of_limit h0 hl)
  · exact exec_trans (exec_qinit_of_pool h ha hf) (qinitPool_of_bad hbad)
  · exact exec_trans (exec_qinit_of_pool h ha hf) (qinitPool_of_limit hn hp hl)
  · obtain ⟨body, hbody⟩ := exec_eq_queOk hi h hr
    exact exec_trans hbody (queOk_of_uninit hv)
  · have hregs := doesV_stq h hok hs hp
    have hlanes (r i : Nat) : (if i ∈ x.lanes ∧ d.val ≤ r ∧ r < d.val + 2 then
        some (stqWord s x a (stqRecord s x (x.s b)) i (r - d.val)) else none) = if i ∈ x.lanes then
          (if r = d.val then some (stqWord s x a (stqRecord s x (x.s b)) i 0)
           else if r = d.val + 1 then some (stqWord s x a (stqRecord s x (x.s b)) i 1) else none) else none := by
      by_cases h0 : r = d.val
      · simp [h0]
      · by_cases h1 : r = d.val + 1
        · simp [h1]
        · have hout : ¬ (d.val ≤ r ∧ r < d.val + 2) := by omega
          simp [h0, h1, hout]
    simp only [hlanes, stqWord_zero, stqWord_one] at hregs
    exact hregs
  · obtain ⟨body, hbody⟩ := exec_eq_bktWaits hi h
    exact exec_trans hbody (bktWaits_of_no_bucket ht he hc)
  · obtain ⟨body, hbody⟩ := exec_eq_bktWaits hi h
    exact exec_trans hbody (bktWaits_of_error ht he)

end Sys2Proof.BarrierProofs
end

section
/-! PROOFS. The words of barriers in memory (O29): the request that a word sends and the answer that it takes, then the words. -/

namespace Sys2Proof.BarrierProofs
open Sys2Proof Sys2Proof.Machine Sys2Proof.ControlProofs Sys2Proof.MemoryProofs Sys2Proof.AtomicProofs

/-! ### Nothing to push -/

theorem pushLine_of_clean {s : State} {c g dom l : Nat} {ws : BitVec 16} (h : (s.l1 c l).looseWords &&& ws = 0) :
    pushLine s c g dom l ws = s :=
  if_pos ((BitVec.and_comm ..).trans h)

theorem pushFor_of_clean {s : State} {x : Cx} {pol : Nat} {ps : List Nat} (hpol : pol ≠ 3)
    (h : ∀ a ∈ ps, (s.l1 x.core (lineOf a)).looseWords &&& secBits (wordIx a / 4) = 0) : pushFor s x pol ps = s := by
  induction ps with
  | nil => rfl
  | cons a ps ih =>
    have hhead : pushFor s x pol (a :: ps) = pushFor s x pol ps := by
      simp only [pushFor, List.foldl_cons, pushLine_of_clean (h a List.mem_cons_self), hpol, if_false]
    exact hhead.trans (ih fun b hb => h b (List.mem_cons_of_mem a hb))

section Forms
variable {s : State} {x : Cx}

/-! ### A memory form's request (R277, R283) -/

/-- The words of the object at `pa`, in its line. -/
def objWords (pa : Nat) : BitVec 16 := (List.range 8).foldl (fun m k => m ||| wordBit (wordIx pa + k)) 0

/-- A form whose object passes the checks, with none of the object's words on their way or unpushed. -/
structure Clear (s : State) (x : Cx) (off : DWord) (pa : Nat) : Prop where
  free : mustWait s x (lineOf pa) (objWords pa) true false true = false
  clean : ∀ a, a = pa ∨ a = pa + 16 → (s.l1 x.core (lineOf a)).looseWords &&& secBits (wordIx a / 4) = 0
  check : objCheck s x off = .ok pa

section First
variable {off : DWord} {pa : Nat} {bar : List Nat} {fin : State → Word → Bool → Res} (h : Clear s x off pa)
include h

theorem barSend_of_clear : barSend s x off pa bar = .block (keepArgs (barReq s x off pa bar) x (off.toNat :: bar)) := by
  have hclean : ∀ a ∈ [pa, pa + 16], (s.l1 x.core (lineOf a)).looseWords &&& secBits (wordIx a / 4) = 0 := by
    simpa using h.clean
  have hpush : pushFor s x 1 [pa, pa + 16] = s := pushFor_of_clean (by decide) hclean
  have hfree := h.free
  unfold objWords at hfree
  simp only [barSend, hfree, hpush, Bool.false_eq_true, if_false]

/-- At its first issue a memory form sends its request and keeps the operands that it read. -/
theorem barMem_of_first (ht : x.cur.retry = false) :
    barMem s x off bar fin = .block (keepArgs (barReq s x off pa bar) x (off.toNat :: bar)) := by
  have hoff : BitVec.ofNat 64 off.toNat = off := (BitVec.ofNat_toNat 64 off).trans (BitVec.setWidth_eq off)
  simp only [barMem, ht, heldOr_of_first _ ht, List.headD_cons, List.tail_cons, hoff, h.check, Bool.false_eq_true, if_false,
    barSend_of_clear h]

end First

/-! ### Its answer (R277) -/

/-- The group's answer is the reply `p`, at `k`: the operation's value, and no error. -/
structure Answered (s : State) (x : Cx) (k : Nat) (p : Reply) : Prop where
  retry : x.cur.retry = true
  mine : myBarReply s x = some (k, p)
  arrives : s.arriving k = some p
  data : p.kind = .data
  good : p.bad = none

/-- The value that a barrier's answer carries. -/
def barValue (p : Reply) : Word := (p.res.map (fun q => loW q.2)).headD 0

/-- A memory form whose answer has arrived takes it and goes on with its value. -/
theorem barMem_of_answered {k : Nat} {p : Reply} {off : DWord} {bar : List Nat} {fin : State → Word → Bool → Res}
    (h : Answered s x k p) : barMem s x off bar fin = fin (s.takeReply k) (barValue p) p.wide := by
  obtain ⟨hretry, hmine, harrives, hdata, hgood⟩ := h
  simp only [barMem, hretry, if_true, barAnswer, hmine, harrives, hdata, hgood, Option.isNone_some, Bool.false_eq_true, if_false]
  rfl

/-! ### BINIT (R285) -/

section Binit
variable {c : Bool} {sc : Fin 32} {b r : Fin 64} {m : BitVec 192} (hi : Issues s x (.binitMem c sc b r))
  (hm : x.scopeSet s sc = some m) (hex : (x.s r).toNat % 4096 ≠ 0)
include hi hm hex

/-- A BINIT with a scope and a count, not yet waiting, is a memory form with them as operands. -/
theorem exec_binitMem_of_not_held (hh : x.held = []) : exec (.binitMem c sc b r) s = .next (finish x
    (barMem s x (x.s2 b) [0, (x.s r).toNat % 4096, sc, m.toNat, x.cur.grp.toNat] (fun st _ _ => .done st))) := by
  have hcount : fld (x.s r).toNat 0 12 = (x.s r).toNat % 4096 := IntegerProofs.fld_zero _ 12
  refine exec_of_issues hi (by rfl) ?_
  simp only [hh, List.isEmpty_nil, Bool.not_true, Bool.false_eq_true, if_false, hm, hcount, hex]

theorem exec_binitMem_of_answered {k : Nat} {p : Reply} (h : Answered s x k p) :
    exec (.binitMem c sc b r) s = .next (finish x (.done (s.takeReply k))) := by
  by_cases hh : x.held = []
  · exact exec_trans (exec_binitMem_of_not_held hi hm hex hh) (barMem_of_answered h)
  · have hheld : (!x.held.isEmpty) = true := by simpa using hh
    exact exec_of_issues hi (by rfl) ((if_pos hheld).trans (barMem_of_answered h))

end Binit

/-! ### BARR, BWAIT and BTEST (R286, R289, R290) -/

section Words
variable {c : Bool} {b r : Fin 64}

/-- What BARR's arrival comes to. -/
def barrMemBody (s : State) (x : Cx) (b : Nat) : Res :=
  barMem s x (x.s2 b) [1, x.nSlices, 0, 0, x.cur.grp.toNat] (fun st _ _ => .done st)

theorem exec_barrMem_of_released (hi : Issues s x (.barrMem c b))
    (hr : release s x.cur.gang x.core x.dom x.cur.grp (objWide s x b) = .ok) :
    exec (.barrMem c b) s = .next (finish x (barrMemBody s x b)) := by
  have hrel : afterRelease s x (objWide s x b) (barrMemBody s x b) = barrMemBody s x b := afterRelease_of_ok hr
  exact exec_of_issues hi (by rfl) ((congrArg (ite _ _) hrel).trans (ite_self _))

/-- A BARR that waits has made its release already. -/
theorem exec_barrMem_of_retry (hi : Issues s x (.barrMem c b)) (ht : x.cur.retry = true) :
    exec (.barrMem c b) s = .next (finish x (barrMemBody s x b)) :=
  exec_of_issues hi (by rfl) (if_pos ht)

theorem exec_bwaitMem (hi : Issues s x (.bwaitMem c b r)) : exec (.bwaitMem c b r) s = .next (finish x
    (barMem s x (x.s2 b) [2, (x.s r).toNat % 256, 0, 0, x.cur.grp.toNat]
      (fun st d wide => .done (acquire (st.putS x r d) x.core wide)))) := by
  rw [← FloatProofs.fld_zero_eight]
  exact exec_of_issues hi (by rfl) rfl

theorem exec_btestMem (hi : Issues s x (.btestMem c b r)) : exec (.btestMem c b r) s = .next (finish x
    (barMem s x (x.s2 b) [3, 0, 0, 0, x.cur.grp.toNat] (fun st v _ => .done (st.putS x r v)))) :=
  exec_of_issues hi (by rfl) rfl

end Words

end Forms

/-- Settles O29: each word is a memory form, which sends at its first issue and takes its answer later. -/
theorem barrierMemoryWords : Obligations.BarrierMemoryWords := by
  unfold Obligations.BarrierMemoryWords
  intro s x c sc b r pa k p m
  refine ⟨fun hm hex => ⟨fun hi ht ⟨hfree, hclean, hcheck⟩ => ?_, fun hi ht hk ha hd hb => ?_⟩,
    fun hr hi ht ⟨hfree, hclean, hcheck⟩ => ?_, fun hi ht hk ha hd hb => ?_,
    fun hi ht ⟨hfree, hclean, hcheck⟩ => ?_, fun hi ht hk ha hd hb => ?_,
    fun hi ht ⟨hfree, hclean, hcheck⟩ => ?_, fun hi ht hk ha hd hb => ?_⟩
  · exact exec_trans (exec_binitMem_of_not_held hi hm hex (held_of_not_retry ht)) (barMem_of_first ⟨hfree, hclean, hcheck⟩ ht)
  · exact exec_binitMem_of_answered hi hm hex ⟨ht, hk, ha, hd, hb⟩
  · exact exec_trans (exec_barrMem_of_released hi hr) (barMem_of_first ⟨hfree, hclean, hcheck⟩ ht)
  · exact exec_trans (exec_barrMem_of_retry hi ht) (barMem_of_answered ⟨ht, hk, ha, hd, hb⟩)
  · exact exec_trans (exec_bwaitMem hi) (barMem_of_first ⟨hfree, hclean, hcheck⟩ ht)
  · exact exec_trans (exec_bwaitMem hi) (barMem_of_answered ⟨ht, hk, ha, hd, hb⟩)
  · exact exec_trans (exec_btestMem hi) (barMem_of_first ⟨hfree, hclean, hcheck⟩ ht)
  · exact exec_trans (exec_btestMem hi) (barMem_of_answered ⟨ht, hk, ha, hd, hb⟩)

end Sys2Proof.BarrierProofs
end

section
/-! PROOFS. The barrier unit (O30): its step on an object that holds no poison, a break that awaits the step, the arrivals, then the
step's answers. -/

namespace Sys2Proof.BarrierProofs
open Sys2Proof Sys2Proof.Machine Sys2Proof.ControlProofs Sys2Proof.MemoryProofs Sys2Proof.AtomicProofs

/-! ### The unit's step (R277) -/

/-- The reply of the barrier unit to request `q`, but for its answer. -/
def unitReply (s : State) (q : ReqX) : Reply :=
  { kind := .data, r := q.r, wide := wideSet (objOf (getWords s.mem (objAddr q) 8)).mask q.r.core }

/-- The error of a barrier's answer. -/
def barErr (q : ReqX) (c : Cause) : Err := { cause := c, lanes := q.r.lanes, addr := q.r.va, detail := 16 }

/-- What the unit has done, with its answer sent as `p`. -/
def answered (d : BarDone) (q : ReqX) (p : Reply) : State :=
  match d.ans with
  | none => d.s
  | some (.ok v) => d.s.reply { p with res := [(0, v.zeroExtend 64)] }
  | some (.error c) => d.s.reply { p with bad := some (barErr q c) }

theorem answered_of_ok {d : BarDone} {v : Word} (h : d.ans = some (.ok v)) (q : ReqX) (p : Reply) :
    answered d q p = d.s.reply { p with res := [(0, v.zeroExtend 64)] } := by
  rw [answered, h]

theorem answered_of_error {d : BarDone} {c : Cause} (h : d.ans = some (.error c)) (q : ReqX) (p : Reply) :
    answered d q p = d.s.reply { p with bad := some (barErr q c) } := by
  rw [answered, h]

theorem answered_dirOf (d : BarDone) (q : ReqX) (p : Reply) (l : Nat) : (answered d q p).dirOf l = d.s.dirOf l := by
  unfold answered
  split <;> rfl

/-- How the step ends: the request waits for the sharers of a written object, or leaves. -/
def unitEnds (d : BarDone) (q : ReqX) (p : Reply) : State :=
  match (if d.wrote then startInv (answered d q p) q else none) with
  | none => (answered d q p).dropReq q.r.id
  | some s => s

theorem unitEnds_of_no_sharer {d : BarDone} {q : ReqX} (h : (d.s.dirOf q.r.line).sharers = 0) (p : Reply) :
    unitEnds d q p = (answered d q p).dropReq q.r.id := by
  have hinv : startInv (answered d q p) q = none := startInv_of_no_sharer (by rw [answered_dirOf, h])
  rw [unitEnds, hinv, ite_self]

/-- The state that the operation of the unit on the object at `pa` begins with. -/
def unitBegins (s : State) (pa : Nat) : State :=
  { breakFirst s pa with coh.objs := pa :: s.coh.objs.filter (fun a => decide (a ≠ pa)) }

section Unit
variable {s : State} {q : ReqX}

/-- A request to the unit whose object holds no poison and that no cluster shares is performed and answered at once. -/
theorem exec_barrierUnit_of_clean {d : BarDone} (ht : takeReq s (s.op 0) .barrier = some q) (hr : refusal s q = none)
    (hb : q.begun = false) (hm : firstMsgs s q = []) (hp : ∀ j, j < 8 → isPoison s.poison (objAddr q + 4 * j) = false)
    (hd : objStep (unitBegins s (objAddr q)) q (objAddr q) = d) (hs : (d.s.dirOf q.r.line).sharers = 0) :
    exec .barrierUnit s = .next ((answered d q (unitReply s q)).dropReq q.r.id) := by
  have hclean : ¬ ((List.range 8).any (fun k => isPoison s.poison (objAddr q + 4 * k)) &&
      decide (q.bar.getD 0 0 ≠ 0)) = true := by
    have hnone : (List.range 8).any (fun k => isPoison s.poison (objAddr q + 4 * k)) = false :=
      List.any_eq_false.2 fun k hk => by simp [hp k (List.mem_range.1 hk)]
    simp [hnone]
  refine exec_of_taken (by rfl) ht ((homeTake_of_no_messages hr hb hm).trans ((if_neg hclean).trans ?_))
  rw [← unitEnds_of_no_sharer hs, ← hd]
  rfl

/-! ### A break that awaits the step (R280) -/

theorem unitBegins_of_no_break {pa : Nat} (h : smFind s.coh.breaks pa = none) :
    unitBegins s pa = { s with coh.objs := pa :: s.coh.objs.filter (fun a => decide (a ≠ pa)) } := by
  rw [unitBegins, breakFirst, h]

/-- The state after a break of the object at `pa`. -/
def broken (s : State) (pa : Nat) : State :=
  { s with mem := setWord s.mem (pa + 4) (getWord s.mem (pa + 4) ||| ((1 : Word) <<< 29)), poison := markWord s.poison (pa + 4) 0xF false,
           coh.breaks := smErase s.coh.breaks pa, coh.objs := pa :: s.coh.objs.filter (fun a => decide (a ≠ pa)) }

/-- A break of an object that nothing has written since sets its B bit. -/
theorem unitBegins_of_break {pa : Nat} (h : smFind s.coh.breaks pa = some (getWords s.mem pa 8)) : unitBegins s pa = broken s pa := by
  simp only [unitBegins, breakFirst, h, if_true]
  rfl

/-- The B bit leaves the I bit. -/
theorem broken_of_hi {o : BarObj} {w : Word} (h : o.hi = w ||| ((1 : Word) <<< 29)) : o.i = w.getLsbD 31 ∧ o.b = true := by
  simp [BarObj.i, BarObj.b, h]

/-! ### Arrivals (R278, R286) -/

theorem objStep_of_arrive {pa k : Nat} {rest : List Nat} (h : q.bar = 1 :: k :: rest) :
    objStep s q pa = objArrive s pa k (objOf (getWords s.mem pa 8)) := by
  rw [objStep, h]
  rfl

theorem woken_of_wakeObj {pa : Nat} {w : BarWait} (hw : w ∈ (wakeObj s pa).coh.waits) (h : w.pa = pa) : w.woken = true := by
  obtain ⟨v, -, rfl⟩ := List.mem_map.1 hw
  by_cases hv : v.pa = pa
  · rw [if_pos hv]
  · rw [if_neg hv] at h
    exact absurd h hv

theorem objArrive_of_broken {pa k : Nat} {o : BarObj} (hi : o.i = true) (hb : o.b = true) :
    objArrive s pa k o = { s := s, ans := some (.error .barBroken) } := by
  rw [objArrive, hi, hb]
  rfl

/-- Word 0 of the object after `k` arrivals. -/
def loAfter (o : BarObj) (k : Nat) : Word := if o.arr = k then objLo o.exp o.exp (o.ph + 1) else objLo (o.arr - k) o.exp o.ph

/-- The state after arrivals that leave `v` in word 0 of the object at `pa`; the phase's last ones wake its waits. -/
def arrived (s : State) (pa : Nat) (v : Word) (last : Bool) : State :=
  if last then wakeObj (s.putWord pa v 0xF false) pa else s.putWord pa v 0xF false

theorem arrived_mem (s : State) (pa : Nat) (v : Word) (last : Bool) : (arrived s pa v last).mem = setWord s.mem pa v := by
  cases last <;> rfl

theorem arrived_replies (s : State) (pa : Nat) (v : Word) (last : Bool) : (arrived s pa v last).coh.replies = s.coh.replies := by
  cases last <;> rfl

theorem arrived_dirOf (s : State) (pa : Nat) (v : Word) (last : Bool) (l : Nat) : (arrived s pa v last).dirOf l = s.dirOf l := by
  cases last <;> rfl

/-- Arrivals that an object in order expects. -/
theorem objArrive_of_expected {s : State} {pa k : Nat} {o : BarObj} (hi : o.i = true) (hb : o.b = false) (hk : k ≤ o.arr) :
    objArrive s pa k o = { s := arrived s pa (loAfter o k) (decide (o.arr = k)), ans := some (.ok 0), wrote := true } := by
  by_cases hlast : o.arr = k
  · simp only [objArrive, hi, hb, Nat.lt_irrefl, hlast, loAfter, arrived, Bool.not_true, Bool.false_eq_true, decide_true, if_true, if_false]
  · simp only [objArrive, hi, hb, Nat.not_lt.2 hk, hlast, loAfter, arrived, Bool.not_true, Bool.false_eq_true, decide_false, if_false]

/-! ### The step's answers -/

section Steps
variable {k : Nat} {rest : List Nat} (ht : takeReq s (s.op 0) .barrier = some q) (hr : refusal s q = none) (hb : q.begun = false)
  (hm : firstMsgs s q = []) (hs : (s.dirOf q.r.line).sharers = 0) (hq : q.bar = 1 :: k :: rest)
  (hp : ∀ j, j < 8 → isPoison s.poison (objAddr q + 4 * j) = false) (hi : (objOf (getWords s.mem (objAddr q) 8)).i = true)
include ht hr hb hm hs hq hp hi

/-- Arrivals at an object whose break awaits the step: the object takes its B bit and refuses them. -/
theorem exec_barrierUnit_of_break (hf : smFind s.coh.breaks (objAddr q) = some (getWords s.mem (objAddr q) 8)) :
    exec .barrierUnit s =
      .next (((broken s (objAddr q)).reply { unitReply s q with bad := some (barErr q .barBroken) }).dropReq q.r.id) := by
  have hword : (objOf (getWords (broken s (objAddr q)).mem (objAddr q) 8)).hi = getWord s.mem (objAddr q + 4) ||| ((1 : Word) <<< 29) :=
    getWord_setWord ..
  obtain ⟨hbit, hbroken⟩ := broken_of_hi hword
  have hstep := (objStep_of_arrive (s := broken s (objAddr q)) hq).trans (objArrive_of_broken (hbit.trans hi) hbroken)
  rw [← answered_of_error (d := { s := broken s (objAddr q), ans := some (.error .barBroken) }) rfl]
  exact exec_barrierUnit_of_clean ht hr hb hm hp ((congrArg (objStep · q _) (unitBegins_of_break hf)).trans hstep) hs

/-- Arrivals that an object in order expects. -/
theorem exec_barrierUnit_of_expected (hf : smFind s.coh.breaks (objAddr q) = none)
    (hbr : (objOf (getWords s.mem (objAddr q) 8)).b = false) (hk : k ≤ (objOf (getWords s.mem (objAddr q) 8)).arr) :
    exec .barrierUnit s = .next (((arrived (unitBegins s (objAddr q)) (objAddr q)
      (loAfter (objOf (getWords s.mem (objAddr q) 8)) k) (decide ((objOf (getWords s.mem (objAddr q) 8)).arr = k))).reply
      { unitReply s q with res := [(0, 0)] }).dropReq q.r.id) := by
  have hbegin := unitBegins_of_no_break hf
  have hsame : (unitBegins s (objAddr q)).mem = s.mem := by rw [hbegin]
  have hstep := objStep_of_arrive (s := unitBegins s (objAddr q)) (pa := objAddr q) hq
  rw [hsame] at hstep
  have hdir : (arrived (unitBegins s (objAddr q)) (objAddr q) (loAfter (objOf (getWords s.mem (objAddr q) 8)) k)
      (decide ((objOf (getWords s.mem (objAddr q) 8)).arr = k))).dirOf q.r.line = s.dirOf q.r.line := by
    rw [arrived_dirOf, hbegin]
    rfl
  have hexec := exec_barrierUnit_of_clean ht hr hb hm hp (hstep.trans (objArrive_of_expected hi hbr hk)) (by rw [hdir, hs])
  rw [answered_of_ok rfl] at hexec
  exact hexec

end Steps

end Unit

/-- A repeated wait is woken once 256 clocks have passed (R281). -/
theorem exec_barrierWaitRetry_of_due {s : State} {w : BarWait} (hw : s.coh.waits[s.op 0]? = some w) (hr : w.repeats = true)
    (hc : 256 ≤ clocksSince s w.at_) :
    exec .barrierWaitRetry s = .next { s with coh.waits := putAt s.coh.waits (s.op 0) { w with woken := true } } := by
  change execBarrierWaitRetry s = _
  have hdue : (w.repeats && decide (256 ≤ clocksSince s w.at_)) = true := by simp [hr, hc]
  rw [execBarrierWaitRetry, hw]
  exact congrArg event (if_pos hdue)

/-- Settles O30: the break by the object it leaves, the arrivals by the word they write, the retry by its time. -/
theorem barrierUnitSteps : Obligations.BarrierUnitSteps := by
  unfold Obligations.BarrierUnitSteps
  refine ⟨fun s q k rest ht hr hb hm hs hq hp hi => ⟨fun ws hf hw => ?_, fun hf hbr hk => ?_⟩,
    fun s w hw hr hc => exec_barrierWaitRetry_of_due hw hr hc⟩
  · have hexec := exec_barrierUnit_of_break ht hr hb hm hs hq hp hi (hw ▸ hf)
    refine ⟨_, _, hexec, ?_, ?_, fun a ha => ?_, rfl, rfl⟩
    · exact (smFind_smErase ..).trans (if_pos rfl)
    · exact getWord_setWord ..
    · exact getByte_setWord_out _ _ _ _ (by omega)
  · have hbegin := unitBegins_of_no_break hf
    refine ⟨_, exec_barrierUnit_of_expected ht hr hb hm hs hq hp hi hf hbr hk, fun a ha => ?_, ?_, ?_, fun hlast w hw hpa => ?_⟩
    · rw [State.dropReq_mem, State.reply_mem, arrived_mem, hbegin]
      exact getByte_setWord_out _ _ _ _ (by omega)
    · rw [State.dropReq_mem, State.reply_mem, arrived_mem]
      exact getWord_setWord ..
    · refine List.length_append.trans (congrArg (fun l : List Reply => l.length + 1) ?_)
      rw [arrived_replies, hbegin]
    · rw [decide_eq_true hlast] at hw
      exact woken_of_wakeObj hw hpa

end Sys2Proof.BarrierProofs
end

section
/-! PROOFS. The queue words (O32): what a push, a pop and a declaration make of the crew's queues and of the Pound, what QPOP takes
with it, then the words. -/

namespace Sys2Proof.QueueProofs
open Sys2Proof Sys2Proof.Machine Sys2Proof.ControlProofs Sys2Proof.MatrixProofs Sys2Proof.AtomicProofs Sys2Proof.BarrierProofs

/-! ### One queue of a crew changed, one word of the Pound written -/

theorem que_modQue (s : State) (cr q k : Nat) (f : PQueue → PQueue) :
    ((s.modQue cr q f).ceng cr).que k = if k = q then f ((s.ceng cr).que q) else (s.ceng cr).que k := by
  rw [State.modQue, State.ceng_modCeng_self]
  exact smGet_smPut ..

theorem que_modQue_same (s : State) (cr q : Nat) (f : PQueue → PQueue) :
    ((s.modQue cr q f).ceng cr).que q = f ((s.ceng cr).que q) := (que_modQue ..).trans (if_pos rfl)

/-- A change of the crew's pool before that leaves the queues. -/
theorem que_modQue_modCeng (s : State) (cr q k : Nat) (f : PQueue → PQueue) {g : CrewEng → CrewEng}
    (hg : ∀ e, (g e).qs = e.qs) :
    (((s.modCeng cr g).modQue cr q f).ceng cr).que k = if k = q then f ((s.ceng cr).que q) else (s.ceng cr).que k := by
  have hsame (j : Nat) : ((s.modCeng cr g).ceng cr).que j = (s.ceng cr).que j := by
    rw [State.ceng_modCeng_self, CrewEng.que, hg]
    rfl
  rw [que_modQue, hsame, hsame]

theorem reads_of_setWord {s t : State} {a : Nat} {v : Word} (h : t.mem = setWord s.mem a v) :
    getWord t.mem a = v ∧ ∀ b, (b < a ∨ a + 4 ≤ b) → getByte t.mem b = getByte s.mem b := by
  rw [h]
  exact ⟨getWord_setWord .., fun b hb => getByte_setWord_out _ _ _ _ (by omega)⟩

section Controller
variable {s : State} {cr core q p : Nat} {h : Word} {cpe : Bool} {v : PQueue} (hv : (s.ceng cr).que q = v)

/-! ### Pushes (R294) -/

/-- The queue with one entry more, which costs producer `p` a unit of its allowance. -/
def pushed (p : Nat) (cpe : Bool) (v : PQueue) : PQueue :=
  { v with cnt := v.cnt + 1, allow := smPut 0 v.allow p (v.allowance p - 1), byCpe := v.byCpe ++ [cpe] }

theorem allowance_pushed (v : PQueue) (k : Nat) :
    (pushed p cpe v).allowance k = if k = p then v.allowance p - 1 else v.allowance k := smGet_smPut ..

section Placed
include hv

/-- A push takes the ring's next word while the ring has one. -/
theorem pushHandle_of_ring (hc : v.cnt < v.cap) : pushHandle s cr core q p h cpe =
    (s.putWord (crewWord s cr core (v.rb + (v.hd + v.cnt) % v.cap)) h 0xF false).modQue cr q (pushed p cpe) := by
  subst hv
  exact if_pos hc

/-- Past the ring it borrows a slot of the pool. -/
theorem pushHandle_of_slot {j : Nat} (hc : ¬ v.cnt < v.cap) (hj : poolSlot (s.ceng cr) v = some j) :
    pushHandle s cr core q p h cpe =
      ((s.putWord (crewWord s cr core ((s.ceng cr).pb + j)) h 0xF false).modCeng cr (fun e =>
        { e with lentPool := e.lentPool ++ [j] })).modQue cr q (fun v => pushed p cpe { v with lent := v.lent ++ [j] }) := by
  simp only [pushHandle, hv, if_neg hc, hj]
  rfl

theorem que_pushHandle_of_ring (hc : v.cnt < v.cap) :
    ((pushHandle s cr core q p h cpe).ceng cr).que q = pushed p cpe v := by
  rw [pushHandle_of_ring hv hc, ← hv]
  exact que_modQue_same ..

theorem que_pushHandle_of_slot {j : Nat} (hc : ¬ v.cnt < v.cap) (hj : poolSlot (s.ceng cr) v = some j) :
    ((pushHandle s cr core q p h cpe).ceng cr).que q = { pushed p cpe v with lent := v.lent ++ [j] } := by
  rw [pushHandle_of_slot hv hc hj, que_modQue_modCeng, if_pos rfl, ← hv]
  · rfl
  · exact fun _ => rfl

end Placed

theorem allowance_ne_zero_of_canPush (hp : canPush s cr q p = true) : ((s.ceng cr).que q).allowance p ≠ 0 :=
  Nat.ne_of_gt (of_decide_eq_true (Bool.and_eq_true_iff.1 hp).1)

theorem queRoom_of_canPush (hp : canPush s cr q p = true) : queRoom (s.ceng cr) ((s.ceng cr).que q) = true :=
  (Bool.and_eq_true_iff.1 hp).2

include hv

/-- Wherever its handle goes, a push that can take place adds its entry. -/
theorem que_pushHandle_of_canPush (hp : canPush s cr q p = true) :
    ∃ l, ((pushHandle s cr core q p h cpe).ceng cr).que q = { pushed p cpe v with lent := l } := by
  by_cases hc : v.cnt < v.cap
  · exact ⟨_, que_pushHandle_of_ring hv hc⟩
  · have hslot : (poolSlot (s.ceng cr) v).isSome = true := by
      simpa [queRoom, hv, hc] using queRoom_of_canPush hp
    obtain ⟨j, hj⟩ := Option.isSome_iff_exists.1 hslot
    exact ⟨_, que_pushHandle_of_slot hv hc hj⟩

/-! ### Pops (R295) -/

/-- The queue with its oldest entry gone. -/
def popped (v : PQueue) : PQueue := { v with hd := (v.hd + 1) % v.cap, cnt := v.cnt - 1, byCpe := v.byCpe.tail }

theorem popHandle_of_ring (hl : v.lent = []) : popHandle s cr core q = s.modQue cr q popped := by
  simp only [popHandle, hv, hl]
  rfl

/-- The oldest lent handle moves to the ring's word that the pop leaves. -/
theorem popHandle_of_lent {j : Nat} {js : List Nat} (hl : v.lent = j :: js) : popHandle s cr core q =
    ((s.putWord (crewWord s cr core (v.rb + v.hd)) (getWord s.mem (crewWord s cr core ((s.ceng cr).pb + j))) 0xF
      false).modCeng cr (fun e => { e with lentPool := e.lentPool.filter (fun k => decide (k ≠ j)) })).modQue cr q
        (fun v => { popped v with lent := js }) := by
  simp only [popHandle, hv, hl]
  rfl

theorem que_popHandle : ((popHandle s cr core q).ceng cr).que q = { popped v with lent := v.lent.tail } := by
  cases hl : v.lent with
  | nil =>
    rw [popHandle_of_ring hv hl, que_modQue_same, hv, List.tail_nil, ← hl]
    rfl
  | cons j js =>
    rw [popHandle_of_lent hv hl, que_modQue_modCeng, if_pos rfl, ← hv]
    · rfl
    · exact fun _ => rfl

theorem popHandle_mem_of_ring (hl : v.lent = []) : (popHandle s cr core q).mem = s.mem := by
  rw [popHandle_of_ring hv hl]
  rfl

theorem popHandle_mem_of_lent {j : Nat} {js : List Nat} (hl : v.lent = j :: js) : (popHandle s cr core q).mem =
    setWord s.mem (crewWord s cr core (v.rb + v.hd)) (getWord s.mem (crewWord s cr core ((s.ceng cr).pb + j))) := by
  rw [popHandle_of_lent hv hl]
  rfl

omit hv

theorem popHandle_gang (k : Nat) : (popHandle s cr core q).gang k = s.gang k := by
  cases hl : ((s.ceng cr).que q).lent with
  | nil =>
    rw [popHandle_of_ring rfl hl]
    rfl
  | cons j js =>
    rw [popHandle_of_lent rfl hl]
    rfl

/-! ### The operations that wait (R301) -/

theorem serveQueues_of_no_waiter (hw : ∀ v ∈ (s.ceng cr).qs, v.2.pushW = [] ∧ v.2.popW = []) : serveQueues s cr core = s := by
  have hsum : ((s.ceng cr).qs.map (fun p => p.2.popW.length + p.2.pushW.length)).sum = 0 :=
    List.sum_eq_zero fun n hn => by
      obtain ⟨v, hv, rfl⟩ := List.mem_map.1 hn
      simp [hw v hv]
  rw [serveQueues, hsum]
  rfl

end Controller

section Words
variable {s : State} {x : Cx} {c : Bool} {q : Fin 16} {a b : Fin 64}

/-! ### QINIT (R300, R306) -/

/-- A queue declared by the context's gang, with the waits that stay on it. -/
def declared (x : Cx) (rb cap : Nat) (v : PQueue) : PQueue :=
  { i := true, own := x.gang.ix, rb := rb, cap := cap, pushW := v.pushW.filter (fun p => decide (p.1 < 64)), popW := v.popW }

theorem qinitQueue_of_fit {k cap : Nat} {off : Word} (h0 : cap ≠ 0)
    (hl : off.toNat + 4 * cap ≤ (x.src.r.rdSeg 1).limit.toNat) : ∃ u : State,
    qinitQueue k off cap s x = .done (serveQueues u x.crewNo x.core) ∧ u.mem = s.mem ∧ ∀ j, (u.ceng x.crewNo).que j =
      if j = k then declared x (off.toNat / 4) cap ((s.ceng x.crewNo).que k) else (s.ceng x.crewNo).que j :=
  ⟨_, (if_neg h0).trans (if_neg (Nat.not_lt.2 hl)), rfl, fun j =>
    que_modQue_modCeng (refusePending s x.crewNo k Cause.qUninit.code) x.crewNo k j _ fun _ => rfl⟩

/-- The crew's state with its pool placed. -/
def pooled (pb spn : Nat) (e : CrewEng) : CrewEng := { e with pb := pb, spn := spn }

theorem qinitPool_of_fit {n : Nat} {off : Word} (hn : n ≤ 256) (he : (s.ceng x.crewNo).lentPool = [])
    (hl : off.toNat + 4 * n ≤ (x.src.r.rdSeg 1).limit.toNat) :
    qinitPool off n s x = .done (serveQueues (s.modCeng x.crewNo (pooled (off.toNat / 4) n)) x.crewNo x.core) :=
  (if_neg (by simp [he, hn])).trans (if_neg (Nat.not_lt.2 hl))

/-! ### QPUSH (R307) -/

/-- A QPUSH has made its release when it looks at its queue. -/
theorem exec_qpush (hi : Issues s x (.qpush c q a)) (hv : ((s.ceng x.crewNo).que q).i = true)
    (hr : x.cur.retry = false → release s x.cur.gang x.core x.dom x.cur.grp false = .ok) :
    exec (.qpush c q a) s = .next (finish x (if canPush s x.crewNo q x.producer then
        .done (serveQueues (leavePush (pushHandle s x.crewNo x.core q x.producer (x.s a) false) x.crewNo q x.waiter) x.crewNo
          x.core)
      else .block (keepArgs (s.modQue x.crewNo q (fun v => { v with pushW := addWaiter v.pushW x.waiter })) x [a.val]))) := by
  refine exec_of_issues hi (by rfl) (Eq.trans ?_ (queOk_of_init hv))
  cases ht : x.cur.retry with
  | true => exact if_pos rfl
  | false => exact (if_neg Bool.false_ne_true).trans (afterRelease_of_ok (hr ht))

/-! ### QPOP (R302, R308) -/

theorem exec_qpop (hi : Issues s x (.qpop c q a)) (hv : ((s.ceng x.crewNo).que q).i = true)
    (ho : x.held = [] → ((s.ceng x.crewNo).que q).own = x.gang.ix) :
    exec (.qpop c q a) s = .next (finish x (if ((s.ceng x.crewNo).que q).cnt ≠ 0 then
        .done (serveQueues (leavePop (takeHead q a s x) x.crewNo q x.waiter) x.crewNo x.core)
      else .block (keepArgs (s.modQue x.crewNo q (fun v => { v with popW := addWaiter v.popW x.waiter })) x [a.val]))) := by
  have hmine : ¬ (x.held.isEmpty && decide (((s.ceng x.crewNo).que q).own ≠ x.gang.ix)) = true := by
    simpa using ho
  exact exec_of_issues hi (by rfl) ((queOk_of_init hv).trans (if_neg hmine))

theorem acquire_ceng (s : State) (core : Nat) (wide : Bool) (k : Nat) : (acquire s core wide).ceng k = s.ceng k := by
  cases wide <;> rfl

theorem acquire_gang (s : State) (core : Nat) (wide : Bool) (k : Nat) : (acquire s core wide).gang k = s.gang k := by
  cases wide <;> rfl

theorem takeHead_mem (k d : Nat) : (takeHead k d s x).mem = (popHandle s x.crewNo x.core k).mem :=
  State.mem_of_offPath (acquire_offPath ..)

theorem takeHead_ceng (k d : Nat) : (takeHead k d s x).ceng x.crewNo = (popHandle s x.crewNo x.core k).ceng x.crewNo :=
  acquire_ceng ..

/-- The handle at the head of the queue reaches the popping gang's register. -/
theorem takeHead_gang {g : Gang} (k d : Nat) (hg : s.gang x.cur.gang = some g) : (takeHead k d s x).gang x.cur.gang =
    some { g with r := g.r.wrS x.hnd d (headHandle s x.crewNo x.core k).1 } := by
  rw [takeHead, acquire_gang, State.putS, State.gang_modRegs, if_pos rfl, popHandle_gang, hg]
  rfl

/-! ### QTRY (R309) -/

theorem exec_qtry_of_pop (hi : Issues s x (.qtry c q a b)) (hv : ((s.ceng x.crewNo).que q).i = true)
    (hb : (x.s b).getLsbD 0 = false) (ho : ((s.ceng x.crewNo).que q).own = x.gang.ix)
    (hn : ((s.ceng x.crewNo).que q).cnt ≠ 0) : exec (.qtry c q a b) s = .next (finish x
      (.done (serveQueues ((takeHead q a s x).putS x b 0) x.crewNo x.core))) := by
  refine exec_of_issues hi (by rfl) ((queOk_of_init hv).trans ?_)
  simp only [hb, ho, hn, Bool.not_false, ne_eq, not_true_eq_false, if_true, if_false]

theorem doesS_qtry_of_empty (hi : Issues s x (.qtry c q a b)) (hv : ((s.ceng x.crewNo).que q).i = true)
    (hb : (x.s b).getLsbD 0 = false) (ho : ((s.ceng x.crewNo).que q).own = x.gang.ix)
    (hn : ((s.ceng x.crewNo).que q).cnt = 0) : DoesS s x (.qtry c q a b) (oneS b 1) := by
  refine doesS_of_putS hi (by rfl) ((queOk_of_init hv).trans ?_)
  simp only [hb, ho, hn, Bool.not_false, ne_eq, not_true_eq_false, if_true, if_false]

section Push
variable (hi : Issues s x (.qtry c q a b)) (hv : ((s.ceng x.crewNo).que q).i = true) (hb : (x.s b).getLsbD 0 = true)
include hi hv hb

theorem doesS_qtry_of_no_allowance (hn : ((s.ceng x.crewNo).que q).allowance x.producer = 0) :
    DoesS s x (.qtry c q a b) (oneS b 2) := by
  refine doesS_of_putS hi (by rfl) ((queOk_of_init hv).trans ?_)
  simp only [hb, hn, Bool.not_true, Bool.false_eq_true, if_true, if_false]

theorem doesS_qtry_of_full (hn : ((s.ceng x.crewNo).que q).allowance x.producer ≠ 0)
    (hr : queRoom (s.ceng x.crewNo) ((s.ceng x.crewNo).que q) = false) : DoesS s x (.qtry c q a b) (oneS b 1) := by
  refine doesS_of_putS hi (by rfl) ((queOk_of_init hv).trans ?_)
  simp only [hb, hn, hr, Bool.not_true, Bool.not_false, Bool.false_eq_true, if_true, if_false]

theorem exec_qtry_of_canPush (hp : canPush s x.crewNo q x.producer = true)
    (hrel : release s x.cur.gang x.core x.dom x.cur.grp false = .ok) : exec (.qtry c q a b) s = .next (finish x
      (.done (serveQueues ((pushHandle s x.crewNo x.core q x.producer (x.s a) false).putS x b 0) x.crewNo x.core))) := by
  refine exec_of_issues hi (by rfl) ((queOk_of_init hv).trans ?_)
  simp only [hb, allowance_ne_zero_of_canPush hp, queRoom_of_canPush hp, Bool.not_true, Bool.false_eq_true, if_false]
  exact afterRelease_of_ok hrel

end Push

/-! ### QALW (R310) -/

/-- A queue with `n` more for producer `p`, at most 4,095 in all. -/
def allowed (p : Nat) (n : Int) (v : PQueue) : PQueue :=
  { v with allow := smPut 0 v.allow p (min ((v.allowance p : Int) + n).toNat 4095) }

theorem allowance_allowed (p : Nat) (n : Int) (v : PQueue) (k : Nat) : (allowed p n v).allowance k =
    if k = p then min ((v.allowance k : Int) + n).toNat 4095 else v.allowance k := by
  refine (smGet_smPut ..).trans ?_
  by_cases hk : k = p
  · rw [if_pos hk, if_pos hk, hk]
  · rw [if_neg hk, if_neg hk]
    rfl

theorem exec_qalw_of_owner (hi : Issues s x (.qalw c q a b)) (hv : ((s.ceng x.crewNo).que q).i = true)
    (ho : ((s.ceng x.crewNo).que q).own = x.gang.ix)
    (hn : 0 ≤ (((s.ceng x.crewNo).que q).allowance ((x.s b).toNat % 64) : Int) + (x.s a).toInt) :
    exec (.qalw c q a b) s = .next (finish x (.done
      (serveQueues (s.modQue x.crewNo q (allowed ((x.s b).toNat % 64) (x.s a).toInt)) x.crewNo x.core))) := by
  rw [← fld_zero_six] at hn ⊢
  exact exec_of_issues hi (by rfl) ((queOk_of_init hv).trans ((if_neg (not_not_intro ho)).trans (if_neg (Int.not_lt.2 hn))))

end Words

/-- Settles O32: the controller's pushes and pops by the queue and the word that they leave, then each word by its checks. -/
theorem queueWords : Obligations.QueueWords := by
  unfold Obligations.QueueWords
  refine ⟨fun s cr core q p h cpe => ⟨fun hp => ?_, fun _ => ?_, serveQueues_of_no_waiter⟩, fun s x c q a b =>
    ⟨fun hi ha hf hn hl => ?_, fun hi ha hf hn he hl => ?_, fun hi hv hr => ?_, fun hi hv ho => ?_, fun _ hg => ?_,
      fun hi hv hb ho => ?_, fun hi hv hb => ?_, fun hi hv ho hn => ?_⟩⟩
  · obtain ⟨l, hl⟩ := que_pushHandle_of_canPush (core := core) (h := h) (cpe := cpe) rfl hp
    refine ⟨congrArg PQueue.cnt hl, congrArg PQueue.byCpe hl, fun k => ?_, fun hc => ⟨?_, ?_⟩, fun j hc hj => ⟨?_, ?_⟩⟩
    · exact (congrArg (PQueue.allowance · k) hl).trans (allowance_pushed (cpe := cpe) ..)
    · rw [que_pushHandle_of_ring rfl hc]
      rfl
    · exact reads_of_setWord (congrArg State.mem (pushHandle_of_ring rfl hc))
    · exact congrArg PQueue.lent (que_pushHandle_of_slot rfl hc hj)
    · exact reads_of_setWord (congrArg State.mem (pushHandle_of_slot rfl hc hj))
  · have hque := que_popHandle (core := core) (rfl : (s.ceng cr).que q = _)
    exact ⟨congrArg PQueue.cnt hque, congrArg PQueue.hd hque, congrArg PQueue.lent hque, popHandle_mem_of_ring rfl,
      fun j js hl => reads_of_setWord (popHandle_mem_of_lent rfl hl)⟩
  · obtain ⟨u, hu, hmem, hque⟩ := qinitQueue_of_fit (k := q) hn hl
    have hq := (hque q).trans (if_pos rfl)
    have hform : (x.s b).toNat < 2 ^ 31 := Nat.not_le.1 fun h => Bool.false_ne_true (hf.symm.trans ((getLsbD_31_iff _).2 h))
    refine ⟨u, exec_trans (exec_qinit_of_queue hi ha hform) hu, hmem, fun k hk => (hque k).trans (if_neg hk), _, hq,
      rfl, rfl, rfl, rfl, rfl, rfl, rfl, fun _ => rfl⟩
  · refine ⟨_, exec_trans (exec_qinit_of_pool hi ha ((getLsbD_31_iff _).1 hf)) (qinitPool_of_fit hn he hl), rfl, ?_, ?_,
      fun k => ?_⟩
    all_goals
      rw [State.ceng_modCeng_self]
      rfl
  · exact ⟨fun hp => exec_trans (exec_qpush hi hv hr) (if_pos hp),
      fun hp => exec_trans (exec_qpush hi hv hr) (if_neg (ne_true_of_eq_false hp))⟩
  · exact ⟨fun hn => exec_trans (exec_qpop hi hv ho) (if_pos hn),
      fun hn => exec_trans (exec_qpop hi hv ho) (if_neg (not_not_intro hn))⟩
  · exact ⟨takeHead_mem .., congrArg (CrewEng.que · q) (takeHead_ceng ..), _, takeHead_gang q a hg, rfl⟩
  · exact ⟨exec_qtry_of_pop hi hv hb ho, doesS_qtry_of_empty hi hv hb ho⟩
  · exact ⟨doesS_qtry_of_no_allowance hi hv hb, doesS_qtry_of_full hi hv hb, exec_qtry_of_canPush hi hv hb⟩
  · refine ⟨_, exec_qalw_of_owner hi hv ho hn, rfl, fun p => ?_⟩
    rw [que_modQue_same]
    exact allowance_allowed ..

end Sys2Proof.QueueProofs
end

section
/-! PROOFS. The sluice homes (O34): what writing a key's entry changes, how a home takes a request, then the homes' steps. -/

namespace Sys2Proof.SluiceProofs
open Sys2Proof Sys2Proof.Machine

/-! ### Lists of requests and releases -/

theorem getElem?_putAt {α : Type} {l : List α} {k : Nat} {a : α} (b : α) (h : l[k]? = some a) : (putAt l k b)[k]? = some b := by
  induction l generalizing k with
  | nil => cases h
  | cons c l ih =>
    cases k with
    | zero => rfl
    | succ k => exact ih h

theorem modSlReq_of_some {s : State} {k : Nat} {r : SlReq} (h : s.eng.slreqs[k]? = some r) (f : SlReq → SlReq) :
    modSlReq s k f = { s with eng.slreqs := putAt s.eng.slreqs k (f r) } := by
  rw [modSlReq, h]

theorem slreq_modSlReq {s : State} {k : Nat} {r : SlReq} (h : s.eng.slreqs[k]? = some r) (f : SlReq → SlReq) :
    (modSlReq s k f).eng.slreqs[k]? = some (f r) := by
  rw [modSlReq_of_some h]
  exact getElem?_putAt _ h

/-! ### The entries (R313, R314) -/

@[simp] theorem putOvf_eng (s : State) (dom ix : Nat) (ws : List Word) : (putOvf s dom ix ws).eng = s.eng := by
  unfold putOvf
  split
  · rfl
  · exact foldl_keeps _ State.eng (fun _ _ => State.putWord_eng ..) _ _

theorem dropKey_eng (s : State) (k : Nat) : (s.dropKey k).eng = { s.eng with keys := smErase s.eng.keys k } := by
  unfold State.dropKey
  split
  · exact putOvf_eng ..
  · rfl

theorem smFind_dropKey (s : State) (k : Nat) : smFind (s.dropKey k).eng.keys k = none := by
  rw [dropKey_eng]
  exact (smFind_smErase ..).trans (if_pos rfl)

/-- The place of key `k` in its overflow table, once its entry is `v`. -/
def placeOf (s : State) (k : Nat) (v : SlKey) : Nat :=
  if !v.ovf then 0 else if (s.slKey k).ovf then (s.slKey k).ix else freeOvf s (k / 2 ^ 33)

theorem putKey_eng (s : State) (k : Nat) (v : SlKey) :
    (s.putKey k v).eng = { s.eng with keys := smSet s.eng.keys k { v with ix := placeOf s k v } } := by
  have hleft (b : Bool) : { (if b then s.dropKey k else s).eng with keys := smSet s.eng.keys k { v with ix := placeOf s k v } } =
      { s.eng with keys := smSet s.eng.keys k { v with ix := placeOf s k v } } := by
    cases b
    · rfl
    · exact congrArg (fun e : Eng => { e with keys := smSet s.eng.keys k { v with ix := placeOf s k v } }) (dropKey_eng s k)
  unfold State.putKey
  dsimp only
  split
  · exact (putOvf_eng ..).trans (hleft _)
  · exact hleft _

@[simp] theorem putKey_slreqs (s : State) (k : Nat) (v : SlKey) : (s.putKey k v).eng.slreqs = s.eng.slreqs := by
  rw [putKey_eng]

@[simp] theorem putKey_slrels (s : State) (k : Nat) (v : SlKey) : (s.putKey k v).eng.slrels = s.eng.slrels := by
  rw [putKey_eng]

/-- A key's entry rewritten where it lies. -/
theorem slKey_putKey_in_place {s : State} {k : Nat} {u v : SlKey} (hu : s.slKey k = u) (ho : u.ovf = v.ovf) (hx : u.ix = v.ix) :
    (s.putKey k v).slKey k = { v with ix := if v.ovf then v.ix else 0 } := by
  have hplace : placeOf s k v = if v.ovf then v.ix else 0 := by
    rw [placeOf, hu, ho, hx]
    cases v.ovf <;> rfl
  rw [State.slKey, putKey_eng, smFind_smSet, if_pos rfl, hplace]
  rfl

theorem ensureKey_of_entry {s : State} {k : Nat} {v : SlKey} (h : smFind s.eng.keys k = some v) : ensureKey s k = some s :=
  if_pos (by rw [h]; rfl)

/-- What writing entries keeps, a new entry keeps. -/
theorem ensureKey_keeps {β : Type} (f : State → β) (hf : ∀ s k v, f (s.putKey k v) = f s) {s t : State} {k : Nat}
    (h : ensureKey s k = some t) : f t = f s := by
  unfold ensureKey at h
  dsimp only at h
  split at h
  · cases h
    rfl
  · split at h
    · cases h
      exact hf ..
    · split at h
      · cases h
        exact (hf ..).trans (hf ..)
      · split at h
        · cases h
          exact hf ..
        · cases h

theorem getD_ensureKey_slreqs (s : State) (k : Nat) : ((ensureKey s k).getD s).eng.slreqs = s.eng.slreqs := by
  cases h : ensureKey s k with
  | none => rfl
  | some t => exact ensureKey_keeps (fun s => s.eng.slreqs) putKey_slreqs h

/-! ### A request that its home has not taken (R314, R315) -/

/-- The request stands unanswered before its home, which is not fenced. -/
structure Arrives (s : State) (k : Nat) (r : SlReq) : Prop where
  here : s.eng.slreqs[k]? = some r
  registered : r.registered = false
  fail : r.fail = none
  granted : r.granted = false
  fenced : keyFenced s r.dom r.ns r.key = false

section Arrival
variable {s : State} {k : Nat} {r : SlReq} (h : Arrives s k r)
include h

theorem registerSl_of_arrives : registerSl s k =
    if r.route ≠ [] ∧ (s.die (numSlice r.num / 24)).inc ≠ r.tinc then
      modSlReq s k (fun r => { r with fail := some .incarnation })
    else if 512 < buffered s (numSlice r.num) + r.n then modSlReq s k (fun r => { r with at_ := s.time })
    else (ensureKey (modSlReq s k (fun r => { r with registered := true })) r.num).getD
      (modSlReq s k (fun r => { r with registered := true })) := by
  obtain ⟨here, hreg, hfail, hgranted, hfenced⟩ := h
  simp only [registerSl, here, hreg, hfail, hgranted, hfenced, Option.isSome_none, Bool.or_self, Bool.false_eq_true, if_false]

/-- A request of an earlier incarnation of the home's die is refused (R498). -/
theorem registerSl_of_incarnation (hr : r.route ≠ []) (hi : (s.die (numSlice r.num / 24)).inc ≠ r.tinc) :
    (registerSl s k).eng.slreqs[k]? = some { r with fail := some .incarnation } := by
  rw [registerSl_of_arrives h, if_pos ⟨hr, hi⟩]
  exact slreq_modSlReq h.here _

section Current
variable (hi : r.route = [] ∨ (s.die (numSlice r.num / 24)).inc = r.tinc)
include hi

theorem registerSl_of_current : registerSl s k =
    if 512 < buffered s (numSlice r.num) + r.n then modSlReq s k (fun r => { r with at_ := s.time })
    else (ensureKey (modSlReq s k (fun r => { r with registered := true })) r.num).getD
      (modSlReq s k (fun r => { r with registered := true })) := by
  rw [registerSl_of_arrives h, if_neg]
  tauto

theorem registerSl_of_room (hn : buffered s (numSlice r.num) + r.n ≤ 512) :
    (registerSl s k).eng.slreqs[k]? = some { r with registered := true } := by
  rw [registerSl_of_current h hi, if_neg (Nat.not_lt.2 hn), getD_ensureKey_slreqs]
  exact slreq_modSlReq h.here _

theorem registerSl_of_full (hn : 512 < buffered s (numSlice r.num) + r.n) :
    (registerSl s k).eng.slreqs[k]? = some { r with at_ := s.time } := by
  rw [registerSl_of_current h hi, if_pos hn]
  exact slreq_modSlReq h.here _

end Current

end Arrival

/-- A request that found the buffer full is registered again when 256 clocks have passed. -/
theorem exec_sluiceBufferRetry_of_due {s : State} {r : SlReq} (h : s.eng.slreqs[s.op 0]? = some r) (ha : r.at_ ≠ 0)
    (hc : 256 ≤ clocksSince s r.at_) : exec .sluiceBufferRetry s = .next (registerSl s (s.op 0)) := by
  change execSluiceBufferRetry s = _
  have hdue : (decide (r.at_ ≠ 0) && decide (256 ≤ clocksSince s r.at_)) = true := by simp [ha, hc]
  rw [execSluiceBufferRetry, h]
  exact congrArg event (if_pos hdue)

/-! ### Grants (R317, R326) -/

theorem passedSeq_self (w : Word) : passedSeq w w = false := by
  simp [passedSeq]

section Grant
variable {s : State} {r : SlReq} {v : SlKey} (h : s.eng.slreqs[s.op 0]? = some r) (hk : smFind s.eng.keys r.num = some v)
include hk

theorem slKey_of_entry : s.slKey r.num = v := by
  rw [State.slKey, hk]
  rfl

/-- The request whose sequence has come takes the key. -/
theorem grantEnter_of_next (hb : v.brk = false) (hh : v.hld = false) (hn : v.ne = r.first) : grantEnter s (s.op 0) r =
    (modSlReq s (s.op 0) (fun r => { r with granted := true })).putKey r.num
      { v with hld := true, hn := r.n, rln := 0, holders := [r.gang], used := s.ticks } := by
  simp only [grantEnter, slKey_of_entry hk, hb, hh, hn, passedSeq_self, Bool.not_false, decide_true, Bool.and_self,
    Bool.false_eq_true, if_true, if_false]

include h

/-- A home that examines a waiting request to enter a key with an entry. -/
theorem exec_sluiceGrant_of_enter (hw : r.waits = true) (hm : r.mark = false) (hf : keyFenced s r.dom r.ns r.key = false)
    (he : r.kind = .enter) : exec .sluiceGrant s = .next (grantEnter s (s.op 0) r) := by
  change execSluiceGrant s = _
  simp only [execSluiceGrant, h, hw, hm, hf, he, ensureKey_of_entry hk, Bool.not_true, Bool.or_self, Bool.false_eq_true, if_false]
  rfl

theorem grantEnter_of_broken (hb : v.brk = true) :
    (grantEnter s (s.op 0) r).eng.slreqs[s.op 0]? = some { r with fail := some .slBroken } := by
  simp only [grantEnter, slKey_of_entry hk, hb, if_true]
  exact slreq_modSlReq h _

theorem grantEnter_of_passed (hb : v.brk = false) (hp : passedSeq v.ne r.first = true) :
    (grantEnter s (s.op 0) r).eng.slreqs[s.op 0]? = some { r with fail := some .slStale } := by
  simp only [grantEnter, slKey_of_entry hk, hb, hp, Bool.false_eq_true, if_true, if_false]
  exact slreq_modSlReq h _

end Grant

/-! ### Timeouts (R322) -/

theorem exec_slTimeout_of_late {s : State} {r : SlReq} (h : s.eng.slreqs[s.op 0]? = some r) (hw : r.waits = true)
    (hm : r.mark = false) (hs : slStuck s r = true) (ht : (s.domain r.dom).set_.slTimeout < r.timer) :
    exec .slTimeout s = .next (modSlReq s (s.op 0) (fun r => { r with fail := some .slTimeout })) := by
  change execSlTimeout s = _
  have hlate : (r.waits && !r.mark && slStuck s r && decide ((s.domain r.dom).set_.slTimeout < r.timer)) = true := by
    simp [hw, hm, hs, ht]
  rw [execSlTimeout, h]
  exact congrArg event (if_pos hlate)

/-! ### Releases (R320, R321) -/

theorem passMarks_of_no_mark {n : Nat} {s : State} {k : Nat} (h : ∀ q ∈ s.eng.slreqs, q.mark = false) : passMarks n s k = s := by
  cases n with
  | zero => rfl
  | succ n =>
    have hnone : s.eng.slreqs.find? (fun r => r.mark && decide (r.num = k) && decide (r.first = (s.slKey k).ne)) = none :=
      List.find?_eq_none.2 fun q hq => by simp [h q hq]
    simp only [passMarks, hnone, ite_self]

theorem settleKey_of_no_mark {s : State} {k : Nat} (h : ∀ q ∈ s.eng.slreqs, q.mark = false) (hc : (s.slKey k).clp = false) :
    settleKey s k = s := by
  simp only [settleKey, passMarks_of_no_mark h, closeDue, hc, Bool.false_and, Bool.and_false, Bool.false_eq_true, if_false]

section Release
variable {s : State} {k n : Nat} {v : SlKey} (hv : s.slKey k = v) (hh : v.hld = true)
include hv hh

theorem releaseLanes_of_part (hn : v.rln + n < v.hn) : releaseLanes s k n = s.putKey k { v with rln := v.rln + n } := by
  simp only [releaseLanes, hv, hh, hn, Bool.not_true, Bool.false_eq_true, if_true, if_false]

/-- The entry of a key whose holding batch has left. -/
def letGo (v : SlKey) : SlKey := { v with hld := false, rln := 0, ne := v.ne + BitVec.ofNat 32 v.hn, hn := 0, holders := [] }

theorem releaseLanes_of_last (hn : v.hn ≤ v.rln + n) (hc : v.clp = false) (hm : ∀ q ∈ s.eng.slreqs, q.mark = false) :
    releaseLanes s k n = s.putKey k (letGo v) := by
  have hsettled : settleKey (s.putKey k (letGo v)) k = s.putKey k (letGo v) := by
    refine settleKey_of_no_mark (by rwa [putKey_slreqs]) ?_
    exact (congrArg SlKey.clp (slKey_putKey_in_place (v := letGo v) hv rfl rfl)).trans hc
  simp only [releaseLanes, hv, hh, Nat.not_lt.2 hn, Bool.not_true, Bool.false_eq_true, if_false]
  exact hsettled

end Release

/-- The release that the step takes has arrived. -/
def withoutRelease (s : State) : State := { s with eng.slrels := dropAt s.eng.slrels (s.op 0) }

section Steps
variable {s : State} {l : SlRel} (h : s.eng.slrels[s.op 0]? = some l)
include h

/-- A holder's release at its home. -/
theorem exec_sluiceRelease_of_sent (hk : l.kept = false) (hf : keyFenced s l.dom l.ns l.key = false) (hl : l.kill = false) :
    exec .sluiceRelease s = .next (releaseLanes (withoutRelease s) (slNum l.dom l.ns l.key) l.n) := by
  change execSluiceRelease s = _
  simp only [execSluiceRelease, h, hk, hf, hl, Bool.false_eq_true, if_false]
  rfl

theorem exec_sluiceRelease_of_fenced (hk : l.kept = false) (hf : keyFenced s l.dom l.ns l.key = true) :
    exec .sluiceRelease s = .next { s with eng.slrels := putAt s.eng.slrels (s.op 0) { l with kept := true } } := by
  change execSluiceRelease s = _
  simp only [execSluiceRelease, h, hk, hf, Bool.false_eq_true, if_true, if_false]
  rfl

theorem exec_releaseResend_of_kept (hk : l.kept = true) (hf : keyFenced s l.dom l.ns l.key = false) :
    exec .releaseResend s = .next { s with eng.slrels := putAt s.eng.slrels (s.op 0) { l with kept := false } } := by
  change execReleaseResend s = _
  simp only [execReleaseResend, h, hk, hf, Bool.not_false, Bool.and_self, if_true]
  rfl

end Steps

/-! ### Entries given up (R314) -/

theorem exec_sluiceEntryFree_of_fresh {s : State} {p : Nat × SlKey} (h : s.eng.keys[s.op 0]? = some p)
    (hp : { p.2 with used := 0, ovf := false, ix := 0 } = ({} : SlKey)) : exec .sluiceEntryFree s = .next (s.dropKey p.1) := by
  change execSluiceEntryFree s = _
  rw [execSluiceEntryFree, h]
  exact congrArg event (if_pos hp)

/-- Settles O34: each step's answer is named, and what it makes of the request or of the key is what the lemmas above say. -/
theorem sluiceHomeSteps : Obligations.SluiceHomeSteps := by
  unfold Obligations.SluiceHomeSteps
  intro s r l v p
  refine ⟨fun h hr hf hg hn hroute hi => ?_, fun h hr hf hg hn hi hroom => ⟨?_, fun ha hc => ?_⟩,
    fun h hr hf hg hn hi hfull => ?_,
    fun h hw hm hf he hk => ⟨fun hb hh hn => ?_, fun hb hp => ?_, fun hb => ?_⟩, fun h hw hm hs ht => ?_,
    fun h hk hf hv hh hl => ?_, fun h hk hf => ?_, fun h hk hf => ?_, fun h hp => ?_⟩
  · exact ⟨_, rfl, registerSl_of_incarnation ⟨h, hr, hf, hg, hn⟩ hroute hi⟩
  · exact ⟨_, rfl, registerSl_of_room ⟨h, hr, hf, hg, hn⟩ hi hroom⟩
  · exact ⟨_, exec_sluiceBufferRetry_of_due h ha hc, registerSl_of_room ⟨h, hr, hf, hg, hn⟩ hi hroom⟩
  · exact ⟨_, rfl, registerSl_of_full ⟨h, hr, hf, hg, hn⟩ hi hfull⟩
  · have hentry : (modSlReq s (s.op 0) (fun r => { r with granted := true })).slKey r.num = v := by
      rw [modSlReq_of_some h]
      exact slKey_of_entry hk
    have hexec := exec_sluiceGrant_of_enter h hk hw hm hf he
    rw [grantEnter_of_next hk hb hh hn] at hexec
    exact ⟨_, hexec, (congrArg (·[s.op 0]?) (putKey_slreqs ..)).trans (slreq_modSlReq h _),
      slKey_putKey_in_place hentry rfl rfl⟩
  · exact ⟨_, exec_sluiceGrant_of_enter h hk hw hm hf he, grantEnter_of_passed h hk hb hp⟩
  · exact ⟨_, exec_sluiceGrant_of_enter h hk hw hm hf he, grantEnter_of_broken h hk hb⟩
  · exact ⟨_, exec_slTimeout_of_late h hw hm hs ht, slreq_modSlReq h _⟩
  · have hentry : (withoutRelease s).slKey (slNum l.dom l.ns l.key) = v := hv
    have hexec := exec_sluiceRelease_of_sent h hk hf hl
    refine ⟨fun hn => ?_, fun hn hc hm => ?_⟩
    · rw [releaseLanes_of_part hentry hh hn] at hexec
      exact ⟨_, hexec, putKey_slrels .., slKey_putKey_in_place hentry rfl rfl⟩
    · rw [releaseLanes_of_last hentry hh hn hc hm] at hexec
      exact ⟨_, hexec, putKey_slrels .., slKey_putKey_in_place hentry rfl rfl⟩
  · exact ⟨_, exec_sluiceRelease_of_fenced h hk hf, getElem?_putAt _ h⟩
  · exact ⟨_, exec_releaseResend_of_kept h hk hf, getElem?_putAt _ h⟩
  · exact ⟨_, exec_sluiceEntryFree_of_fresh h hp, smFind_dropKey s p.1⟩

end Sys2Proof.SluiceProofs
end

section
/-! PROOFS. The lanes that sluice words name (R317, R319, R326, R327): masks of lanes and of slices, the lanes that an SLX finds not
held, the checks of an SLE. -/

namespace Sys2Proof.SluiceProofs
open Sys2Proof Sys2Proof.Machine

/-! ### Masks -/

/-- A bit of a union of masks. -/
theorem getLsbD_foldl_or {α : Type} {w : Nat} (f : α → BitVec w) (l : List α) (k : Nat) :
    (l.foldl (fun m a => m ||| f a) 0).getLsbD k = l.any (fun a => (f a).getLsbD k) := by
  have hfrom (acc : BitVec w) :
      (l.foldl (fun m a => m ||| f a) acc).getLsbD k = (acc.getLsbD k || l.any (fun a => (f a).getLsbD k)) := by
    induction l generalizing acc with
    | nil => simp
    | cons a l ih => rw [List.foldl_cons, ih, BitVec.getLsbD_or, List.any_cons, Bool.or_assoc]
  simp [hfrom]

theorem getLsbD_sliceMask (l : List Nat) {k : Nat} (hk : k < 8) : (sliceMask l).getLsbD k = decide (k ∈ l) := by
  have hbit (a : Nat) : ((1 : BitVec 8) <<< a).getLsbD k = decide (k = a) := by
    simp only [BitVec.getLsbD_shiftLeft, hk, decide_true, Bool.true_and]
    by_cases h : k = a
    · simp [h]
    · have hor : k < a ∨ k - a ≠ 0 := by omega
      rcases hor with h' | h' <;> simp [h, h']
  rw [sliceMask, getLsbD_foldl_or, Bool.eq_iff_iff]
  simp only [List.any_eq_true, hbit, decide_eq_true_eq, exists_eq_right']

theorem mem_grpSlices_iff {m : BitVec 8} {k : Nat} : k ∈ grpSlices m ↔ k < 8 ∧ m.getLsbD k = true := by
  simp [grpSlices]

theorem getLsbD_grpLanes (m : BitVec 8) {i : Nat} (hi : i < 32) : (grpLanes m).getLsbD i = m.getLsbD (i / 4) := by
  have hbit (k : Nat) : ((0xF : Word) <<< (4 * k)).getLsbD i = decide (i / 4 = k) := by
    have hlow (j : Nat) : (0xF : Word).getLsbD j = decide (j < 4) := by
      rw [show (0xF : Word) = BitVec.ofNat 32 (2 ^ 4 - 1) from rfl, BitVec.getLsbD_ofNat, Nat.testBit_two_pow_sub_one]
      by_cases hj : j < 4
      · simp [hj, show j < 32 by omega]
      · simp [hj]
    rw [BitVec.getLsbD_shiftLeft, hlow, Bool.eq_iff_iff]
    simp only [hi, decide_true, Bool.true_and, Bool.and_eq_true, Bool.not_eq_true', decide_eq_false_iff_not, decide_eq_true_eq]
    omega
  rw [grpLanes, getLsbD_foldl_or, Bool.eq_iff_iff]
  simp only [List.any_eq_true, hbit, decide_eq_true_eq, mem_grpSlices_iff]
  constructor
  · rintro ⟨k, ⟨-, hm⟩, rfl⟩
    exact hm
  · exact fun hm => ⟨_, ⟨by omega, hm⟩, rfl⟩

/-- The lanes of some slices of a gang, as lanes and as slices. -/
theorem lanesOf_eq_grpLanes {ls ks : List Nat} (h : ∀ i < 32, i ∈ ls ↔ i / 4 ∈ ks) : lanesOf ls = grpLanes (sliceMask ks) := by
  refine BitVec.eq_of_getLsbD_eq fun i hi => ?_
  rw [IntegerProofs.getLsbD_lanesOf ls hi, getLsbD_grpLanes _ hi, getLsbD_sliceMask ks (by omega)]
  exact decide_eq_decide.2 (h i hi)

/-! ### The lanes that an SLX finds not held (R319, R327) -/

/-- The slices of the group that hold no key. -/
def emptySlices (x : Cx) : List Nat := (grpSlices x.cur.grp).filter (fun k => (x.src.slice k).hold.isEmpty)

/-- The lanes of slice `k` whose newest level holds another key than v[a] names, with that key. -/
def otherKeys (x : Cx) (a k : Nat) : List (Nat × Word) :=
  (((x.src.slice k).hold.head?.map (fun h => h.pairs k)).getD []).filter (fun p => decide (p.2 ≠ x.v a p.1))

/-- Those lanes of the whole group. -/
def otherLanes (x : Cx) (a : Nat) : List (Nat × Word) := (grpSlices x.cur.grp).flatMap (otherKeys x a)

/-- Lane `i` with the key that v[a] names. -/
def namedLane (x : Cx) (a i : Nat) : SlLane := { lane := i, key := x.v a i, seq := 0 }

/-- The lanes of slice `k` that are not held as v[a] names them. -/
def notHeldIn (x : Cx) (a k : Nat) : List SlLane :=
  if (x.src.slice k).hold.isEmpty then (List.range 4).map (fun i => namedLane x a (4 * k + i))
  else (otherKeys x a k).map (fun p => namedLane x a p.1)

/-- The lanes of the slices that hold no key. -/
def emptyLanes (x : Cx) (a : Nat) : List SlLane := (emptySlices x).flatMap (notHeldIn x a)

theorem notHeld_eq (x : Cx) (a : Nat) : notHeld x a = (grpSlices x.cur.grp).flatMap (notHeldIn x a) := by
  refine congrArg (fun f => List.flatMap f (grpSlices x.cur.grp)) (funext fun k => ?_)
  unfold notHeldIn otherKeys
  cases (x.src.slice k).hold <;> rfl

theorem lane_of_mem_pairs {h : Hold} {k : Nat} {p : Nat × Word} (hp : p ∈ h.pairs k) : p.1 / 4 = k := by
  obtain ⟨i, hi, rfl⟩ := List.mem_map.1 hp
  have hlt := List.mem_range.1 (List.mem_filter.1 hi).1
  omega

theorem lane_of_mem_notHeldIn {x : Cx} {a k : Nat} {l : SlLane} (hl : l ∈ notHeldIn x a k) : l.lane / 4 = k := by
  unfold notHeldIn at hl
  split at hl
  · obtain ⟨i, hi, rfl⟩ := List.mem_map.1 hl
    have hlt := List.mem_range.1 hi
    simp only [namedLane]
    omega
  · obtain ⟨p, hp, rfl⟩ := List.mem_map.1 hl
    unfold otherKeys at hp
    cases hh : (x.src.slice k).hold with
    | nil => simp [hh] at hp
    | cons h hs =>
      rw [hh] at hp
      exact lane_of_mem_pairs (List.mem_filter.1 hp).1

/-- A filter that asks only which part an element comes from takes whole parts. -/
theorem filter_flatMap_of_parts {α β : Type} {g : α → List β} {p : β → Bool} {q : α → Bool} (ks : List α)
    (h : ∀ k, ∀ b ∈ g k, p b = q k) : (ks.flatMap g).filter p = (ks.filter q).flatMap g := by
  induction ks with
  | nil => rfl
  | cons k ks ih =>
    rw [List.flatMap_cons, List.filter_append, ih]
    cases hq : q k with
    | true => rw [List.filter_cons_of_pos hq, List.flatMap_cons, List.filter_eq_self.2 fun b hb => (h k b hb).trans hq]
    | false =>
      have hnone : (g k).filter p = [] := List.filter_eq_nil_iff.2 fun b hb => ne_true_of_eq_false ((h k b hb).trans hq)
      rw [List.filter_cons_of_neg (ne_true_of_eq_false hq), hnone]
      rfl

theorem notHeld_filter_empty (x : Cx) (a : Nat) :
    (notHeld x a).filter (fun l => (x.src.slice (l.lane / 4)).hold.isEmpty) = emptyLanes x a := by
  rw [notHeld_eq]
  exact filter_flatMap_of_parts _ fun k l hl => by rw [lane_of_mem_notHeldIn hl]

theorem notHeldIn_of_mem_emptySlices {x : Cx} {k : Nat} (a : Nat) (hk : k ∈ emptySlices x) :
    notHeldIn x a k = (List.range 4).map (fun i => namedLane x a (4 * k + i)) := if_pos (List.mem_filter.1 hk).2

theorem maskOfLanes_emptyLanes (x : Cx) (a : Nat) : maskOfLanes (emptyLanes x a) = grpLanes (sliceMask (emptySlices x)) := by
  refine lanesOf_eq_grpLanes fun i _ => ?_
  simp only [emptyLanes, List.mem_map, List.mem_flatMap]
  constructor
  · rintro ⟨l, ⟨k, hk, hl⟩, rfl⟩
    rwa [lane_of_mem_notHeldIn hl]
  · refine fun hk => ⟨namedLane x a i, ⟨i / 4, hk, ?_⟩, rfl⟩
    rw [notHeldIn_of_mem_emptySlices a hk]
    refine List.mem_map.2 ⟨i % 4, List.mem_range.2 (Nat.mod_lt _ (by decide)), ?_⟩
    rw [Nat.div_add_mod]

theorem notHeld_of_no_empty {x : Cx} (a : Nat) (h : emptySlices x = []) :
    notHeld x a = (otherLanes x a).map (fun p => namedLane x a p.1) := by
  rw [notHeld_eq, otherLanes, List.map_flatMap]
  exact List.flatMap_congr fun k hk => if_neg fun he => List.filter_eq_nil_iff.1 h k hk he

section Held
variable {x : Cx} {a : Nat} (h : ∀ k ∈ grpSlices x.cur.grp, ∃ l ls, (x.src.slice k).hold = l :: ls ∧
  ∀ i w, (i, w) ∈ l.pairs k → x.v a i = w)
include h

theorem emptySlices_of_held : emptySlices x = [] := List.filter_eq_nil_iff.2 fun k hk => by
  obtain ⟨l, ls, hl, -⟩ := h k hk
  simp [hl]

theorem otherKeys_of_held : otherLanes x a = [] := List.flatMap_eq_nil_iff.2 fun k hk => by
  obtain ⟨l, ls, hl, hkeys⟩ := h k hk
  rw [otherKeys, hl]
  exact List.filter_eq_nil_iff.2 fun p hp => by simp [hkeys p.1 p.2 hp]

end Held

/-! ### The checks of an SLE (R326) -/

/-- The lanes of slices whose stack is full; those whose key does not come after the first level's; those of batches with a
gap. -/
def fullLanes (x : Cx) (ls : List SlLane) : List SlLane :=
  ls.filter (fun l => decide (2 ≤ (x.src.slice (l.lane / 4)).hold.length))
def lowLanes (x : Cx) (ls : List SlLane) : List SlLane :=
  ls.filter (fun l => (firstHeld (x.src.slice (l.lane / 4)) l.lane).any (fun k => decide (l.key ≤ k)))
def gapLanes (ls : List SlLane) : List SlLane := ls.filter (fun l => !runsOk (batchOf ls l.key))

/-- The first lane that fails a check of the stacks. -/
def worstLane (x : Cx) (ls : List SlLane) : Option SlLane :=
  ls.find? (fun l => (fullLanes x ls).contains l || (lowLanes x ls).contains l)

/-- The requests of an SLE on the way. -/
def sleSent (s : State) (x : Cx) (m : BitVec 192) (ls : List SlLane) : State :=
  { s with eng.slreqs := s.eng.slreqs ++ (sleReqs x m ls).map (SlReq.sent s x.core) }

theorem sleIssue_eq (m : BitVec 192) (ls : List SlLane) (s : State) (x : Cx) : sleIssue m ls s x =
    if ((worstLane x ls).map (fun l => l.lane / 4)).any (fun k => (fullLanes x ls).any (fun l => decide (l.lane / 4 = k))) then
      .trap s (slTrap .slHoldOvf (fullLanes x ls))
    else if !(lowLanes x ls).isEmpty then .trap s (slTrap .slOrder (lowLanes x ls))
    else if !(gapLanes ls).isEmpty then .trap s (slTrap .slGap (gapLanes ls))
    else .block (sleSent s x m ls) := by
  have hlow : lowLanes x ls = ls.filter (fun l => match firstHeld (x.src.slice (l.lane / 4)) l.lane with
      | some k => decide (l.key ≤ k)
      | none => false) := by
    refine congrArg (fun p => List.filter p ls) (funext fun l => ?_)
    cases firstHeld (x.src.slice (l.lane / 4)) l.lane <;> rfl
  rw [worstLane, hlow]
  rfl

section Checks
variable {s : State} {x : Cx} {m : BitVec 192} {ls : List SlLane}

theorem worstLane_eq_none_iff : worstLane x ls = none ↔ fullLanes x ls = [] ∧ lowLanes x ls = [] := by
  have hfull (l) (hl : l ∈ fullLanes x ls) : l ∈ ls := (List.mem_filter.1 hl).1
  have hlow (l) (hl : l ∈ lowLanes x ls) : l ∈ ls := (List.mem_filter.1 hl).1
  simp only [worstLane, List.find?_eq_none, Bool.or_eq_true, List.contains_iff_mem, not_or, List.eq_nil_iff_forall_not_mem]
  exact ⟨fun h => ⟨fun l hl => (h l (hfull l hl)).1 hl, fun l hl => (h l (hlow l hl)).2 hl⟩, fun h l _ => ⟨h.1 l, h.2 l⟩⟩

theorem worstLane_of_ordered (hroom : ∀ l ∈ ls, (x.src.slice (l.lane / 4)).hold.length < 2)
    (hup : ∀ l ∈ ls, ∀ k, firstHeld (x.src.slice (l.lane / 4)) l.lane = some k → k < l.key) : worstLane x ls = none := by
  refine worstLane_eq_none_iff.2 ⟨List.filter_eq_nil_iff.2 fun l hl => ?_, List.filter_eq_nil_iff.2 fun l hl hlow => ?_⟩
  · simpa using hroom l hl
  · obtain ⟨k, hk, hle⟩ := (Option.any_eq_true _ _).1 hlow
    exact BitVec.not_le.2 (hup l hl k hk) (of_decide_eq_true hle)

theorem sleIssue_of_full {l : SlLane} (hw : worstLane x ls = some l) (hk : ∃ k ∈ fullLanes x ls, k.lane / 4 = l.lane / 4) :
    sleIssue m ls s x = .trap s (slTrap .slHoldOvf (fullLanes x ls)) := by
  rw [sleIssue_eq, hw]
  exact if_pos (by simpa using hk)

theorem sleIssue_of_low {l : SlLane} (hw : worstLane x ls = some l) (hk : ∀ k ∈ fullLanes x ls, k.lane / 4 ≠ l.lane / 4) :
    sleIssue m ls s x = .trap s (slTrap .slOrder (lowLanes x ls)) := by
  have hlow : lowLanes x ls ≠ [] := by
    have hbad := List.find?_some hw
    simp only [Bool.or_eq_true, List.contains_iff_mem] at hbad
    exact List.ne_nil_of_mem (hbad.resolve_left fun hl => hk l hl rfl)
  rw [sleIssue_eq, hw]
  exact (if_neg (by simpa using hk)).trans (if_pos (by simpa using hlow))

section Ordered
variable (hw : worstLane x ls = none)
include hw

theorem sleIssue_of_ordered : sleIssue m ls s x = if !(gapLanes ls).isEmpty then .trap s (slTrap .slGap (gapLanes ls))
    else .block (sleSent s x m ls) := by
  rw [sleIssue_eq, hw, (worstLane_eq_none_iff.1 hw).2]
  rfl

theorem sleIssue_of_gap (hg : gapLanes ls ≠ []) : sleIssue m ls s x = .trap s (slTrap .slGap (gapLanes ls)) :=
  (sleIssue_of_ordered hw).trans (if_pos (by simpa using hg))

theorem sleIssue_of_sound (hg : gapLanes ls = []) :
    sleIssue m ls s x = .block (sleSent s x m ls) :=
  (sleIssue_of_ordered hw).trans (if_neg (by simp [hg]))

end Ordered

theorem slLanes_eq_nil_iff {a b : Nat} : slLanes x a b = [] ↔ x.lanes = [] := List.map_eq_nil_iff

end Checks

end Sys2Proof.SluiceProofs
end

section
/-! PROOFS. The sluice words (O33): what a word that waits makes of its homes' answers, what each word answers at its first issue, then
the words. -/

namespace Sys2Proof.SluiceProofs
open Sys2Proof Sys2Proof.Machine Sys2Proof.ControlProofs Sys2Proof.AtomicProofs Sys2Proof.BarrierProofs

section Words
variable {s : State} {x : Cx} {c : Bool} {sc : Fin 32} {a b : Fin 64} {m : BitVec 192}

/-! ### The homes' answers (R323) -/

section Answer
variable {keep : State → List SlReq → State} {fin : State → List SlReq → Res}

theorem slMask_eq (s : State) (x : Cx) (p : SlReq → Bool) :
    slMask s x p = ((s.eng.slreqs.filter (mySl x)).filter p).foldl (fun m r => m ||| r.lanes) 0 := by
  rw [slMask, List.filter_filter]
  simp only [Bool.and_comm]

/-- A word whose requests have all been granted goes on. -/
theorem slAnswer_of_granted (h : ∀ r ∈ s.eng.slreqs.filter (mySl x), r.granted = true ∧ r.fail = none) :
    slAnswer s x keep fin = fin (dropMine s x) (s.eng.slreqs.filter (mySl x)) := by
  have hbad : slMask s x (fun r => r.fail.isSome) = 0 := by
    rw [slMask_eq, List.filter_eq_nil_iff.2 fun r hr => by simp [(h r hr).2]]
    rfl
  have hall : (s.eng.slreqs.filter (mySl x)).all (fun r => r.granted) = true := List.all_eq_true.2 fun r hr => (h r hr).1
  simp only [slAnswer, hbad, hall, ne_eq, not_true_eq_false, if_true, if_false]

theorem exists_lowest_lane {w : Word} (h : w ≠ 0) : ∃ i, (List.range 32).find? (fun i => w.getLsbD i) = some i := by
  refine Option.isSome_iff_exists.1 (List.find?_isSome.2 ?_)
  by_contra hno
  refine h (BitVec.eq_of_getLsbD_eq fun i hi => ?_)
  rw [eq_false_of_ne_true fun hb => hno ⟨i, List.mem_range.2 hi, hb⟩]
  exact BitVec.getLsbD_zero.symm

theorem find?_eq_some_of_only {α : Type} {p : α → Bool} {l : List α} {a : α} (ha : a ∈ l) (hp : p a = true)
    (honly : ∀ b ∈ l, p b = true → b = a) : l.find? p = some a := by
  obtain ⟨b, hb⟩ := Option.isSome_iff_exists.1 (List.find?_isSome.2 ⟨a, ha, hp⟩)
  rw [hb, honly b (List.mem_of_find?_eq_some hb) (List.find?_some hb)]

theorem lanes_ne_zero_of_mySl {r : SlReq} (h : mySl x r = true) : r.lanes ≠ 0 := of_decide_eq_true (Bool.and_eq_true_iff.1 h).2

section Failed
variable {r : SlReq} {k : Cause} (hr : r ∈ s.eng.slreqs.filter (mySl x)) (hf : r.fail = some k)
  (hone : ∀ q ∈ s.eng.slreqs.filter (mySl x), q ≠ r → q.fail = none)
include hone

theorem eq_of_failed {q : SlReq} (hq : q ∈ s.eng.slreqs.filter (mySl x)) (h : q.fail.isSome = true) : q = r := by
  by_contra hne
  rw [hone q hq hne] at h
  cases h

include hr hf

theorem slMask_of_failed : slMask s x (fun q => q.fail.isSome) = r.lanes := by
  refine BitVec.eq_of_getLsbD_eq fun i _ => ?_
  rw [slMask_eq, getLsbD_foldl_or, Bool.eq_iff_iff, List.any_eq_true]
  constructor
  · rintro ⟨q, hq, hi⟩
    obtain ⟨hq, hs⟩ := List.mem_filter.1 hq
    rwa [← eq_of_failed hone hq hs]
  · exact fun hi => ⟨r, List.mem_filter.2 ⟨hr, by rw [hf]; rfl⟩, hi⟩

theorem find_of_failed {i : Nat} (hi : r.lanes.getLsbD i = true) : (s.eng.slreqs.filter (mySl x)).find?
    (fun q => q.fail.isSome && (some i).any (fun i => q.lanes.getLsbD i)) = some r :=
  find?_eq_some_of_only hr (by rw [hf]; exact hi) fun q hq h => eq_of_failed hone hq (Bool.and_eq_true_iff.1 h).1

/-- The only batch that has failed, with a cause of the sluice itself, raises it with its own lanes and key. -/
theorem slAnswer_of_failed (hh : k ≠ .homeFenced) (hi : k ≠ .incarnation) (hu : k ≠ .fabUncorr) :
    slAnswer s x keep fin = .trap (keep (dropMine s x) ((s.eng.slreqs.filter (mySl x)).filter (fun q => q.granted)))
      { cause := k, lanes := r.lanes, detail := r.key } := by
  have hlanes := lanes_ne_zero_of_mySl (List.mem_filter.1 hr).2
  obtain ⟨i, hlow⟩ := exists_lowest_lane hlanes
  have hfound := find_of_failed hr hf hone (List.find?_some hlow)
  simp only [slAnswer, slMask_of_failed hr hf hone, hlow, hfound, hf, hlanes, hh, hi, hu, ne_eq, not_false_eq_true, or_self,
    if_true, if_false, Option.bind_some, Option.map_some, Option.getD_some]

end Failed

end Answer

/-! ### SLE (R326) -/

theorem sleKept_eq (x : Cx) (st : State) (rs : List SlReq) : sleKept x st rs = if rs = [] then st else sleDone x st rs := by
  cases rs <;> rfl

theorem exec_sle_of_retry (hi : Issues s x (.sle c sc a b)) (ht : x.cur.retry = true) : exec (.sle c sc a b) s =
    .next (finish x (slAnswer s x (sleKept x) (fun st rs => .done (sleDone x st rs)))) :=
  exec_of_issues hi (by rfl) (if_pos ht)

theorem exec_sle_of_no_scope (hi : Issues s x (.sle c sc a b)) (ht : x.cur.retry = false) (hm : x.scopeSet s sc = none) :
    exec (.sle c sc a b) s = .next (finish x (.trap s (scopeTrap x sc))) := by
  refine exec_of_issues hi (by rfl) ?_
  simp only [sleBody, ht, hm, Bool.false_eq_true, if_false]

theorem exec_sle_of_scope (hi : Issues s x (.sle c sc a b)) (hm : x.scopeSet s sc = some m) (ht : x.cur.retry = false)
    (hp : slxPending s x = false) : exec (.sle c sc a b) s = .next (finish x
      (if x.lanes.isEmpty then .done (acquire s x.core (wideSet m x.core)) else sleIssue m (slLanes x a b) s x)) := by
  refine exec_of_issues hi (by rfl) ?_
  simp only [sleBody, ht, hm, hp, Bool.false_eq_true, if_false]

/-- A lane keeps an SLE from passing over its checks. -/
theorem exec_sle_of_lanes (hi : Issues s x (.sle c sc a b)) (hm : x.scopeSet s sc = some m) (ht : x.cur.retry = false)
    (hp : slxPending s x = false) (hl : slLanes x a b ≠ []) :
    exec (.sle c sc a b) s = .next (finish x (sleIssue m (slLanes x a b) s x)) := by
  have hlanes : ¬ x.lanes.isEmpty = true := by simpa [slLanes_eq_nil_iff] using hl
  exact exec_trans (exec_sle_of_scope hi hm ht hp) (if_neg hlanes)

/-! ### SLX (R327) -/

theorem exec_slx_of_no_scope (hi : Issues s x (.slx c sc a)) (hm : x.scopeSet s sc = none) :
    exec (.slx c sc a) s = .next (finish x (.trap s (scopeTrap x sc))) := by
  refine exec_of_issues hi (by rfl) ?_
  simp only [slxBody, hm]

/-- The newest levels gone, their releases on the way. -/
def slxDone (s : State) (x : Cx) : State :=
  { s.modSl x (fun _ sl => { sl with hold := sl.hold.tail }) with eng.slrels := s.eng.slrels ++ slxRels x }

section Released
variable (hi : Issues s x (.slx c sc a)) (hm : x.scopeSet s sc = some m)
  (hr : release s x.cur.gang x.core x.dom x.cur.grp (wideSet m x.core) = .ok)
include hi hm hr

/-- An SLX that has made its release looks for lanes that are not held. -/
theorem exec_slx_of_released : exec (.slx c sc a) s = .next (finish x
    (if !(emptyLanes x a).isEmpty then .trap s (slTrap .slNotheld (emptyLanes x a))
    else if !(notHeld x a).isEmpty then .trap s (slTrap .slNotheld (notHeld x a))
    else .done (slxDone s x))) := by
  refine exec_of_issues hi (by rfl) ?_
  simp only [slxBody, hm, notHeld_filter_empty]
  exact afterRelease_of_ok hr

theorem exec_slx_of_empty {k : Nat} {ks : List Nat} (he : emptySlices x = k :: ks) :
    exec (.slx c sc a) s = .next (finish x (.trap s
      { cause := .slNotheld, lanes := grpLanes (sliceMask (emptySlices x)), detail := x.v a (4 * k) })) := by
  have hfirst : ∃ ls, emptyLanes x a = namedLane x a (4 * k) :: ls := by
    rw [emptyLanes, he, List.flatMap_cons, notHeldIn_of_mem_emptySlices a (by rw [he]; exact List.mem_cons_self)]
    exact ⟨_, rfl⟩
  obtain ⟨ls, hls⟩ := hfirst
  refine exec_trans (exec_slx_of_released hi hm hr) ((if_pos (by rw [hls]; rfl)).trans ?_)
  rw [slTrap, maskOfLanes_emptyLanes, hls]
  rfl

section Full
variable (he : emptySlices x = [])
include he

theorem exec_slx_of_no_empty : exec (.slx c sc a) s = .next (finish x
    (if !(notHeld x a).isEmpty then .trap s (slTrap .slNotheld (notHeld x a)) else .done (slxDone s x))) :=
  exec_trans (exec_slx_of_released hi hm hr) (if_neg (by simp [emptyLanes, he]))

theorem exec_slx_of_other {p : Nat × Word} {ps : List (Nat × Word)} (ho : otherLanes x a = p :: ps) :
    exec (.slx c sc a) s = .next (finish x (.trap s
      { cause := .slNotheld, lanes := lanesOf ((otherLanes x a).map (fun p => p.1)), detail := x.v a p.1 })) := by
  have hsome : (!(notHeld x a).isEmpty) = true := by
    rw [notHeld_of_no_empty a he, ho]
    rfl
  refine exec_trans (exec_slx_of_no_empty hi hm hr he) ((if_pos hsome).trans ?_)
  rw [slTrap, maskOfLanes, notHeld_of_no_empty a he, List.map_map, ho]
  rfl

theorem exec_slx_of_held (ho : otherLanes x a = []) : exec (.slx c sc a) s = .next (finish x (.done (slxDone s x))) := by
  refine exec_trans (exec_slx_of_no_empty hi hm hr he) (if_neg ?_)
  rw [notHeld_of_no_empty a he, ho]
  exact Bool.false_ne_true

end Full

end Released

/-! ### SLINIT and SLCLOSE (R328, R329) -/

/-- The request of one lane. -/
def laneReq (x : Cx) (k : SlKind) (skip : Bool) (l : SlLane) : SlReq :=
  { kind := k, dom := x.dom, key := l.key, first := l.seq, n := 1, gang := x.cur.gang, pc := x.cur.pc, grp := x.cur.grp,
    lanes := maskOfLanes [l], skip := skip }

theorem exec_slEach {i : Instr} {k : SlKind} {p : Fin 2}
    (hk : (i = .slinit c a b p ∧ k = .init) ∨ (i = .slclose c a b ∧ k = .close))
    (hi : Issues s x i) : exec i s = .next (finish x (slEach k a b (decide (k = .init) && decide (p.val = 1)) s x)) := by
  rcases hk with ⟨rfl, rfl⟩ | ⟨rfl, rfl⟩
  · exact exec_of_issues hi (by rfl) rfl
  · exact exec_of_issues hi (by rfl) rfl

theorem slEach_of_first {k : SlKind} {skip : Bool} (ht : x.cur.retry = false) (hp : slxPending s x = false) :
    slEach k a b skip s x = if x.lanes.isEmpty then .done s
      else .block { s with
        eng.slreqs := s.eng.slreqs ++ (slLanes x a b).map (fun l => SlReq.sent s x.core (laneReq x k skip l)) } := by
  simp only [slEach, ht, hp, Bool.false_eq_true, if_false]
  rfl

/-! ### SLQ (R330) -/

/-- The two registers of lane `l` that SLQ writes, flags above the next sequence. -/
def slqPair (s : State) (x : Cx) (a l : Nat) : DWord :=
  slFlags s (slNum x.dom 0 (x.v a l)) ++ (s.slKey (slNum x.dom 0 (x.v a l))).ne

theorem loW_append (u v : Word) : loW (u ++ v) = v := BitVec.extractLsb'_append_eq_right

theorem hiW_append (u v : Word) : hiW (u ++ v) = u := BitVec.extractLsb'_append_eq_left

theorem twoV_slqPair (r l : Nat) : x.twoV b (slqPair s x a) r l =
    if l ∈ x.lanes then (if r = b.val + 1 then some (slFlags s (slNum x.dom 0 (x.v a l)))
      else if r = b.val then some (s.slKey (slNum x.dom 0 (x.v a l))).ne else none) else none := by
  have hlow : (slqPair s x a l).extractLsb' 0 32 = (s.slKey (slNum x.dom 0 (x.v a l))).ne := loW_append ..
  have hhigh : (slqPair s x a l).extractLsb' 32 32 = slFlags s (slNum x.dom 0 (x.v a l)) := hiW_append ..
  rw [Cx.twoV, hlow, hhigh]
  by_cases hr : r = b.val
  · have hne : r ≠ b.val + 1 := by omega
    rw [if_pos hr, if_neg hne, if_pos hr]
  · rw [if_neg hr, if_neg hr]

theorem doesV_slq (hi : Issues s x (.slq c a b)) (hf : ∀ l ∈ x.lanes, keyFenced s x.dom 0 (x.v a l) = false) :
    DoesV s x (.slq c a b) (x.twoV b (slqPair s x a)) := by
  have hopen : x.lanes.filter (fun i => keyFenced s x.dom 0 (x.v a i)) = [] :=
    List.filter_eq_nil_iff.2 fun l hl => ne_true_of_eq_false (hf l hl)
  refine doesV_vecOp2 s x _ b (fun y l => slqPair s y a l) hi
    ((exec_of_issues hi (by rfl) ?_).trans (issue_of _ s x _ hi).symm)
  simp only [hopen, vecOp2, slqPair, loW_append, hiW_append]

theorem exec_slq_of_fenced (hi : Issues s x (.slq c a b)) {l : Nat} {ls : List Nat}
    (hb : x.lanes.filter (fun i => keyFenced s x.dom 0 (x.v a i)) = l :: ls) :
    exec (.slq c a b) s = .next (finish x (.trap s
      { cause := .homeFenced, lanes := lanesOf (x.lanes.filter (fun i => keyFenced s x.dom 0 (x.v a i))),
        detail := BitVec.ofNat 32 (keyDie x.dom 0 (x.v a l)) })) := by
  refine exec_of_issues hi (by rfl) ?_
  simp only [hb]

end Words

/-- Settles O33: each word's answer by its checks at the first issue, and by its homes' answers after a wait. -/
theorem sluiceWords : Obligations.SluiceWords := by
  unfold Obligations.SluiceWords
  intro s x c sc a b p m
  refine ⟨fun hi ht hg => ?_, fun hi hm ht hp hl => ?_, fun hi hm ht hp hok hl => ?_, fun hi ht hm => ?_, fun hi hm => ?_,
    fun hi hm ht hp => ⟨fun l hw hk => ?_, fun l hw hk => ?_, fun hw hgap => ?_⟩,
    fun hi hm hr => ⟨fun k ks he => ?_, fun q qs he ho => ?_⟩,
    fun r k hi ht hr hf hone hh hinc hu => ?_, fun hi hm hr hheld => ?_,
    fun i k hk hi => ⟨fun ht hg => ?_, fun ht hp hl => ?_, fun ht hp hl => ?_⟩, fun hi hf => ?_, fun hi l ls hb => ?_⟩
  · exact exec_trans (exec_sle_of_retry hi ht) (slAnswer_of_granted hg)
  · exact exec_trans (exec_sle_of_scope hi hm ht hp) (if_pos (by simp [hl]))
  · have hworst := worstLane_of_ordered (fun l hl => (hok l hl).1) (fun l hl => (hok l hl).2.2)
    have hgap : gapLanes (slLanes x a b) = [] := List.filter_eq_nil_iff.2 fun l hl => by simp [(hok l hl).2.1]
    exact exec_trans (exec_sle_of_lanes hi hm ht hp fun h => hl (slLanes_eq_nil_iff.1 h)) (sleIssue_of_sound hworst hgap)
  · exact exec_sle_of_no_scope hi ht hm
  · exact exec_slx_of_no_scope hi hm
  · exact exec_trans (exec_sle_of_lanes hi hm ht hp (List.ne_nil_of_mem (List.mem_of_find?_eq_some hw))) (sleIssue_of_full hw hk)
  · exact exec_trans (exec_sle_of_lanes hi hm ht hp (List.ne_nil_of_mem (List.mem_of_find?_eq_some hw))) (sleIssue_of_low hw hk)
  · exact exec_trans (exec_sle_of_lanes hi hm ht hp fun h => hgap (by rw [h]; rfl)) (sleIssue_of_gap hw hgap)
  · exact exec_slx_of_empty hi hm hr he
  · exact exec_slx_of_other hi hm hr he ho
  · exact exec_trans (exec_sle_of_retry hi ht)
      ((slAnswer_of_failed hr hf hone hh hinc hu).trans (congrArg (Res.trap · _) (sleKept_eq ..)))
  · exact exec_slx_of_held hi hm hr (emptySlices_of_held hheld) (otherKeys_of_held hheld)
  · exact exec_trans (exec_slEach hk hi) ((if_pos ht).trans (slAnswer_of_granted hg))
  · exact exec_trans (exec_slEach hk hi) ((slEach_of_first ht hp).trans (if_pos (by simp [hl])))
  · exact exec_trans (exec_slEach hk hi) ((slEach_of_first ht hp).trans (if_neg (by simp [hl])))
  · have hres := doesV_slq hi hf
    rwa [show x.twoV b (slqPair s x a) = _ from funext fun r => funext fun l => twoV_slqPair r l] at hres
  · exact exec_slq_of_fenced hi hb

end Sys2Proof.SluiceProofs
end

section
/-! PROOFS. The copy words (O35): what a word's checks answer, in their order, then the copy that a word which passes them
forks. -/

namespace Sys2Proof.CopyProofs
open Sys2Proof Sys2Proof.Machine Sys2Proof.ControlProofs Sys2Proof.MatrixProofs Sys2Proof.BarrierProofs

/-! ### The checks at issue (R358) -/

/-- The copy words, each with its bytes per lane (0 in the tile form) and its FLG. -/
def copyForms (c : Bool) (z : Fin 4) (z8 sp d : Fin 8) (a b : Fin 64) (r : Fin 16) : List (Instr × Nat × Nat) :=
  [(.cp c z sp d a b r, cpBytes z.val, 0), (.cpt c sp d a b r, 0, 0), (.cpx c z8 sp d a b r, cpBytes z8.val, 1),
   (.cpm c z sp d a b r, cpBytes z.val, 2), (.cpe c z8 sp d a b r, cpBytes z8.val, 3)]

theorem exec_of_copyForm {s : State} {x : Cx} {c : Bool} {z : Fin 4} {z8 sp d : Fin 8} {a b : Fin 64} {r : Fin 16}
    {w : Instr × Nat × Nat} (hw : w ∈ copyForms c z z8 sp d a b r) (hi : Issues s x w.1) :
    exec w.1 s = .next (finish x (copyBody w.2.1 sp d a b r w.2.2 s x)) := by
  simp only [copyForms, List.mem_cons, List.not_mem_nil, or_false] at hw
  rcases hw with rfl | rfl | rfl | rfl | rfl <;> exact exec_of_issues hi (by rfl) rfl

/-- The parts of a copy word. -/
def copyParts (s : State) (x : Cx) (n sp d a b : Nat) : List CpPart :=
  if n = 0 then tileParts s x sp d (tileD x a) (tileD x b) else laneParts s x n sp d a b

/-- The parts as a CPE translates them, each with its lane: a tile's under lane 0 (R350). -/
def lanedParts (s : State) (x : Cx) (n sp d a b : Nat) : List (Nat × CpPart) :=
  if n = 0 then (copyParts s x n sp d a b).map (fun p => (0, p)) else x.lanes.zip (copyParts s x n sp d a b)

/-- The check `c` of every lane of the group, failed where `p` holds. -/
def trapIf (x : Cx) (c : Cause) (p : Bool) : Option TrapReq :=
  if p then some { cause := c, lanes := grpLanes x.cur.grp } else none

/-- The checks at issue in R358's order: the first that fails is the word's trap. -/
def copyChecks (s : State) (x : Cx) (n sp d a b flg : Nat) : List (Option TrapReq) :=
  [trapIf x .cpSpaces (spacesBad sp d flg),
   trapIf x .cpSize (decide (flg = 2) && decide (n = 0)),
   if n = 0 then tileChecks s x sp d (tileD x a) (tileD x b) else none,
   trapIf x .cpMcast (decide (flg = 2) && maskBad x (x.s2 60)),
   if n = 0 then none else copyLaneChecks s x n sp d a b,
   trapIf x .cpEnq (decide (flg = 3) && enqBad x),
   if flg = 3 then partTrap x (decide (n = 0)) (partChecks s x sp d (lanedParts s x n sp d a b)) else none]

/-- The first of a word's checks that fails, if one does. -/
def firstCheck (s : State) (x : Cx) (n sp d a b flg : Nat) : Option TrapReq := (copyChecks s x n sp d a b flg).findSome? id

/-- The copy that a word names, before its fork. -/
def namedCopy (n sp d r flg : Nat) : Copy := { flg := flg, tile := decide (n = 0), sps := sp, spd := d, bar := r }

/-- What a word comes to whose checks all pass. -/
def copyPassed (s : State) (x : Cx) (n sp d a b r flg : Nat) : Res :=
  if wordAway s x (decide (n = 0)) sp d a b (tileD x a) (tileD x b) then .hold s
  else if flg = 3 then
    (match enqTarget s x with
     | none => .hold s
     | some e => forkCopy (fillParts s x sp d (copyParts s x n sp d a b)) x (namedCopy n sp d r flg) 0 (some e)
         (copyParts s x n sp d a b))
  else forkCopy s x (namedCopy n sp d r flg) (if flg = 2 then (x.s2 60).toNat else 0) none (copyParts s x n sp d a b)

theorem elim_findSome?_cons {α β : Type} (o : Option α) (l : List (Option α)) (r : β) (f : α → β) :
    ((o :: l).findSome? id).elim r f = o.elim ((l.findSome? id).elim r f) f := by
  cases o <;> rfl

theorem elim_trapIf (s : State) (x : Cx) (c : Cause) (p : Bool) (r : Res) :
    (trapIf x c p).elim r (.trap s) = if p then .trap s { cause := c, lanes := grpLanes x.cur.grp } else r := by
  cases p <;> rfl

/-- The order of the checks is R358's. -/
theorem copyBody_eq (s : State) (x : Cx) (n sp d a b r flg : Nat) : copyBody n sp d a b r flg s x =
    (firstCheck s x n sp d a b flg).elim (copyPassed s x n sp d a b r flg) (.trap s) := by
  simp only [firstCheck, copyChecks, elim_findSome?_cons, elim_trapIf, copyBody, decide_eq_true_eq]
  refine if_congr Iff.rfl rfl (if_congr Iff.rfl rfl ?_)
  cases (if n = 0 then tileChecks s x sp d (tileD x a) (tileD x b) else none) with
  | some t => rfl
  | none =>
    refine if_congr Iff.rfl rfl ?_
    cases (if n = 0 then none else copyLaneChecks s x n sp d a b) with
    | some t => rfl
    | none =>
      by_cases hf : flg = 3
      · simp only [hf, copyPassed, lanedParts, copyParts, ne_eq, not_true_eq_false, if_false, if_true, decide_true, Bool.true_and]
        refine if_congr Iff.rfl rfl ?_
        generalize partTrap x _ _ = o
        cases o <;> rfl
      · simp only [hf, copyPassed, ne_eq, not_false_eq_true, if_false, if_true, decide_false, Bool.false_and]
        rfl

/-- A check that one form of a word has alone. -/
theorem check_of_form {p : Prop} [Decidable p] {b : Bool} (h : p → b = false) : (decide p && b) = false := by
  simpa using h

section Order
variable {s : State} {x : Cx} {n sp d a b flg : Nat} {t : TrapReq}

theorem firstCheck_of_spaces (h : spacesBad sp d flg = true) :
    firstCheck s x n sp d a b flg = some { cause := .cpSpaces, lanes := grpLanes x.cur.grp } := by
  simp only [firstCheck, copyChecks, h]
  rfl

variable (hs : spacesBad sp d flg = false)
include hs

theorem firstCheck_of_size (hf : flg = 2) (hn : n = 0) :
    firstCheck s x n sp d a b flg = some { cause := .cpSize, lanes := grpLanes x.cur.grp } := by
  simp only [firstCheck, copyChecks, hs, decide_eq_true hf, decide_eq_true hn]
  rfl

variable (hz : (decide (flg = 2) && decide (n = 0)) = false)
include hz

theorem firstCheck_of_tile (h : (if n = 0 then tileChecks s x sp d (tileD x a) (tileD x b) else none) = some t) :
    firstCheck s x n sp d a b flg = some t := by
  simp only [firstCheck, copyChecks, hs, hz, h]
  rfl

variable (ht : (if n = 0 then tileChecks s x sp d (tileD x a) (tileD x b) else none) = none)
include ht

theorem firstCheck_of_mask (hm : (decide (flg = 2) && maskBad x (x.s2 60)) = true) :
    firstCheck s x n sp d a b flg = some { cause := .cpMcast, lanes := grpLanes x.cur.grp } := by
  simp only [firstCheck, copyChecks, hs, hz, ht, hm]
  rfl

variable (hm : (decide (flg = 2) && maskBad x (x.s2 60)) = false)
include hm

theorem firstCheck_of_lane (h : (if n = 0 then none else copyLaneChecks s x n sp d a b) = some t) :
    firstCheck s x n sp d a b flg = some t := by
  simp only [firstCheck, copyChecks, hs, hz, ht, hm, h]
  rfl

variable (hl : (if n = 0 then none else copyLaneChecks s x n sp d a b) = none)
include hl

/-- Past the lanes' checks, CPE alone has more: its enqueue and its translations. -/
theorem firstCheck_eq_of_lanes : firstCheck s x n sp d a b flg = [trapIf x .cpEnq (decide (flg = 3) && enqBad x),
    if flg = 3 then partTrap x (decide (n = 0)) (partChecks s x sp d (lanedParts s x n sp d a b)) else none].findSome? id := by
  simp only [firstCheck, copyChecks, hs, hz, ht, hm, hl]
  rfl

theorem firstCheck_eq_none_of_lanes (hf : flg ≠ 3) : firstCheck s x n sp d a b flg = none := by
  rw [firstCheck_eq_of_lanes hs hz ht hm hl, if_neg hf, decide_eq_false hf]
  rfl

variable (hf : flg = 3)
include hf

theorem firstCheck_of_enqueue (h : enqBad x = true) :
    firstCheck s x n sp d a b flg = some { cause := .cpEnq, lanes := grpLanes x.cur.grp } := by
  rw [firstCheck_eq_of_lanes hs hz ht hm hl, h, decide_eq_true hf]
  rfl

theorem firstCheck_of_translation {o : Option TrapReq} (hb : enqBad x = false)
    (h : partTrap x (decide (n = 0)) (partChecks s x sp d (lanedParts s x n sp d a b)) = o) :
    firstCheck s x n sp d a b flg = o := by
  rw [firstCheck_eq_of_lanes hs hz ht hm hl, hb, if_pos hf, h, Bool.and_false]
  cases o <;> rfl

end Order

section Checks
variable {s : State} {x : Cx} {i : Instr} {n sp d a b r flg : Nat}
  (he : exec i s = .next (finish x (copyBody n sp d a b r flg s x)))
include he

theorem traps_of_check {t : TrapReq} (h : firstCheck s x n sp d a b flg = some t) : Traps s x i s t :=
  exec_trans he (by rw [copyBody_eq, h]; rfl)

theorem exec_of_checks (h : firstCheck s x n sp d a b flg = none) :
    exec i s = .next (finish x (copyPassed s x n sp d a b r flg)) :=
  exec_trans he (by rw [copyBody_eq, h]; rfl)

end Checks

/-! ### The fork (R332, R345, R353) -/

/-- The state without the memory path. -/
def offCoh (s : State) : State := { s with coh := {} }

theorem fillTlb_offCoh (s : State) (core dom va : Nat) : offCoh (fillTlb s core dom va) = offCoh s := by
  unfold fillTlb
  split
  · rfl
  · split <;> rfl

/-- A CPE's translations fill TLBs only (R350). -/
theorem fillParts_offCoh (s : State) (x : Cx) (sp d : Nat) (ps : List CpPart) : offCoh (fillParts s x sp d ps) = offCoh s := by
  refine foldl_keeps _ offCoh (fun s p => ?_) ps s
  dsimp only
  split <;> split <;> simp only [fillTlb_offCoh]

/-- The entry of a copy forked with the parts `ps`. -/
def forkedCopy (x : Cx) (c : Copy) (mask : Nat) (enq : Option (Word × Nat × Nat × Nat)) (ps : List CpPart) : CopyX :=
  { c := { c with gang := x.cur.gang, core := x.core, dom := x.dom, lines := partLines ps, need := srcBlocks ps },
    mask := mask, enq := enq, ranges := cpRanges c.spd ps, total := 4 * (dstWords ps).length }

/-- The state with the copy `p` in flight, counted against its barrier. -/
def forked (s : State) (x : Cx) (p : CopyX) : State :=
  bindCopy { s with work.next := s.work.next + 1, eng.copies := smSet s.eng.copies s.work.next p } x.crewNo x.gang.ix p.c.bar

/-- The copy `k` in the gang's follow-on latch (R353). -/
def latched (s : State) (x : Cx) (k : Nat) : State :=
  s.modGang x.cur.gang (fun g => { g with latch := { g.latch with armed := true, copies := g.latch.copies ++ [k] } })

/-- The state after the fork: a CPX's copy is in the latch too. -/
def forkDone (s : State) (x : Cx) (p : CopyX) : State :=
  if p.c.flg = 1 then latched (forked s x p) x s.work.next else forked s x p

/-- With room in the scoreboards and the latch a copy is forked at once (R345, R353). -/
theorem forkCopy_of_room {u : State} {x : Cx} {c : Copy} {mask : Nat} {enq : Option (Word × Nat × Nat × Nat)} {ps : List CpPart}
    (hr : ∀ q ∈ cpRanges c.spd ps, scoreUsed u q.1 < 32) (hl : c.flg = 1 → x.gang.latch.copies.length < 8) :
    forkCopy u x c mask enq ps = .done (forkDone u x (forkedCopy x c mask enq ps)) := by
  have hscore : (cpRanges c.spd ps).any (fun q => decide (32 ≤ scoreUsed u q.1)) = false :=
    List.any_eq_false.2 fun q hq => by simpa using hr q hq
  have hlatch : (decide (c.flg = 1) && decide (8 ≤ x.gang.latch.copies.length)) = false := by simpa using hl
  simp only [forkCopy, hscore, hlatch, Bool.false_eq_true, if_false]
  rfl

/-- What reads neither the control state, the latch nor the memory path reads the fork's entries only. -/
theorem finish_forkDone {β : Type} (read : State → β) (hstill : ∀ s gk, read (s.still gk) = read s)
    (hlatch : ∀ s x k, read (latched s x k) = read s) (hcoh : ∀ s, read (offCoh s) = read s) {s u : State}
    (hu : offCoh u = offCoh s) (x : Cx) (p : CopyX) : read (finish x (.done (forkDone u x p))) = read (forked s x p) := by
  have hdone : read (forkDone u x p) = read (forked u x p) := by
    unfold forkDone
    split
    · exact hlatch ..
    · rfl
  calc read (finish x (.done (forkDone u x p))) = read (forked u x p) := (finish_keeps read hstill ..).trans hdone
    _ = read (forked (offCoh u) x p) := (hcoh _).symm
    _ = read (forked (offCoh s) x p) := by rw [hu]
    _ = read (forked s x p) := hcoh (forked s x p)

theorem unbound_forked (s : State) (x : Cx) (p : CopyX) :
    smGet 0 ((forked s x p).ceng x.crewNo).unbound (ubKey x.gang.ix p.c.bar) =
    smGet 0 (s.ceng x.crewNo).unbound (ubKey x.gang.ix p.c.bar) + 1 := by
  rw [forked, bindCopy, State.ceng_modCeng_self, smGet_smPut, if_pos rfl]
  rfl

/-- The word `i` forks one copy, of its parts and counted against barrier `r`; memory and the other copies stand. The new state and
the copy have the property `q`. -/
def Forks (s : State) (x : Cx) (i : Instr) (n sp d a b r flg : Nat) (q : State → CopyX → Prop) : Prop :=
  ∃ t p, exec i s = .next t ∧
    smFind t.eng.copies s.work.next = some p ∧ t.work.next = s.work.next + 1 ∧ t.mem = s.mem ∧ t.poison = s.poison ∧
    (∀ k, k ≠ s.work.next → smFind t.eng.copies k = smFind s.eng.copies k) ∧
    smGet 0 (t.ceng x.crewNo).unbound (ubKey x.gang.ix r) = smGet 0 (s.ceng x.crewNo).unbound (ubKey x.gang.ix r) + 1 ∧
    p.c.flg = flg ∧ p.c.sps = sp ∧ p.c.spd = d ∧ p.c.bar = r ∧ p.c.gang = x.cur.gang ∧
    p.c.tile = decide (n = 0) ∧ p.c.lines = partLines (copyParts s x n sp d a b) ∧ p.c.fail = none ∧ p.landed = 0 ∧
    p.total = 4 * (dstWords (copyParts s x n sp d a b)).length ∧ q t p

theorem forks_of_forkDone {s u : State} {x : Cx} {i : Instr} {n sp d a b r flg mask : Nat}
    {enq : Option (Word × Nat × Nat × Nat)} {p : CopyX} (hu : offCoh u = offCoh s)
    (hp : p = forkedCopy x (namedCopy n sp d r flg) mask enq (copyParts s x n sp d a b))
    (he : exec i s = .next (finish x (.done (forkDone u x p)))) {q : State → CopyX → Prop}
    (hq : q (finish x (.done (forkDone u x p))) p) : Forks s x i n sp d a b r flg q := by
  have hcopies : (finish x (.done (forkDone u x p))).eng.copies = smSet s.eng.copies s.work.next p :=
    finish_forkDone (fun s => s.eng.copies) (fun _ _ => rfl) (fun _ _ _ => rfl) (fun _ => rfl) hu x p
  refine ⟨_, p, he, ?_, finish_forkDone (fun s => s.work.next) (fun _ _ => rfl) (fun _ _ _ => rfl) (fun _ => rfl) hu x p,
    finish_forkDone State.mem (fun _ _ => rfl) (fun _ _ _ => rfl) (fun _ => rfl) hu x p,
    finish_forkDone State.poison (fun _ _ => rfl) (fun _ _ _ => rfl) (fun _ => rfl) hu x p, fun k hk => ?_, ?_, ?_⟩
  · rw [hcopies, smFind_smSet, if_pos rfl]
  · rw [hcopies, smFind_smSet, if_neg hk]
  · rw [finish_forkDone (fun s => s.ceng x.crewNo) (fun _ _ => rfl) (fun _ _ _ => rfl) (fun _ => rfl) hu x p, hp]
    exact unbound_forked ..
  · subst hp
    exact ⟨rfl, rfl, rfl, rfl, rfl, rfl, rfl, rfl, rfl, rfl, hq⟩

/-! ### The words -/

section Words
variable {s : State} {x : Cx} {i : Instr} {n sp d a b r flg : Nat} {q : State → CopyX → Prop}
  (he : exec i s = .next (finish x (copyBody n sp d a b r flg s x)))
  (hc : firstCheck s x n sp d a b flg = none) (ha : wordAway s x (decide (n = 0)) sp d a b (tileD x a) (tileD x b) = false)
  (hr : ∀ q ∈ cpRanges d (copyParts s x n sp d a b), scoreUsed s q.1 < 32)
include he hc ha hr

/-- A CP, CPT, CPX or CPM whose checks pass is forked. -/
theorem forks_of_checks (h3 : flg ≠ 3) (hl : flg = 1 → x.gang.latch.copies.length < 8)
    (hq : let p := forkedCopy x (namedCopy n sp d r flg) (if flg = 2 then (x.s2 60).toNat else 0) none (copyParts s x n sp d a b)
      q (finish x (.done (forkDone s x p))) p) : Forks s x i n sp d a b r flg q := by
  refine forks_of_forkDone rfl rfl (exec_trans (exec_of_checks he hc) ?_) hq
  rw [copyPassed, if_neg (ne_true_of_eq_false ha), if_neg h3]
  exact forkCopy_of_room hr hl

/-- A CPE whose checks pass is forked with its TLBs filled. -/
theorem forks_of_target {e : Word × Nat × Nat × Nat} (hf : flg = 3) (ht : enqTarget s x = some e) :
    Forks s x i n sp d a b r flg (fun _ p => p.enq = some e ∧ p.enqDone = false) := by
  subst hf
  have hu := fillParts_offCoh s x sp d (copyParts s x n sp d a b)
  have hroom : ∀ q ∈ cpRanges d (copyParts s x n sp d a b), scoreUsed (fillParts s x sp d (copyParts s x n sp d a b)) q.1 < 32 :=
    fun q hq => (congrArg (fun s => scoreUsed s q.1) hu).trans_lt (hr q hq)
  refine forks_of_forkDone (mask := 0) (enq := some e) hu rfl (exec_trans (exec_of_checks he hc) ?_) ⟨rfl, rfl⟩
  rw [copyPassed, if_neg (ne_true_of_eq_false ha), if_pos rfl, ht]
  exact forkCopy_of_room hroom nofun

end Words

/-- The gang after a CPX holds the copy in its latch. -/
theorem latch_of_cpx {s : State} {x : Cx} {p : CopyX} (hx : s.cx = some x) (hp : p.c.flg = 1) :
    ∃ g, (finish x (.done (forkDone s x p))).gang x.cur.gang = some g ∧ g.latch.armed = true ∧
      g.latch.copies = x.gang.latch.copies ++ [s.work.next] := by
  have hg : (latched (forked s x p) x s.work.next).gang x.cur.gang =
      some { x.gang with latch := { x.gang.latch with armed := true, copies := x.gang.latch.copies ++ [s.work.next] } } := by
    refine (State.gang_modGang ..).trans ((if_pos rfl).trans ?_)
    exact congrArg (Option.map _) (cx_gang s x hx)
  obtain ⟨g, hgang, hlatch⟩ := finish_gang_latch (x := x) (r := .done (forkDone s x p))
    ((congrArg (State.gang · x.cur.gang) (if_pos hp)).trans hg)
  exact ⟨g, hgang, by rw [hlatch], by rw [hlatch]⟩

/-- Settles O35: a word's answer is its first failed check, or the fork of its copy. -/
theorem copyWords : Obligations.CopyWords := by
  unfold Obligations.CopyWords
  intro s x c z z8 sp d a b r e
  have htile {n : Nat} (h : n = 0 → tileChecks s x sp d (tileD x a) (tileD x b) = none) :
      (if n = 0 then tileChecks s x sp d (tileD x a) (tileD x b) else none) = none := by
    simpa using h
  have hlane {n : Nat} (h : n ≠ 0 → copyLaneChecks s x n sp d a b = none) :
      (if n = 0 then none else copyLaneChecks s x n sp d a b) = none := by
    simpa using h
  refine ⟨fun w hw hi => ?_, fun hi ⟨hs, ht, hl, ha, hr⟩ => ?_, fun hi ⟨hs, ht, hl, ha, hr⟩ => ?_,
    fun hi ⟨hs, ht, hl, ha, hr⟩ hlatch => ?_, fun hi ⟨hs, ht, hl, ha, hr⟩ hn hm => ?_,
    fun hi ⟨hs, ht, hl, ha, hr⟩ hb he hx => ?_⟩
  · have htrap {t : TrapReq} := traps_of_check (t := t) (exec_of_copyForm hw hi)
    refine ⟨fun hs => htrap (firstCheck_of_spaces hs), fun hs => ⟨fun hf hn => htrap (firstCheck_of_size hs hf hn),
      fun hz => ?_⟩⟩
    have hz := check_of_form fun h => decide_eq_false (hz h)
    refine ⟨fun q ht => htrap (firstCheck_of_tile hs hz ht), fun ht =>
      ⟨fun hf hm => htrap (firstCheck_of_mask hs hz ht (by rw [hm, decide_eq_true hf, Bool.and_self])), fun hm => ?_⟩⟩
    have hm := check_of_form hm
    exact ⟨fun q hl => htrap (firstCheck_of_lane hs hz ht hm hl), fun hl hf =>
      ⟨fun hb => htrap (firstCheck_of_enqueue hs hz ht hm hl hf hb),
        fun q hb hx => htrap (firstCheck_of_translation hs hz ht hm hl hf hb hx)⟩⟩
  · exact forks_of_checks (exec_of_issues hi (by rfl) rfl)
      (firstCheck_eq_none_of_lanes hs rfl (htile ht) rfl (hlane hl) nofun) ha hr nofun nofun rfl
  · exact forks_of_checks (exec_of_issues hi (by rfl) rfl)
      (firstCheck_eq_none_of_lanes hs rfl (htile ht) rfl (hlane hl) nofun) ha hr nofun nofun rfl
  · exact forks_of_checks (exec_of_issues hi (by rfl) rfl)
      (firstCheck_eq_none_of_lanes hs rfl (htile ht) rfl (hlane hl) nofun) ha hr nofun (fun _ => hlatch)
      (latch_of_cpx hi.ctx rfl)
  · exact forks_of_checks (exec_of_issues hi (by rfl) rfl)
      (firstCheck_eq_none_of_lanes hs (check_of_form fun _ => decide_eq_false hn) (htile ht) (check_of_form fun _ => hm)
        (hlane hl) nofun) ha hr nofun nofun rfl
  · exact forks_of_target (exec_of_issues hi (by rfl) rfl)
      (firstCheck_of_translation hs rfl (htile ht) rfl (hlane hl) rfl hb hx) ha hr rfl he

end Sys2Proof.CopyProofs
end

section
/-! PROOFS. A line of a copy (O36): its requests to other dies, what lands in a Pound or a Basin, and the bytes that this writes. -/

namespace Sys2Proof.CopyProofs
open Sys2Proof Sys2Proof.Machine Sys2Proof.AtomicProofs

/-! ### Requests to other dies (R490) -/

section Fabric
variable {s : State} {k c : Nat} {ls : List Nat} {ready : Bool} {go : State → State}

theorem throughFabric_of_unsent (h : unsent s k c ls ≠ []) :
    throughFabric s k c ls ready go = sendPkts s k c (unsent s k c ls) := if_pos (by simpa using h)

theorem throughFabric_of_sent (h : unsent s k c ls = []) (hl : ∀ l ∈ ls, ∀ q, pktOf s k l = some q → q.lost = false)
    (hr : ready = true) : throughFabric s k c ls ready go = dropPkts (go s) k ls := by
  have hlost : ls.any (fun l => (pktOf s k l).any (fun p => p.lost && p.fail.isNone)) = false :=
    List.any_eq_false.2 fun l hm => by
      cases hp : pktOf s k l with
      | none => exact Bool.false_ne_true
      | some q => simp [hl l hm q hp]
  simp only [throughFabric, h, hlost, hr, List.isEmpty_nil, Bool.not_true, Bool.not_false, Bool.and_self, Bool.false_eq_true,
    if_false, if_true]

end Fabric

theorem dropPkts_mem (s : State) (k : Nat) (ls : List Nat) : (dropPkts s k ls).mem = s.mem := rfl

/-! ### A line operation (R334, R336, R342) -/

/-- The home lines that a line operation with the parts `ps` asks for. -/
def lineHomes (s : State) (c : Copy) (ps : List CpPart) : List Nat :=
  (toRead c ps).flatMap (fun b => blockLine s c c.sps b .read) ++ blockLine s c c.spd ((ps.headD {}).dst / 64) .write

/-- Line operation `l` of copy `k` may be made: its multicast requests are answered, no earlier copy of its gang comes before
it, and its blocks are free. -/
def lineReady (s : State) (k : Nat) (c : Copy) (l : Nat) (ps : List CpPart) : Bool :=
  !(decide (c.flg = 2) && (!c.need.isEmpty || inMerge s k)) &&
    !copyBefore s k c ((sharers s k c l ps).flatMap (fun i => c.lines.getD i [])) &&
    (toRead c ps).all (fun b => blockReady s k c c.sps b .read) && blockReady s k c c.spd ((ps.headD {}).dst / 64) .write

/-- The copy with the blocks that a line operation reads no longer to be read. -/
def asked (c : Copy) (ps : List CpPart) : Copy := { c with need := c.need.filter (fun b => !(toRead c ps).contains b) }

/-- The state and the copy after the sources of a line operation are read. -/
def lineRead (s : State) (k : Nat) (c : Copy) (ps : List CpPart) : State × Copy :=
  readBlocks s k (asked c ps) c.lines.flatten (toRead c ps)

/-- Line operation `l` of copy `k` made. -/
def lineMade (s : State) (k : Nat) (p : CopyX) (l : Nat) (ps : List CpPart) : State :=
  let r := lineRead s k p.c ps
  let is := if (srcBlocks ps).any (fun b => (smFind r.2.bad b).isSome) then [l] else sharers r.1 k r.2 l ps
  landLine r.1 k p r.2 is (byLane (is.flatMap (fun i => p.c.lines.getD i [])))

theorem exec_copyLineLand {s : State} {p : CopyX} {ps : List CpPart} (hp : smFind s.eng.copies (s.op 0) = some p)
    (hl : p.c.lines[s.op 1]? = some ps) : exec .copyLineLand s = .next (throughFabric s (s.op 0) p.c.core (lineHomes s p.c ps)
      (lineReady s (s.op 0) p.c (s.op 1) ps) (fun t => lineMade t (s.op 0) p (s.op 1) ps)) := by
  change execCopyLineLand s = _
  simp only [execCopyLineLand, hp, hl]
  rfl

theorem lineReady_of {s : State} {k l : Nat} {c : Copy} {ps : List CpPart}
    (hm : ¬ (c.flg = 2 ∧ (c.need ≠ [] ∨ inMerge s k = true)))
    (hb : copyBefore s k c ((sharers s k c l ps).flatMap (fun i => c.lines.getD i [])) = false)
    (hr : ∀ b ∈ toRead c ps, blockReady s k c c.sps b .read = true)
    (hw : blockReady s k c c.spd ((ps.headD {}).dst / 64) .write = true) : lineReady s k c l ps = true := by
  have hmerge : (decide (c.flg = 2) && (!c.need.isEmpty || inMerge s k)) = false :=
    check_of_form fun hf => Bool.eq_false_iff.2 fun h => hm ⟨hf, by simpa using h⟩
  rw [lineReady, hmerge, hb, List.all_eq_true.2 hr, hw]
  rfl

/-! ### Storage: a Pound, a Basin (Table 11-1) -/

/-- The spaces of the Pounds and the Basin: neither translated nor the crew's windows. -/
def inStorage (sp : Nat) : Prop := sp = 1 ∨ sp = 2 ∨ sp = 3

theorem spcVa_of_storage {sp : Nat} (h : inStorage sp) : spcVa sp = false := by
  rcases h with rfl | rfl | rfl <;> rfl

theorem ne_window_of_storage {sp : Nat} (h : inStorage sp) : sp ≠ 4 ∧ sp ≠ 5 := by
  unfold inStorage at h
  omega

/-- The words `ws` of storage, each with its poison. -/
def storedWords (s : State) (ws : List Nat) : List (Nat × (Word × Bool)) :=
  ws.map (fun w => (w, (getWord s.mem w, isPoison s.poison w)))

/-- The words `ws` written one after another, with their poison. -/
def wordsPut (s : State) (ws : List (Nat × (Word × Bool))) : State := ws.foldl (fun s w => s.putWord w.1 w.2.1 0xF w.2.2) s

/-- The copy with the words `ws` of storage gathered. -/
def gathered (s : State) (c : Copy) (ws : List Nat) : Copy :=
  { c with got := (storedWords s ws).foldl (fun m p => smSet m p.1 p.2) c.got }

section Storage
variable {s : State} {k : Nat} {c : Copy}

theorem readBlk_of_storage (h : inStorage c.sps) (ps : List CpPart) (b : Nat) : c.readBlk s k ps b =
    gathered s c (partSrcs ps b) := by
  simp only [Copy.readBlk, blockWords, spcVa_of_storage h, (ne_window_of_storage h).1, Bool.false_eq_true, if_false]
  rfl

theorem pushBlock_of_storage {sp : Nat} (h : inStorage sp) (b : Nat) (kind : AccKind) : pushBlock s k c sp b kind = s :=
  if_neg (ne_true_of_eq_false (spcVa_of_storage h))

theorem readBlocks_of_storage (h : inStorage c.sps) (ps : List CpPart) (b : Nat) : readBlocks s k c ps [b] =
    (s, gathered s c (partSrcs ps b)) := by
  simp only [readBlocks, List.foldl_cons, List.foldl_nil, pushBlock_of_storage h, readBlk_of_storage h]

theorem writeLine_of_storage (h : inStorage c.spd) (b : Nat) (ws : List (Nat × (Word × Bool))) : writeLine s k c b ws =
    .ok (wordsPut s ws) := by
  simp only [writeLine, spcVa_of_storage h, ne_window_of_storage h, Bool.false_eq_true, if_false]
  rfl

/-! ### Bytes landed leave the storage (R272) -/

/-- Bytes that land change the barriers and the groups that wait on them. -/
theorem landBytes_eq (s : State) (crew b n : Nat) : ∃ w, landBytes s crew b n = { s with work := w } := by
  unfold landBytes
  dsimp only
  split
  · exact ⟨_, rfl⟩
  · split <;> exact ⟨_, rfl⟩

theorem landBytes_mem (s : State) (crew b n : Nat) : (landBytes s crew b n).mem = s.mem := by
  obtain ⟨w, hw⟩ := landBytes_eq s crew b n
  rw [hw]

theorem landBytes_eng (s : State) (crew b n : Nat) : (landBytes s crew b n).eng = s.eng := by
  obtain ⟨w, hw⟩ := landBytes_eq s crew b n
  rw [hw]

theorem lineOver_mem (p : CopyX) (l : List Nat) (n : Nat) (wrote : Bool) : (lineOver s k p l c n wrote).mem = s.mem :=
  landBytes_mem ..

/-- The storage after lines land in a Pound or a Basin, none of whose sources was refused. -/
theorem landLine_mem_of_storage (h : inStorage c.spd) (hb : c.bad = []) (p : CopyX) (l : List Nat) (ps : List CpPart) :
    (landLine s k p c l ps).mem = (wordsPut s (lineWrites c ps)).mem := by
  have hbad : (srcBlocks ps).findSome? (fun b => smFind c.bad b) = none := List.findSome?_eq_none_iff.2 fun b _ => by
    rw [hb]
    rfl
  simp only [landLine, hbad, writeLine_of_storage h]
  exact lineOver_mem ..

end Storage

/-! ### A row of words copied -/

theorem getWord_setWord_of_ne {m : List Host.Cell} {a b : Nat} {v : Word} (h : b + 4 ≤ a ∨ a + 4 ≤ b) :
    getWord (setWord m a v) b = getWord m b := by
  simp only [getWord]
  rw [getByte_setWord_out, getByte_setWord_out, getByte_setWord_out, getByte_setWord_out] <;> omega

/-- `n` words of a row from `a` up, with their poison. -/
def rowWrites (a n : Nat) (f : Nat → Word × Bool) : List (Nat × (Word × Bool)) := (List.range n).map (fun j => (a + 4 * j, f j))

section Row
variable {s : State} {a : Nat} {f : Nat → Word × Bool}

theorem wordsPut_rowWrites_succ (n : Nat) : (wordsPut s (rowWrites a (n + 1) f)).mem =
    setWord (wordsPut s (rowWrites a n f)).mem (a + 4 * n) (f n).1 := by
  simp only [wordsPut, rowWrites, List.range_succ, List.map_append, List.foldl_append]
  rfl

theorem getWord_wordsPut_row {n j : Nat} (hj : j < n) :
    getWord (wordsPut s (rowWrites a n f)).mem (a + 4 * j) = (f j).1 := by
  induction n with
  | zero => exact absurd hj (Nat.not_lt_zero j)
  | succ n ih =>
    rw [wordsPut_rowWrites_succ]
    by_cases h : j = n
    · rw [h, getWord_setWord]
    · rw [getWord_setWord_of_ne (by omega)]
      exact ih (by omega)

theorem getByte_wordsPut_row_of_outside {n b : Nat} (hb : b < a ∨ a + 4 * n ≤ b) :
    getByte (wordsPut s (rowWrites a n f)).mem b = getByte s.mem b := by
  induction n with
  | zero => rfl
  | succ n ih =>
    rw [wordsPut_rowWrites_succ, getByte_setWord_out _ _ _ _ (by omega)]
    exact ih (by omega)

end Row

theorem smGet_gathered {s : State} {c : Copy} {d : Word × Bool} {ws : List Nat} {w : Nat} (hw : w ∈ ws) :
    smGet d (gathered s c ws).got w = (getWord s.mem w, isPoison s.poison w) := by
  induction ws using List.reverseRecOn with
  | nil => cases hw
  | append_singleton ws v ih =>
    simp only [gathered, storedWords, List.map_append, List.foldl_append, List.map_cons, List.map_nil, List.foldl_cons, List.foldl_nil,
      smGet, smFind_smSet]
    by_cases h : w = v
    · rw [if_pos h, h]
      rfl
    · rw [if_neg h]
      refine ih ?_
      simpa [h] using hw

theorem byLane_singleton {q : CpPart} (h : q.lane < 32) : byLane [q] = [q] := by
  have hbelow (n : Nat) : (List.range n).flatMap (fun i => [q].filter (fun p => decide (p.lane = i))) =
      if q.lane < n then [q] else [] := by
    induction n with
    | zero => rfl
    | succ n ih =>
      rw [List.range_succ, List.flatMap_append, ih]
      rcases Nat.lt_trichotomy q.lane n with hn | hn | hn
      · simp [hn, Nat.lt_succ_of_lt hn, Nat.ne_of_lt hn]
      · simp [hn]
      · simp [Nat.not_lt_of_gt hn, Nat.ne_of_gt hn, Nat.not_lt.2 hn]
  exact (hbelow 32).trans (if_pos h)

/-- A tile's line of one part of sixteen bytes, from storage to storage. -/
structure RowLine (p : CopyX) (l : Nat) (q : CpPart) : Prop where
  line : p.c.lines[l]? = some [q]
  tile : p.c.tile = true
  size : q.n = 16
  lane : q.lane < 32
  unread : q.src / 64 ∈ p.c.need
  sound : p.c.bad = []
  src : inStorage p.c.sps
  dst : inStorage p.c.spd

section RowLine
variable {s : State} {k l : Nat} {p : CopyX} {q : CpPart} (h : RowLine p l q)
include h

theorem RowLine.toRead_eq : toRead p.c [q] = [q.src / 64] := by
  simp [toRead, h.tile, srcBlocks, h.unread]

theorem RowLine.mem_partSrcs {j : Nat} (hj : j < 4) : q.src + 4 * j ∈ partSrcs p.c.lines.flatten (q.src / 64) := by
  have hq : q ∈ p.c.lines.flatten := List.mem_flatten.2 ⟨[q], List.mem_of_getElem? h.line, List.mem_singleton_self q⟩
  refine List.mem_dedup.2 (List.mem_flatMap.2 ⟨q, List.mem_filter.2 ⟨hq, decide_eq_true rfl⟩, ?_⟩)
  exact List.mem_map.2 ⟨j, List.mem_range.2 (by rw [h.size]; exact hj), rfl⟩

/-- The row's words are gathered from storage. -/
theorem RowLine.lineRead_eq : ∃ c, lineRead s k p.c [q] = (s, c) ∧ c.tile = true ∧ c.bad = [] ∧ inStorage c.spd ∧
    ∀ j, j < 4 → (smGet (0, false) c.got (q.src + 4 * j)).1 = getWord s.mem (q.src + 4 * j) := by
  have hread : lineRead s k p.c [q] = (s, gathered s (asked p.c [q]) (partSrcs p.c.lines.flatten (q.src / 64))) := by
    rw [lineRead, h.toRead_eq]
    exact readBlocks_of_storage (c := asked p.c [q]) h.src ..
  exact ⟨_, hread, h.tile, h.sound, h.dst, fun j hj => congrArg Prod.fst (smGet_gathered (h.mem_partSrcs hj))⟩

/-- The storage after the line: the row's words, as the source held them. -/
theorem RowLine.lineMade_mem : ∃ f : Nat → Word × Bool, (∀ j, j < 4 → (f j).1 = getWord s.mem (q.src + 4 * j)) ∧
    (lineMade s k p l [q]).mem = (wordsPut s (rowWrites q.dst 4 f)).mem := by
  obtain ⟨c, hread, htile, hsound, hdst, hgot⟩ := h.lineRead_eq (s := s) (k := k)
  have hline : p.c.lines.getD l [] = [q] := by rw [List.getD_eq_getElem?_getD, h.line, Option.getD_some]
  have hnone : (srcBlocks [q]).any (fun b => (smFind c.bad b).isSome) = false := by
    rw [hsound]
    exact List.any_eq_false.2 fun _ _ => Bool.false_ne_true
  refine ⟨fun j => smGet (0, false) c.got (q.src + 4 * j), hgot, ?_⟩
  simp only [lineMade, hread, hnone, Bool.false_eq_true, if_false, sharers, htile, if_true, List.flatMap_cons, List.flatMap_nil,
    List.append_nil, hline, byLane_singleton h.lane]
  rw [landLine_mem_of_storage hdst hsound]
  simp only [lineWrites, List.flatMap_cons, List.flatMap_nil, List.append_nil, h.size]
  rfl

/-- The row's four words reach the destination as the source held them, and no other byte changes. -/
theorem RowLine.copies_row :
    (∀ j, j < 4 → getWord (lineMade s k p l [q]).mem (q.dst + 4 * j) = getWord s.mem (q.src + 4 * j)) ∧
      ∀ a, a < q.dst ∨ q.dst + 16 ≤ a → getByte (lineMade s k p l [q]).mem a = getByte s.mem a := by
  obtain ⟨f, hf, hmem⟩ := h.lineMade_mem (s := s) (k := k)
  rw [hmem]
  exact ⟨fun j hj => (getWord_wordsPut_row hj).trans (hf j hj), fun a ha => getByte_wordsPut_row_of_outside ha⟩

end RowLine
end Sys2Proof.CopyProofs
end

section
/-! PROOFS. The steps of a copy (O36): its completion, its multicast lines, its enqueue, then the statement. -/

namespace Sys2Proof.CopyProofs
open Sys2Proof Sys2Proof.Machine Sys2Proof.ControlProofs Sys2Proof.BarrierProofs Sys2Proof.QueueProofs

/-! ### Completion (R343) -/

theorem eng_of_offMem {s t : State} (h : t.offMem = s.offMem) : t.eng = s.eng :=
  congrArg (fun u => u.eng) (show t.offMem = s.offMem from h)

theorem engineWords_eng (ws : List Word) (s : State) (core a : Nat) : (engineWords s core a ws).eng = s.eng := by
  induction ws generalizing s a with
  | nil => rfl
  | cons w ws ih => exact (ih ..).trans (eng_of_offMem (engineWord_offMem ..))

theorem saveWords_eng (s : State) (c off : Nat) (ws : List Word) : (saveWords s c off ws).eng = s.eng := by
  unfold saveWords
  split
  · rfl
  · exact engineWords_eng ..

theorem unbindCopy_eng (s : State) (crew g b : Nat) (bound : Option Nat) : (unbindCopy s crew g b bound).eng = s.eng := by
  unfold unbindCopy
  split
  · rfl
  · split
    · rfl
    · split <;> rfl

/-- A copy over is the one entry that goes. -/
theorem endCopy_copies (s : State) (k : Nat) (p : CopyX) : (endCopy s k p).eng.copies = smErase s.eng.copies k := by
  unfold endCopy
  dsimp only
  split
  · rfl
  · rw [saveBar, saveWords_eng, unbindCopy_eng, landBytes_eng]
    cases p.c.fail <;> rfl

theorem exec_copyComplete {s : State} {p : CopyX} (hp : smFind s.eng.copies (s.op 0) = some p) (hl : p.c.lines = [])
    (he : p.enq = none ∨ p.enqDone = true) (hf : forkPending s (s.op 0) p.c.gang p.c.core = false) :
    exec .copyComplete s = .next (endCopy s (s.op 0) p) := by
  change execCopyComplete s = _
  have henq : (p.enq.isNone || p.enqDone) = true := by simpa using he
  simp only [execCopyComplete, hp, hl, henq, hf, List.isEmpty_nil, Bool.not_false, Bool.and_self, if_true, event]

/-! ### Multicast reads (R346 to R348) -/

/-- What copy `k` has still to read and to land. -/
def workLeft (k : Nat) (s : State) : Option (List Nat × List (List CpPart)) :=
  (smFind s.eng.copies k).map (fun p => (p.c.need, p.c.lines))

theorem readBlk_need_lines (c : Copy) (s : State) (k : Nat) (ps : List CpPart) (b : Nat) :
    ((c.readBlk s k ps b).need, (c.readBlk s k ps b).lines) = (c.need, c.lines) := by
  unfold Copy.readBlk
  split <;> rfl

theorem workLeft_modCopy (k j : Nat) (s : State) {f : CopyX → CopyX}
    (hf : ∀ p, ((f p).c.need, (f p).c.lines) = (p.c.need, p.c.lines)) : workLeft k (s.modCopy j f) = workLeft k s := by
  rw [workLeft, State.modCopy, smFind_smModify]
  split
  · rw [Option.map_map]
    exact congrArg (fun g => (smFind s.eng.copies k).map g) (funext hf)
  · rfl

theorem workLeft_serveBlock (k : Nat) (s : State) (w : Nat × Nat) : workLeft k (serveBlock s w) = workLeft k s :=
  workLeft_modCopy k w.1 s fun _ => readBlk_need_lines ..

/-- The block of one requester read from the state `s` of the send. -/
def sentTo (s t : State) (w : Nat × Nat) : State :=
  t.modCopy w.1 (fun p => { p with c := p.c.readBlk s w.1 p.c.lines.flatten w.2 })

theorem workLeft_sendMerge (k : Nat) (s : State) (m : MergeEnt) : workLeft k (sendMerge s m).1 = workLeft k s := by
  have hsent : workLeft k (m.who.foldl (sentTo s) s) = workLeft k s :=
    foldl_keeps (sentTo s) (workLeft k) (fun t w => workLeft_modCopy k w.1 t fun _ => readBlk_need_lines ..) m.who s
  exact hsent

theorem workLeft_putMerge (k : Nat) (s : State) (i : Nat) (m : MergeEnt) : workLeft k (putMerge s i m) = workLeft k s := by
  unfold putMerge
  split <;> rfl

theorem workLeft_joinMerge (k : Nat) (s : State) (i : Nat) (m : MergeEnt) (w : Nat × Nat) :
    workLeft k (joinMerge s i m w) = workLeft k s := by
  unfold joinMerge
  dsimp only
  split
  · rw [workLeft_putMerge, workLeft_sendMerge]
  · rfl

/-- A request at its home reads blocks for copies; what they have still to ask for and to land is what it was. -/
theorem workLeft_mergeRequest (k : Nat) (s : State) (j : Nat) (p : CopyX) (b l : Nat) :
    workLeft k (mergeRequest s j p b l) = workLeft k s := by
  unfold mergeRequest
  dsimp only
  split
  · split
    · rw [workLeft_putMerge, workLeft_serveBlock]
    · exact workLeft_joinMerge ..
  · split
    · exact workLeft_serveBlock ..
    · exact workLeft_joinMerge ..

theorem enginePush_eng (s : State) (core l : Nat) : (enginePush s core l).eng = s.eng := by
  unfold enginePush
  dsimp only
  split
  · rfl
  · exact eng_of_offMem (engineWrite_offMem ..)

theorem pushBlock_eng (s : State) (k : Nat) (c : Copy) (sp b : Nat) (kind : AccKind) :
    (pushBlock s k c sp b kind).eng = s.eng := by
  unfold pushBlock
  split
  · split
    · rfl
    · exact (enginePush_eng ..).trans (eng_of_offMem (State.offMem_of_offPath (fillTlb_offPath ..)))
  · rfl

/-- The block at place `l` of copy `k` no longer to be asked for. -/
def blockAsked (k l : Nat) (s : State) : State := s.modCopy k (fun p => { p with c := { p.c with need := dropAt p.c.need l } })

theorem workLeft_blockAsked (k l : Nat) (s : State) :
    workLeft k (blockAsked k l s) = (workLeft k s).map (fun v => (dropAt v.1 l, v.2)) := by
  rw [workLeft, blockAsked, State.modCopy, smFind_smModify, if_pos rfl, workLeft, Option.map_map, Option.map_map]
  rfl

/-- The request of copy `k` for its block `b` made (R347). -/
def blockRequested (k l b : Nat) (p : CopyX) (s : State) : State :=
  match blockXl s k p.c p.c.sps b .read with
  | .error _ => blockAsked k l (serveBlock s (k, b))
  | .ok pa => mergeRequest (blockAsked k l (pushBlock s k p.c p.c.sps b .read)) k p b (lineOf pa)

theorem workLeft_blockRequested (k l b : Nat) (p : CopyX) (s : State) :
    workLeft k (blockRequested k l b p s) = (workLeft k s).map (fun v => (dropAt v.1 l, v.2)) := by
  unfold blockRequested
  split
  · rw [workLeft_blockAsked, workLeft_serveBlock]
  · rw [workLeft_mergeRequest, workLeft_blockAsked, workLeft, pushBlock_eng]
    rfl

theorem exec_cpmLineRequest {s : State} {p : CopyX} {b : Nat} (hp : smFind s.eng.copies (s.op 0) = some p) (hf : p.c.flg = 2)
    (hb : p.c.need[s.op 1]? = some b) : exec .cpmLineRequest s = .next (throughFabric s (s.op 0) p.c.core
      (blockLine s p.c p.c.sps b .read) (blockReady s (s.op 0) p.c p.c.sps b .read) (blockRequested (s.op 0) (s.op 1) b p)) := by
  change execCpmLineRequest s = _
  simp only [execCpmLineRequest, hp, hf, hb, ne_eq, not_true_eq_false, if_false]
  rfl

theorem exec_mergeWindow {s : State} {m : MergeEnt} (hm : s.eng.merges[s.op 0]? = some m) (hs : m.sent = false)
    (hb : lineBusy s m.line = false) (ht : (s.domain m.dom).set_.window ≤ clocksSince s m.at_) :
    exec .mergeWindow s = .next (putMerge (sendMerge s m).1 (s.op 0) (sendMerge s m).2) := by
  change execMergeWindow s = _
  simp only [execMergeWindow, hm, hs, hb, Nat.not_lt.2 ht, decide_false, Bool.or_self, Bool.false_eq_true, if_false, event]

theorem exec_mergeEntryFree {s : State} {m : MergeEnt} (hm : s.eng.merges[s.op 0]? = some m) (hs : m.sent = true)
    (ht : 4096 ≤ clocksSince s m.at_) :
    exec .mergeEntryFree s = .next { s with eng.merges := dropAt s.eng.merges (s.op 0) } := by
  change execMergeEntryFree s = _
  simp only [execMergeEntryFree, hm, hs, ht, decide_true, Bool.and_self, if_true, event]

/-! ### The enqueue of a CPE (R351, R352) -/

section Enqueue
variable {s : State} {p : CopyX} {h : Word} {cr q pr core : Nat} {w : Crew} (hp : smFind s.eng.copies (s.op 0) = some p)
  (he : p.enq = some (h, cr, q, pr)) (hl : p.c.lines = []) (hd : p.enqDone = false)
include hp he hl hd

theorem exec_cpeEnqueue_of_failed {e : Err} (hf : p.c.fail = some e) :
    exec .cpeEnqueue s = .next (s.modCopy (s.op 0) (refuseEnq e.cause.code)) := by
  change execCpeEnqueue s = _
  simp only [execCpeEnqueue, hp, he, hl, hd, hf]
  rfl

variable (hf : p.c.fail = none) (hw : s.crew cr = some w) (hc : w.place = .on core)
include hf hw hc

/-- The target crew on a core, the release's outcome decides. -/
theorem exec_cpeEnqueue_of_done {bad : Bool} (hb : bgRelease s (s.op 0) p.c.gang p.c.core p.c.dom = .done bad) :
    exec .cpeEnqueue s = .next (if bad then s.modCopy (s.op 0) (refuseEnq Cause.homeFenced.code)
      else enqueueAt s (s.op 0) p h cr core q pr) := by
  change execCpeEnqueue s = _
  simp only [execCpeEnqueue, hp, he, hl, hd, hf, hw, hc, hb]
  cases bad <;> rfl

end Enqueue

theorem enqueueAt_of_canPush {s : State} {k cr core q pr : Nat} {p : CopyX} {h : Word} (hi : ((s.ceng cr).que q).i = true)
    (hp : canPush s cr q pr = true) : enqueueAt s k p h cr core q pr = serveQueues (enqueueNow s k cr core q pr h) cr core := by
  simp only [enqueueAt, hi, hp, Bool.not_true, Bool.false_eq_true, if_false, if_true]

theorem pushHandle_eng (s : State) (cr core q p : Nat) (h : Word) (cpe : Bool) :
    (pushHandle s cr core q p h cpe).eng = s.eng := by
  unfold pushHandle
  dsimp only
  split
  · rfl
  · split <;> rfl

theorem smFind_enqueueNow {s : State} {k : Nat} {p : CopyX} (hk : smFind s.eng.copies k = some p)
    (cr core q pr : Nat) (h : Word) : smFind (enqueueNow s k cr core q pr h).eng.copies k = some { p with enqDone := true, pended := false } := by
  have heng : (leavePush (pushHandle s cr core q pr h true) cr q (64 + k, pr)).eng = s.eng := pushHandle_eng ..
  rw [enqueueNow, heng, smFind_smModify, if_pos rfl, hk]
  rfl

/-- The queue after the enqueue: a CPE's entry more, its wait gone. -/
theorem que_enqueueNow {s : State} {cr q pr : Nat} (hp : canPush s cr q pr = true) (k core : Nat) (h : Word) :
    ∃ l ws, ((enqueueNow s k cr core q pr h).ceng cr).que q =
      { pushed pr true ((s.ceng cr).que q) with lent := l, pushW := ws } := by
  obtain ⟨l, hl⟩ := que_pushHandle_of_canPush (core := core) (h := h) (cpe := true) rfl hp
  have hque : ((leavePush (pushHandle s cr core q pr h true) cr q (64 + k, pr)).ceng cr).que q =
      { pushed pr true ((s.ceng cr).que q) with
        lent := l, pushW := ((s.ceng cr).que q).pushW.filter (fun m => decide (m ≠ (64 + k, pr))) } := by
    rw [leavePush, que_modQue_same, hl]
    rfl
  exact ⟨l, _, hque⟩

/-- Settles O36: each step by what it does to its copy, and a row of a tile by the words that it writes. -/
theorem copySteps : Obligations.CopySteps := by
  unfold Obligations.CopySteps
  refine ⟨fun s p ps hp hl => ⟨fun hu => ?_, fun hu hlost hm hb hr hw => ⟨?_, fun q hq ht hn hlane hneed hbad hsrc hdst => ?_⟩⟩,
    fun s p hp hl he hf => ?_, fun s p b hp hf hb hr hu hlost => ?_,
    fun s m hm => ⟨exec_mergeWindow hm, exec_mergeEntryFree hm⟩,
    fun s p h cr q pr core w hp he hl hd => ⟨fun e hf => exec_cpeEnqueue_of_failed hp he hl hd hf,
      fun hf hw hc hb => exec_cpeEnqueue_of_done hp he hl hd hf hw hc hb, fun hf hw hc hb hi hcan => ?_⟩⟩
  · exact (exec_copyLineLand hp hl).trans (congrArg _ (throughFabric_of_unsent hu))
  · exact (exec_copyLineLand hp hl).trans (congrArg _ (throughFabric_of_sent hu hlost (lineReady_of hm hb hr hw)))
  · subst hq
    have hrow : RowLine p (s.op 1) q := ⟨hl, ht, hn, hlane, hneed, hbad, hsrc, hdst⟩
    refine ⟨_, (exec_copyLineLand hp hl).trans (congrArg _ (throughFabric_of_sent hu hlost (lineReady_of hm hb hr hw))), ?_⟩
    rw [dropPkts_mem]
    exact hrow.copies_row
  · refine ⟨_, exec_copyComplete hp hl he hf, ?_, fun k hk => ?_⟩
    · rw [endCopy_copies, smFind_smErase, if_pos rfl]
    · rw [endCopy_copies, smFind_smErase, if_neg hk]
  · have hleft : workLeft (s.op 0) (dropPkts (blockRequested (s.op 0) (s.op 1) b p s) (s.op 0)
        (blockLine s p.c p.c.sps b .read)) = some (dropAt p.c.need (s.op 1), p.c.lines) := by
      refine (workLeft_blockRequested ..).trans ?_
      rw [workLeft, hp]
      rfl
    obtain ⟨q, hq, heq⟩ := Option.map_eq_some_iff.1 hleft
    obtain ⟨hneed, hlines⟩ := Prod.mk.inj heq
    exact ⟨_, q, (exec_cpmLineRequest hp hf hb).trans (congrArg _ (throughFabric_of_sent hu hlost hr)), hq, hneed, hlines⟩
  · obtain ⟨l, ws, hque⟩ := que_enqueueNow hcan (s.op 0) core h
    refine ⟨_, _, (exec_cpeEnqueue_of_done hp he hl hd hf hw hc hb).trans (congrArg _ (enqueueAt_of_canPush hi hcan)), rfl,
      smFind_enqueueNow hp .., rfl, congrArg PQueue.cnt hque, ?_, congrArg PQueue.byCpe hque⟩
    exact (congrArg (PQueue.allowance · pr) hque).trans ((allowance_pushed (cpe := true) ..).trans (if_pos rfl))

end Sys2Proof.CopyProofs
end

section
/-! PROOFS. The bucket words (O39): a crew's bucket, its grids and its name as a word finds them, then the words. -/

namespace Sys2Proof.GraphicsProofs
open Sys2Proof Sys2Proof.Machine Sys2Proof.ControlProofs Sys2Proof.MatrixProofs Sys2Proof.MemoryProofs
  Sys2Proof.BarrierProofs

/-! ### One bucket changed, and what the completion of a word leaves alone -/

theorem bkt_modBkt {s : State} {b : Nat} {v : Bucket} (h : s.bkt b = some v) (f : Bucket → Bucket) :
    (s.modBkt b f).bkt b = some (f v) := by
  have hb := smFind_smModify s.gfx.buckets b f b
  rwa [if_pos rfl, show smFind s.gfx.buckets b = some v from h] at hb

theorem smFind_smModify_same {α : Type} {m : List (Nat × α)} {k : Nat} {a : α} (h : smFind m k = some a) (f : α → α) :
    smFind (smModify m k f) k = some (f a) := by
  rw [smFind_smModify, if_pos rfl, h, Option.map_some]

@[simp] theorem finish_gfx (x : Cx) (r : Res) : (finish x r).gfx = r.state.gfx := finish_keeps State.gfx (fun _ _ => rfl) x r

@[simp] theorem finish_bkt (x : Cx) (r : Res) (b : Nat) : (finish x r).bkt b = r.state.bkt b :=
  finish_keeps (fun s => s.bkt b) (fun _ _ => rfl) x r

/-- The completion of a word leaves its gang's registers as the word left them. -/
theorem finish_gang_regs {x : Cx} {r : Res} {k : Nat} {g : Gang} (hg : r.state.gang k = some g) :
    ∃ g', (finish x r).gang k = some g' ∧ g'.r = g.r := by
  have h := finish_gang x r k
  rw [hg, Option.map_some, Option.map_eq_some_iff] at h
  obtain ⟨g', hg', hs⟩ := h
  have hr : g'.still.r = g.still.r := congrArg Gang.r hs
  exact ⟨g', hg', hr⟩

/-! ### What a word of a crew with a bucket reads first (R407, R421, R428) -/

/-- The name that BKDONE and BKSPL go by: that read at the issue, which a wait keeps. -/
def keptName (x : Cx) (w : Word) : Word := if x.held = [] then w else BitVec.ofNat 32 (x.held.headD 0)

theorem nw_heldOr (x : Cx) (w : Word) : nw ((x.heldOr [w.toNat]).headD 0) = keptName x w := by
  cases hh : x.held with
  | nil => simp [keptName, Cx.heldOr, hh, nw]
  | cons n ns => simp [keptName, Cx.heldOr, hh, nw]

theorem smFind_of_liveGrid {v : Bucket} {h : Word} {k : Nat} {g : Grid} (hl : liveGrid v h = some (k, g)) :
    smFind v.grids k = some g := by
  unfold liveGrid at hl
  dsimp only at hl
  split at hl
  · cases hl
  · rename_i g' hg
    split at hl
    · cases hl
      exact hg
    · cases hl

theorem fld_of_slotForm {r : DWord} (h : r.toNat / 2 ^ 62 = 1) : fld r.toNat 62 2 = 1 :=
  congrArg (· % 2 ^ 2) h

/-- A reference in slot form names its slot in its low half-word. -/
theorem refSlot_of_slotForm {r : DWord} (h : r.toNat / 2 ^ 62 = 1) : refSlot r = r.toNat % 65536 := by
  have hform : fld r.toNat 62 2 = 1 := fld_of_slotForm h
  rw [refSlot, hform, if_neg Nat.one_ne_zero]
  exact IntegerProofs.fld_zero _ 16

/-! ### Vertices handed out, grids emitted, a bucket given back (R408, R410, R423, R425, R428) -/

theorem length_vertexRec (g : Grid) (k : Nat) : (vertexRec g k).length = 8 := by
  unfold vertexRec
  split <;> rfl

/-- Word `k` of the vertex that GSH gives to lane `i`: the grid's cursor runs over the active lanes. -/
def vertexWord (x : Cx) (g : Grid) (i k : Nat) : Word := (vertexRec g (g.cursor + x.lanes.idxOf i)).getD k 0

/-- The registers after GSH. -/
def gshRegs (x : Cx) (g : Grid) (d : Nat) (r : Regs) : Regs :=
  r.putV (x.lanes.flatMap (fun i => (List.range 8).map (fun k => (vkey (d + k) i, vertexWord x g i k))))

/-- A list without repetitions, numbered. -/
theorem zipIdx_of_nodup {ls : List Nat} (h : ls.Nodup) : ls.zipIdx = ls.map (fun i => (i, ls.idxOf i)) := by
  refine List.ext_getElem (by simp) fun n hn _ => ?_
  simp only [List.getElem_zipIdx, List.getElem_map, Nat.zero_add, h.idxOf_getElem]

theorem map_zipIdx_eq_map_range {β : Type} (ws : List Word) (f : Nat → Word → β) :
    ws.zipIdx.map (fun q => f q.2 q.1) = (List.range ws.length).map (fun k => f k (ws.getD k 0)) := by
  refine List.ext_getElem (by simp) fun n hn _ => ?_
  rw [List.length_map, List.length_zipIdx] at hn
  simp [hn]

theorem zipIdx_lanes (x : Cx) : x.lanes.zipIdx = x.lanes.map (fun i => (i, x.lanes.idxOf i)) :=
  zipIdx_of_nodup (List.nodup_range.filter _)

theorem rdV_gshRegs (x : Cx) (g : Grid) (d : Nat) (f : Regs) (r : Nat) {i : Nat} (hi : i < 32) :
    (gshRegs x g d f).rdV r i = if i ∈ x.lanes ∧ d ≤ r ∧ r < d + 8 then vertexWord x g i (r - d) else f.rdV r i :=
  rdV_putV_regs hi x.lanes_lt

/-- A bucket with the cursor of grid `k` past the batch that the group takes. -/
def batchTaken (x : Cx) (k : Nat) (v : Bucket) : Bucket :=
  { v with grids := smModify v.grids k (fun g => { g with cursor := min g.verts (g.cursor + x.lanes.length) }) }

theorem grid_batchTaken {v : Bucket} {k : Nat} {g : Grid} (hg : smFind v.grids k = some g) (x : Cx) :
    smFind (batchTaken x k v).grids k = some { g with cursor := min g.verts (g.cursor + x.lanes.length) } := by
  rw [batchTaken, smFind_smModify_same hg]

/-- The lanes that write a vertex back, and the vertex that the output record of lane `i` names (R409). -/
def shadedLanes (x : Cx) (a : Nat) : List Nat := x.lanes.filter (fun i => !(x.v (a + 9) i).getLsbD 15)
def vertexIx (x : Cx) (a i : Nat) : Nat := (x.v (a + 9) i).toNat % 512

/-- A bucket whose grid `k` is emitted: it takes the rank `nem`. -/
def ranked (k nem : Nat) (u : Bucket) : Bucket :=
  { u with grids := smModify u.grids k (fun g => { g with rank := some nem }), cnt := { u.cnt with nem := u.cnt.nem + 1 } }

theorem grid_ranked {v : Bucket} {k : Nat} {g : Grid} (hg : smFind v.grids k = some g) (nem : Nat) :
    smFind (ranked k nem v).grids k = some { g with rank := some nem } := by
  rw [ranked, smFind_smModify_same hg]

/-- Grid `k` of bucket `b` emitted and handed to the sampler. -/
def emitted (s : State) (b k nem : Nat) : State :=
  { s.modBkt b (ranked k nem) with gfx.stus := s.gfx.stus ++ [{ bucket := b, grid := k }] }

/-- Bucket `b` once a BKDONE has named it. -/
def doneIssued (s : State) (b : Nat) : State := s.modBkt b (fun v => { v with cnt := { v.cnt with done := true } })

/-- BKDONE waits for bucket `b` to close and for the lines of its sample buffer. -/
def doneWaits (s : State) (x : Cx) (b : Nat) (v : Bucket) : Bool :=
  v.st ≠ .closed || (!v.cnt.dead && samplesBusy (doneIssued s b) v x.core x.cur.gang s.work.next)

section Words
variable {s : State} {x : Cx} {c : Bool} {d a m : Fin 64} {l : Fin 16} {b : Nat} {v : Bucket}

section Current
variable (hc : (s.ceng x.crewNo).bkt.cur = some b) (hb : s.bkt b = some v) (he : (s.ceng x.crewNo).bkt.err = none)
include hc hb he

theorem bktWaits_of_bucket (slot : Nat) (gone : Res) (body : Nat → Bucket → Res) : bktWaits s x slot gone body = body b v := by
  have hcur : curBkt s x.crewNo = some (b, v) := by rw [curBkt, hc, Option.bind_some, hb, Option.map_some]
  simp only [bktWaits, bkFirst_of_none _ he, hcur, ite_self]

theorem gridBody_of_live {h : Word} {k : Nat} {g : Grid} (hl : liveGrid v h = some (k, g))
    (body : Nat → Bucket → Nat → Grid → Res) : gridBody s x h body = body b v k g := by
  rw [gridBody, bktBody, bktWaits_of_bucket hc hb he, hl]

theorem namedBody_of_bucket (w : Word) (body : Word → Nat → Bucket → Res) : namedBody s x w body =
    if keptName x w ≠ v.name then .trap s (noBucket x 0) else body (keptName x w) b v := by
  rw [namedBody, bktWaits_of_bucket hc hb he, nw_heldOr]

/-! ### DICE (R422) -/

theorem exec_dice_of_slot {p : PatchSlot} (hi : Issues s x (.dice c a m)) (hr : refBroken v (x.s2 a) = false)
    (hz : (x.s m).toNat % 32 = 0 ↔ (x.s m).toNat / 256 % 32 = 0) (hn : (x.s m).toNat % 32 ≤ 16)
    (hm : (x.s m).toNat / 256 % 32 ≤ 16) (hf : (x.s2 a).toNat / 2 ^ 62 = 1)
    (hp : smFind v.slots ((x.s2 a).toNat % 65536) = some p) : exec (.dice c a m) s = .next (finish x (.done
      (forkDicer (s.modBkt b (fun v => freeSlot v ((x.s2 a).toNat % 65536) p)) x b
        { slot := (x.s2 a).toNat % 65536, patch := some p.patch,
          fn := (x.s m).toNat % 32, fm := (x.s m).toNat / 256 % 32 }))) := by
  have hform : fld (x.s2 a).toNat 62 2 = 1 := fld_of_slotForm hf
  have hfn : fld (x.s m).toNat 0 5 = (x.s m).toNat % 32 := IntegerProofs.fld_zero_five _
  have hfm : fld (x.s m).toNat 8 5 = (x.s m).toNat / 256 % 32 := rfl
  have hsize : ¬ (((x.s m).toNat % 32 = 0) ≠ ((x.s m).toNat / 256 % 32 = 0) ∨ 16 < (x.s m).toNat % 32 ∨
      16 < (x.s m).toNat / 256 % 32) := by
    rw [not_or, not_or, not_not, Nat.not_lt, Nat.not_lt]
    exact ⟨propext hz, hn, hm⟩
  refine exec_of_issues hi (by rfl) ?_
  dsimp only
  rw [bktBody, bktWaits_of_bucket hc hb he, hr, if_neg Bool.false_ne_true, hfn, hfm, if_neg hsize, if_pos hform,
    refSlot_of_slotForm hf, hp]

/-! ### GSH, GWB, GEMIT (R408, R409, R423 to R425) -/

theorem exec_gsh_of_live {k : Nat} {g : Grid} (hi : Issues s x (.gsh c d a l)) (hl : liveGrid v (x.s a) = some (k, g)) :
    exec (.gsh c d a l) s = .next (finish x (.done ((s.modBkt b (batchTaken x k)).modRegs x (gshRegs x g d)))) := by
  have hrow (i : Nat) : (vertexRec g (g.cursor + x.lanes.idxOf i)).zipIdx.map (fun q => (vkey (d.val + q.2) i, q.1)) =
      (List.range 8).map (fun k => (vkey (d + k) i, vertexWord x g i k)) := by
    rw [map_zipIdx_eq_map_range _ (fun k w => (vkey (d.val + k) i, w)), length_vertexRec]
    rfl
  refine exec_of_issues hi (by rfl) ?_
  dsimp only
  rw [gridBody_of_live hc hb he hl, zipIdx_lanes, List.flatMap_map]
  simp only [hrow]
  rfl

theorem exec_gwb_of_live {k : Nat} {g : Grid} (hi : Issues s x (.gwb c a m)) (hl : liveGrid v (x.s m) = some (k, g))
    (hok : ∀ i ∈ shadedLanes x a, vertexIx x a i < g.verts ∧ outBad g.patch (outRec x a i) = false) :
    exec (.gwb c a m) s = .next (finish x (.done { s with gfx.wbs := s.gfx.wbs ++
      [{ bucket := b, grid := k, recs := (shadedLanes x a).map (fun i => (vertexIx x a i, (outRec x a i).take 9)) }] })) := by
  have hix (i : Nat) : fld (x.v (a.val + 9) i).toNat 0 9 = vertexIx x a i := IntegerProofs.fld_zero _ 9
  have hfar : (shadedLanes x a).filter (fun i => decide (g.verts ≤ vertexIx x a i)) = [] :=
    List.filter_eq_nil_iff.2 fun i hm => by simpa using (hok i hm).1
  have hbad : (shadedLanes x a).filter (fun i => outBad g.patch (outRec x a i)) = [] :=
    List.filter_eq_nil_iff.2 fun i hm => by simpa using (hok i hm).2
  refine exec_of_issues hi (by rfl) ?_
  dsimp only
  rw [gridBody_of_live hc hb he hl]
  simp only [hix]
  rw [← shadedLanes, hfar, hbad]
  rfl

theorem exec_gemit_of_live {k : Nat} {g : Grid} (hi : Issues s x (.gemit c a)) (hl : liveGrid v (x.s a) = some (k, g)) :
    exec (.gemit c a) s = .next (finish x (.done (emitted s b k v.cnt.nem))) :=
  exec_of_issues hi (by rfl) (gridBody_of_live hc hb he hl _)

/-! ### BKNEXT (R407, R427) -/

theorem exec_bknext_of_item {w : DWord} {u : Bucket} (hi : Issues s x (.bknext c d l)) (hn : nextItem s b v = some (w, u)) :
    exec (.bknext c d l) s = .next (finish x (.done ((s.modBkt b (fun _ => u)).putS2 x d w))) := by
  refine exec_of_issues hi (by rfl) ((bktWaits_of_bucket hc hb he _ _ _).trans ?_)
  rw [hn]

theorem exec_bknext_of_none (hi : Issues s x (.bknext c d l)) (hn : nextItem s b v = none) :
    exec (.bknext c d l) s = .next (finish x (if l.val = 0 then bkWait s x true 0 else .done (openOut s x
      { kind := .graphics, gang := x.cur.gang, grp := x.cur.grp, pc := x.cur.pc, npc := x.cur.last + 1,
        dstS := [d.val, d.val + 1] } l.val))) := by
  refine exec_of_issues hi (by rfl) ((bktWaits_of_bucket hc hb he _ _ _).trans ?_)
  rw [hn]

/-! ### BKDONE and BKSPL (R428, R429) -/

theorem exec_of_other_name {i : Instr} (hw : i = .bkdone c a ∨ i = .bkspl c a) (hi : Issues s x i)
    (hn : keptName x (x.s a) ≠ v.name) : exec i s = .next (finish x (.trap s (noBucket x 0))) := by
  rcases hw with rfl | rfl <;>
    exact exec_of_issues hi (by rfl) ((namedBody_of_bucket hc hb he _ _).trans (if_pos hn))

section Named
variable (hn : keptName x (x.s a) = v.name)
include hn

theorem exec_bkdone_of_name (hi : Issues s x (.bkdone c a)) : exec (.bkdone c a) s =
    .next (finish x (if v.cnt.split then .done (clearBucket (doneIssued s b) x.crewNo)
      else if doneWaits s x b v then bkWait (doneIssued s b) x true (keptName x (x.s a))
      else .done (clearBucket (finishBucket (doneIssued s b) b v x.core) x.crewNo))) :=
  exec_of_issues hi (by rfl) ((namedBody_of_bucket hc hb he _ _).trans (if_neg (not_not_intro hn)))

theorem exec_bkspl_of_name (hi : Issues s x (.bkspl c a)) : exec (.bkspl c a) s =
    .next (finish x (if v.cnt.split then .done s
      else if v.id.bw = 8 || v.cnt.handedGrid then .trap s { cause := .gxBucketQuota, lanes := x.all }
      else if dicing s b then bkWait s x false (keptName x (x.s a)) else .done (splitBkt s b))) :=
  exec_of_issues hi (by rfl) ((namedBody_of_bucket hc hb he _ _).trans (if_neg (not_not_intro hn)))

end Named
end Current

/-- The gang after GSH. -/
theorem gang_of_gsh (hx : s.cx = some x) (k : Nat) (g : Grid) (d : Nat) : ∃ h,
    (finish x (.done ((s.modBkt b (batchTaken x k)).modRegs x (gshRegs x g d)))).gang x.cur.gang = some h ∧
      h.r = gshRegs x g d x.gang.r := by
  refine finish_gang_regs (g := { x.gang with r := gshRegs x g d x.gang.r }) ?_
  refine (State.gang_modRegs ..).trans ?_
  rw [if_pos rfl, show (s.modBkt b (batchTaken x k)).gang x.cur.gang = some x.gang from cx_gang s x hx, Option.map_some]

end Words

/-- Settles O39: each word from what it finds of its crew's bucket, its grid or the name that it reads. -/
theorem bucketWords : Obligations.BucketWords := by
  unfold Obligations.BucketWords
  intro s x c d a m l b v hc hb he
  dsimp only
  refine ⟨fun p hi hr hz hn hm hf hp => exec_dice_of_slot hc hb he hi hr hz hn hm hf hp, fun g hi hl => ?_,
    fun g hi hl hok => exec_gwb_of_live hc hb he hi hl hok, fun g hi hl => ?_,
    fun hi => ⟨fun w u hn => exec_bknext_of_item hc hb he hi hn, fun hn h0 => ?_, fun hn h0 => ?_⟩,
    fun i hw hi hn => exec_of_other_name hc hb he hw hi hn,
    fun hi hn => ⟨fun hs => ?_, fun hs hst hq => ?_, fun hs hq => ?_⟩,
    fun hi hn => ⟨fun hs => ?_, fun hs hw hg => ?_, fun hs hq => ?_⟩⟩
  · obtain ⟨h, hg, hr⟩ := gang_of_gsh (b := b) hi.ctx ((x.s a).toNat % 65536) g d
    refine ⟨_, h, _, _, exec_gsh_of_live hc hb he hi hl, hg, fun p hp j hj => ?_, fun r i hi32 hout => ?_,
      (finish_bkt ..).trans (bkt_modBkt hb (batchTaken x _)), grid_batchTaken (smFind_of_liveGrid hl) x, rfl, rfl, finish_mem ..⟩
    · rw [zipIdx_lanes] at hp
      obtain ⟨i, him, rfl⟩ := List.mem_map.1 hp
      rw [hr, rdV_gshRegs _ _ _ _ _ (x.lanes_lt i him), if_pos ⟨him, by omega, by omega⟩, Nat.add_sub_cancel_left]
      rfl
    · rw [hr, rdV_gshRegs _ _ _ _ _ hi32, if_neg]
      rintro ⟨him, hlo, hhi⟩
      rcases hout with hne | hlt | hge
      · exact hne him
      · omega
      · omega
  · exact ⟨_, _, _, exec_gemit_of_live hc hb he hi hl, (finish_bkt ..).trans (bkt_modBkt hb (ranked _ _)), rfl,
      grid_ranked (smFind_of_liveGrid hl) _, rfl, congrArg Gfx.stus (finish_gfx ..), finish_mem ..⟩
  · exact exec_trans (exec_bknext_of_none hc hb he hi hn) (if_pos h0)
  · exact exec_trans (exec_bknext_of_none hc hb he hi hn) (if_neg h0)
  · exact exec_trans (exec_bkdone_of_name hc hb he hn hi) (if_pos hs)
  · have hwait : doneWaits s x b v = false := by
      rcases hq with hq | hq <;> simp [doneWaits, doneIssued, hst, hq]
    exact exec_trans (exec_bkdone_of_name hc hb he hn hi)
      ((if_neg (Bool.eq_false_iff.1 hs)).trans (if_neg (Bool.eq_false_iff.1 hwait)))
  · have hwait : doneWaits s x b v = true := by
      rcases hq with hq | ⟨hq, hbusy⟩
      · simp [doneWaits, hq]
      · simp [doneWaits, doneIssued, hq, hbusy]
    exact exec_trans (exec_bkdone_of_name hc hb he hn hi) ((if_neg (Bool.eq_false_iff.1 hs)).trans (if_pos hwait))
  · exact exec_trans (exec_bkspl_of_name hc hb he hn hi) (if_pos hs)
  · have hfits : ¬ (decide (v.id.bw = 8) || v.cnt.handedGrid) = true := by simp [hw, hg]
    have hx := exec_trans (exec_bkspl_of_name hc hb he hn hi) ((if_neg (Bool.eq_false_iff.1 hs)).trans (if_neg hfits))
    exact ⟨fun hd => exec_trans hx (if_neg (Bool.eq_false_iff.1 hd)), fun hd => exec_trans hx (if_pos hd)⟩
  · have hbad : (decide (v.id.bw = 8) || v.cnt.handedGrid) = true := by simpa using hq
    exact exec_trans (exec_bkspl_of_name hc hb he hn hi) ((if_neg (Bool.eq_false_iff.1 hs)).trans (if_pos hbad))

end Sys2Proof.GraphicsProofs
end

section
/-! PROOFS. The steps of the micropolygon path (O40): a frame at the binner and the distributor, the jobs of a bucket, and a bucket's
way through its die's store. -/

namespace Sys2Proof.GraphicsProofs
open Sys2Proof Sys2Proof.Machine Sys2Proof.SluiceProofs

/-! ### A frame binned and distributed (R393 to R395, R403) -/

section Frames
variable {s : State} {f : Frame} (hf : s.gfx.frames[s.op 0]? = some f)
include hf

theorem exec_binner_of_descriptor {ws : List Word} (hd : f.desc = none) (hr : readDesc s f.dom f.fdAddr = .ok ws) :
    exec .binner s = .next (putFrame s (s.op 0) { f with desc := some (descOf ws) }) := by
  change event (binStep s (s.op 0)) = _
  simp only [binStep, hf, hd, hr]
  rfl

/-- The address of the next patch, from its two words in the frame's array. -/
def patchAddr (aw : List Word) : DWord := aw.getD 1 0 ++ aw.getD 0 0

theorem exec_binner_of_patch {d : FrameDesc} {aw w0 ws : List Word} (hd : f.desc = some d) (hm : f.made = none)
    (hn : f.next < (f.record.inl.getD 2 0).toNat) (ha : (f.record.arg + BitVec.ofNat 64 (8 * f.next)).toNat % 8 = 0)
    (haw : engWords s f.dom (f.record.arg + BitVec.ofNat 64 (8 * f.next)) 2 = .ok aw) (hp : (patchAddr aw).toNat % 32 = 0)
    (hw : engWords s f.dom (patchAddr aw) 1 = .ok w0) (hws : engWords s f.dom (patchAddr aw) (patchLen (w0.headD 0)) = .ok ws)
    (hok : (Patch.mk ws 0).ok = true) : exec .binner s = .next (binPatch s (s.op 0) f d { w := ws }) := by
  have hopen : ¬ (f.made.isSome || decide ((f.record.inl.getD 2 0).toNat ≤ f.next)) = true := by
    simpa [hm] using hn
  unfold patchAddr at hp hw hws
  change event (binStep s (s.op 0)) = _
  simp only [binStep, hf, hd, if_neg hopen, ha, haw, hp, hw, hws, hok, ne_eq, not_true_eq_false, if_false, if_true]
  rfl

/-- The record of bucket `b` placed in its deque, as the frame's next. -/
def recordPlaced (s : State) (k : Nat) (f : Frame) (b : Nat) (v : Bucket) : State :=
  let u := newTask s f.dom f.que 1 v.id.record (some f.task)
  let p := dqPush u (dqKey (f.placed % 4) f.dom f.que) (bucketEnt u b v s.work.next)
  putFrame { p with frees := p.frees + 2 } k { f with placed := f.placed + 1 }

theorem exec_bucketDistributor_of_made {d : FrameDesc} {first : Nat} {v : Bucket} (hd : f.desc = some d) (hm : f.made = some first)
    (hv : s.bkt (first + f.placed) = some v) (hn : f.placed < bktCount d.fw * bktCount d.fh)
    (hq : dqFull s 1 (dqKey (f.placed % 4) f.dom f.que) = false) :
    exec .bucketDistributor s = .next (recordPlaced s (s.op 0) f (first + f.placed) v) := by
  have hlen : ¬ s.gfx.frames.length ≤ s.op 0 := Nat.not_le.2 (List.getElem?_eq_some_iff.1 hf).1
  have hroom : ¬ (decide (bktCount d.fw * bktCount d.fh ≤ f.placed) || dqFull s 1 (dqKey (f.placed % 4) f.dom f.que)) = true := by
    simp [hn, hq]
  change event (if s.gfx.frames.length ≤ s.op 0 then kidStep s else distribute s (s.op 0)) = _
  rw [if_neg hlen]
  simp only [distribute, recordPlaced, hf, hd, hm, hv, if_neg hroom]
  rfl

theorem frame_recordPlaced (b : Nat) (v : Bucket) :
    (recordPlaced s (s.op 0) f b v).gfx.frames[s.op 0]? = some { f with placed := f.placed + 1 } := getElem?_putAt _ hf

end Frames

theorem deque_recordPlaced (s : State) (k : Nat) (f : Frame) (b : Nat) (v : Bucket) :
    ((recordPlaced s k f b v).deque (dqKey (f.placed % 4) f.dom f.que)).length =
      (s.deque (dqKey (f.placed % 4) f.dom f.que)).length + 1 := by
  have hput : (recordPlaced s k f b v).deque (dqKey (f.placed % 4) f.dom f.que) = s.deque (dqKey (f.placed % 4) f.dom f.que) ++
      [bucketEnt (newTask s f.dom f.que 1 v.id.record (some f.task)) b v s.work.next] :=
    (smGet_smPut ..).trans (if_pos rfl)
  rw [hput, List.length_append, List.length_singleton]

/-! ### The keys' entries lie beside the micropolygon path (R313) -/

@[simp] theorem putOvf_gfx (s : State) (dom ix : Nat) (ws : List Word) : (putOvf s dom ix ws).gfx = s.gfx := by
  unfold putOvf
  split
  · rfl
  · exact foldl_keeps _ State.gfx (fun _ _ => State.putWord_gfx ..) _ _

@[simp] theorem dropKey_gfx (s : State) (k : Nat) : (s.dropKey k).gfx = s.gfx := by
  unfold State.dropKey
  split
  · exact putOvf_gfx ..
  · rfl

@[simp] theorem putKey_gfx (s : State) (k : Nat) (e : SlKey) : (s.putKey k e).gfx = s.gfx := by
  have hleft (b : Bool) : (if b then s.dropKey k else s).gfx = s.gfx := by
    cases b
    · rfl
    · exact dropKey_gfx s k
  unfold State.putKey
  dsimp only
  split
  · exact (putOvf_gfx ..).trans (hleft _)
  · exact hleft _

/-! ### Setup, and the jobs of a bucket (R396, R397, R405, R406, R409) -/

section Jobs
variable {s : State} {v : Bucket}

theorem exec_bucketSetup_of_room {e : DqEnt} {b : Nat} {r : Except Cause (FrameDesc × List DWord)}
    (he : (looseEnts s (s.op 0) (s.op 1) (s.op 2)).head? = some e) (hb : e.bucket = some b) (hv : s.bkt b = some v)
    (hst : v.st = .waiting) (hw : dieWorks s (s.op 0) = true) (hfit : dieFits s (s.op 0) e = true)
    (hroom : storeRoom s (s.op 0) v.quota = true) (hr : setupCheck s v = some r) :
    exec .bucketSetup s = .next (setup s b (s.op 0) v r) := by
  have hfound : e.bucket.bind (fun b => (s.bkt b).map (fun v => (b, v))) = some (b, v) := by
    rw [hb, Option.bind_some, hv, Option.map_some]
  change event (setupStep s (s.op 0) (s.op 1) (s.op 2)) = _
  simp only [setupStep, he, hfound, hst, hw, hfit, hroom, hr]
  rfl

theorem exec_dicerJob_of_patch {j : DicerJob} {p : Patch} (hj : s.gfx.dicers[s.op 0]? = some j) (hv : s.bkt j.bucket = some v)
    (hp : j.patch = some p) (hok : p.ok = true) :
    exec .dicerJob s = .next (dicePatch { s with gfx.dicers := dropAt s.gfx.dicers (s.op 0) } j p) := by
  have hread : jobPatch s j v.id.dom = .ok s p.w := by rw [jobPatch, hp]
  change event (dicerStep s (s.op 0)) = _
  simp only [dicerStep, hj, hv, hread, hp, Option.map_some, Option.getD_some, hok, Option.isSome_some, Bool.not_true,
    Bool.false_eq_true, if_false, if_true]
  rfl

/-- A bucket whose grid takes the output records of a write-back job. -/
def written (j : WbJob) (v : Bucket) : Bucket :=
  { v with grids := smModify v.grids j.grid (fun g => { g with vout := j.recs.foldl (fun m p => smSet m p.1 p.2) g.vout }) }

theorem grid_written {j : WbJob} {g : Grid} (hg : smFind v.grids j.grid = some g) : smFind (written j v).grids j.grid =
    some { g with vout := j.recs.foldl (fun m p => smSet m p.1 p.2) g.vout } := by
  rw [written, smFind_smModify_same hg]

theorem exec_writeBackJob {j : WbJob} (hj : s.gfx.wbs[s.op 0]? = some j) : exec .writeBackJob s =
    .next { s.modBkt j.bucket (written j) with gfx.wbs := dropAt s.gfx.wbs (s.op 0) } := by
  change execWriteBackJob s = _
  rw [execWriteBackJob, hj]
  rfl

/-! ### A sampling job passes a tile (R410, R418) -/

/-- A job's tile passed: the key goes on to the next rank, and the bucket takes the tile's samples. -/
def tilePassed (s : State) (k n : Nat) (e : SlKey) (j : StuJob) (v : Bucket) (g : Grid) (key : Word) : State :=
  let t := s.putKey n { e with ne := e.ne + 1, used := s.ticks }
  let u := if j.failed || v.cnt.dead then t else t.modBkt j.bucket (fun v => sampleTile v g key)
  { u with gfx.stus := putAt u.gfx.stus k { j with tiles := j.tiles + 1 } }

section Tile
variable {j : StuJob} {g : Grid} {key : Word} {e : SlKey}

theorem passTile_of_turn {r : Nat} (hf : keyFenced s v.id.dom 1 key = false)
    (he : smFind s.eng.keys (slNum v.id.dom 1 key) = some e) (hb : e.brk = false) (hh : e.hld = false)
    (hne : e.ne = BitVec.ofNat 32 r) (k : Nat) :
    passTile s k j v g r key = tilePassed s k (slNum v.id.dom 1 key) e j v g key := by
  have hkey : s.slKey (slNum v.id.dom 1 key) = e := by rw [State.slKey, he, Option.getD_some]
  have hturn : ¬ (e.hld || decide (e.ne ≠ BitVec.ofNat 32 r)) = true := by simp [hh, hne]
  unfold passTile
  dsimp only
  rw [if_neg (Bool.eq_false_iff.1 hf), ensureKey_of_entry he]
  dsimp only
  rw [hkey, if_neg (Bool.eq_false_iff.1 hb), if_neg hturn]
  rfl

theorem exec_stuJob_of_tile {r : Nat} (hj : s.gfx.stus[s.op 0]? = some j) (hv : s.bkt j.bucket = some v)
    (hg : smFind v.grids j.grid = some g) (hn : g.verts ≤ g.vout.length)
    (hw : ∀ w ∈ s.gfx.wbs, w.bucket = j.bucket → w.grid ≠ j.grid) (hk : v.keys[j.tiles]? = some key) (hr : g.rank = some r) :
    exec .stuJob s = .next (passTile s (s.op 0) j v g r key) := by
  have hready : ¬ (decide (g.vout.length < g.verts) ||
      s.gfx.wbs.any (fun w => decide (w.bucket = j.bucket) && decide (w.grid = j.grid))) = true := by
    simpa [Nat.not_lt.2 hn] using hw
  change event (stuStep s (s.op 0)) = _
  simp only [stuStep, hj, hv, hg, if_neg hready, hk, hr]
  rfl

theorem ne_tilePassed (k n : Nat) : ((tilePassed s k n e j v g key).slKey n).ne = e.ne + 1 := by
  have heng : (tilePassed s k n e j v g key).eng = (s.putKey n { e with ne := e.ne + 1, used := s.ticks }).eng := by
    unfold tilePassed
    dsimp only
    split <;> rfl
  rw [State.slKey, heng, putKey_eng, smFind_smSet, if_pos rfl]
  rfl

theorem stus_tilePassed {k : Nat} (hj : s.gfx.stus[k]? = some j) (n : Nat) :
    (tilePassed s k n e j v g key).gfx.stus[k]? = some { j with tiles := j.tiles + 1 } := by
  have hput : (s.putKey n { e with ne := e.ne + 1, used := s.ticks }).gfx.stus[k]? = some j := by rwa [putKey_gfx]
  unfold tilePassed
  dsimp only
  split <;> exact getElem?_putAt _ hput

theorem bkt_tilePassed (hv : s.bkt j.bucket = some v) (k n : Nat) : (tilePassed s k n e j v g key).bkt j.bucket =
    some (if j.failed || v.cnt.dead then v else sampleTile v g key) := by
  have hput : (s.putKey n { e with ne := e.ne + 1, used := s.ticks }).bkt j.bucket = some v := by rwa [State.bkt, putKey_gfx]
  unfold tilePassed
  dsimp only
  split
  · exact hput
  · exact bkt_modBkt hput (fun v => sampleTile v g key)

end Tile
end Jobs

/-! ### A bucket's way through the store (R400, R401, R405, R410) -/

section Store
variable {s : State} {v : Bucket} (hv : s.bkt (s.op 0) = some v)
include hv

theorem exec_gridForward_of_patch {p : Patch} {ps : List Patch} (hst : v.st = .resident) (hp : v.inP = p :: ps) :
    exec .gridForward s = .next (placePatch (s.modBkt (s.op 0) (fun v => { v with inP := ps })) (s.op 0) p) := by
  change event (forwardOne s (s.op 0)) = _
  simp only [forwardOne, hv, hst, hp]
  rfl

theorem exec_bucketClose_of_forwarded (hst : v.st = .resident) (hf : forwarded s (s.op 0) v = true) (he : earlierDone s v = true) :
    exec .bucketClose s = .next (s.modBkt (s.op 0) (fun v => { v with st := .closed })) := by
  change execBucketClose s = _
  simp only [execBucketClose, hv, hst, hf, he]
  rfl

theorem exec_park_of_wanted (hst : v.st = .resident) (hs : v.cnt.split = false) (ho : ownDone s (s.op 0) v = true)
    (he : earlierDone s v = false) (hr : fenRoom s v.id.dom v.baseBytes = true)
    (hw : earlierReady s v.die v (fun _ u => decide (u.st = .waiting) && !storeRoom s v.die u.quota) = true) :
    exec .park s = .next (s.modBkt (s.op 0) (fun v => { v with st := .parked })) := by
  change execPark s = _
  simp only [execPark, hv, hst, hs, ho, he, hr, hw]
  rfl

theorem exec_bucketReload_of_room (hst : v.st = .parked) (he : earlierDone s v = true) (hr : storeRoom s v.die v.quota = true)
    (hw : dieWorks s v.die = true) :
    exec .bucketReload s = .next (s.modBkt (s.op 0) (fun v => { v with st := .resident })) := by
  change execBucketReload s = _
  simp only [execBucketReload, hv, hst, he, hr, hw]
  rfl

end Store

/-- Settles O40: each step where its conditions hold, and what it makes of its frame, its job or its bucket. -/
theorem graphicsSteps : Obligations.GraphicsSteps := by
  unfold Obligations.GraphicsSteps
  refine ⟨fun s f hf => ⟨fun ws hd hr => exec_binner_of_descriptor hf hd hr,
      fun d aw w0 ws hd hm hn ha haw hp hw hws hok => exec_binner_of_patch hf hd hm hn ha haw hp hw hws hok,
      fun d first v hd hm hv hn hq => ?_⟩,
    fun s e b v r he hb hv hst hw hfit hroom hr => exec_bucketSetup_of_room he hb hv hst hw hfit hroom hr,
    fun s j p v hj hv hp hok => exec_dicerJob_of_patch hj hv hp hok, fun s j v g hj hv hg => ?_,
    fun s j v g key r e hj hv hg hn hw hk hr hf he hb hh hne => ?_,
    fun s v hv => ⟨fun p ps hst hp => exec_gridForward_of_patch hv hst hp,
      fun hst hf he => exec_bucketClose_of_forwarded hv hst hf he,
      fun hst hs ho he hr hw => exec_park_of_wanted hv hst hs ho he hr hw,
      fun hst he hr hw => exec_bucketReload_of_room hv hst he hr hw⟩⟩
  · exact ⟨_, _, exec_bucketDistributor_of_made hf hd hm hv hn hq, frame_recordPlaced hf .., rfl, deque_recordPlaced ..⟩
  · exact ⟨_, _, _, exec_writeBackJob hj, bkt_modBkt hv (written j), grid_written hg, rfl, rfl⟩
  · have hx := exec_stuJob_of_tile hj hv hg hn hw hk hr
    rw [passTile_of_turn hf he hb hh hne] at hx
    exact ⟨_, hx, ne_tilePassed .., stus_tilePassed hj _, bkt_tilePassed hv ..⟩

end Sys2Proof.GraphicsProofs
end
